-- ==== Sys2Proof/Word.lean ====
section
/-! DEFINITION. The word types of the block and the sparse table type.

Bytes, 32-bit and 64-bit words are what the manual's registers, messages and packets are made of;
a match key is 160 bits (06, R170). -/
namespace Sys2Proof

/-- One byte of a register area, a message, a packet or a memory. -/
abbrev Byte := BitVec 8
/-- A run of bytes, first byte at the lowest address; multi-byte values in it are little-endian (00). -/
abbrev Bytes := List Byte
/-- A 32-bit word. -/
abbrev W32 := BitVec 32
/-- A 64-bit word. -/
abbrev W64 := BitVec 64
/-- A match key or mask (R170). -/
abbrev Key := BitVec 160
/-- A sparse table: pairs of an index and its entry, indices strictly rising. -/
abbrev Tbl (α : Type) := List (Nat × α)

end Sys2Proof
end

