-- ==== Sys2Proof/Syntax.lean ====
section
/-! DEFINITION. The commands of the block: one constructor of Instr for each row of spec/opcode_table.json.

Operands name what the row acts on (a mailbox, a core, a stream slot), what a bus or a pin delivers with it (a value,
a packet, the bytes a DMA returned) and, for events of physical parts, what the part reported. -/
namespace Sys2Proof

/-- An active core, named by its logical position (R101). -/
structure CoreId where
  die : Fin 26
  core : Fin 16
deriving DecidableEq, Repr

/-- What a read of memory outside the block delivered: bytes, or a fault (R457). -/
inductive Dma where
  | data (b : Bytes)
  | fault
deriving DecidableEq, Repr

/-- Units that hold launch tables (02, Launch tables). -/
inductive UnitId where
  | core (c : CoreId)
  | matchSeq (g : Fin 2)
  | sampling (g : Fin 2)
  | ingress (x : Fin 6)
  | egress (x : Fin 6)
  | stack (n : Fin 12)
deriving DecidableEq, Repr

/-- Actions of a launch-table entry (R48, R152, R153). -/
inductive LaunchAct where
  /-- a step program of a slot's entry, with the parameter block words s0 to s7 -/
  | program (slot : Fin 32) (entry : Nat) (params : List W64) (streams : List Nat)
  /-- a descriptor list in the core's SRAM: its address and how many descriptors it holds -/
  | dma (list count : Nat)
  | sweep (profile : Fin 256)
  /-- a sampling and release pass over a list of stream slots -/
  | samplePass (slots : List Nat)
  /-- an ingress pass (on an ingress engine) or an egress pass (on an egress engine) over a list of contexts -/
  | ioPass (ctxs : List Nat)
deriving DecidableEq, Repr

/-- A launch-table entry (R48): its mark M0 to M5, its action, its repeat class. -/
structure LaunchEntry where
  mark : Fin 6
  act : LaunchAct
  once : Bool
deriving DecidableEq, Repr

/-- Activation formats (R69). -/
inductive AFmt where
  | int8 | uint4 | int4 | uint2
deriving DecidableEq, Repr

/-- Lane formats a vector instruction names (R136); codes: packed narrow codes in the layout of R70. -/
inductive VFmt where
  | fp32 | bf16 | int32 | int8
  | codes (f : AFmt)
deriving DecidableEq, Repr

/-- Row distribution of QZ and CF (R132). -/
inductive Distr where
  | bcast | split
deriving DecidableEq, Repr

/-- Fields of a QZ (R132). -/
structure QzOp where
  src : Nat
  n : Nat
  fmt : AFmt
  outMax : Nat
  outTau : BitVec 16
  mask : BitVec 16
  distr : Distr
  recTo : Option Nat
  flag : Option (Fin 32)
deriving DecidableEq, Repr

/-- Fields of a CF (R133). The row is a transport record in ring form or a record written by a QZ. -/
structure CfOp where
  src : Nat
  n : Nat
  fmt : AFmt
  mask : BitVec 16
  distr : Distr
  flag : Option (Fin 32)
deriving DecidableEq, Repr

/-- Fields of an MX (R134). chain: the head engine in CHAIN mode, none in PARALLEL mode. -/
structure MxOp where
  mask : BitVec 16
  chain : Option (Fin 16)
  group : Nat
  fmt : AFmt
  outFp32 : Bool
  outAddr : Nat
  stride : Nat
  flag : Option (Fin 32)
deriving DecidableEq, Repr

/-- Elementwise vector operations (R137, R142). -/
inductive VOp where
  | add | sub | mul | fma | max | min | iadd | isub | imul
deriving DecidableEq, Repr

/-- Transcendental instructions (R138). -/
inductive VFun where
  | exp | exp2 | log | recip | rsqrt | tanh | sigmoid | erf
deriving DecidableEq, Repr

/-- Scalar arithmetic (R129). -/
inductive SOp where
  | add | sub | shl | shr | and | or | mul | cmpEq | cmpLt
deriving DecidableEq, Repr

/-- Condition of a BR on a scalar register (R130). -/
inductive SCond where
  | zero | nonzero
deriving DecidableEq, Repr

/-- Fields of an MQ (R147). -/
structure MqOp where
  profile : Fin 256
  byteForm : Bool
  count : Nat
  src : Nat
  dst : Nat
  flag : Option (Fin 32)
deriving DecidableEq, Repr

/-- The destination of a vector instruction, with the completion flag it may name (R128). -/
structure VDst where
  reg : Fin 64
  flag : Option (Fin 32)
deriving DecidableEq, Repr

/-- A DM.FENCE: its core, and the completion flag it may name (R128, R145). -/
structure FenceOp where
  core : CoreId
  flag : Option (Fin 32)
deriving DecidableEq, Repr

/-- What a read of a checked word reported: clean, a corrected single-bit error, or uncorrectable. -/
inductive Ecc where
  | clean | corrected | uncorrectable
deriving DecidableEq, Repr

/-- One word of a ring's control line as the block read it; none where the read faulted. ring: 0 submission PROD,
1 completion CONS, 2 step-batch CONS. -/
structure RingRead where
  ctx : Fin 64
  ring : Fin 3
  val : Option W32
deriving DecidableEq, Repr

/-- What the outside and the physical parts contribute to a phase mark. -/
structure MarkIo where
  /-- ring control words read at this mark (R364, R371) -/
  reads : List RingRead := []
  /-- rings whose writes fail at this mark, or at the end of the fetch it starts (R457): context, and 0 submission,
  1 completion, 2 step batch -/
  badWrites : List (Fin 64 × Fin 3) := []
  /-- jobs, by context and tag, whose detail writes fail at this mark (R253, R457) -/
  badDetails : List (Fin 64 × BitVec 16) := []
  /-- a gate die whose two release copies disagree (R424) -/
  relFault : Option (Fin 2) := none
  /-- roles whose checkpoint CRC fails when read back (R312) -/
  ckptBad : List (Fin 10) := []
  /-- roles that hang: no commit and no kick of their watchdogs (R315) -/
  hung : List (Fin 10) := []
  /-- credits returned on a fabric port since the mark before: port, VC, credits (R375) -/
  credits : List (Fin 12 × Fin 4 × Nat) := []
  /-- the guard phase's spill scrub (R297): instance, words of its 4 found with a single and with a double error -/
  spill : List (Fin 3 × Fin 5 × Fin 5) := []
deriving DecidableEq, Repr

/-- A stored bit of a match entry that has flipped: entry address, bit (R170, R174). -/
abbrev Upset := BitVec 20 × Fin 360

/-- A unit of the service-life chapter (R429, R440). -/
inductive RUnit where
  | array (c : CoreId) (engine : Fin 16) (array : Fin 16)
  | core (c : CoreId)
  | bank (b : Fin 64)
  | channel (stack : Fin 12) (ch : Fin 16)
  | row (stack : Fin 12) (ch : Fin 16) (dramBank : Nat) (row : Nat)
  | lane (io : Fin 6) (groupC : Bool) (lane : Fin 32)
  | control (c : Fin 12)
  | store (die : Fin 2) (block : Fin 256)
deriving DecidableEq, Repr

/-- The score vectors a job's classifier slots produced: segment, request slot 0 or 1, scores, poison. -/
structure ScoreVec where
  seg : Nat
  which : Fin 2
  scores : List W32
  poison : Bool
deriving DecidableEq, Repr

/-- What a management port meets in a network boot (R327): DHCP attempts that stay unanswered, options 66 and 67 of the answer,
and the blocks of the file, each with the retries it took; ended: the last block came. -/
structure NetIn where
  silent : Nat := 4
  server : List (BitVec 8) := []
  file : List (BitVec 8) := []
  blocks : List (List (BitVec 8) × Nat) := []
  ended : Bool := true
deriving DecidableEq, Repr

/-- A watchdog expiry beyond the role's own: whether its core passes its self-test, and the other roles whose cores expire in
the same cycle, each with its self-test's outcome (R337). -/
structure Expiry where
  selfTestOk : Bool := true
  also : List (Fin 10 × Bool) := []
deriving DecidableEq, Repr

/-- What the boot ROM finds on power-on or on the release of RESET_N (R325). -/
structure BootIn where
  /-- control cores that fail self-test -/
  badCores : List (Fin 12) := []
  /-- GPIO0 and GPIO1 as sampled (R469) -/
  strap : Fin 4 := 0
  /-- what a network boot meets on each port in order, if it is tried (R327) -/
  net : List NetIn := []
  /-- bytes of the banks that read back other than written: bank, offset, byte -/
  bankRead : List (Fin 2 × Nat × BitVec 8) := []
  /-- journal records whose CRC fails: copy, SEQ (R448) -/
  journalBad : List (Fin 2 × Nat) := []
  /-- factory calibration CRC of C0's and C1's copy passes (R444) -/
  cal0 : Bool := true
  cal1 : Bool := true
  /-- this is a power-on, not a release of RESET_N alone -/
  powerOn : Bool := true
deriving DecidableEq, Repr

/-- How a program, erase or verify of the store ended, and the block that failed (R446). -/
inductive StoreOut where
  | ok
  | fail (block : Fin 256)
deriving DecidableEq, Repr

/-- Host configuration writes the block reacts to (R455 to R459). -/
inductive CfgReq where
  | busMaster (on : Bool)
  | msixEnable (on : Bool)
  | msixMask (vector : Fin 2048) (masked : Bool)
  /-- reads: device ID, class code (R454), 64 bits of the pending-bit array (R454, R455) -/
  | deviceId
  | classCode
  | pending (word : Fin 32)
  | d3hot (on : Bool)
  | other
deriving DecidableEq, Repr

/-- Why an open packet is rewound (R294). -/
inductive RewindCause where
  | abort | ninthWord | gap | tagParity
deriving DecidableEq, Repr

/-- What of a chain's front packet leaves stage 0 (R296, R298): how many of its words at most, those whose data parity fails
(bit k word k), and whether a pop takes, in the cycle of the room check, the packet that check has chosen (R303). -/
structure SpillIn where
  words : Nat := 8
  bad : BitVec 8 := 0
  meet : Bool := false
deriving DecidableEq, Repr

/-- A read of a queue's packets into a buffer: whether the buffer's write faults, and by packet popped the words found with a
single and with a double error (R297). -/
structure PopIn where
  flt : Bool := false
  ecc : List (BitVec 8 × BitVec 8) := []
deriving DecidableEq, Repr

/-- The arrival of a packet on a fabric port (R375): the port, units of 64 bytes of its buffers freed since the packet before, by
VC, and the credits returned in the flits that brought it, by VC. -/
structure Rx where
  port : Fin 12
  freed : List (Fin 4 × Nat) := []
  back : List (Fin 4 × Nat) := []
deriving DecidableEq, Repr

/-- One die's sensor as it reads: die kind (0 engine, 1 gate, 2 I/O, 3 control, 4 a stack), die, factory-trimmed reading, signed
1/16 C, and the sensor's calibration scope (R443). -/
structure SensorIn where
  kind : Fin 5
  die : Fin 32
  reading : BitVec 16
  scope : BitVec 16
deriving DecidableEq, Repr

/-- What the block's sensors read and its rails carry (R474): rails VS0 to VS5 in microvolts at the die sites. -/
structure Sensed where
  sensors : List SensorIn := []
  rails : List (BitVec 32) := []
deriving DecidableEq, Repr

/-- What asks for throttling (R476): a pin, or a sensor's reading. -/
inductive ThrotIn where
  | pin
  | sensor (x : SensorIn)
deriving DecidableEq, Repr

/-- What HEALTH reads of a unit's wear signals since its last reading (R431): critical-path monitor slack with its factory value,
errors corrected, rows (or addresses) uncorrectable, eye margin with its factory floor, FEC symbols corrected and carried in 1 s,
spare rows left in its barest DRAM bank, program and erase cycles. -/
structure WearIn where
  slack : Option (Int × Int) := none
  corrected : Nat := 0
  uncorr : List Nat := []
  margin : Option (Int × Int) := none
  symbols : Nat × Nat := (0, 1)
  rowsLeft : Option Nat := none
  cycles : Nat := 0
deriving DecidableEq, Repr

/-- Why an update rolls back (R332). -/
inductive RollCause where
  | refused | notArmed | expiry
deriving DecidableEq, Repr

/-- A step of a tempering run: the run, and whether one of its launches was aborted at a mark (R494). -/
structure StepRun where
  run : Fin 4
  cut : Bool := false
deriving DecidableEq, Repr

/-- One constructor for each row of spec/opcode_table.json. -/
inductive Instr where
  /-- REG_WRITE (R10): port, BAR offset, width in bytes, value, data poisoned on the link -/
  | regWrite (port : Fin 2) (off width : Nat) (val : W64) (bad : Bool)
  /-- REG_ACCESS (R12): port, offset, width in bytes, the value of a write or none for a read -/
  | regAccess (port : Fin 2) (off width : Nat) (val : Option W64)
  /-- RC_READ (R11): port, offset, events of the same cycle -/
  | rcRead (port : Fin 2) (off events : Nat)
  | mbxDoorbell (mb : Fin 64)
  | mbxCommandBegin
  | mbxResponse (mb : Fin 64)
  | blkInfo (mb : Fin 64)
  | blkTopology (mb : Fin 64)
  | blkConfig (mb : Fin 64)
  | blkVocab (mb : Fin 64) (idx pool : Dma)
  | blkCheck (mb : Fin 64)
  | blkStatus (mb : Fin 64)
  | ctxConfig (mb : Fin 64)
  | ctxRings (mb : Fin 64)
  | ctxShares (mb : Fin 64)
  /-- CTX_ENABLE (R414), with the control lines of the three rings as read -/
  | ctxEnable (mb : Fin 64) (lines : List Dma)
  | ctxDisable (mb : Fin 64)
  | ctxStatus (mb : Fin 64)
  | policyWrite (mb : Fin 64)
  | policyRead (mb : Fin 64)
  | profileWrite (mb : Fin 64)
  | descWrite (mb : Fin 64)
  | actionWrite (mb : Fin 64)
  | banlistWrite (mb : Fin 64) (d : Dma)
  | replseqWrite (mb : Fin 64)
  | bankConfig (mb : Fin 64)
  | matchUpdate (mb : Fin 64) (d : Dma)
  /-- the last operand of a message that writes a buffer: the write faults -/
  | matchRead (mb : Fin 64) (flt : Bool)
  | slotLoad (mb : Fin 64) (d : Dma)
  | slotPlace (mb : Fin 64)
  | slotService (mb : Fin 64)
  | slotUnload (mb : Fin 64)
  | slotStatus (mb : Fin 64) (flt : Bool)
  | streamOpen (mb : Fin 64)
  | streamSampling (mb : Fin 64)
  | streamCancel (mb : Fin 64)
  | streamPause (mb : Fin 64)
  | streamResume (mb : Fin 64)
  | streamStatus (mb : Fin 64)
  | pauseStatus (mb : Fin 64)
  | jobCancel (mb : Fin 64)
  | jobStatus (mb : Fin 64)
  | windowImport (mb : Fin 64)
  | windowExport (mb : Fin 64)
  | windowDepart (mb : Fin 64)
  | tier2Config (mb : Fin 64)
  | tier1Area (mb : Fin 64)
  | tierCopy (mb : Fin 64) (d : Dma)
  | tierStatus (mb : Fin 64)
  | fwLoad (mb : Fin 64) (d : Dma)
  | fwActivate (mb : Fin 64)
  | fwBootCfg (mb : Fin 64)
  | fwWatchdog (mb : Fin 64)
  | fwLogRead (mb : Fin 64) (pops : PopIn)
  | fwTrace (mb : Fin 64)
  | fwFuse (mb : Fin 64)
  | cntSelect (mb : Fin 64)
  | cntRead (mb : Fin 64) (flt : Bool)
  | clipRead (mb : Fin 64) (flt : Bool)
  | refStart (mb : Fin 64)
  | refReport (mb : Fin 64) (flt : Bool)
  | queueRead (mb : Fin 64) (pops : PopIn)
  | pagemapRead (mb : Fin 64) (flt : Bool)
  | repairRead (mb : Fin 64) (flt : Bool)
  | temperStart (mb : Fin 64)
  | temperStatus (mb : Fin 64)
  | temperCommit (mb : Fin 64)
  | temperAbort (mb : Fin 64)
  | blkEnableRequest
  | blockCheckDone
  | blkDisable
  | blkStop
  | arbPlainWrite (v : Bool)
  | tickStart (val : W32)
  | tickStopRequest (val : W32)
  | tickPeriodWrite (val : W32)
  | tickTimeWrite (val : W64)
  | tickSlewWrite (val : W32)
  | tickOffsetWrite (val : W32)
  /-- NQ_POP (R300): port, and the packet's words that the SECDED check finds with a single and with a double error -/
  | nqPop (port : Fin 2) (single double : BitVec 8)
  | nqFlush
  | nqCritClear (mask : BitVec 16)
  | cntSnap
  | cntClr
  | pinFuncWrite (n : Fin 16) (val : W32)
  /-- PIN_PARK_END (R468), with the level the glitch filter found -/
  | pinParkEnd (n : Fin 16) (level : Bool)
  | tickEdge
  | tickStopEdge
  /-- TICK_IN_EDGE (R466): the value of TICK_TIME at the pad -/
  | tickInEdge (at_ : Nat)
  | tickPacket (rx : Rx) (pkt : Bytes) (at_ : Nat)
  | holdoverEdge
  | srcFault
  | phaseMark (m : Fin 6) (io : MarkIo)
  | armDeadline
  | unitArm (u : UnitId) (table : List LaunchEntry)
  | tickHalt
  | syncSend
  | syncReceive (rx : Rx) (pkt : Bytes) (at_ : Nat)
  | dreqReceive (rx : Rx) (pkt : Bytes) (at_ : Nat)
  | drespReceive (rx : Rx) (pkt : Bytes) (at_ : Nat)
  | timeLost
  | qz (c : CoreId) (op : QzOp)
  | cf (c : CoreId) (op : CfOp)
  /-- BUFFER_READY (R133): the fill of queue Q (true) or F (false) ends -/
  | bufferReady (c : CoreId) (isQ : Bool)
  | mx (c : CoreId) (op : MxOp)
  | mxPassDone (c : CoreId)
  | vectorLoad (c : CoreId) (vd : VDst) (addr : Nat)
  /-- VECTOR_STORE (R128): lanes stored from lane 0, 1 to 256 -/
  | vectorStore (c : CoreId) (vs : Fin 64) (addr lanes : Nat) (flag : Option (Fin 32))
  | vectorArith (c : CoreId) (op : VOp) (fmt : VFmt) (vd : VDst) (va vb vc : Fin 64)
  | vectorTranscendental (c : CoreId) (f : VFun) (fmt : VFmt) (vd : VDst) (va : Fin 64)
  | vectorSumReduce (c : CoreId) (fmt : VFmt) (vd : VDst) (va : Fin 64) (n : Nat)
  | vectorMaxReduce (c : CoreId) (fmt : VFmt) (isMin : Bool) (vd : VDst) (va : Fin 64) (n : Nat)
  | vtop (c : CoreId) (fmt : VFmt) (vd : VDst) (va : Fin 64) (n k : Nat)
  | vdot8 (c : CoreId) (vd : VDst) (va vb : Fin 64)
  | vwide (c : CoreId) (vd : VDst) (va : Fin 64)
  | vectorConvert (c : CoreId) (src dst : VFmt) (vd : VDst) (va : Fin 64)
  | scalarOp (c : CoreId) (op : SOp) (rd ra rb : Fin 16)
  | scalarLoad (c : CoreId) (rd ra : Fin 16) (off : Nat)
  /-- LOOP (R130): count register, encoded bound, words of the body -/
  | loop (c : CoreId) (rs : Fin 16) (bound len : Nat)
  /-- BR (R130): words skipped forward when taken -/
  | br (c : CoreId) (cond : SCond) (rs : Fin 16) (off : Nat)
  | wait (c : CoreId) (f : Fin 32) (n : Nat)
  | mark (c : CoreId) (m : Fin 6)
  | ticknum (c : CoreId) (rd : Fin 16)
  | sig (c : CoreId) (die : Fin 26) (idx : Fin 64) (n : Nat)
  | sigLand (c : CoreId)
  | swait (c : CoreId) (idx : Fin 64) (n : Nat)
  | endLaunch (c : CoreId)
  | dm (c : CoreId) (list count : Nat) (flag : Option (Fin 32))
  | dmaDone (c : CoreId)
  | dmFence (c : FenceOp)
  | mq (c : CoreId) (op : MqOp)
  | mqResult (c : CoreId)
  | arrayScrubRead (c : CoreId) (engine array : Fin 16) (row : Fin 1024) (out : Ecc)
  /-- WEIGHT_ROW_WRITE (R121): the first and the second verification pass -/
  | weightRowWrite (c : CoreId) (engine array : Fin 16) (row : Fin 1024) (v1 v2 : Bool)
  | imageStaged (slot : Fin 32)
  | placeLoadDone (slot : Fin 32)
  /-- UNIT_RETIRE (R123): unit, fault (true) or planned, reason of R440 -/
  | unitRetire (u : RUnit) (flt : Bool) (reason : Nat)
  | spareTakeover (u : RUnit)
  | replaceRetry (slot : Fin 32)
  /-- REF_COMPARE (R98): spare vector time is found; an array whose cells gave the engine a wrong sum -/
  | refCompare (c : CoreId) (engine : Fin 16) (spareTime : Bool) (bad : Option (Fin 16))
  | refDone (c : CoreId) (engine : Fin 16)
  | clipCheck
  /-- MATCH_SEARCH (R172): profile, key, and stored bits that have flipped -/
  | matchSearch (profile : Fin 256) (key : Key) (upsets : List Upset)
  /-- SLICE_SUMMARY (R210): head core, its logit buffer, cohort area and stream entry; the slice's inputs were poisoned -/
  | sliceSummary (c : CoreId) (buf cohort : Fin 2) (entry : Nat) (poison : Bool)
  | tokenSample (slot : Fin 4096)
  | matchSummaryDone (slot : Fin 4096) (upsets : List Upset)
  | checkLaunch (slot : Fin 4096)
  | checkVerdict (slot : Fin 4096) (lo : Nat) (epoch : Byte) (scores : List W32) (poison : Bool)
  | checkTimeout (slot : Fin 4096)
  | rewindApply (slot : Fin 4096)
  | redactApply (slot : Fin 4096)
  | skipRun (slot : Fin 4096)
  /-- DESCRIPTOR_FETCHED (R365): context, the 64 bytes fetched, the sampling record of an open or resume; for a job decided
  in the tick of its fetch (R62), its segment table -/
  | descriptorFetched (ctx : Fin 64) (d rec : Dma)
  /-- JOB_DECISION (R240): context, the segment table as read -/
  | jobDecision (ctx : Fin 64) (segs : Dma)
  | streamOpenDecision (ctx : Fin 64)
  | pauseDecision (ctx : Fin 64)
  | resumeDecision (ctx : Fin 64)
  | jobTokenCopy (ctx : Fin 64) (tag : BitVec 16) (d : Dma)
  | requestSweep (ctx : Fin 64) (tag : BitVec 16) (seg : Nat) (upsets : List Upset)
  | jobCompose (ctx : Fin 64) (tag : BitVec 16) (scores : List ScoreVec) (flt : Bool)
  | jobDeadline (ctx : Fin 64) (tag : BitVec 16) (flt : Bool)
  | replan
  | jobCancelEffect (ctx : Fin 64) (tag : BitVec 16)
  | configChangeEffect
  | oneSlotUpdate (bank : Fin 64)
  | threeStepUpdate (bank : Fin 64)
  | commitEffect
  | automatonReplay (slot : Fin 4096)
  /-- MATCH_SCRUB_READ (R174): entry, and bits of it that have flipped -/
  | matchScrubRead (addr : BitVec 20) (flips : List (Fin 360))
  | bankRetire (bank : Fin 64)
  | streamStart (slot : Fin 4096)
  | seatAssign (cohort : Fin 2)
  | pageMigrate
  | pageEviction
  | pausingEnter (slot : Fin 4096)
  | pauseCopyDone (slot : Fin 4096) (ok : Bool)
  | pauseExpiry
  | resumePageIn (slot : Fin 4096) (ok : Bool)
  | streamCancelEffect (slot : Fin 4096)
  | streamSlotFree (slot : Fin 4096)
  | windowDepartEdge (win : Fin 256)
  | pauseMigrate (entry : BitVec 16) (ok : Bool)
  /-- NOTICE_PACKET (R293): instance (0 notice, 1 log, 2 fabric error), producer, its words (empty: a packet already waiting) -/
  | noticePacket (q : Fin 3) (prod : Nat) (words : List W64)
  | packetRewind (q : Fin 3) (cause : RewindCause)
  /-- NOTICE_COMMIT (R296, R298, R299): instance, the words of its front packet that leave stage 0 (the packet commits with its
  last), and how many words of the packets removed to make room are found with a single and with a double error -/
  | noticeCommit (q : Fin 3) (spill : SpillIn) (single double : Nat)
  | watchdogExpiry (role : Fin 10) (e : Expiry)
  | roleRestored (role : Fin 10) (us : Nat)
  | mbxUpRestore
  | resetRelease (b : BootIn)
  | bootReady
  | updateQuietTick
  /-- UPDATE_SWITCH (R331, R334): bytes of the record's header and table (place, byte) and of its sections (type, place, byte) that
  read back other than written, and the types of section the new image adopts, each with the highest SVER it knows -/
  | updateSwitch (head : List (Nat × BitVec 8)) (secs : List (Nat × Nat × BitVec 8)) (adopts : List (Nat × Nat))
  | updateDone
  | updateRollback (cause : RollCause)
  | hstate (rx : Rx) (pkt : Bytes) (at_ : Nat)
  | skipPacket (rx : Rx) (pkt : Bytes) (at_ : Nat)
  | rdRequest (rx : Rx) (pkt : Bytes)
  | wrRequest (rx : Rx) (pkt : Bytes)
  | rdata (rx : Rx) (pkt : Bytes)
  | wack (rx : Rx) (pkt : Bytes)
  | nack (rx : Rx) (pkt : Bytes)
  | windowTimeout (tag : W32)
  | bgUrgent (kind : Fin 9) (loc : W64)
  | bgMissed (kind : Fin 9) (loc : W64)
  /-- WEAR_CHECK (R431): unit, row of the table of R431 from 1, what was read, and a failed self-test, training or lock -/
  | wearCheck (u : RUnit) (signal : Nat) (x : WearIn) (failed : Bool)
  | channelCopyDone (stack : Fin 12) (ch : Fin 16)
  | channelRetire (stack : Fin 12) (ch : Fin 16)
  | rowRepair (stack : Fin 12) (ch : Fin 16) (dramBank row : Nat) (uncorr : List Nat)
  | laneRetrain (io : Fin 6) (groupC : Bool) (lane : Fin 32)
  /-- JOURNAL_WRITE (R447): record type, payload, how the program of copy 0 and of copy 1 ended -/
  | journalWrite (type : Nat) (payload : Bytes) (c0 c1 : StoreOut)
  /-- THERM_TRIP (R451): die kind and die of the hottest sensor, and its temperature in 1/16 C -/
  | thermTrip (kind : Fin 4) (die : Fin 32) (temp : BitVec 16)
  | thermalShutdown
  | thermCritical (kind : Fin 4) (die : Fin 32)
  | resetAssert
  | pwrGoodFall
  | hostPortReset (port : Fin 2)
  | pcieErr (port : Fin 2) (aer : W32)
  | cxlLinkDown (link : Fin 12) (timeout : Bool)
  | mgmtPacket (die : Fin 2) (pkt : Bytes)
  | throttleOn (x : ThrotIn) (group : Fin 8)
  | throttleOff
  | ident
  | smbStatus
  /-- TEMPS (R470, R474): what the sensors and rails show when it is read -/
  | temps (x : Sensed)
  | limits
  /-- the last operand of an SMBus write: the PEC is correct (R470) -/
  | senseFwd (vals : List (BitVec 32)) (pec : Bool)
  | senseStale
  | sensePark (word : BitVec 16) (pec : Bool)
  | senseParkEnd (out : Fin 14)
  | calBegin (pec : Bool)
  | calPart (data : Bytes) (pec : Bool)
  | calCommit (pec : Bool) (store : StoreOut)
  | calClear (pec : Bool) (store : StoreOut)
  | alertCause
  | alertResponse
  /-- JTAG rows: the bits shifted in at TDI, first bit first -/
  | jtagBypass (tdi : List Bool)
  | jtagIdcode (tdi : List Bool)
  | jtagSamplePreload (tdi pins : List Bool)
  | jtagExtest (tdi pins : List Bool)
  | jtagClamp (tdi : List Bool)
  | jtagHighz (tdi : List Bool)
  | jtagTapReset
  | temperStep (x : StepRun)
  | temperDone (run : Fin 4)
  | temperRequantise (run : Fin 4)
  | temperRebind (run : Fin 4)
  | updStateStaged (store : StoreOut)
  /-- PATROL_SCRUB (R403): 4 KiB unit of tier 1, its 64-byte units found with a single-bit and with an uncorrectable
  error -/
  | patrolScrub (unit : Nat) (corr uncorr : List (Fin 64))
  | configurationRequest (port : Fin 2) (req : CfgReq)
  | fabCrc (rx : Rx) (pkt : Bytes)
deriving DecidableEq, Repr

end Sys2Proof
end

