-- ==== Sys2Proof/Machine/Bits.lean ====
section
/-! DEFINITION. Bit fields, byte order and saturation: the plain helpers every other file uses. -/
namespace Sys2Proof.Machine

/-- Bits hi..lo of v, as a number (00, notation). -/
def bitsOf (v hi lo : Nat) : Nat := v / 2 ^ lo % 2 ^ (hi + 1 - lo)
/-- Bit n of v. -/
def bitAt (v n : Nat) : Bool := v / 2 ^ n % 2 == 1
/-- v with bits hi..lo replaced by the low bits of x. -/
def setBits (v hi lo x : Nat) : Nat :=
  v / 2 ^ (hi + 1) * 2 ^ (hi + 1) + x % 2 ^ (hi + 1 - lo) * 2 ^ lo + v % 2 ^ lo
/-- A Bool as a number. -/
def b2n (b : Bool) : Nat := if b then 1 else 0
/-- Bit n of v set to b. -/
def setBit (v n : Nat) (b : Bool) : Nat := setBits v n n (b2n b)
/-- Two's complement value of the low w bits of v. -/
def signed (w v : Nat) : Int :=
  let x := v % 2 ^ w
  if x < 2 ^ (w - 1) then (x : Int) else (x : Int) - (2 ^ w : Nat)
/-- The low w bits of an integer in two's complement. -/
def unsigned (w : Nat) (v : Int) : Nat := (v % (2 ^ w : Nat)).toNat
/-- n saturated at w bits. -/
def satN (w n : Nat) : Nat := min n (2 ^ w - 1)
/-- i clamped to lo..hi. -/
def clampI (lo hi i : Int) : Int := max lo (min hi i)
/-- Ceiling of a / b. -/
def ceilDiv (a b : Nat) : Nat := (a + b - 1) / b

/-- Little-endian bytes of v, n of them. -/
def leBytes : Nat → Nat → Bytes
  | 0, _ => []
  | n + 1, v => BitVec.ofNat 8 v :: leBytes n (v / 256)
/-- The little-endian value of a run of bytes. -/
def leVal : Bytes → Nat
  | [] => 0
  | b :: r => b.toNat + 256 * leVal r
/-- n bytes at offset off of b; bytes beyond the end read 0. -/
def sliceZ (b : Bytes) (off n : Nat) : Bytes :=
  let r := (b.drop off).take n
  r ++ List.replicate (n - r.length) 0
/-- The little-endian value of n bytes at offset off of b; bytes beyond the end are 0. -/
def le (b : Bytes) (off n : Nat) : Nat := leVal ((b.drop off).take n)
/-- b with the bytes at offset off replaced by x; b is zero-filled up to off. -/
def patch (b : Bytes) (off : Nat) (x : Bytes) : Bytes :=
  sliceZ b 0 off ++ x ++ b.drop (off + x.length)
/-- Whether every byte of a run is 0. -/
def allZero (b : Bytes) : Bool := b.all (· == 0)
/-- b cut into runs of n bytes; fuel bounds the number of runs. -/
def chunksOf (n : Nat) : Nat → Bytes → List Bytes
  | 0, _ => []
  | _, [] => []
  | f + 1, b => b.take n :: chunksOf n f (b.drop n)
/-- Zero padding up to a multiple of n. -/
def padTo (n : Nat) (b : Bytes) : Bytes := b ++ List.replicate ((n - b.length % n) % n) 0
/-- The numbers lo, lo + 1, …, n of them. -/
def fromN (lo n : Nat) : List Nat := (List.range n).map (lo + ·)

end Sys2Proof.Machine
end

