-- ==== Sys2Proof/Config.lean ====
section
/-! DEFINITION. The configuration: what the manual fixes for no one, and the free values.

A free value is an opaque constant with no body. It is applied to a counter of the state (State.u.freeIx) or to the
operands it depends on, so that nothing can be proved about the value it takes. -/
namespace Sys2Proof.Config

/-- Bytes of the interface declaration of an image whose layout R163 does not give: field number, section bytes. DESIGN CHOICE, log 12. -/
opaque ifaceField : Nat → Bytes → Nat
/-- Entry k of a semaphore map, whose byte layout R157 does not give: entry number, section bytes. DESIGN CHOICE, log 12. -/
opaque semMapEntry : Nat → Bytes → Nat
/-- The worst-case launch plan, which R416 has firmware form: the marks (one bit each) at which it launches an entry, by what
the plan is formed from, slot, logical core and entry. DESIGN CHOICE, log 11. -/
opaque planMarks : List Nat → Nat → Nat → Nat → Nat
/-- The most weighted requesters that plan makes active at once (R398). DESIGN CHOICE, log 11. -/
opaque planActive : List Nat → Nat
/-- What else breaks that plan: by reason code and what the plan is formed from, the reason's argument. DESIGN CHOICE, log 11. -/
opaque planBreak : Nat → List Nat → Option Nat
/-- The 12 check bits of an array row, whose code R105 does not give: by the row's 1,024 data bits. DESIGN CHOICE, log 215. -/
opaque rowCheck : Nat → BitVec 12
/-- What core SRAM delivers beyond its 4 MiB (R113): by core and address. DESIGN CHOICE, log 210. -/
opaque noSram : Nat → Nat → BitVec 8
/-- A scalar shift by 64 or more, whose result R129 does not state: left (0) or right (1), operand, count. DESIGN CHOICE, log 7. -/
opaque farShift : Nat → BitVec 64 → BitVec 64 → BitVec 64
/-- A lane of a vector result that R136 to R142 do not state: operation, lane format, operands; a lane of packed codes is given
as its codes. DESIGN CHOICE, log 71. -/
opaque laneFree : Nat → Nat → List Int → List Int → List Int → BitVec 32
/-- A 32-bit value the manual states no result for: which draw. DESIGN CHOICE, log 7. -/
opaque freeWord : Nat → BitVec 32
/-- A number the manual states no result for: which draw. DESIGN CHOICE, log 7. -/
opaque freeNat : Nat → Nat

/-- What a role keeps in its checkpoint area, whose contents R312 does not lay out: role, which draw. DESIGN CHOICE, log 180. -/
opaque roleState : Nat → Nat → Bytes
/-- A section of the hand-off record in its writer's committed half, whose layout R333 does not give: type, the half's bytes.
DESIGN CHOICE, log 62. -/
opaque sectionOf : Nat → Bytes → Bytes
/-- SVER that an image writes for a section: FW_VER, type. DESIGN CHOICE, log 62. -/
opaque sectionVer : Nat → Nat → Nat
/-- Place of a section in its die's control SRAM in units of 64 bytes: type, half of the checkpoint area. DESIGN CHOICE, log 62. -/
opaque sectionAt : Nat → Nat → Nat
/-- A byte of a pause record's page, whose layout R281 does not give: by pause ID and place. DESIGN CHOICE, log 149. -/
opaque pauseRecord : Nat → Nat → BitVec 8
/-- Fields of a DMA descriptor, whose byte layout R143 does not give: field number, the 32 bytes. DESIGN CHOICE, log 26. -/
opaque dmaField : Nat → Bytes → Nat

/-- Channel of its stack that holds a 4 KiB unit of tier 1, which R19 leaves open: by unit. DESIGN CHOICE, log 25. -/
opaque channelOf : Nat → Nat

/-- Cycles of an I/O die's own clock, whose rate R8 does not give, in the first n ns of block time. DESIGN CHOICE, log 7. -/
opaque ioCycles : Nat → Nat

/-- IPv4 address of a management port, which the manual fixes only for a network boot (R327): by control die. Log 20. -/
opaque mgmtAddr : Nat → BitVec 32

/-- Fabric identity of the owner of an imported window, which WINDOW_IMPORT does not give: by fabric base. DESIGN CHOICE, log 23. -/
opaque windowOwner : Nat → BitVec 64
/-- Fabric port that reaches an imported window, by fabric base. DESIGN CHOICE, log 23. -/
opaque windowPort : Nat → Nat

/-- Where an image holds a weight of its tempered head, which the manual leaves to the compiler: IMAGE_ID as
built, master index; head core, engine, row (array × 1,024 + row), output column, engine whose table rescales it. DESIGN CHOICE, log 29. -/
opaque headPlace : Nat → Nat → Nat × Nat × Nat × Nat × Nat
/-- DMA windows that firmware sets for a slot at placement (R146), whose addresses the manual does not give: slot, IMAGE_ID;
space, base, length of each. DESIGN CHOICE, log 27. -/
opaque slotWindows : Nat → Nat → List (Nat × Nat × Nat)

end Sys2Proof.Config
end

