-- ==== Sys2Proof/Machine/Crc.lean ====
section
/-! DEFINITION. CRC-32C (Castagnoli): reflected polynomial 0x82F63B78, initial value and final inversion all ones. -/
namespace Sys2Proof.Machine

/-- One bit of the reflected division. -/
def crcStep (c : BitVec 32) : BitVec 32 := if c.getLsbD 0 then (c >>> 1) ^^^ 0x82F63B78 else c >>> 1
/-- One byte. -/
def crcByte (c : BitVec 32) (b : Byte) : BitVec 32 :=
  (List.range 8).foldl (fun c _ => crcStep c) (c ^^^ b.setWidth 32)
/-- The register after a run of bytes. The match lets an evaluation compute each byte's register before the next byte. -/
def crcRun : Bytes → Nat → Nat
  | [], c => c
  | b :: r, c =>
    match (crcByte (BitVec.ofNat 32 c) b).toNat with
    | 0 => crcRun r 0
    | n + 1 => crcRun r (n + 1)
/-- CRC-32C of a run of bytes. -/
def crc32c (b : Bytes) : Nat := Nat.xor (crcRun b 0xFFFFFFFF) 0xFFFFFFFF
/-- A run of bytes followed by its CRC in 4 bytes. -/
def withCrc (b : Bytes) : Bytes := b ++ leBytes 4 (crc32c b)

end Sys2Proof.Machine
end

