-- ==== Sys2Proof/Machine/Float.lean ====
section
/-! DEFINITION. Exact values and the rounding of R68: half to even, on the exact real value of the operand.

A finite value is an exact ratio of integers scaled by a power of two. BF16 is the upper 16 bits of binary32 (R90). -/
namespace Sys2Proof.Machine

/-- The largest integer not above p / q, q > 0. -/
def floorDiv (p : Int) (q : Nat) : Int := Int.fdiv p q
/-- Nearest integer to p / q, ties to even; q > 0 (R68). -/
def rneDiv (p : Int) (q : Nat) : Int :=
  let f := floorDiv p q
  let r := p - f * q
  if 2 * r > q then f + 1
  else if 2 * r < q then f
  else if f % 2 = 0 then f else f + 1
/-- Nearest natural number to n / d, ties to even; d > 0. -/
def rneNat (n d : Nat) : Nat :=
  let f := n / d
  let r := n % d
  if 2 * r > d then f + 1
  else if 2 * r < d then f
  else if f % 2 = 0 then f else f + 1
/-- Smallest natural number not below n / d. -/
def upNat (n d : Nat) : Nat := (n + d - 1) / d
/-- Number of bits of n; 0 for 0. -/
def bitLen (n : Nat) : Nat := if n = 0 then 0 else Nat.log2 n + 1
/-- ⌊log2 (n / d)⌋ for n, d > 0. -/
def floorLog2 (n d : Nat) : Int :=
  let k : Int := (bitLen n : Int) - (bitLen d : Int)
  -- 2^(k-1) < n / d < 2^(k+1)
  let atLeast (j : Int) : Bool := if j ≥ 0 then d * 2 ^ j.toNat ≤ n else d ≤ n * 2 ^ (-j).toNat
  if atLeast k then k else k - 1
/-- Floor of the square root, bit by bit from bit k - 1 down. -/
def isqrtAux (n : Nat) : Nat → Nat → Nat
  | 0, r => r
  | k + 1, r => isqrtAux n k (if (r + 2 ^ k) * (r + 2 ^ k) ≤ n then r + 2 ^ k else r)
/-- Floor of the square root. -/
def isqrt (n : Nat) : Nat := isqrtAux n (bitLen n / 2 + 1) 0

/-- A floating-point format: bits of fraction; the exponent has 8 bits in both (R90, R137). -/
inductive FF where
  | bf16 | fp32
deriving DecidableEq, Repr
/-- Fraction bits. -/
def FF.frac : FF → Nat
  | .bf16 => 7
  | .fp32 => 23

/-- A decoded value: NaN, infinity, or a finite value ± m × 2^e (m = 0 is a signed zero). -/
inductive FV where
  | nan
  | inf (neg : Bool)
  | fin (neg : Bool) (m : Nat) (e : Int)
deriving DecidableEq, Repr

/-- The value of a bit pattern. -/
def fdec (f : FF) (w : Nat) : FV :=
  let p := f.frac
  let neg := bitAt w (p + 8)
  let ex := bitsOf w (p + 7) p
  let fr := w % 2 ^ p
  if ex = 255 then (if fr = 0 then .inf neg else .nan)
  else if ex = 0 then .fin neg fr (-126 - p)
  else .fin neg (2 ^ p + fr) ((ex : Int) - 127 - p)
/-- The canonical NaN (R137). -/
def fnan (f : FF) : Nat := 255 * 2 ^ f.frac + 2 ^ (f.frac - 1)
/-- An infinity. -/
def finf (f : FF) (neg : Bool) : Nat := b2n neg * 2 ^ (f.frac + 8) + 255 * 2 ^ f.frac
/-- The largest finite value of a sign. -/
def fmaxFin (f : FF) (neg : Bool) : Nat := finf f neg - 1
/-- A signed zero. -/
def fzero (f : FF) (neg : Bool) : Nat := b2n neg * 2 ^ (f.frac + 8)

/-- ± (n / d) × 2^e rounded half to even to the format, with IEEE overflow to infinity (R137).
An exact 0 gives a zero of the sign given. -/
def fround (f : FF) (neg : Bool) (n d : Nat) (e : Int) : Nat :=
  if n = 0 then fzero f neg
  else
    let p := f.frac
    let lg := floorLog2 n d + e
    -- exponent of the unit in the last place
    let q : Int := max (lg - p) (-126 - p)
    let sh := e - q
    let mant := if sh ≥ 0 then rneNat (n * 2 ^ sh.toNat) d else rneNat n (d * 2 ^ (-sh).toNat)
    -- mant ≤ 2^(p+1); a subnormal has mant < 2^p
    let biased : Int := q + p + 127
    let w : Int := if mant < 2 ^ p then (mant : Int) else (biased - 1) * 2 ^ p + mant
    if w ≥ 255 * 2 ^ p then finf f neg else b2n neg * 2 ^ (p + 8) + w.toNat
/-- The same rounding, with a magnitude above the largest finite value replaced by that value (R91). -/
def froundSat (f : FF) (neg : Bool) (n d : Nat) (e : Int) : Nat :=
  let w := fround f neg n d e
  if w = finf f neg then fmaxFin f neg else w
/-- An exact integer × 2^e, rounded; zero is +0. -/
def froundI (f : FF) (v : Int) (e : Int) : Nat := fround f (v < 0) v.natAbs 1 e

/-- Align two finite values to the smaller exponent: signed mantissas and the exponent. -/
def falign (na : Bool) (ma : Nat) (ea : Int) (nb : Bool) (mb : Nat) (eb : Int) : Int × Int × Int :=
  let e := min ea eb
  let sa : Int := (ma * 2 ^ (ea - e).toNat : Nat)
  let sb : Int := (mb * 2 ^ (eb - e).toNat : Nat)
  (if na then -sa else sa, if nb then -sb else sb, e)
/-- Sum, exact then rounded once (R137). -/
def faddV (f : FF) (a b : FV) : Nat :=
  match a, b with
  | .nan, _ => fnan f
  | _, .nan => fnan f
  | .inf s, .inf t => if s = t then finf f s else fnan f
  | .inf s, _ => finf f s
  | _, .inf t => finf f t
  | .fin s m e, .fin t k g =>
    let (x, y, ex) := falign s m e t k g
    if x + y = 0 then fzero f (s && t && m = 0 && k = 0 || (s && t)) else froundI f (x + y) ex
/-- Product of two values, not rounded. -/
def fmulV (a b : FV) : FV :=
  match a, b with
  | .nan, _ => .nan
  | _, .nan => .nan
  | .inf s, .inf t => .inf (s != t)
  | .inf s, .fin t k _ => if k = 0 then .nan else .inf (s != t)
  | .fin s m _, .inf t => if m = 0 then .nan else .inf (s != t)
  | .fin s m e, .fin t k g => .fin (s != t) (m * k) (e + g)
/-- A value rounded to the format. -/
def fofV (f : FF) : FV → Nat
  | .nan => fnan f
  | .inf s => finf f s
  | .fin s m e => fround f s m 1 e
/-- The value with its sign changed. -/
def fnegV : FV → FV
  | .nan => .nan
  | .inf s => .inf (!s)
  | .fin s m e => .fin (!s) m e

/-- a + b. -/
def fadd (f : FF) (a b : Nat) : Nat := faddV f (fdec f a) (fdec f b)
/-- a - b. -/
def fsub (f : FF) (a b : Nat) : Nat := faddV f (fdec f a) (fnegV (fdec f b))
/-- a × b. -/
def fmul (f : FF) (a b : Nat) : Nat := fofV f (fmulV (fdec f a) (fdec f b))
/-- a × b + c, rounded once. -/
def ffma (f : FF) (a b c : Nat) : Nat := faddV f (fmulV (fdec f a) (fdec f b)) (fdec f c)
/-- A value converted from one format to another, rounded once. -/
def fconv (g f : FF) (a : Nat) : Nat := fofV f (fdec g a)
/-- Whether a pattern is a NaN. -/
def fisNan (f : FF) (a : Nat) : Bool := match fdec f a with | .nan => true | _ => false
/-- Whether a pattern is a NaN or an infinity. -/
def fnotFin (f : FF) (a : Nat) : Bool := match fdec f a with | .fin _ _ _ => false | _ => true

/-- Order key of a pattern that is not a NaN: -0 below +0 (R140, R141). -/
def fkey (f : FF) (a : Nat) : Int :=
  let s := 2 ^ (f.frac + 8)
  if a % (2 * s) < s then (a % s : Nat) else -((a % s : Nat) : Int) - 1
/-- a > b in the order of R140. -/
def fgt (f : FF) (a b : Nat) : Bool := fkey f a > fkey f b
/-- a < b as numbers; zeros of either sign are equal. False for NaN. -/
def flt (f : FF) (a b : Nat) : Bool :=
  match fdec f a, fdec f b with
  | .nan, _ => false
  | _, .nan => false
  | .inf s, .inf t => s && !t
  | .inf s, _ => s
  | _, .inf t => !t
  | .fin s m e, .fin t k g => let (x, y, _) := falign s m e t k g; x < y

/-- Nearest integer of a pattern, half to even, saturated to lo..hi; NaN gives 0 (R142). -/
def ftoI (f : FF) (a : Nat) (lo hi : Int) : Int :=
  match fdec f a with
  | .nan => 0
  | .inf s => if s then lo else hi
  | .fin s m e =>
    let v : Int := if e ≥ 0 then ((m * 2 ^ (min e 300).toNat : Nat) : Int) else (rneNat m (2 ^ (-e).toNat) : Int)
    clampI lo hi (if s then -v else v)
/-- FP32 bits of a BF16 pattern. -/
def bf2fp (a : Nat) : Nat := a * 65536

end Sys2Proof.Machine
end

