-- ==== Sys2Proof/Machine/Tbl.lean ====
section
/-! DEFINITION. Sparse tables and byte memories, and every operation over them.

A table lists its indices in rising order. A memory (Host.Cell pairs) lists its addresses in rising order and no cell of
value 0: an unlisted address reads 0 (DESIGN CHOICE, log 5). -/
namespace Sys2Proof.Machine

/-- The entry at index k. -/
def tget {α : Type} : Tbl α → Nat → Option α
  | [], _ => none
  | (i, a) :: t, k => if k = i then some a else tget t k
/-- The entry at index k, or d. -/
def tgetD {α : Type} (t : Tbl α) (k : Nat) (d : α) : α := (tget t k).getD d
/-- The table with a at index k. -/
def tset {α : Type} : Tbl α → Nat → α → Tbl α
  | [], k, a => [(k, a)]
  | (i, b) :: t, k, a =>
    if k < i then (k, a) :: (i, b) :: t
    else if k = i then (k, a) :: t
    else (i, b) :: tset t k a
/-- The table without index k. -/
def tdel {α : Type} (t : Tbl α) (k : Nat) : Tbl α := t.filter (fun p => p.1 != k)
/-- The table with f applied to the entry at k, which is d if k is not listed. -/
def tmod {α : Type} (t : Tbl α) (k : Nat) (d : α) (f : α → α) : Tbl α := tset t k (f (tgetD t k d))
/-- The table with f applied to the entry at k, if there is one. -/
def tupd {α : Type} (t : Tbl α) (k : Nat) (f : α → α) : Tbl α :=
  match tget t k with
  | some a => tset t k (f a)
  | none => t
/-- Every entry changed by f. -/
def tmap {α β : Type} (t : Tbl α) (f : Nat → α → β) : Tbl β := t.map (fun p => (p.1, f p.1 p.2))
/-- The indices a table lists. -/
def tkeys {α : Type} (t : Tbl α) : List Nat := t.map (·.1)
/-- Indices strictly rising: the form of every table. -/
def Tsorted {α : Type} (t : Tbl α) : Bool := match t with
  | [] => true
  | (i, _) :: r => r.all (fun p => i < p.1) && Tsorted r

/-- A byte memory: (address, byte) pairs. -/
abbrev Memory := List Host.Cell

/-- What an unlisted address reads as (DESIGN CHOICE, log 5). -/
def memDefault : Byte := 0

/-- The canonical form: addresses strictly rising, no entry equal to what an unlisted address reads as. -/
def Memory.wf : Memory → Bool
  | [] => true
  | (a, b) :: m => b != memDefault && m.all (fun c => a < c.1) && Memory.wf m

/-- The byte at address a. DESIGN CHOICE, log 5. -/
def mget : Memory → Nat → Byte
  | [], _ => memDefault
  | (i, b) :: m, a => if a = i then b else mget m a
/-- The memory with byte v at address a, in canonical form. -/
def mput : Memory → Nat → Byte → Memory
  | [], a, v => if v = memDefault then [] else [(a, v)]
  | (i, b) :: m, a, v =>
    if a < i then (if v = memDefault then (i, b) :: m else (a, v) :: (i, b) :: m)
    else if a = i then (if v = memDefault then m else (a, v) :: m)
    else (i, b) :: mput m a v
/-- n bytes from address a. -/
def mread (m : Memory) : Nat → Nat → Bytes
  | _, 0 => []
  | a, n + 1 => mget m a :: mread m (a + 1) n
/-- The memory with a run of bytes written from address a. -/
def mwrite (m : Memory) (a : Nat) : Bytes → Memory
  | [] => m
  | b :: r => mwrite (mput m a b) (a + 1) r
/-- The little-endian value of n bytes at a. -/
def mle (m : Memory) (a n : Nat) : Nat := leVal (mread m a n)
/-- The memory with the cells a, …, a + n - 1 set to what an unlisted address reads as. -/
def mclear (m : Memory) (a n : Nat) : Memory := m.filter (fun c => c.1 < a || a + n ≤ c.1)
/-- The memory with n bytes of src from address b copied to address a. -/
def mcopy (m src : Memory) (a b n : Nat) : Memory :=
  (src.filter (fun c => b ≤ c.1 && c.1 < b + n)).foldl (fun m c => mput m (a + (c.1 - b)) c.2) (mclear m a n)

end Sys2Proof.Machine
end

