-- ==== Sys2Proof/Machine/Narrow.lean ====
section
/-! DEFINITION. The narrow path of 03: row quantiser, outlier conversion, pass arithmetic, rescale, transport records.

Every finite BF16 value is an integer multiple of 2^-133, and so is every legal token scale; the quantiser's exact
arithmetic is done on those integers. -/
namespace Sys2Proof.Machine

/-- Bits of a code (R69). -/
def afBits : AFmt → Nat
  | .int8 => 8
  | .uint4 => 4
  | .int4 => 4
  | .uint2 => 2
/-- Format code (R69). -/
def afCode : AFmt → Nat
  | .int8 => 0
  | .uint4 => 1
  | .int4 => 2
  | .uint2 => 3
/-- The format of a code. -/
def afOfCode : Nat → Option AFmt
  | 0 => some .int8
  | 1 => some .uint4
  | 2 => some .int4
  | 3 => some .uint2
  | _ => none
/-- Whether the format has a zero point (R69). -/
def afHasZero : AFmt → Bool
  | .uint4 => true
  | .uint2 => true
  | _ => false
/-- Least and greatest code (R69). -/
def afRange : AFmt → Int × Int
  | .int8 => (-128, 127)
  | .uint4 => (0, 15)
  | .int4 => (-8, 7)
  | .uint2 => (0, 3)
/-- Acceptance interval in cycles (R22). -/
def afAccept : AFmt → Nat
  | .int8 => 256
  | .uint4 => 128
  | .int4 => 128
  | .uint2 => 64

/-- A narrow row: codes, scale, zero point, lane list (channel, U), poison tag. -/
structure Row where
  fmt : AFmt := .uint4
  codes : List Int := []
  z : Int := 0
  sMant : Nat := 0
  sExp : Int := 0
  lanes : List (Nat × Int) := []
  poison : Bool := false
deriving DecidableEq, Repr

/-- Code i of a packed row at byte i·bits/8 (R70). -/
def unpackCode (f : AFmt) (b : Bytes) (i : Nat) : Int :=
  let w := afBits f
  let per := 8 / w
  let v := (b.getD (i / per) 0).toNat / 2 ^ (w * (i % per)) % 2 ^ w
  if afHasZero f then (v : Int) else signed w v
/-- The codes of a packed row of n channels (R70). -/
def unpackRow (f : AFmt) (b : Bytes) (n : Nat) : List Int := (List.range n).map (unpackCode f b)
/-- A packed row (R70). -/
def packRow (f : AFmt) (c : List Int) : Bytes :=
  let w := afBits f
  let per := 8 / w
  (List.range (ceilDiv c.length per)).map (fun i =>
    BitVec.ofNat 8 (((List.range per).map (fun k => unsigned w (c.getD (i * per + k) 0) * 2 ^ (w * k))).sum))

/-- A finite BF16 value in units of 2^-133. -/
def bfInt (w : Nat) : Int :=
  match fdec .bf16 w with
  | .fin s m e => let v : Int := ((m * 2 ^ (e + 133).toNat : Nat) : Int); if s then -v else v
  | _ => 0
/-- A legal scale in units of 2^-133; S_EXP ≥ -128 (R75). -/
def scaleInt (m : Nat) (e : Int) : Nat := m * 2 ^ (e + 133).toNat
/-- Whether a mantissa and exponent form a legal scale (R75). -/
def scaleLegal (m : Nat) (e : Int) : Bool :=
  (0x8000 ≤ m && m ≤ 0xFFFF) || (0 < m && m < 0x8000 && e == -128) || (m == 0 && e == 0)
/-- The smallest legal scale at least n / d × 2^-133, for n > 0 (R77). -/
def scaleFor (n d : Nat) : Nat × Int :=
  let e : Int := max (floorLog2 n d - 133 - 15) (-128)
  let m := upNat n (d * 2 ^ (e + 133).toNat)
  if m ≥ 0x10000 then (0x8000, e + 1) else (m, e)

/-- Insert in an order. -/
def insertBy {α : Type} (before : α → α → Bool) (x : α) : List α → List α
  | [] => [x]
  | y :: r => if before y x then y :: insertBy before x r else x :: y :: r
/-- Stable insertion sort. -/
def sortBy {α : Type} (before : α → α → Bool) : List α → List α
  | [] => []
  | x :: r => insertBy before x (sortBy before r)

/-- Outlier selection (R76): channels accepted, in the order of the walk. -/
def pickOutliers (n outMax : Nat) : List (Nat × Int) → List (Nat × Int) → List (Nat × Int)
  | [], acc => acc
  | (c, v) :: r, acc =>
    let seg := (acc.filter (fun a => a.1 / 16384 == c / 16384)).length
    pickOutliers n outMax r (if seg < min outMax 327 && acc.length < n / 50 then acc ++ [(c, v)] else acc)

/-- Conversion of an outlier o (units of 2^-133) in a row of scale s: U and whether it saturated (R82). -/
def outlierU (o : Int) (s : Nat) : Int × Bool :=
  let u := rneDiv (o * 256) s
  let c := clampI (-(2 ^ 23)) (2 ^ 23 - 1) u
  (c, u != c)

/-- The outliers of a finite BF16 row in ascending channel (R76). -/
def outliersOf (outMax outTau : Nat) (x : List Nat) : List (Nat × Int) :=
  let idx := (List.range x.length).zip (x.map bfInt)
  let cand := sortBy (fun a b => a.2.natAbs > b.2.natAbs || (a.2.natAbs == b.2.natAbs && a.1 < b.1))
    (idx.filter (fun p => (p.2.natAbs : Int) > bfInt outTau))
  sortBy (fun a b => a.1 < b.1) (pickOutliers x.length outMax cand [])
/-- A finite BF16 row quantised with a given outlier set (R77 to R82): the row, and the channels whose code or conversion
clipped. -/
def quantiseWith (fmt : AFmt) (out : List (Nat × Int)) (x : List Nat) : Row × List Nat :=
  let n := x.length
  let idx := (List.range n).zip (x.map bfInt)
  let isOut (c : Nat) : Bool := out.any (fun o => o.1 == c)
  let code := idx.filter (fun p => !isOut p.1)
  let hi := code.foldl (fun a p => max a p.2) 0
  let lo := code.foldl (fun a p => min a p.2) 0
  let (num, den) : Nat × Nat := match fmt with
    | .uint4 => ((hi - lo).natAbs, 15)
    | .uint2 => ((hi - lo).natAbs, 3)
    | .int4 => ((max hi (-lo)).natAbs, 7)
    | .int8 => ((max hi (-lo)).natAbs, 127)
  let (sm, se) : Nat × Int :=
    if num ≠ 0 then scaleFor num den
    else if out.isEmpty then (0, 0)
    else scaleFor (out.foldl (fun a o => max a o.2.natAbs) 0) (2 ^ 14)
  if sm = 0 then ({ fmt := fmt, codes := List.replicate n 0 }, [])
  else
    let s := scaleInt sm se
    let (qmin, qmax) := afRange fmt
    let z : Int := if afHasZero fmt && num ≠ 0 then clampI qmin qmax (rneDiv (-lo) s) else 0
    let raw := idx.map (fun p => if isOut p.1 then z else rneDiv p.2 s + z)
    let codes := raw.map (clampI qmin qmax)
    let clipped := (((List.range n).zip (raw.zip codes)).filter (fun p => p.2.1 != p.2.2)).map (·.1)
    let us := out.map (fun o => (o.1, outlierU o.2 s))
    let sat := (us.filter (fun u => u.2.2)).map (·.1)
    ({ fmt := fmt, codes := codes, z := z, sMant := sm, sExp := se,
       lanes := us.map (fun u => (u.1, u.2.1)) }, clipped ++ sat)
/-- What a QZ makes of a BF16 row (R76 to R81): the row, and the channels whose code or conversion clipped. -/
def quantise (fmt : AFmt) (outMax outTau : Nat) (x : List Nat) : Row × List Nat :=
  if x.any (fnotFin .bf16) then
    ({ fmt := fmt, codes := List.replicate x.length 0, poison := true }, [])
  else quantiseWith fmt (outliersOf outMax outTau x) x

/-- The segment of a row that engine number k of a SPLIT receives (R132). -/
def Row.segment (r : Row) (k : Nat) : Row :=
  { r with
    codes := (r.codes.drop (16384 * k)).take 16384
    lanes := (r.lanes.filter (fun l => l.1 / 16384 == k)).map (fun l => (l.1 % 16384, l.2)) }

/-- A 24-bit lane word (R83). -/
def laneWord (l : Nat × Int) : Nat := unsigned 24 l.2 * 2 ^ 16 + l.1 % 2 ^ 16
/-- A lane word read back. -/
def laneOf (w : Nat) : Nat × Int := (w % 2 ^ 16, signed 24 (bitsOf w 39 16))

/-- The record form of a row (R118): header, packed codes, lane words, up to a multiple of 64 bytes.
The header has the layout of R92; its LEN64 states the record form's own length, its CRC is 0 (DESIGN CHOICE, log 16). -/
def rowRecord (r : Row) (handle tick pos : Nat) : Bytes :=
  let body := packRow r.fmt r.codes ++ r.lanes.flatMap (fun l => leBytes 8 (laneWord l))
  let n := ceilDiv (64 + body.length) 64
  padTo 64 (leBytes 1 1 ++ leBytes 1 (afCode r.fmt) ++ leBytes 2 (r.codes.length / 256) ++ leBytes 4 handle
    ++ leBytes 8 tick ++ leBytes 4 pos ++ leBytes 2 r.sMant ++ leBytes 1 (unsigned 8 r.sExp)
    ++ leBytes 1 r.z.toNat ++ leBytes 2 r.lanes.length ++ leBytes 2 n ++ List.replicate 36 0 ++ body)
/-- A row read back from its record form, of the format and channel count an instruction names. DESIGN CHOICE, log 16. -/
def rowOfRecord (f : AFmt) (n : Nat) (b : Bytes) : Row :=
  let nb := n * afBits f / 8
  { fmt := f
    codes := unpackRow f ((b.drop 64).take nb) n
    z := if afHasZero f then (le b 23 1 % 16 : Nat) else 0
    sMant := le b 20 2
    sExp := signed 8 (le b 22 1)
    lanes := (List.range (le b 24 2)).map (fun k => laneOf (le b (64 + nb + 8 * k) 8)) }

/-- Weight formats (R72). -/
inductive WFmt where
  | int4 | int3 | int2 | tern
deriving DecidableEq, Repr
/-- The format of a code (R72). DEDUCED, log 82. -/
def WFmt.ofCode : Nat → Option WFmt
  | 0 => some .int4
  | 1 => some .int3
  | 2 => some .int2
  | 3 => some .tern
  | _ => none
/-- Two weights to a cell (R21). -/
def WFmt.twoBit : WFmt → Bool
  | .int2 => true
  | .tern => true
  | _ => false
/-- Output columns of an engine (R73). -/
def WFmt.cols (w : WFmt) : Nat := if w.twoBit then 512 else 256
/-- Whether a cell code is invalid in its format (R74). -/
def WFmt.badCell (w : WFmt) (cell : Nat) : Bool :=
  match w with
  | .int4 => false
  | .int3 => 4 ≤ cell && cell ≤ 11
  | .int2 => false
  | .tern => cell % 4 == 2 || cell / 4 == 2
/-- The weight of output column j in a row of cells held as one 1,024-bit number (R72, R73, R159). -/
def weightOf (w : WFmt) (row : Nat) (j : Nat) : Int :=
  if w.twoBit then
    let cell := row / 2 ^ (4 * (j % 256)) % 16
    signed 2 (if j < 256 then cell % 4 else cell / 4)
  else signed 4 (row / 2 ^ (4 * j) % 16)

/-- An entry of the rescale table without WSUM (R89). -/
structure Rescale where
  rm : Nat := 0
  rs : Nat := 0
deriving DecidableEq, Repr

/-- An engine's weights and tables (R89, R111, R159). cells: rows a × 1,024 + r; an unlisted row holds zeros. -/
structure Weights where
  wfmt : WFmt := .int4
  afmtMask : Nat := 15
  groups : Nat := 1
  rx : Int := 0
  cells : Tbl Nat := []
  table : Tbl Rescale := []
deriving DecidableEq, Repr

/-- WSUM of column j: the sum of its weights over all 16,384 rows (R86). -/
def Weights.wsum (w : Weights) (j : Nat) : Int := (w.cells.map (fun c => weightOf w.wfmt c.2 j)).sum
/-- The code that reduction row c receives in a pass of row group g: z outside the group and in outlier slots
(R80, R111). A row longer than the group, which R111 forbids, has its further codes dropped. DESIGN CHOICE, log 222. -/
def Weights.codeAt (w : Weights) (r : Row) (g c : Nat) : Int :=
  let size := 16384 / w.groups
  if c / size = g then
    let k := c % size
    if r.lanes.any (fun l => l.1 == k) then r.z else r.codes.getD k r.z
  else r.z
/-- ACC_j of R85. -/
def Weights.acc (w : Weights) (r : Row) (g j : Nat) : Int :=
  let size := 16384 / w.groups
  let arr := (w.cells.map (fun c => w.codeAt r g c.1 * weightOf w.wfmt c.2 j)).sum
  let lane := (r.lanes.map (fun l => l.2 * weightOf w.wfmt (tgetD w.cells (g * size + l.1) 0) j)).sum
  256 * (arr - r.z * w.wsum j) + lane
/-- The rescale stage: V_j rounded to the output format (R90, R91), and whether it saturated. -/
def Weights.rescale (w : Weights) (f : FF) (acc : Int) (sm : Nat) (se : Int) (j : Nat) : Nat × Bool :=
  let t := tgetD w.table j {}
  let n := acc.natAbs * t.rm * sm
  let x := se + w.rx - t.rs - 8
  if n = 0 then (0, false)
  else
    let r := fround f (acc < 0) n 1 x
    (froundSat f (acc < 0) n 1 x, r == finf f (acc < 0))

/-- The results of a pass as they stand in SRAM: BF16 or FP32, little-endian, column 0 first (R134). -/
def passBytes (f : FF) (vals : List Nat) : Bytes :=
  vals.flatMap (fun v => leBytes (match f with | .bf16 => 2 | .fp32 => 4) v)

end Sys2Proof.Machine
end

