-- ==== Sys2Proof/Machine/State.lean ====
section
/-! DEFINITION. The state of the block, as plain data, and the state after reset.

State has five parts. asm: what assembly fixed. u: the units' registers, tables and buffers. q: the three instances
of the queue primitive. m: the byte memories. pending: the commands that wait. Every field's default is its value after
reset; where the manual gives none, the comment names the log entry. -/
namespace Sys2Proof.Machine

/-- Why a step stops. DESIGN CHOICE, log 211. -/
inductive Fault where
  /-- REG_WRITE, REG_ACCESS, RC_READ: the offset lies beyond the 16 MiB control BAR, which does not exist (R17). Safe. -/
  | outsideBar
  /-- MBX_COMMAND_BEGIN: the command area was written while BUSY = 1, whose outcome R314 leaves undefined. Safe. -/
  | commandAreaOverwritten
deriving DecidableEq, Repr

/-- Why a command has no meaning. -/
inductive Refusal where
  /-- raised by exec for a command of the table with no meaning in this model. Safe. -/
  | notModelled (mnemonic : String)
deriving DecidableEq, Repr

/-- What assembly fixed (R500, R470). DESIGN CHOICE, log 3 gives the values. -/
structure Asm where
  /-- 0 SE-32C, 1 SE-32A, 2 SE-32M -/
  variant : Fin 3 := 1
  stepping : Nat := 1
  serial : Nat := 0
  mac0 : Nat := 0
  mac1 : Nat := 0
  /-- engine die carrying the controller of each fitted stack (01) -/
  stackmap : List Nat := [0, 3, 6, 9, 12, 15, 18, 21]
  /-- critical trip temperature of each TS group, signed 1/16 C (R470) -/
  critTemp : List Int := [1680, 1680, 1680, 1680, 1680, 1680, 1680, 1680]
deriving DecidableEq, Repr

/-- What the block has put on one of its interfaces. DESIGN CHOICE, log 6. -/
inductive Out where
  /-- an MSI-X vector signalled through a host port (R455) -/
  | msix (port vector : Nat)
  /-- a write to host memory through a host port -/
  | host (port addr : Nat) (data : Bytes)
  /-- a packet on a fabric port -/
  | fabric (port : Nat) (pkt : Bytes)
  /-- the value a host read returned through a port -/
  | read (port : Nat) (val : Nat)
  /-- what an SMBus read returned -/
  | smb (data : Bytes)
  /-- what a management port sent -/
  | eth (die : Nat) (pkt : Bytes)
  /-- a management port asks for an address: its die, its client identifier, the timeout in s (R327) -/
  | dhcp (die : Nat) (client : Bytes) (timeout : Nat)
  /-- a management port asks a TFTP server for a block of a file in octet mode, at most size bytes: die, server, file, block -/
  | tftp (die : Nat) (server file : Bytes) (block size : Nat)
  /-- bits shifted out at TDO -/
  | tdo (bits : List Bool)
  /-- a pulse on TICK_OUT: the time of its rising edge in ns (R47) -/
  | tickOut (at_ : Nat)
  /-- a sense output's state changed: output number, high impedance or driven -/
  | sense (out : Nat) (highZ : Bool)
  /-- the level a sense output is driven to, in microvolts (R474) -/
  | level (out : Nat) (uv : Int)
  /-- a configuration request answered with Configuration Request Retry Status (R459) -/
  | retry (port : Nat)
deriving DecidableEq, Repr

/-- A buffer reference (R350). -/
structure Buf where
  space : Nat := 0
  win : Nat := 0
  len : Nat := 0
  addr : Nat := 0
deriving DecidableEq, Repr

/-- Block control (R399, R412 to R425, R451, R464). -/
structure Blk where
  arbPlain : Bool := false
  en : Bool := false
  checking : Bool := false
  failed : Bool := false
  stopping : Bool := false
  nfail : Nat := 0
  firstReason : Nat := 0
  corr : Bool := false
  iface : Bool := false
  unit : Bool := false
  poison : Bool := false
  fatal : Bool := false
  fatalCode : Nat := 0
  topoOk : Bool := false
  configOk : Bool := false
  vocabOk : Bool := false
  /-- in reset (R464): RESET_N held low, PWR_GOOD low -/
  resetLow : Bool := false
  powerLow : Bool := false
  /-- output stopped by a thermal trip, and the clocks stopped (R451) -/
  tripped : Bool := false
  shutdown : Bool := false
deriving DecidableEq, Repr

/-- TICK_STATUS.STATE (R503). -/
inductive TickSt where
  | stopped | starting | current | coasting | halted
deriving DecidableEq, Repr

/-- The tick unit (02, 19). -/
structure Tick where
  en : Bool := false
  outEn : Bool := false
  admitHold : Bool := false
  src : Nat := 0
  period : Nat := 100
  ingress : Nat := 35
  egress : Nat := 7
  epoch : Nat := 0
  offset : Nat := 0
  time : Nat := 0
  number : Nat := 0
  coastTotal : Nat := 0
  slew : Int := 0
  inlat : Nat := 0
  slewNext : Option Int := none
  /-- parts of a nanosecond in 10^9ths, gathered by the slewed counter (R39) -/
  slewFrac : Int := 0
  st : TickSt := .stopped
  coastRun : Nat := 0
  srcFault : Bool := false
  haltedBit : Bool := false
  lastArmLate : Bool := false
  /-- a host stop accepted, its edge not yet come (R54) -/
  stopReq : Bool := false
  /-- a forced stop waits for its edge (R413) -/
  forced : Bool := false
  /-- source 0: earliest time of the first edge; R53 -/
  startAt : Nat := 0
  /-- an edge has been made since EN was set, and the group edge it followed (R43) -/
  anchor : Option Nat := none
  /-- block time of the current tick's edge -/
  edgeAt : Nat := 0
  /-- an accepted group edge not yet followed by its block edge (R43) -/
  groupEdge : Option Nat := none
  /-- group tick number of the first accepted TICK message (R46) -/
  groupNum : Option Nat := none
  holdover : Nat := 0
  stray : Nat := 0
  armed : List UnitId := []
  next : List (UnitId × List LaunchEntry) := []
  cur : List (UnitId × List LaunchEntry) := []
  /-- what MA of this tick found: every unit armed or not (R50) -/
  armSample : Option Bool := none
  coastFirst : Nat := 0
  /-- the last phase mark passed in this tick, 0 to 5; 6 at the edge, before M0's actions start -/
  lastMark : Nat := 5
  /-- first tick of the coasting run reached eight unarmed arm deadlines (R64) -/
  haltNext : Bool := false
  /-- descriptors taken by the reads of this tick (R364) -/
  fetched : Nat := 0
  /-- stream slots deferred by their cohort's last list build, in the order of their deferral (R206) -/
  deferred : List Nat := []
  /-- profiles whose sweeps the match sequencers' tables have started in this tick (R48) -/
  sweeps : List Nat := []
deriving DecidableEq, Repr

/-- A packet on its way to a queue: producer, words, poisoned words. -/
structure Pkt where
  prod : Nat := 0
  words : List W64 := []
  poison : Nat := 0
  /-- words that have left stage 0 and stand in the spill SRAM (R296) -/
  out : Nat := 0
  /-- the parity of word 0 failed as it left -/
  hdrBad : Bool := false
  /-- committed words removed to make room for it (R298) -/
  gone : Nat := 0
deriving DecidableEq, Repr

/-- A slot of the sticky mirror (R304, R305). -/
structure Mirror where
  words : List W64 := []
  count : Nat := 0
  lastTick : Nat := 0
deriving DecidableEq, Repr

/-- The producers' side of one instance (R295), with the registers it writes. -/
structure Prod where
  /-- packets waiting for a grant, by producer -/
  wait : Tbl (List Pkt) := []
  lost : Nat := 0
  lostSev : Nat := 0
  /-- the sticky mirror, by slot (notice queue only) -/
  mirror : Tbl Mirror := []
deriving DecidableEq, Repr

/-- A committed packet: SEQ, filed severity, words, poisoned words. -/
structure CPkt where
  seq : Nat := 0
  sev : Nat := 0
  words : List W64 := []
  poison : Nat := 0
deriving DecidableEq, Repr

/-- A read buffer (R301). -/
structure RBuf where
  valid : Bool := false
  sev : Nat := 0
  words : List W64 := []
  poison : Nat := 0
deriving DecidableEq, Repr

/-- One instance of the queue primitive (10). -/
structure QInst where
  /-- packets granted and not yet committed, oldest first -/
  chain : List Pkt := []
  /-- the producer granted last -/
  grantLast : Nat := 0
  /-- committed packets in commit order -/
  committed : List CPkt := []
  /-- count of commits modulo 2^32 -/
  commits : Nat := 0
  /-- SEQ of the last commit -/
  seqLast : Nat := 0
  thresh : Nat := 0
  intEn : Bool := false
  thr : Bool := false
  flushed : Nat := 0
  rewound : Nat := 0
  parErr : Nat := 0
  eccCorr : Nat := 0
  eccUnc : Nat := 0
  rbuf0 : RBuf := {}
  rbuf1 : RBuf := {}
deriving DecidableEq, Repr

/-- The three instances (10). -/
structure Queues where
  notice : QInst := {}
  log : QInst := {}
  fab : QInst := {}
deriving DecidableEq, Repr

/-- Where a mailbox stands. -/
inductive MbPhase where
  /-- no command in progress -/
  | idle
  /-- rung, not begun -/
  | rung
  /-- begun: the checks of R343 steps 1 to 7 passed, the message's own execution is next -/
  | begun
  /-- accepted, waiting for the operation or decision it started (classes C and D) -/
  | waiting
  /-- an answer is ready for MBX_RESPONSE -/
  | ready
deriving DecidableEq, Repr

/-- A prepared answer: STATUS and payload. whole: a response kept from before, written as it stands (R347). -/
structure Ans where
  status : Nat := 0
  payload : Bytes := []
  whole : Option Bytes := none
  /-- the command counts as executed: it is recorded under R347 -/
  executed : Bool := true
deriving DecidableEq, Repr

/-- A mailbox (R338 to R348). -/
structure Mbx where
  area : Memory := []
  respArea : Memory := []
  busy : Bool := false
  resp : Bool := false
  overrun : Bool := false
  lastStatus : Nat := 0
  intEn : Bool := false
  lastSeq : Nat := 0xFFFFFFFF
  stored : Option Bytes := none
  phase : MbPhase := .idle
  /-- the command as captured at the doorbell -/
  cmd : Memory := []
  ans : Option Ans := none
  /-- the command area was written while BUSY (R314) -/
  touched : Bool := false
  /-- the version its command executes under (R342), its place in the order of commands begun (R348), and the guard phases
  run when its answer became ready (R313) -/
  ver : Nat := 0
  begunAt : Nat := 0
  doneAt : Nat := 0
deriving DecidableEq, Repr

/-- A GPIO (R468). -/
structure Gpio where
  func : Nat := 0
  park : Nat := 4
  /-- the function a switch in progress ends in -/
  next : Option Nat := none
  /-- the filtered level its function sees -/
  level : Bool := false
deriving DecidableEq, Repr

/-- A host port (R454 to R459). The PCI Express reset values are PRESUMED, log 15. -/
structure Port where
  busMaster : Bool := false
  msixEn : Bool := false
  d3hot : Bool := false
  /-- vectors whose table entry is unmasked -/
  unmasked : List Nat := []
  /-- the pending-bit array -/
  pend : List Nat := []
  aer : Nat := 0
deriving DecidableEq, Repr

/-- Pins and sideband (17). -/
structure Pins where
  gpio : Tbl Gpio := []
  out : Nat := 0
  throt : Bool := false
  throtAt : Nat := 0
  tripIn : Bool := false
  /-- the block pulls THERM_TRIP_N low itself (R465) -/
  tripOut : Bool := false
  pwrGood : Bool := true
  strap : Nat := 0
  /-- ALERT_CAUSE bits 4:0 and its commit result -/
  alert : Nat := 0
  calResult : Nat := 0
  pecErrors : Nat := 0
  /-- sense outputs parked, with the TICK_TIME their time ends -/
  sensePark : Tbl Nat := []
  /-- the last effective value of each rail in microvolts and its run out of band -/
  rail : Tbl Int := []
  railRun : Tbl Nat := []
  senseStale : Bool := false
  lastFwd : Nat := 0
  /-- the JTAG instruction in force and the boundary-scan register -/
  jtagIr : Nat := 2
  bsr : List Bool := []
  /-- what each TS group's sense output gives: its hottest factory-trimmed reading, signed 1/16 C; none before the first
  sensor reading. Rail voltages at the die sites, in microvolts (R474) -/
  temps : List (Option Int) := []
  vs : Tbl Int := []
deriving DecidableEq, Repr

/-- A die event counter (R509). -/
structure DieCnt where
  source : Nat := 0
  value : Nat := 0
  sat : Bool := false
deriving DecidableEq, Repr

/-- Counters (19). Block counters hold value and saturation. -/
structure Cnts where
  blk : Tbl (Nat × Bool) := []
  snap : Tbl (Nat × Bool) := []
  snapTick : Nat := 0
  snapReq : Bool := false
  clrReq : Bool := false
  /-- die event counters, by die key × 32 + counter -/
  die : Tbl DieCnt := []
  /-- CNT_READ commands that wait for their edge: mailbox, whether the write of its buffer faults -/
  reads : List (Nat × Bool) := []
deriving DecidableEq, Repr

/-- A step program's launch in progress (R152, R153). -/
structure Launch where
  slot : Nat := 0
  entry : Nat := 0
  mark : Nat := 0
  /-- handles of the streams it serves (R151) -/
  streams : List Nat := []
  truncated : Bool := false
  /-- every output of the launch is poisoned (R146, R421) -/
  poison : Bool := false
  /-- 64-byte units it has written: space (1 its core's SRAM, 2 tier 1, 3 tier 2), unit -/
  outs : List (Nat × Nat) := []
deriving DecidableEq, Repr

/-- An engine's input buffer (R133): its row, ready or still filling; the BF16 row a QZ read, its outlier channels and the
channel at which this engine's part begins (R98). -/
structure InBuf where
  row : Row := {}
  ready : Bool := false
  src : Option (List Nat × List Nat × Nat) := none
  /-- address of the ring entry it was fetched from (R118) -/
  ring : Option Nat := none
deriving DecidableEq, Repr

/-- One engine (04). -/
structure Eng where
  w : Weights := {}
  bufs : List InBuf := []
  /-- a pass is in progress -/
  busy : Bool := false
  /-- the row of the last pass and its source, for reference mode (R98) -/
  last : Option (InBuf × Nat × FF) := none
  /-- what the last pass delivered, as its bytes, and the engines whose sum it is, the one that rescaled first -/
  lastOut : Bytes := []
  chain : List Nat := []
  /-- where that stands in SRAM -/
  lastAt : Nat := 0
  /-- what passes wrote in the present tick: tick, and address and bytes of each (R108) -/
  outTick : Nat := 0
  outs : List (Nat × Nat) := []
  quant : Tbl Nat := []
  clip : Tbl Nat := []
  /-- values quantised and clipped by group since the last clip check, and the groups it found above threshold (R96) -/
  span : Tbl (Nat × Nat) := []
  clipHigh : List Nat := []
  /-- arrays marked for retirement, and the array the spare serves as -/
  marked : List Nat := []
  spareFor : Option Nat := none
  /-- tick of the last clean scrub of a row (a × 1,024 + r) -/
  scrubbed : Tbl Nat := []
  /-- rows read in the present sweep of each array (R107) -/
  swept : List Nat := []
  /-- the check bits of each row (R105) -/
  check : Tbl (BitVec 12) := []
deriving DecidableEq, Repr

/-- What one engine of a pass writes: engine, address, bytes (none where a chain's head writes for it). -/
structure PassOut where
  engine : Nat
  addr : Nat := 0
  data : Bytes := []
  /-- a scrub found a row of its arrays uncorrectable while the pass ran (R108) -/
  poison : Bool := false
deriving DecidableEq, Repr

/-- A pass in progress (R134). -/
structure Pass where
  outs : List PassOut := []
  group : Nat := 0
  ff : FF := .bf16
  poison : Bool := false
  flag : Option (Fin 32) := none
deriving DecidableEq, Repr

/-- A fill in progress of the input buffers by a QZ or CF. -/
structure Fill where
  engines : List Nat := []
  flag : Option (Fin 32) := none
deriving DecidableEq, Repr

/-- A queued instruction of queue D (R143, R145). -/
inductive DOp where
  | dm (list count : Nat) (flag : Option (Fin 32))
  | fence (flag : Option (Fin 32))
deriving DecidableEq, Repr

/-- A SIG on its way (R150): DMs it still waits for. -/
structure Sig where
  die : Nat
  idx : Nat
  n : Nat
  dms : Nat
deriving DecidableEq, Repr

/-- A LOOP in progress (R130): words of its body, and iterations left after this one. -/
structure LoopFrame where
  start : Nat
  stop : Nat
  left : Nat
deriving DecidableEq, Repr

/-- A record in a head core's ring (R118). -/
structure RingEnt where
  handle : Nat
  tick : Nat
  addr : Nat
  len : Nat
  /-- engines whose pass over it has ended -/
  done : List Nat := []
deriving DecidableEq, Repr

/-- One active core (04, 05). -/
structure CoreSt where
  slot : Option Nat := none
  rep : Nat := 0
  lidx : Nat := 0
  phys : Option Nat := none
  loading : Bool := false
  retired : Bool := false
  launch : Option Launch := none
  v : Tbl (List W32) := []
  vpois : List Nat := []
  s : Tbl W64 := []
  spois : List Nat := []
  flags : Tbl Nat := []
  pc : Nat := 0
  loops : List LoopFrame := []
  /-- an instruction that stalls dispatch -/
  stalled : Option Instr := none
  nanFlag : Bool := false
  qq : List QzOp := []
  qf : List CfOp := []
  qFill : Option Fill := none
  fFill : Option Fill := none
  qm : List MxOp := []
  /-- queue V: vector instructions that wait for the vector unit (R126) -/
  qv : List Instr := []
  qd : List DOp := []
  qh : List MqOp := []
  passes : List Pass := []
  /-- the DM at the head of its queue has started -/
  dStarted : Bool := false
  /-- credits that the keys of the MQ at the head of queue H hold; 0 while it waits for one (R186) -/
  hOut : Nat := 0
  sigs : List Sig := []
  eng : Tbl Eng := []
  /-- poisoned 64-byte units of core SRAM (R420) -/
  pois : List Nat := []
  ring : List RingEnt := []
  ringPtr : Nat := 0
  /-- the instruction store (R116) -/
  istore : Memory := []
deriving DecidableEq, Repr

/-- A DMA window of a slot (R146): space, base, length. -/
structure DmaWin where
  space : Nat := 0
  base : Nat := 0
  len : Nat := 0
deriving DecidableEq, Repr

/-- A placed core of a slot. -/
structure Binding where
  rep : Nat
  lidx : Nat
  die : Nat
  core : Nat
deriving DecidableEq, Repr

/-- States of a model slot (R165). -/
inductive SlotState where
  | empty | staged | loading | resident | inService
deriving DecidableEq, Repr

/-- A model slot (05). The image is its tier-1 shadow copy (R120). -/
structure Slot where
  st : SlotState := .empty
  /-- SLOT_LOAD accepted, its image not yet verified -/
  bringing : Bool := false
  img : Memory := []
  imgLen : Nat := 0
  /-- where the shadow copy stands in tier 1 -/
  base : Nat := 0
  imageId : Nat := 0
  nrep : Nat := 0
  bind : List Binding := []
  /-- replicas out of service, with the cores whose load they wait for -/
  out : List (Nat × List Nat) := []
  mqShare : Nat := 0
  clipPpm : Nat := 0
  dieMask : Nat := 0
  u : Nat := 0
  l : Nat := 0
  /-- an accepted request to enter (true) or leave service at a tick -/
  move : Option (Bool × Nat) := none
  wins : List DmaWin := []
  /-- mailbox that waits for the load or the placement -/
  mb : Option Nat := none
  /-- replicas whose re-placement failed for want of a core (R434): replica, logical core -/
  wanting : List (Nat × Nat) := []
  /-- tempering commits of its image (R496) -/
  commits : Nat := 0
deriving DecidableEq, Repr

/-- A repair entry (R440). -/
structure RepairEnt where
  kind : Nat := 0
  state : Nat := 0
  reason : Nat := 0
  dkind : Nat := 0
  die : Nat := 0
  pos : Nat := 0
  phys : Nat := 0
  aux : Nat := 0
  time : Nat := 0
  /-- committed in a REPAIR record (R440) -/
  saved : Bool := false
deriving DecidableEq, Repr

/-- A calibration entry: item, scope, factory value, user offset (R443). -/
structure CalEnt where
  item : Nat := 0
  scope : Nat := 0
  factory : Int := 0
  user : Int := 0
deriving DecidableEq, Repr

/-- A journal record (R445): SEQ, TYPE, payload, present and whole in copy 0 and in copy 1. -/
structure JRec where
  seq : Nat := 0
  type : Nat := 0
  payload : Bytes := []
  c0 : Bool := false
  c1 : Bool := false
deriving DecidableEq, Repr

/-- What HEALTH counts of a unit's wear signals (R431): readings of its slack in a row below half the factory value, corrected
errors and uncorrectable rows with the powered time each was found at. -/
structure Wear where
  slackRun : Nat := 0
  corr : List (Nat × Nat) := []
  uncorr : List (Nat × Nat) := []
deriving DecidableEq, Repr

/-- Service life: spares, repair map, calibration, store, wear (16). -/
structure Svc where
  repair : List RepairEnt := []
  repairSeq : Nat := 0
  /-- spares in use: (kind, group) -/
  spares : List (Nat × Nat) := []
  /-- units in planned retirement, their spare loading: unit, reason -/
  planned : List (RUnit × Nat) := []
  /-- units that crossed a planned level: unit, signal (R432) -/
  warned : List (RUnit × Nat) := []
  /-- HEALTH's counts by unit (R431, R432) -/
  wear : List (RUnit × Wear) := []
  /-- row repairs copied, whose remap waits for the edge (R438): unit, row, planned -/
  rowWait : List (RUnit × Nat × Bool) := []
  /-- powered life in ns: POWER_ON_S is its whole seconds (R440) -/
  poweredNs : Nat := 0
  factory : List CalEnt := []
  user : List CalEnt := []
  /-- the user values that items 0x02 and 0x03 use: those of the last block tick edge (R441) -/
  userEdge : List CalEnt := []
  calOpen : Option (List CalEnt) := none
  journal : List JRec := []
  jseq : Nat := 0
  /-- spare blocks left and usable journal blocks of each control die -/
  spareBlk : Tbl Nat := []
  journalBlk : Tbl Nat := []
  storeLow : List Nat := []
  /-- store blocks in bad state: die × 256 + block -/
  badBlk : List Nat := []
  causes : List Nat := []
  /-- channel copies to the spare (stack × 16 + channel) -/
  copying : List Nat := []
  copyDone : List Nat := []
  /-- 4 KiB units of the channels being copied that the copy has read -/
  copied : List Nat := []
  /-- channels whose fault retirement waits for the edge -/
  chanFault : List Nat := []
  /-- units whose fault retirement is decided (R435) -/
  decided : List RUnit := []
  /-- spare rows used: key of stack, channel and DRAM bank -/
  rowsUsed : Tbl Nat := []
  /-- background work that is urgent: kind (row of R403's table), location -/
  urgent : List (Nat × Nat) := []
  /-- tick of the last clip check (R96) -/
  clipAt : Nat := 0
  /-- a TRIP record not yet reported, and whether one was reported since reset -/
  tripRecord : Option Bytes := none
  tripReported : Bool := false
deriving DecidableEq, Repr

/-- A match entry (R170). KEY is held as KEY AND MASK. par: PAR as it stands stored. -/
structure MEntry where
  key : Nat := 0
  mask : Nat := 0
  prio : Nat := 0
  action : Nat := 0
  valid : Bool := false
  par : Nat := 0
deriving DecidableEq, Repr

/-- A group or set descriptor and, for groups, its class map. -/
structure Desc where
  gen : Bool := false
  defined : Bool := false
  accept : Nat := 0
  start : Nat := 0
  classMap : Bytes := []
deriving DecidableEq, Repr

/-- An update record (06), the list it came in and the steps it has taken. -/
structure UpdRec where
  list : Nat := 0
  op : Nat := 0
  addr : Nat := 0
  ent : MEntry := {}
  /-- COMMIT: its group (0) or set (1); other records: the group or set their key belongs to, kind 2 for none -/
  kind : Nat := 0
  id : Nat := 0
  /-- place in the order of submission (R195) -/
  ord : Nat := 0
  /-- 0 not begun; 1, 2: steps of the three-step path done -/
  step : Nat := 0
deriving DecidableEq, Repr

/-- An update list in progress (R195): its mailbox, records still in tier 1, what it has done. -/
structure UpdList where
  id : Nat := 0
  mb : Nat := 0
  waiting : List UpdRec := []
  left : Nat := 0
  one : Nat := 0
  three : Nat := 0
  /-- COMMITs not yet in effect: place in the order of submission, kind, id -/
  commits : List (Nat × Nat × Nat) := []
  lastCommit : Nat := 0
deriving DecidableEq, Repr

/-- A match bank (R196, R201). -/
structure Bank where
  mode : Nat := 0
  steal : Bool := true
  budget : Nat := 512
  used : Nat := 0
  queue : List UpdRec := []
  outOfService : Bool := false
  phys : Option Nat := none
deriving DecidableEq, Repr

/-- Match storage of both gate dies, with the shadow in tier 1 (06). -/
structure Match where
  profiles : Tbl Bytes := []
  groups : Tbl Desc := []
  sets : Tbl Desc := []
  actions : Tbl Nat := []
  lists : Tbl Nat := []
  repl : Tbl Bytes := []
  vocIdx : Tbl Nat := []
  pool : Memory := []
  ntok : Nat := 0
  banks : Tbl Bank := []
  entries : Tbl MEntry := []
  /-- the match shadow: entries, profiles, descriptors, actions as accepted (R200) -/
  shadow : Tbl MEntry := []
  shProfiles : Tbl Bytes := []
  shGroups : Tbl Desc := []
  shSets : Tbl Desc := []
  shActions : Tbl Nat := []
  updLists : List UpdList := []
  nextList : Nat := 0
  nextOrd : Nat := 0
  /-- COMMITs that take effect at the edge just passed: place, kind, id (R198) -/
  due : List (Nat × Nat × Nat) := []
  /-- the result record fixed last (R173) -/
  result : Nat := 0
  /-- addresses whose last scrub failed parity -/
  scrubFail : List Nat := []
  /-- stream slots whose automata replay before their next sweep: slot, group (R199, R511) -/
  replay : List (Nat × Nat) := []
  /-- counted events of 06: TRANS misses, SCORE hits without category, COMMITs -/
  misses : Nat := 0
  uncat : Nat := 0
  commits : Nat := 0
deriving DecidableEq, Repr

/-- A policy: last accepted record and version, and the record and version in effect (R234). -/
structure Policy where
  last : Bytes := []
  lastVer : Nat := 0
  cur : Option (Bytes × Nat) := none
deriving DecidableEq, Repr

/-- A fetched descriptor or accepted message waiting for its decision: the 64 bytes, the sampling record or token-buffer
words it brought, the decision tick, the mailbox that waits (R239, R264). held: it arrived in a tick that holds admission
(R62). -/
structure Waiting where
  desc : Bytes := []
  srec : Option Bytes := none
  tick : Nat := 0
  mb : Option Nat := none
  held : Bool := false
deriving DecidableEq, Repr

/-- A record or event unit that waits for a step batch (R371). -/
structure JobOut where
  tag : Nat := 0
  /-- first cohort tick whose batch may carry it -/
  due : Nat := 0
  body : Bytes := []
  /-- first cohort tick whose batch left it held -/
  since : Option Nat := none
deriving DecidableEq, Repr

/-- What a slot that its stream has left still owes: positions and words released, event entries, held by a short batch;
the end indication of the next token packet, with position and epoch (R277, R386). -/
structure Gone where
  slot : Nat := 0
  handle : Nat := 0
  toks : List (Nat × Nat) := []
  evts : List (Nat × Bytes) := []
  since : Option Nat := none
  endInd : Option (Nat × Nat) := none
deriving DecidableEq, Repr

/-- A write to a ring in a window: the ring, its BUF, the index of the first entry, the entries, the control line that follows. -/
structure RingWait where
  ring : Nat
  buf : Buf
  index : Nat
  ents : List Bytes
  line : Bytes
deriving DecidableEq, Repr

/-- A context (R352, R362 to R372). state: 0 unconfigured, 1 configured, 2 enabled, 3 disabling. -/
structure Ctx where
  state : Nat := 0
  cohort : Nat := 0
  headSlot : Nat := 255
  classes : List (Nat × Nat) := []
  maxStreams : Nat := 0
  jobQuota : Nat := 0
  maxPos : Nat := 0
  defTtl : Nat := 0
  defTarget : Nat := 0
  ringsSet : Bool := false
  vec : Nat := 0
  sub : Buf := {}
  cpl : Buf := {}
  bat : Buf := {}
  shares : Tbl Nat := []
  subProd : Nat := 0
  subCons : Nat := 0
  cplProd : Nat := 0
  cplCons : Nat := 0
  batProd : Nat := 0
  batCons : Nat := 0
  bseq : Nat := 0
  deferrals : Nat := 0
  /-- deferrals at the last notice of them -/
  defNoted : Nat := 0
  truncs : Nat := 0
  /-- job TAGs in use (R356) -/
  tags : List Nat := []
  waiting : List Waiting := []
  /-- job records ready or held for a batch -/
  recs : List JobOut := []
  /-- refused OPEN and RESUME events (R370) -/
  evts : List JobOut := []
  /-- units of streams that have left their slots -/
  gone : List Gone := []
  areaBase : Nat := 0
  areaUnits : Nat := 0
  /-- ticks at which an accepted enable or disable takes effect -/
  enableAt : Option Nat := none
  holdFrom : Option Nat := none
  /-- counts of breaches of ranks 2 and 3 and of poison sinks (R388, R422) -/
  breach2 : Nat := 0
  breach3 : Nat := 0
  breach4 : Nat := 0
  poisoned : Nat := 0
  /-- the last re-check failed (R417) -/
  checkFailed : Bool := false
  /-- step-batch PROD values not yet consumed, with the tick each was written (R372) -/
  unread : List (Nat × Nat) := []
  /-- whether the host's step-batch CONS breaks R363, so no room is taken as free (R513) -/
  batBad : Bool := false
  /-- rings (0 submission, 1 completion) whose writes fail until the next submission read (R457) -/
  badRings : List Nat := []
  /-- writes to rings in windows whose PROD waits for the WACKs of their entries (R363), and the rings (1 completion, 2 step
  batch) of which an entry's write failed and is to be repeated -/
  ringWait : List RingWait := []
  ringBad : List Nat := []
  /-- descriptors of the present read still to fetch (R364) -/
  fetchLeft : Nat := 0
  /-- completion entries not yet written, and the submission CONS last written (R365) -/
  cplWait : List Bytes := []
  subOut : Nat := 0
  /-- tick of the first of the present run of short batches (R371) -/
  shortFrom : Option Nat := none
deriving DecidableEq, Repr

/-- A hit on a token: segment or 0, position, ACTION, address, COUNT, MULTI. -/
structure Hit where
  seg : Nat := 0
  pos : Nat := 0
  action : Nat := 0
  addr : Nat := 0
  count : Nat := 0
deriving DecidableEq, Repr

/-- A calendar cell of a job: slot, replica, tick, units (R242). Slot 256 is its TOKEN keys, slot 257 its bytes (R244). -/
structure Cell where
  slot : Nat := 0
  rep : Nat := 0
  tick : Nat := 0
  units : Nat := 0
deriving DecidableEq, Repr

/-- An admitted job (08). -/
structure Job where
  ctx : Nat := 0
  tag : Nat := 0
  cls : Nat := 0
  policy : Nat := 0
  pol : Bytes := []
  polVer : Nat := 0
  admitAt : Nat := 0
  delay : Nat := 0
  segs : List (Nat × Nat) := []
  nbytes : Nat := 0
  tokbuf : Buf := {}
  detbuf : Buf := {}
  ntok : Nat := 0
  /-- tick in which the token copy is made: A + 1, or that of a replan (R246) -/
  copyAt : Nat := 0
  /-- token words as copied; none before the copy -/
  tokens : Option (List Nat) := none
  pool : Nat := 0
  cells : List Cell := []
  hits : List Hit := []
  swept : List Nat := []
  poison : Bool := false
  /-- reasons of faults found after admission -/
  faults : List Nat := []
  cancelAt : Option Nat := none
  /-- its cells were lost and could not be replanned: the reason of its LATE -/
  lost : Option Nat := none
  /-- cells lost that await a replan, and the reason of the LATE if none is found -/
  undone : List Cell := []
  why : Nat := 0x22
  /-- the token copy of tick A + 1 was dropped (R246) -/
  copyLost : Bool := false
  /-- its record waits for a batch: its table entry stands until the batch is written (R371) -/
  emitted : Bool := false
  scores : List ScoreVec := []
  /-- record composed: its 64-byte body before DELIVER and CRC -/
  done : Option Bytes := none
  stopped : Bool := false
deriving DecidableEq, Repr

/-- A stream's match state (R190): histories, automata by group, numbers of the profiles that screen it (TOKEN, BYTE, TRANS,
CONT), and the generations that its groups, by number, and its continuation set are pinned to. -/
structure MState where
  toks : List Nat := []
  bytes : List Nat := []
  autos : List (Nat × Nat) := []
  profs : List Nat := []
  pins : Tbl Bool := []
  setPin : Bool := false
deriving DecidableEq, Repr

/-- A held token (R222): position, token, flags of its word, sweep finished, match summary clear. -/
structure Held where
  pos : Nat := 0
  tok : Nat := 0
  trunc : Bool := false
  repl : Bool := false
  flag : Bool := false
  swept : Bool := false
  clear : Bool := false
deriving DecidableEq, Repr

/-- An answer check (R222, R255 to R257): its span, epoch, policy record, the tick it was queued in (later by the ticks that
do not count), launched, the last of its stream (R224), found late; its scores and poison, once they have come. -/
structure Check where
  lo : Nat := 0
  hi : Nat := 0
  epoch : Nat := 0
  pol : Bytes := []
  queued : Nat := 0
  launched : Bool := false
  short : Bool := false
  late : Bool := false
  scores : Option (List W32 × Bool) := none
deriving DecidableEq, Repr

/-- A failure known to the gate die and not yet acted on (R225, R226): beginning of its span; action 0 quench,
1 rewind, 2 redact; verdict and reason of a quench; replacement tokens; reason of the rewind command. -/
structure Fail where
  start : Nat := 0
  act : Nat := 0
  verdict : Nat := 2
  reason : Nat := 64
  repl : List Nat := []
  why : Nat := 1
  /-- position of the token whose match sweep found it; none for a check's -/
  found : Option Nat := none
deriving DecidableEq, Repr

/-- A page of a stream (R273). -/
structure Page where
  tier2 : Bool := false
  pstate : Nat := 0
  page : Nat := 0
  /-- tick in which it was borrowed -/
  since : Nat := 0
  /-- tier-1 page it is being moved to (R272) -/
  to_ : Option Nat := none
deriving DecidableEq, Repr

/-- Stream slot states (R262). -/
inductive SSt where
  | free | opening | waiting | active | draining | pauseDrain | pausing | resuming | closing
deriving DecidableEq, Repr

/-- A slice summary received (R210). -/
structure Summary where
  core : Nat := 0
  poison : Bool := false
  lse : Nat := 0
  zmax : Nat := 0
  zidx : Nat := 0
  unmasked : Nat := 0
  cand : List (Nat × Nat) := []
deriving DecidableEq, Repr

/-- A pause accepted on a stream (R279). -/
structure PauseReq where
  id : Nat := 0
  ttl : Nat := 0
  target : Nat := 0
  room : Nat := 0
  /-- tick of its decision (R291) -/
  at_ : Nat := 0
  /-- pages given at the target once the copy begins, that of the pause record first -/
  pages : List Nat := []
  /-- cohort tick at whose boundary the stream entered PAUSING -/
  entered : Nat := 0
deriving DecidableEq, Repr

/-- A stream slot (07, 09). -/
structure Str where
  gen : Nat := 0
  st : SSt := .free
  ctx : Nat := 0
  cohort : Nat := 0
  policy : Nat := 0
  samp : Bytes := []
  bias : List (Nat × Nat) := []
  hostTag : Nat := 0
  start : Nat := 0
  headSlot : Nat := 0
  /-- its answer slot, bound at the open; 255 none -/
  ansSlot : Nat := 255
  seat : Option Nat := none
  waitSince : Nat := 0
  /-- model slots it has stepped under (R288) -/
  stepped : List Nat := []
  pos : Nat := 0
  maxPos : Nat := 0
  rew : Nat := 0
  ended : Bool := false
  redacted : Bool := false
  ms : MState := {}
  ms0 : MState := {}
  /-- the snapshot ring: 128 bytes at each position modulo 128 (R190) -/
  snaps : Tbl Bytes := []
  pen : List Nat := []
  hold : List Held := []
  /-- positions and words released, not yet written to a batch -/
  outToks : List (Nat × Nat) := []
  /-- event entries not yet written, with the first cohort tick whose batch may carry each (R264) -/
  outEvts : List (Nat × Bytes) := []
  /-- first cohort tick whose batch left its unit held -/
  since : Option Nat := none
  /-- rewind bans and counts of rewinds, by position (R228, R230) -/
  bans : Tbl (List Nat) := []
  tries : Tbl Nat := []
  checks : List Check := []
  /-- spans whose check has passed: first and last position (R222) -/
  passed : List (Nat × Nat) := []
  /-- SCORE hits by position (R236) -/
  score : Tbl (List Hit) := []
  fails : List Fail := []
  /-- a rewind or redaction that takes effect at the next boundary: r, forced tokens, reason -/
  redo : Option (Nat × List Nat × Nat) := none
  pages : Tbl Page := []
  /-- coming cohort ticks for which a skip marker has arrived (R379) -/
  skipAt : List Nat := []
  /-- this tick: ingress opened for it, record received, skip marker, hold-full, page-wait, deferred, aborted launch -/
  opened : Bool := false
  recIn : Bool := false
  skipIn : Bool := false
  holdFull : Bool := false
  pageWait : Bool := false
  deferred : Bool := false
  noSample : Bool := false
  /-- a sampling pass of this tick lists it (R48) -/
  listed : Bool := false
  /-- banned next tokens of the step; none when the search was poisoned (R179) -/
  cont : Option (List Nat) := some []
  /-- its place in the work list of its replica this tick (R204) -/
  entry : Option Nat := none
  sums : List Summary := []
  /-- position and token sampled in this tick -/
  chosen : Option (Nat × Nat) := none
  misses : Nat := 0
  missNoted : Bool := false
  /-- misses and missNoted as the sampling of this tick found them -/
  priorMisses : Nat × Bool := (0, false)
  skips : Nat := 0
  /-- ticks it overran, counted apart from its skips (R56) -/
  overruns : Nat := 0
  truncs : Nat := 0
  cancelAt : Option Nat := none
  pause : Option PauseReq := none
  /-- its pause copy or page-in has failed (R289) -/
  copyFail : Bool := false
  /-- pause ID of the state being restored -/
  restoring : Nat := 0
  /-- CLOSING: the cohort tick at whose boundary the slot becomes FREE -/
  closeAt : Nat := 0
deriving DecidableEq, Repr

/-- A saved stream state (R281). st: 1 PAUSED, 2 MIGRATING, 3 RESTORING. -/
structure Saved where
  id : Nat := 0
  st : Nat := 1
  target : Nat := 0
  npages : Nat := 0
  /-- pages it occupies at its target, that of the pause record first -/
  t2 : List Nat := []
  expiry : Nat := 0
  imageId : Nat := 0
  str : Str := {}
  /-- the target it is being moved to and its pages there (R290) -/
  to_ : Option (Nat × List Nat) := none
  /-- a transaction of that move has failed -/
  fail : Bool := false
deriving DecidableEq, Repr

/-- What moves pages or an image over tier 2 or the fabric (R272, R274, R281, R285, R290). -/
inductive MoveId where
  | back (slot chunk : Nat)
  | resume (slot : Nat)
  | pause (slot : Nat)
  | saved (entry : Nat)
  | load (slot : Nat)
  /-- entries written to a ring in a window (R363) -/
  | ring (ctx ring : Nat)
deriving DecidableEq, Repr
/-- A transfer under the tier-2 budget: pages still to move, and the first tick that may move them. -/
structure Move where
  id : MoveId
  left : Nat
  first : Nat
deriving DecidableEq, Repr

/-- A fabric window (R357). -/
structure Win where
  pauseOk : Bool := false
  rtt : Nat := 0
  base : Nat := 0
  len : Nat := 0
  tier : Nat := 0
  writable : Bool := false
  loc : Nat := 0
  depart : Option Nat := none
deriving DecidableEq, Repr

/-- A window transaction (R382). -/
structure Txn where
  tag : Nat := 0
  win : Nat := 0
  addr : Nat := 0
  bytes : Nat := 0
  write : Bool := false
  /-- issuing core key of a DM; none for a copy of the tiers role -/
  core : Option Nat := none
  /-- the copy it belongs to: a pause, a page-in or a saved state's move -/
  own : Option MoveId := none
  /-- where read data goes: space (0 a core's SRAM, 1 nowhere, 2 tier 1, 3 tier 2, 16 + w window w), core key, address -/
  dspace : Nat := 0
  dkey : Nat := 0
  dst : Nat := 0
  /-- TICK_TIME at which it was sent (R382) -/
  sentAt : Nat := 0
deriving DecidableEq, Repr

/-- Tiers, pages and windows (09, 13, 17). -/
structure Tiers where
  pageMain : Nat := 0
  highWm : Nat := 922
  lowWm : Nat := 768
  jobPool : Nat := 0
  scrubS : Nat := 60
  mainUse : Nat := 0
  escUse : Nat := 0
  /-- tier-1 and tier-2 page numbers in use -/
  t1 : List Nat := []
  t2 : List Nat := []
  /-- tier-1 pages freed and not yet credited (R403) -/
  freed : List Nat := []
  poolUse : Nat := 0
  linkMask : Nat := 0
  pageBase : Nat := 0
  pageLen : Nat := 0
  stageBase : Nat := 0
  stageLen : Nat := 0
  linksOut : List Nat := []
  imports : Tbl Win := []
  exports : Tbl Win := []
  saved : Tbl Saved := []
  useCount : Tbl Nat := []
  txns : List Txn := []
  /-- transactions that wait for a place among their I/O die's 1,024, oldest first, with a write's data (R382) -/
  waitTx : List (Txn × Bytes) := []
  nextTag : Nat := 0
  /-- check-read budget spent this tick, in pages (R275) -/
  checkRead : Nat := 0
  /-- transfers under way, oldest first (R274) -/
  moves : List Move := []
  /-- poisoned 64-byte units of tier 1 -/
  pois1 : List Nat := []
  /-- units of tier 2 written with poisoned data -/
  pois2 : List Nat := []
  /-- channels that lost their contents (stack × 16 + channel), and the 64-byte units written whole since (R437) -/
  lostChan : List Nat := []
  rewritten : List Nat := []
  /-- area units allocated: (context, base unit, units) -/
  areas : List (Nat × Nat × Nat) := []
deriving DecidableEq, Repr

/-- A neighbour (R351). -/
structure Nbr where
  id : Nat := 0
  kind : Nat := 0
  xdie : Nat := 0
deriving DecidableEq, Repr

/-- A record being reassembled (R378). -/
structure Reasm where
  handle : Nat := 0
  tick : Nat := 0
  die : Nat := 0
  rlen : Nat := 0
  frags : List (Nat × Bytes) := []
  /-- discarded at an ingress close: fragments that still come are dropped (R378) -/
  dead : Bool := false
deriving DecidableEq, Repr

/-- A fabric port (R375), in units of 64 bytes and by VC: what packets received hold of its buffers, credits spent on packets
sent and not returned; packets waiting to be sent with their VC, oldest first; packets sent since VC2 had one ready. -/
structure FabPort where
  held : Tbl Nat := []
  spent : Tbl Nat := []
  wait : List (Nat × Bytes) := []
  since : Nat := 0
deriving DecidableEq, Repr

/-- The fabric side (13). -/
structure Fabric where
  ports : Tbl FabPort := []
  groupId : Nat := 0
  selfId : Nat := 0
  masterId : Nat := 0
  nbrs : List Nbr := []
  reasm : List Reasm := []
  delay : Option Int := none
  integ : Int := 0
  /-- T1, T2, SYNCNO of the SYNC the pending DREQ names, its T3, and SYNCs since the last DREQ -/
  sync : Option (Nat × Nat × Nat) := none
  t3 : Nat := 0
  syncs : Nat := 0
  lastNo : Nat := 0
  lastAt : Nat := 0
  lostNoted : Bool := false
  /-- counted and dropped: stale records, stale skips, foreign TICK packets, invalid records -/
  stale : Nat := 0
  skipsLost : Nat := 0
  foreign : Nat := 0
  invalid : Nat := 0
  /-- invalid records by reason: place of the condition in R94's list, 11 for a header that names another handle or tick -/
  invalidBy : Tbl Nat := []
deriving DecidableEq, Repr

/-- A firmware image as a bank holds it (R323). -/
structure FwImg where
  valid : Bool := false
  ver : Nat := 0
  svn : Nat := 0
  ifMin : Nat := 0x0300
  ifMax : Nat := 0x0302
  hoMin : Nat := 0
  hoOut : Nat := 0
  keyIdx : Nat := 0
  digest : Bytes := []
  /-- the bytes written into the bank; none: the image the block left the factory with, which passed R324 -/
  data : Option Bytes := none
deriving DecidableEq, Repr

/-- One half of a role's checkpoint area (R312): the tick it was written in, its bytes, and the CRC-32C its die's checkpoint
engine computed as they were written. -/
structure Half where
  tick : Nat := 0
  bytes : Bytes := []
  crc : Nat := 0
deriving DecidableEq, Repr

/-- A firmware role (R308 to R321). core: control die × 6 + core. state: 0 RUNNING, 1 RESTARTING, 2 LOST. -/
structure Role where
  core : Nat := 0
  state : Nat := 0
  period : Nat := 50
  periodNext : Option Nat := none
  restarts : Nat := 0
  moves : Nat := 0
  /-- TICK_TIME of the last expiry of its present core -/
  lastExpiry : Option Nat := none
  /-- its checkpoint area, and the half its commit word names (R312) -/
  half0 : Half := {}
  half1 : Half := {}
  word : Nat := 0
  /-- TICK_TIME of the last kick of its watchdog (R315), and the number of the guard phase in which it last committed -/
  kickAt : Nat := 0
  commitAt : Nat := 0
deriving DecidableEq, Repr

/-- The hand-off record (R333): its header and section table, and the sections by type. -/
structure Hand where
  head : Bytes := []
  secs : Tbl Bytes := []
deriving DecidableEq, Repr

/-- A live update under way (R330 to R332): Q, stage 0 accepted, 1 quiet tick, 2 switched, 3 rolled back. -/
structure Update where
  q : Nat := 0
  stage : Nat := 0
  old : FwImg := {}
  /-- coasting ticks counted up to the switch -/
  coasted : Nat := 0
  /-- adoption refused; a role core expired during the exchange (R332) -/
  refused : Bool := false
  expired : Bool := false
  /-- types of the record's sections not adopted (R334) -/
  ignored : List Nat := []
deriving DecidableEq, Repr

/-- Firmware (11). stage: 0 ROM, 1 NETBOOT, 2 LOADING, 3 BRINGUP, 4 READY, 5 RECOVERY. -/
structure Fw where
  stage : Nat := 0
  bank : Nat := 0
  mbxUp : Bool := false
  vis : Nat := 0
  updState : Nat := 0
  updResult : Nat := 0
  updTick : Nat := 0
  run : FwImg := { ifMin := 0, ifMax := 0 }
  bootCfg : Nat := 0x44
  bootCfgNext : Nat := 0x44
  bankA : FwImg := { valid := true }
  bankB : FwImg := {}
  minSvn : Nat := 0
  /-- fused key hashes by slot, and revoked slots -/
  keys : Tbl Bytes := []
  revoked : List Nat := []
  roles : Tbl Role := []
  badCores : List Nat := []
  /-- an image being written into the inactive bank: mailbox, image, its UPD_RESULT (0 none) and STATUS -/
  loading : Option (Nat × FwImg × Nat × Nat) := none
  staged : Option FwImg := none
  upd : Option Update := none
  /-- enabled trace points: first, last -/
  traces : List (Nat × Nat) := []
  traceCount : Nat := 0
  traceDrops : Nat := 0
  /-- tick of the trace packets counted in traceCount -/
  traceTick : Nat := 0
  /-- tick of the last FW_TRACE_DROP -/
  traceNoted : Nat := 0
  /-- a bank write begun and not ended: BANK_BEGIN without BANK_DONE (R450) -/
  bankTorn : Bool := false
  mbxRot : Nat := 0
  /-- commands begun (R348) -/
  begun : Nat := 0
  /-- calibration CRCs of the copies as boot found them -/
  calOk : Bool := true
  /-- guard phases run: the checkpoint commits of one share its number (R313) -/
  commits : Nat := 0
  /-- the last update rolled back, and MBX_UP has not risen since (R332) -/
  rolled : Bool := false
  /-- the image in the idle half of every control core's instruction memory (R331), and the hand-off record -/
  idle : Option FwImg := none
  hand : Option Hand := none
deriving DecidableEq, Repr

/-- A reference run (R98). -/
structure RefRun where
  die : Nat := 0
  core : Nat := 0
  engine : Nat := 0
  slot : Nat := 0
  mode : Nat := 0
  ticks : Nat := 0
  tol : Nat := 0
  first : Nat := 0
  compared : Nat := 0
  skipped : Nat := 0
  mismatches : Nat := 0
  running : Bool := true
  /-- the last tick in which it made a comparison, and the last counted as skipped (R100) -/
  cmpAt : Option Nat := none
  skipAt : Option Nat := none
  /-- per column: largest absolute difference in units of 2^-149, sum of squared differences in units of 2^-298, and passes
  whose difference is not finite -/
  stats : Tbl (Nat × Nat × Nat) := []
deriving DecidableEq, Repr

/-- A tempering run (18). state: 0 idle, 1 running, 2 complete, 3 committing. -/
structure Temper where
  state : Nat := 0
  slot : Nat := 0
  share : Nat := 0
  steps : Nat := 0
  done : Nat := 0
  rate : Nat := 0
  buf : Buf := {}
  decl : Bytes := []
  seed : Nat := 0
  first : Nat := 0
  loss : Nat := 0
  cores : List (Nat × Nat) := []
  master : Tbl Nat := []
  qm : Tbl Int := []
  qv : Tbl Nat := []
  sm : Tbl Nat := []
  sv : Tbl Nat := []
  /-- where its moments stand in tier 1, and their bytes -/
  base : Nat := 0
  moments : Nat := 0
  /-- edge E of an accepted commit, and the tick of its acceptance (R495) -/
  edge : Nat := 0
  accepted : Nat := 0
  /-- the requantised image, and where it stands in tier 1 as the new shadow copy -/
  ready : Option Memory := none
  shadow : Nat := 0
  /-- cores loaded for the rebinding: (logical core, replica, die, core) -/
  loads : List (Nat × Nat × Nat × Nat) := []
deriving DecidableEq, Repr

/-- An accepted change that takes effect at an edge (R234). -/
inductive Change where
  | policy (id : Nat) (rec : Bytes) (ver : Nat)
  | profile (id : Nat) (rec : Option Bytes)
  | desc (set : Bool) (id : Nat) (d : Desc)
  | bank (b mode : Nat) (steal : Bool) (budget : Nat)
  | shares (ctx : Nat) (sh : Tbl Nat)
  | classes (ctx : Nat) (cl : List (Nat × Nat)) (ttl target head : Nat)
  | config (pageMain high low pool scrub : Nat)
  | sampling (slot gen : Nat) (rec : Bytes) (bias : List (Nat × Nat))
  | slot (slot : Nat) (enter : Bool)
  | enable (ctx : Nat)
  | winImport (w : Nat) (d : Win)
  | winExport (w : Nat) (d : Win)
  | cntSel (idx source : Nat)
  /-- a change that the context checks read and that changes no configuration by itself (R417) -/
  | recheck
deriving DecidableEq, Repr

/-- The units of the block: everything but the queues, the byte memories and the pending commands. DESIGN CHOICE, log 6. -/
structure Units where
  blk : Blk := {}
  tick : Tick := {}
  prodN : Prod := {}
  prodL : Prod := {}
  prodF : Prod := {}
  /-- last tick of each rate-limited notice, by code × 64 + context -/
  limits : Tbl Nat := []
  mbx : Tbl Mbx := []
  pins : Pins := {}
  port0 : Port := {}
  port1 : Port := {}
  cnt : Cnts := {}
  core : Tbl CoreSt := []
  /-- semaphores, by die × 64 + index, and their slots -/
  sem : Tbl Nat := []
  semSlot : Tbl Nat := []
  /-- slots whose semaphores return to 0 at the next edge (R151) -/
  semClear : List Nat := []
  slot : Tbl Slot := []
  svc : Svc := {}
  mat : Match := {}
  pol : Tbl Policy := []
  ctx : Tbl Ctx := []
  job : List Job := []
  str : Tbl Str := []
  tier : Tiers := {}
  fab : Fabric := {}
  fw : Fw := {}
  ref : List RefRun := []
  temper : Tbl Temper := []
  changes : List (Nat × Change) := []
  /-- block tick and context of the last decision (R239) -/
  round : Nat × Nat := (0, 0)
  out : List Out := []
  /-- conditions of R407 found broken since the last edge: code, context -/
  conds : List (Nat × Nat) := []
  /-- counter of the free values drawn: the model's own field (DESIGN CHOICE, log 7) -/
  freeIx : Nat := 0
deriving DecidableEq, Repr

/-- The byte memories: core SRAM by core, tier 1, tier 2. -/
structure Mems where
  sram : Tbl Memory := []
  t1 : Memory := []
  t2 : Memory := []
deriving DecidableEq, Repr

/-- The block. DESIGN CHOICE, log 4. -/
structure State where
  asm : Asm := {}
  u : Units := {}
  q : Queues := {}
  m : Mems := {}
  pending : List Instr := []
deriving DecidableEq, Repr

/-- The roles on their default cores (R308). -/
def rolesDefault : Tbl Role :=
  [(0, { core := 0 }), (1, { core := 1 }), (2, { core := 2 }), (3, { core := 6 }), (4, { core := 7 }), (5, { core := 3 }),
   (6, { core := 8 }), (7, { core := 9 }), (8, { core := 10 }), (9, { core := 4 })]

/-- The machine right after reset: the registers at their reset values, the boot ROM about to run. DESIGN CHOICE, log 3.
DESIGN CHOICE, log 4. PRESUMED, log 15. -/
def State.reset : State :=
  { u := { fw := { roles := rolesDefault } } }

end Sys2Proof.Machine
end

