-- ==== Sys2Proof/Machine/Flags.lean ====
section
/-! DEFINITION. The block's flags: the error classes of BLK_ERR_STATUS (15, R419, R422), and what the status bits together
mean: GATE_OK_N, reset and shutdown, a running tick. -/
namespace Sys2Proof.Machine

/- Error classes (R419). -/
/-- An error was corrected. -/
def setCorr (u : Units) : Units := { u with blk := { u.blk with corr := true } }
/-- An interface fault was recorded. -/
def setIface (u : Units) : Units := { u with blk := { u.blk with iface := true } }
/-- A unit left service. -/
def setUnit (u : Units) : Units := { u with blk := { u.blk with unit := true } }
/-- A poisoned value of a context reached a sink (R422). -/
def poisonSink (ctx : Nat) (u : Units) : Units :=
  { u with
    blk := { u.blk with poison := true }
    ctx := tupd u.ctx ctx (fun c => { c with poisoned := c.poisoned + 1 }) }

/-- GATE_OK_N stands at its allow level (R426, R425, R451, R464). -/
def gateOk (u : Units) : Bool :=
  u.fw.stage == 4 && u.blk.en && !u.blk.fatal && !u.blk.tripped && !u.blk.shutdown && !u.blk.resetLow
    && !u.blk.powerLow

/-- Whether the block is neither in reset nor shut down (R464, R451). DESIGN CHOICE, log 208. -/
def isUp (u : Units) : Bool := !u.blk.resetLow && !u.blk.powerLow && !u.blk.shutdown
/-- Whether the tick runs: an edge has been fixed, the stopping edge has not come (R53, R54), the clocks run (R451, R464). -/
def running (u : Units) : Bool := u.tick.st != .stopped && isUp u

end Sys2Proof.Machine
end

