-- ==== Sys2Proof/Machine/Ops.lean ====
section
/-! DEFINITION. The named operations that the commands share: what the variant fixes, vectors, notices, counters, errors,
time and free values. -/
namespace Sys2Proof.Machine

/-- What a command answers. -/
abbrev Res := Host.Outcome State Fault Refusal

/-- A command whose whole effect is on the units. -/
def onU (f : Units → Units) (s : State) : Res := .next { s with u := f s.u }

/- The control BAR. -/
/-- Whether the control BAR answers through a port: in the recovery state only port 0 runs, with the identity and
firmware registers and mailbox 0 (R328; what else reads there is DESIGN CHOICE, log 18). -/
def barLive (u : Units) (port off : Nat) : Bool :=
  isUp u && (u.fw.stage != 5 || (port == 0 && (off < 0x1000 || (0x100000 ≤ off && off < 0x102000))))
/-- Whether a write to the control BAR reaches what it names: in the recovery state, only mailbox 0 through port 0 (R328). -/
def barTakes (u : Units) (port off : Nat) : Bool := barLive u port off && (u.fw.stage != 5 || 0x100000 ≤ off)
/-- A command that is the host's write of a register at a BAR offset. -/
def onReg (off : Nat) (f : Units → Units) (s : State) : Res :=
  .next (if barTakes s.u 0 off then { s with u := f s.u } else s)

/- Figures of the variant (00, Assembly variants; 19, R500). -/
/-- Engine dies fitted. -/
def engineDies (a : Asm) : Nat := if a.variant = 0 then 26 else if a.variant = 1 then 24 else 22
/-- I/O dies fitted. -/
def ioDies (a : Asm) : Nat := if a.variant = 0 then 2 else if a.variant = 1 then 4 else 6
/-- Memory stacks fitted. -/
def nStacks (a : Asm) : Nat := if a.variant = 2 then 12 else 8
/-- CXL links fitted, two to an I/O die. -/
def nLinks (a : Asm) : Nat := 2 * ioDies a
/-- Tier 1 in bytes: 48 GiB a stack. -/
def tier1Bytes (a : Asm) : Nat := nStacks a * 48 * 2 ^ 30
/-- Whether die d of a kind is fitted (0 engine, 1 gate, 2 I/O, 3 control; R18). -/
def dieFitted (a : Asm) (kind d : Nat) : Bool :=
  d < (match kind with | 0 => engineDies a | 1 => 2 | 2 => ioDies a | 3 => 2 | _ => 0)
/-- Die key: bit of R510's die mask, and number of a die's producer of notices. -/
def dieKey (kind d : Nat) : Nat := (match kind with | 0 => 0 | 1 => 32 | 2 => 48 | _ => 56) + d
/-- Key of a core. -/
def coreKey (c : CoreId) : Nat := c.die * 16 + c.core
/-- Producer number of a control core (10, instances): 64 + control core 0 to 11. -/
def ctlProd (core : Nat) : Nat := 64 + core

/-- Vector k signalled (R455, R459). -/
def msix (k : Nat) (u : Units) : Units :=
  let can (p : Port) : Bool := p.msixEn && p.unmasked.contains k && !p.d3hot
  let hold (p : Port) : Port :=
    if (!p.unmasked.contains k || p.d3hot) && !p.pend.contains k then { p with pend := p.pend ++ [k] } else p
  if can u.port0 then { u with out := u.out ++ [.msix 0 k] }
  else if can u.port1 then { u with out := u.out ++ [.msix 1 k] }
  else { u with port0 := hold u.port0, port1 := hold u.port1 }

/-- Severity of a notice code (R307 and the tables of the other chapters). -/
def sevOf (code : Nat) : Nat :=
  if code < 0x10 then 0
  else if [0x0101, 0x0103, 0x0107, 0x0109, 0x0202, 0x0205, 0x0302, 0x0303, 0x0404, 0x0502, 0x0601, 0x0B01, 0x0B06,
    0x0D01, 0x0D02, 0x0D04, 0x0E01, 0x0E03, 0x0A02, 0x0A04, 0x0A08, 0x0A0B, 0x0963, 0x0967, 0x0F02, 0x0F06, 0x0F07,
    0x0F08].contains code then 1
  else if [0x0102, 0x0602, 0x0B03, 0x0B05, 0x0B07, 0x0E02, 0x0A01, 0x0A05, 0x0A07, 0x0962, 0x0981, 0x0983,
    0x0F03, 0x0C01, 0x0C02].contains code then 3
  else 2

/-- Header word of a notice (R306), SEQ and PSN 0. -/
def noticeHeader (code ctx nwords : Nat) : W64 :=
  BitVec.ofNat 64 (code * 2 ^ 48 + sevOf code * 2 ^ 46 + (nwords - 1) * 2 ^ 43 + ctx * 2 ^ 32)
/-- Words of a notice (R306). -/
def noticeWords (code ctx tick : Nat) (args : List Nat) : List W64 :=
  noticeHeader code ctx (args.length + 2) :: BitVec.ofNat 64 tick :: args.map (BitVec.ofNat 64)
/-- Severity field of a packet's header. -/
def sevField (words : List W64) : Nat := bitsOf (words.headD 0).toNat 47 46

/-- A packet joins its producer's waiting packets (R295): four places, one kept for severity 0. -/
def prodPush (p : Prod) (prod : Nat) (words : List W64) : Option Prod :=
  let w := tgetD p.wait prod []
  let sev := sevField words
  let low := (w.filter (fun x => sevField x.words != 0)).length
  if w.length < 4 && (sev == 0 || low < 3) then
    some { p with wait := tset p.wait prod (w ++ [{ prod := prod, words := words }]) }
  else none
/-- The counts of a packet lost (R295, R298). -/
def prodLost (p : Prod) (sev : Nat) : Prod :=
  { p with lost := satN 48 (p.lost + 1), lostSev := setBit p.lostSev sev true }
/-- A severity-0 notice reaches its mirror slot (R304, R305). DEDUCED, log 36. -/
def mirrorPut (p : Prod) (k tick : Nat) (words : List W64) : Prod :=
  { p with mirror :=
      match tget p.mirror k with
      | some m => tset p.mirror k { m with count := satN 32 (m.count + 1), lastTick := tick }
      | none => tset p.mirror k { words := words, count := 1, lastTick := tick } }

/-- Add to every counter of a die that counts a source (R509). die: die key. DESIGN CHOICE, log 231. -/
def dieBump (die source k : Nat) (u : Units) : Units :=
  if k = 0 then u else
  { u with cnt := { u.cnt with die := tmap u.cnt.die (fun i c =>
      if i / 32 = die ∧ c.source = source then
        { c with value := satN 48 (c.value + k), sat := c.sat || 2 ^ 48 ≤ c.value + k }
      else c) } }
/-- Add to block-level counter n (R507). -/
def blkBump (n k : Nat) (u : Units) : Units :=
  if k = 0 then u else
  { u with cnt := { u.cnt with blk := tmod u.cnt.blk n (0, false) (fun c =>
      (satN 48 (c.1 + k), c.2 || 2 ^ 48 ≤ c.1 + k)) } }

/-- A notice of the block (R293, R295, R306): queued at its producer, or lost there; severity 0 is never unrecorded.
DEDUCED, log 36. -/
def notice (prod code ctx : Nat) (args : List Nat) (u : Units) : Units :=
  let words := noticeWords code ctx u.tick.number args
  match prodPush u.prodN prod words with
  | some p => { u with prodN := p }
  | none =>
    let u := dieBump 56 0x0307 1 { u with prodN := prodLost u.prodN (sevOf code) }
    if sevOf code = 0 then
      let line := [noticeHeader code ctx 2, BitVec.ofNat 64 u.tick.number]
      msix 1 { u with prodN := mirrorPut u.prodN (code % 16) u.tick.number line }
    else u
/-- A notice by firmware, on the control core that runs a role (10: all control cores are producers). -/
def fwNotice (role code ctx : Nat) (args : List Nat) (u : Units) : Units :=
  notice (ctlProd (tgetD u.fw.roles role {}).core) code ctx args u
/-- Whether a notice of a code and key was raised within the last 1,024 ticks. A later start of the tick may number its ticks
lower: a notice of a run before it bounds nothing. -/
def limitShut (code key : Nat) (u : Units) : Bool :=
  match tget u.limits (code * 4096 + key) with
  | some t => decide (t ≤ u.tick.number) && decide (u.tick.number < t + 1024)
  | none => false
/-- At most one notice of a code and key in 1,024 ticks. key: context or 0. -/
def noticeLimited (prod code key ctx : Nat) (args : List Nat) (u : Units) : Units :=
  if limitShut code key u then u
  else notice prod code ctx args { u with limits := tset u.limits (code * 4096 + key) u.tick.number }

/-- Location argument (R306). -/
def loc (kind die core engine array row slot : Nat) : Nat :=
  kind * 2 ^ 61 + die * 2 ^ 56 + core * 2 ^ 52 + engine * 2 ^ 48 + array * 2 ^ 44 + row * 2 ^ 32 + slot * 2 ^ 24
/-- Location of a die alone. -/
def locDie (kind die : Nat) : Nat := loc kind die 0 0 0 0 0xFF

/- Notices that errors make (R424, R453). -/
/-- TRAY_SERVICE, once per cause (R453). -/
def trayService (cause : Nat) (u : Units) : Units :=
  if u.svc.causes.contains cause then u
  else fwNotice 8 0x0A0B 0 [cause] { u with svc := { u.svc with causes := u.svc.causes ++ [cause] } }

/-- Entry to the fatal state (R424, R425, R453). -/
def enterFatal (gate : Nat) (u : Units) : Units :=
  trayService 2 <| notice (dieKey 1 gate) 0x0003 0 [locDie 1 gate]
    { u with blk := { u.blk with fatal := true, fatalCode := if u.blk.fatal then u.blk.fatalCode else 3 } }

/-- A breach of rank 2, 3 or 4 on a context (R388, R390, R508). -/
def breach (rank ctx : Nat) (u : Units) : Units :=
  blkBump (rank + 11) 1 { u with ctx := tupd u.ctx ctx (fun c =>
    match rank with
    | 2 => { c with breach2 := c.breach2 + 1 }
    | 3 => { c with breach3 := c.breach3 + 1 }
    | _ => { c with breach4 := c.breach4 + 1 }) }

/-- A condition of R407 found broken for a context: COND_BREACH names it at the next edge (R410). -/
def condBroken (code ctx : Nat) (u : Units) : Units :=
  if u.conds.contains (code, ctx) then u else { u with conds := u.conds ++ [(code, ctx)] }

/-- P in nanoseconds. -/
def periodNs (u : Units) : Nat := u.tick.period * 1000
/-- Number of the first edge of source 0 (R40, R53). -/
def firstTick (u : Units) : Nat := (u.tick.startAt - u.tick.epoch - u.tick.offset) / periodNs u
/-- The tick whose edge is next; while the tick is stopped, the current number (DEDUCED, log 9). -/
def nextTick (u : Units) : Nat :=
  if !running u then u.tick.number
  else if u.tick.anchor.isNone ∧ u.tick.src = 0 then firstTick u
  else u.tick.number + 1
/-- Whether once-class work runs: in no coasting and no halted tick (R61, R64). -/
def onceRuns (u : Units) : Bool := u.tick.st != .coasting && u.tick.st != .halted
/-- Whether background work of the once class is planned: not in ticks Q + 2 and Q + 3 of a pending update either (R330). -/
def backgroundRuns (u : Units) : Bool :=
  onceRuns u && !u.fw.upd.any (fun w => u.tick.number == w.q + 2 || u.tick.number == w.q + 3)
/-- Whether the block stands at a tick edge: where a unit leaves service and a spare takes over (R123), and where MBX_UP rises
(R319). With the tick stopped there is no edge to wait for. DESIGN CHOICE, log 221. -/
def atEdge (u : Units) : Bool := !running u || u.tick.lastMark == 6
/-- A change accepted now, to take effect at the EFFECTIVE edge. -/
def schedule (c : Change) (u : Units) : Units := { u with changes := u.changes ++ [(nextTick u, c)] }
/-- The context checks run again at the next edge (R417). -/
def recheckSoon (u : Units) : Units := schedule .recheck u
/-- Time of a mark from the tick edge, in ns (R36): M0 to M5, and MA as mark 6. -/
def markNs (u : Units) (m : Nat) : Nat :=
  let p := periodNs u
  let i := u.tick.ingress * 1000
  let e := u.tick.egress * 1000
  match m with
  | 0 => 0
  | 1 => i
  | 2 => i + e
  | 3 => p / 2
  | 4 => p / 2 + i
  | 5 => p / 2 + i + e
  | _ => p * 9 / 10
/-- Cohort tick of a cohort in the present block tick (R26): cohort 1 begins its tick at M3. -/
def cohortTick (u : Units) (cohort : Nat) : Nat :=
  if cohort = 0 ∨ (3 ≤ u.tick.lastMark ∧ u.tick.lastMark ≤ 5) then u.tick.number else u.tick.number - 1

/-- Time passes until TICK_TIME reads t; it never runs backwards. Die cycle counters follow it (R38, R509, R8).
DESIGN CHOICE, log 2. -/
def advTo (t : Nat) (u : Units) : Units :=
  if t ≤ u.tick.time then u else
  let cyc (kind n : Nat) : Nat := if kind = 0 then n else if kind = 1 then n * 3 / 2 else if kind = 2 then Config.ioCycles n else n * 6 / 5
  let kindOf (k : Nat) : Nat := if k < 32 then 0 else if k < 48 then 1 else if k < 56 then 2 else 3
  { u with
    tick := { u.tick with time := t % 2 ^ 64 }
    svc := { u.svc with poweredNs := u.svc.poweredNs + (t - u.tick.time) }
    cnt := { u.cnt with die := tmap u.cnt.die (fun i c =>
      if c.source = 1 then
        let v := c.value + (cyc (kindOf (i / 32)) t - cyc (kindOf (i / 32)) u.tick.time)
        { c with value := satN 48 v, sat := c.sat || 2 ^ 48 ≤ v }
      else c) } }

/-- A free number: the next draw (DESIGN CHOICE, log 7). -/
def drawNat (u : Units) : Nat × Units := (Config.freeNat u.freeIx, { u with freeIx := u.freeIx + 1 })
/-- A free 32-bit word: the next draw (DESIGN CHOICE, log 7). -/
def drawWord (u : Units) : W32 × Units := (Config.freeWord u.freeIx, { u with freeIx := u.freeIx + 1 })

/-- f applied over a list of units' changes, in order. -/
def forAll {α : Type} (l : List α) (f : α → Units → Units) (u : Units) : Units := l.foldl (fun u a => f a u) u
/-- What the block puts on an interface. DESIGN CHOICE, log 6. DESIGN CHOICE, log 207. -/
def emit (o : Out) (u : Units) : Units := { u with out := u.out ++ [o] }

end Sys2Proof.Machine
end

