-- ==== Sys2Proof/Machine/Queue.lean ====
section
/-! DEFINITION. The queue primitive (10) and the commands over its three instances. -/
namespace Sys2Proof.Machine

/-- Words committed: FILL (R505). -/
def qfill (q : QInst) : Nat := (q.committed.map (fun c => c.words.length)).sum
/-- Words a chain holds. -/
def chainWords (q : QInst) : Nat := (q.chain.map (fun c => c.words.length - c.out)).sum
/-- An instance by number: 0 notice, 1 log, 2 fabric error. -/
def qGet (q : Queues) (n : Fin 3) : QInst := match n with | 0 => q.notice | 1 => q.log | 2 => q.fab
/-- The instances with one replaced. -/
def qPut (q : Queues) (n : Fin 3) (x : QInst) : Queues :=
  match n with
  | 0 => { q with notice := x }
  | 1 => { q with log := x }
  | 2 => { q with fab := x }
/-- The producers' side of an instance. -/
def pGet (u : Units) (n : Fin 3) : Prod := match n with | 0 => u.prodN | 1 => u.prodL | 2 => u.prodF
/-- The units with one producers' side replaced. -/
def pPut (u : Units) (n : Fin 3) (x : Prod) : Units :=
  match n with
  | 0 => { u with prodN := x }
  | 1 => { u with prodL := x }
  | 2 => { u with prodF := x }

/-- The producer granted next (R293): round robin after the last among those with a packet waiting. -/
def nextProd (p : Prod) (last : Nat) : Option Nat :=
  let ready := (p.wait.filter (fun e => !e.2.isEmpty)).map (·.1)
  match ready.filter (fun k => last < k) with
  | k :: _ => some k
  | [] => ready.head?

/-- The entry port grants one whole packet (R293, R294, R296): the chain holds 64 words; a ninth word rewinds. -/
def qGrant (p : Prod) (q : QInst) : Prod × QInst :=
  match nextProd p q.grantLast with
  | none => (p, q)
  | some k =>
    match tgetD p.wait k [] with
    | [] => (p, q)
    | x :: r =>
      if 8 < x.words.length then
        ({ p with wait := tset p.wait k r }, { q with grantLast := k, rewound := satN 48 (q.rewound + 1) })
      else if chainWords q + x.words.length ≤ 64 then
        ({ p with wait := tset p.wait k r }, { q with grantLast := k, chain := q.chain ++ [{ prod := x.prod, words := x.words }] })
      else (p, q)

/-- Oldest packets removed, whole, until 8 words are free (R298): what is left, and the severities removed. -/
def qRoom : List CPkt → List CPkt × List Nat
  | [] => ([], [])
  | c :: r =>
    if (((c :: r).map (fun c => c.words.length)).sum) + 8 ≤ 4096 then (c :: r, [])
    else let (k, l) := qRoom r; (k, c.sev :: l)

/-- Number of ones among the low 8 bits. -/
def ones8 (v : Nat) : Nat := ((List.range 8).map (fun k => b2n (bitAt v k))).sum
/-- Header with SEQ and PSN written (R299). DEDUCED, log 36. -/
def withSeq (w : W64) (seq : Nat) (psn : Bool) : W64 :=
  BitVec.ofNat 64 (setBit (setBits w.toNat 31 0 seq) 42 psn)

/-- The room check at a packet's SOP word (R298). meet: a pop takes the packet it has chosen, and the next oldest goes. -/
def qMakeRoom (meet : Bool) (l : List CPkt) : List CPkt × List Nat :=
  match meet, l with
  | true, c :: r => let (k, gone) := qRoom r; (k, c.sev :: gone)
  | _, l => qRoom l
/-- What leaves stage 0 in one command: the instance after it, the severities removed for room, and with the packet's last
word the packet committed and whether NQ_THRESH was crossed. -/
structure Spilled where
  q : QInst
  lost : List Nat
  done : Option (CPkt × Bool)
/-- The packet a front packet commits as, once all of its words have left (R296, R299). -/
def qPacked (x : Pkt) (seq : Nat) : CPkt :=
  { seq := seq, sev := if x.hdrBad then 0 else sevField x.words, poison := x.poison
    words := match x.words with
      | w :: r => withSeq w seq (x.poison != 0) :: r
      | [] => [] }
/-- Words of the front packet of the chain leave stage 0 (R296, R298, R299, R302): data parity is checked, room is made at the
first, and the packet commits with the last. The crossing is judged from the fill before the room check, since a fill that
stays level through overwrite sets nothing (DEDUCED, log 17). -/
def qSpill (q : QInst) (i : SpillIn) : Option Spilled :=
  match q.chain with
  | [] => none
  | x :: r =>
    let out := min x.words.length (x.out + i.words)
    let bad := Nat.land i.bad.toNat (2 ^ out - 2 ^ x.out)
    let room := if x.out = 0 ∧ out ≠ 0 then qMakeRoom i.meet q.committed else (q.committed, [])
    let gone := qfill q - (room.1.map (fun c => c.words.length)).sum
    let y : Pkt := { x with
      out := out, poison := Nat.lor x.poison bad, hdrBad := x.hdrBad || bitAt bad 0, gone := x.gone + gone }
    let q := { q with committed := room.1, parErr := satN 48 (q.parErr + ones8 bad) }
    if out < x.words.length then some { q := { q with chain := y :: r }, lost := room.2, done := none }
    else
      let c := qPacked y q.commits
      let q' := { q with
        chain := r, committed := room.1 ++ [c], commits := (q.commits + 1) % 2 ^ 32, seqLast := q.commits }
      let crossed := q.thresh != 0 && decide (qfill q + y.gone < q.thresh) && decide (q.thresh ≤ qfill q')
      some { q := { q' with thr := q.thr || crossed }, lost := room.2, done := some (c, crossed) }

/-- The packet a pop takes (R300): the oldest of the most severe non-empty list. -/
def qFront (l : List CPkt) : Option CPkt :=
  match l.find? (fun c => c.sev == 0), l.find? (fun c => c.sev == 1), l.find? (fun c => c.sev == 2) with
  | some c, _, _ => some c
  | none, some c, _ => some c
  | none, none, some c => some c
  | none, none, none => l.head?
/-- A pop (R300). -/
def qPop (q : QInst) : Option (CPkt × QInst) :=
  match qFront q.committed with
  | none => none
  | some c => some (c, { q with committed := q.committed.erase c })
/-- Flush (R303). -/
def qFlush (q : QInst) : QInst :=
  { q with committed := [], chain := [], flushed := satN 48 (q.flushed + q.committed.length + q.chain.length) }
/-- SECDED counts (R297). -/
def qEcc (q : QInst) (single double : Nat) : QInst :=
  { q with eccCorr := satN 48 (q.eccCorr + single), eccUnc := satN 48 (q.eccUnc + double) }
/-- A pop through a host port into its read buffer (R300, R301). -/
def qPopPort (q : QInst) (port : Nat) (single double : Nat) : QInst × Nat :=
  let put (q : QInst) (b : RBuf) : QInst := if port = 0 then { q with rbuf0 := b } else { q with rbuf1 := b }
  match qPop q with
  | none => (put q {}, 0)
  | some (c, q) =>
    let m := 2 ^ c.words.length
    let d := double % m
    (put (qEcc q (ones8 (single % m)) (ones8 d))
      { valid := true, sev := c.sev, words := c.words, poison := Nat.lor c.poison d }, (c.words.headD 0).toNat)

/-- A producer presents a packet (R295): the counts and the critical line of a packet lost. -/
def prodOffer (n : Fin 3) (prod : Nat) (words : List W64) (u : Units) : Units :=
  match prodPush (pGet u n) prod words with
  | some p => pPut u n p
  | none =>
    let u1 := pPut u n (prodLost (pGet u n) (sevField words))
    if n = 0 then
      let u2 := dieBump 56 0x0307 1 u1
      if sevField words = 0 then
        let code := bitsOf (words.headD 0).toNat 63 48
        let hdr := BitVec.ofNat 64 (setBit (setBits (words.headD 0).toNat 45 43 1) 42 false)
        let w := [hdr, words.getD 1 0]
        msix 1 { u2 with prodN := mirrorPut u2.prodN (code % 16) (words.getD 1 0).toNat w }
      else u2
    else u1

/-- A trace packet beyond the 64 of its tick is dropped and counted, with FW_TRACE_DROP at most once in 1,024 ticks (R336). -/
def traceDrop (prod : Nat) (u : Units) : Units :=
  let u := dieBump (56 + (prod - 64) / 6) 0x30B 1 { u with fw := { u.fw with traceDrops := u.fw.traceDrops + 1 } }
  if u.fw.traceNoted = 0 ∨ u.fw.traceNoted + 1024 ≤ u.tick.number then
    fwNotice 0 0x0B07 0 [u.fw.traceDrops] { u with fw := { u.fw with traceDrops := 0, traceNoted := u.tick.number } }
  else u
/-- A packet for the log queue (R335, R336): log events in modes 1 and 2; enabled trace points in mode 2, 64 a tick. Its word 1
is TICK_TIME, and a code outside both ranges is no packet of this queue. -/
def logOffer (prod : Nat) (words : List W64) (u : Units) : Units :=
  let code := bitsOf (words.headD 0).toNat 63 48
  let words := words.take 1 ++ BitVec.ofNat 64 u.tick.time :: words.drop 2
  if u.fw.vis = 0 ∨ code < 0x1000 ∨ 0x2FFF < code then u
  else if 0x2000 ≤ code then
    if u.fw.vis ≠ 2 ∨ !u.fw.traces.any (fun r => r.1 ≤ code && code ≤ r.2) then u
    else
      let n := if u.fw.traceTick = u.tick.number then u.fw.traceCount else 0
      if 64 ≤ n then traceDrop prod u
      else prodOffer 1 prod words { u with fw := { u.fw with traceTick := u.tick.number, traceCount := n + 1 } }
  else prodOffer 1 prod words u
/-- NOTICE_PACKET (R293). DESIGN CHOICE, log 35. -/
def execNoticePacket (n : Fin 3) (prod : Nat) (words : List W64) (s : State) : Res :=
  let u := if words.isEmpty then s.u else if n = 1 then logOffer prod words s.u else prodOffer n prod words s.u
  let (p, q) := qGrant (pGet u n) (qGet s.q n)
  .next { s with u := pPut u n p, q := qPut s.q n q }

/-- PACKET_REWIND (R294): the open packet is the one granted last; with a tag parity failure, the one at stage 0 (R296).
DESIGN CHOICE, log 35. -/
def execPacketRewind (n : Fin 3) (cause : RewindCause) (s : State) : Res :=
  let q := qGet s.q n
  if q.chain.isEmpty then .next s else
  let q := { q with
    chain := if cause = .tagParity then q.chain.drop 1 else q.chain.dropLast
    rewound := satN 48 (q.rewound + 1)
    parErr := satN 48 (q.parErr + b2n (cause == .tagParity)) }
  .next { s with q := qPut s.q n q }

/-- What the producers' side and the counters take note of for packets removed to make room (R298). -/
def lostUnits (n : Fin 3) (lost : List Nat) (u : Units) : Units :=
  let u := pPut u n (lost.foldl prodLost (pGet u n))
  if n = 0 then dieBump 56 0x0307 lost.length u else u
/-- What the commit of a packet on an instance does beyond it (R302, R304): vectors and the sticky mirror. -/
def commitUnits (n : Fin 3) (c : CPkt) (crossed intEn : Bool) (u : Units) : Units :=
  if n = 0 then
    let u := dieBump 56 0x0306 1 u
    let u := if crossed && intEn then msix 0 u else u
    if c.sev = 0 then
      let code := bitsOf (c.words.headD 0).toNat 63 48
      let k := if bitAt c.poison 0 ∨ 16 ≤ code then 0 else code
      msix 1 { u with prodN := mirrorPut u.prodN k (c.words.getD 1 0).toNat c.words }
    else u
  else u

/-- NOTICE_COMMIT (R296, R298, R299). DESIGN CHOICE, log 35. -/
def execNoticeCommit (n : Fin 3) (spill : SpillIn) (single double : Nat) (s : State) : Res :=
  let q := qGet s.q n
  match qSpill q spill with
  | none => .next s
  | some r =>
    let e := if r.lost.isEmpty then (0, 0) else (single, double)
    let u := lostUnits n r.lost s.u
    let u := match r.done with
      | some d => commitUnits n d.1 d.2 q.intEn u
      | none => u
    .next { s with u := if e.1 = 0 then u else setCorr u, q := qPut s.q n (qEcc r.q e.1 e.2) }

/-- NQ_POP (R300). -/
def execNqPop (port : Fin 2) (single double : BitVec 8) (s : State) : Res :=
  if !barLive s.u port 0x20018 then .next { s with u := emit (.read port 0) s.u } else
  let r := qPopPort s.q.notice port single.toNat double.toNat
  let u := if r.1.eccCorr = s.q.notice.eccCorr then s.u else setCorr s.u
  .next { s with u := emit (.read port r.2) u, q := { s.q with notice := r.1 } }

/-- NQ_FLUSH (R303). -/
def execNqFlush (s : State) : Res :=
  .next (if barTakes s.u 0 0x20000 then { s with q := { s.q with notice := qFlush s.q.notice } } else s)

/-- NQ_CRIT_CLEAR (R305). -/
def critClear (mask : Nat) (u : Units) : Units :=
  { u with prodN := { u.prodN with mirror := u.prodN.mirror.filter (fun e => !bitAt mask e.1) } }
/-- NQ_CRIT_CLEAR (R305). -/
def execNqCritClear (mask : BitVec 16) (s : State) : Res := onReg 0x20100 (critClear mask.toNat) s

end Sys2Proof.Machine
end

