-- ==== Sys2Proof/Machine/FabPkt.lean ====
section
/-! DEFINITION. Fabric packets (13, R374): layout, checks of the receiver, errors, credits and virtual
channels, sending. -/
namespace Sys2Proof.Machine

/-- A packet of a class: header fields, class fields from byte 32, payload. -/
def fabPkt (cls vc tag dst src tick : Nat) (cf payload : Bytes) : Bytes :=
  let h := leBytes 1 cls ++ leBytes 1 vc ++ leBytes 2 (payload.length / 64) ++ leBytes 4 tag ++ leBytes 8 dst
    ++ leBytes 8 src ++ leBytes 8 tick ++ sliceZ cf 0 24 ++ leBytes 4 0
  let c := crc32c (h ++ leBytes 4 0 ++ payload)
  h ++ leBytes 4 c ++ payload
/-- Virtual channel of a class that the block receives; none for any other (R374). -/
def classVc : Nat → Option Nat
  | 0x01 => some 0
  | 0x02 => some 0
  | 0x03 => some 0
  | 0x04 => some 0
  | 0x10 => some 1
  | 0x11 => some 1
  | 0x20 => some 2
  | 0x21 => some 2
  | 0x28 => some 3
  | 0x29 => some 3
  | 0x2F => some 3
  | _ => none
/-- A packet's CRC and length (R374). A packet cut short fails its CRC. -/
def fabCrcOk (p : Bytes) : Bool :=
  64 ≤ p.length && p.length == 64 + 64 * le p 2 2 && le p 2 2 ≤ 64
    && crc32c (p.take 60 ++ leBytes 4 0 ++ p.drop 64) == le p 60 4
/-- Bytes of CF that a class leaves unused, from byte 32 of the header. -/
def cfUsed : Nat → Nat
  | 0x01 => 8
  | 0x02 => 12
  | 0x03 => 12
  | 0x04 => 24
  | 0x10 => 12
  | 0x11 => 2
  | 0x12 => 6
  | 0x13 => 4
  | 0x2F => 13
  | _ => 12
/-- Field checks common to every class: reserved and unused fields 0 (DESIGN CHOICE, log 24). -/
def fabFieldsOk (p : Bytes) : Bool :=
  let cls := le p 0 1
  le p 1 1 / 4 == 0 && le p 56 4 == 0 && allZero (sliceZ p (32 + cfUsed cls) (24 - cfUsed cls))
    && (0x20 ≤ cls || le p 4 4 == 0)
/-- The first check a received packet fails: error code and arguments (R374). DESIGN CHOICE, log 24. -/
def fabFault (u : Units) (port : Nat) (p : Bytes) : Option (Nat × List Nat) :=
  let cls := le p 0 1
  let vc := le p 1 1 % 4
  if !fabCrcOk p then some (0x0D20, [port, cls])
  else if classVc cls ≠ some vc then some (0x0D21, [port, cls, vc])
  else if le p 8 8 ≠ u.fab.selfId then some (0x0D22, [port, le p 8 8])
  else if !fabFieldsOk p then some (0x0D21, [port, cls, vc])
  else none
/-- An entry of the fabric error queue (13, codes), produced by a fabric port. -/
def fabError (port code : Nat) (args : List Nat) (u : Units) : Units :=
  setIface (prodOffer 2 port (noticeWords code 0 u.tick.number args) u)
/- Credits and virtual channels (R375). -/
/-- Credits of a VC: those the block advertises, and those it holds at first toward the far end. DESIGN CHOICE, log 207. -/
def vcCredits : Nat → Nat
  | 0 => 16
  | 1 => 4096
  | _ => 1024
/-- Units of 64 bytes that a packet takes. -/
def pktUnits (p : Bytes) : Nat := ceilDiv p.length 64
/-- The first waiting packet of a VC, if the port holds credits for the whole of it. -/
def vcReady (x : FabPort) (vc : Nat) : Option Bytes :=
  match x.wait.find? (fun e => e.1 == vc) with
  | some e => if tgetD x.spent vc 0 + pktUnits e.2 ≤ vcCredits vc then some e.2 else none
  | none => none
/-- The VC that sends next: VC0, VC1, VC3, VC2, but that VC2 sends after 15 packets that passed it by. -/
def nextVc (x : FabPort) : Option Nat :=
  if 15 ≤ x.since ∧ (vcReady x 2).isSome then some 2 else [0, 1, 3, 2].find? (fun v => (vcReady x v).isSome)
/-- A waiting list without its first packet of a VC. -/
def dropVc (vc : Nat) : List (Nat × Bytes) → List (Nat × Bytes)
  | [] => []
  | e :: r => if e.1 = vc then r else e :: dropVc vc r
/-- Packets a port may send go out, at most as many as the fuel. -/
def portSend : Nat → Nat → Units → Units
  | 0, _, u => u
  | n + 1, port, u =>
    let x := tgetD u.fab.ports port {}
    match nextVc x with
    | none => u
    | some vc =>
      let p := (vcReady x vc).getD []
      let x := { x with
        spent := tset x.spent vc (tgetD x.spent vc 0 + pktUnits p), wait := dropVc vc x.wait
        since := if vc = 2 ∨ (vcReady x 2).isNone then 0 else x.since + 1 }
      portSend n port (emit (.fabric port p) { u with fab := { u.fab with ports := tset u.fab.ports port x } })
/-- A packet given to a port to send. -/
def fabPut (port vc : Nat) (p : Bytes) (u : Units) : Units :=
  let x := tgetD u.fab.ports port {}
  let x := { x with wait := x.wait ++ [(vc, p)] }
  portSend x.wait.length port { u with fab := { u.fab with ports := tset u.fab.ports port x } }
/-- A count by VC less what a list gives of it. -/
def vcLess (t : Tbl Nat) (l : List (Fin 4 × Nat)) : Tbl Nat :=
  l.foldl (fun t e => if (tget t e.1.val).isSome then tset t e.1.val (tgetD t e.1.val 0 - e.2) else t) t
/-- Credits that come back to a port let its waiting packets go out. -/
def creditsBack (port : Nat) (l : List (Fin 4 × Nat)) (u : Units) : Units :=
  if l.isEmpty then u else
  let x := tgetD u.fab.ports port {}
  let x := { x with spent := vcLess x.spent l }
  portSend x.wait.length port { u with fab := { u.fab with ports := tset u.fab.ports port x } }
/-- What a packet's arrival tells a port: buffer space freed, credits returned. -/
def rxFlits (r : Rx) (u : Units) : Units :=
  let u := creditsBack r.port r.back u
  if r.freed.isEmpty then u
  else { u with fab := { u.fab with ports := tupd u.fab.ports r.port.val (fun x => { x with held := vcLess x.held r.freed }) } }
/-- Whether a packet is beyond the credits its port has given. A response never is: space was reserved for it (R376). -/
def rxBeyond (u : Units) (r : Rx) (p : Bytes) : Bool :=
  let vc := le p 1 1 % 4
  vc != 3 && decide (vcCredits vc < tgetD (tgetD u.fab.ports r.port {}).held vc 0 + pktUnits p)
/-- A packet taken into its port's buffer. -/
def rxHold (r : Rx) (p : Bytes) (u : Units) : Units :=
  let vc := le p 1 1 % 4
  if vc = 3 then u
  else
    let x := tgetD u.fab.ports r.port {}
    let x := { x with held := tset x.held vc (tgetD x.held vc 0 + pktUnits p) }
    { u with fab := { u.fab with ports := tset u.fab.ports r.port x } }
/-- A packet received on a port: the units, and whether a command for class cls takes it. One beyond the port's credits, or that
fails a check, is dropped and recorded; one of another class belongs to another command (DESIGN CHOICE, log 1).
DESIGN CHOICE, log 207. -/
def fabJudge (cls : Nat) (r : Rx) (p : Bytes) (u : Units) : Units × Bool :=
  if !isUp u then (u, false)
  else
    let v := rxFlits r u
    if rxBeyond v r p then (fabError r.port 0x0D23 [r.port, le p 1 1 % 4] v, false)
    else match fabFault v r.port p with
      | some (code, args) => (fabError r.port code args v, false)
      | none => if le p 0 1 = cls then (rxHold r p v, true) else (u, false)
/-- A packet received on a port that f takes if it passes. -/
def fabReceive (cls : Nat) (r : Rx) (p : Bytes) (f : Units → Units) (u : Units) : Units :=
  let t := fabJudge cls r p u
  if t.2 then f t.1 else t.1

/-- Fabric port of I/O die x on which the block sends: the lower of its two (DESIGN CHOICE, log 24). -/
def portOf (xdie : Nat) : Nat := 2 * xdie
/-- A packet sent to a neighbour. -/
def sendNbr (n : Nbr) (cls vc tick : Nat) (cf payload : Bytes) (u : Units) : Units :=
  fabPut (portOf n.xdie) vc (fabPkt cls vc 0 n.id u.fab.selfId tick cf payload) u
/-- A packet sent to every neighbour that f selects. -/
def sendAll (f : Nbr → Bool) (cls vc tick : Nat) (cf payload : Bytes) (u : Units) : Units :=
  forAll (u.fab.nbrs.filter f) (fun n => sendNbr n cls vc tick cf payload) u
/-- A packet sent to the time master or another member through the port it came from. -/
def sendTo (port dst cls vc tag tick : Nat) (cf payload : Bytes) (u : Units) : Units :=
  fabPut port vc (fabPkt cls vc tag dst u.fab.selfId tick cf payload) u

end Sys2Proof.Machine
end

