-- ==== Sys2Proof/Machine/Operands.lean ====
section
/-! DEFINITION. The operand forms of messages: buffer references (12, R350), where they lie, reads and writes through them, tier 1 and tier 2 bytes. -/
namespace Sys2Proof.Machine

/-- A BUF at an offset of a payload. -/
def bufOf (p : Bytes) (off : Nat) : Buf :=
  { space := le p off 1, win := le p (off + 1) 1, len := le p (off + 4) 4, addr := le p (off + 8) 8 }
/-- The 16 bytes of a BUF. -/
def bufBytes (b : Buf) : Bytes :=
  leBytes 1 b.space ++ leBytes 1 b.win ++ leBytes 2 0 ++ leBytes 4 b.len ++ leBytes 8 b.addr
/-- Size of a BUF's space for a context; none where the space does not exist. -/
def spaceSize (u : Units) (ctx : Nat) (b : Buf) : Option Nat :=
  match b.space with
  | 0 => some (2 ^ 64)
  | 1 => some (2 ^ 64)
  | 2 => if ctx = 0 then none else some ((tgetD u.ctx ctx {}).areaUnits * 65536)
  | 3 => some u.tier.stageLen
  | 4 => (tget u.tier.imports b.win).map (·.len)
  | _ => none
/-- Whether a BUF is aligned and lies within its space (R350). -/
def bufOk (u : Units) (ctx : Nat) (b : Buf) : Bool :=
  b.len % 64 == 0 && b.addr % 64 == 0 &&
    (match spaceSize u ctx b with | some n => b.addr + b.len ≤ n | none => false)
/-- Whether DMA on a host port can succeed (R456, R457, R459). DEDUCED, log 56. -/
def dmaUp (u : Units) (port : Nat) : Bool :=
  let p := if port = 0 then u.port0 else u.port1
  p.busMaster && !p.d3hot
/-- First byte of a BUF in tier 1 (SPACE 2) or tier 2 (SPACE 3). -/
def bufBase (u : Units) (ctx : Nat) (b : Buf) : Nat :=
  if b.space = 2 then (tgetD u.ctx ctx {}).areaBase + b.addr else u.tier.stageBase + b.addr
/-- Whether a tier-2 range uses a link that is out of service (R460, R461): 4 KiB units across the links of LINK_MASK. -/
def tier2Down (u : Units) (addr len : Nat) : Bool :=
  let links := (List.range 12).filter (bitAt u.tier.linkMask)
  (fromN (addr / 4096) ((addr + len + 4095) / 4096 - addr / 4096)).any (fun k =>
    match links[k % links.length]? with
    | some l => u.tier.linksOut.contains l
    | none => true)
/-- The bytes read through a BUF; d is what memory outside the block delivered. none is a fault. DESIGN CHOICE, log 8. -/
def bufRead (s : State) (ctx : Nat) (b : Buf) (d : Dma) : Option Bytes :=
  let outside := match d with | .data x => some (sliceZ x 0 b.len) | .fault => none
  match b.space with
  | 0 => if dmaUp s.u 0 then outside else none
  | 1 => if dmaUp s.u 1 then outside else none
  | 2 => some (mread s.m.t1 (bufBase s.u ctx b) b.len)
  | 3 => if tier2Down s.u (bufBase s.u ctx b) b.len then none else some (mread s.m.t2 (bufBase s.u ctx b) b.len)
  | _ => outside
/- Windows (R382). -/
/-- The I/O die through which a window is reached. DESIGN CHOICE, log 23. -/
def winDie (w : Win) : Nat := Config.windowPort w.base / 2
/-- Transactions of an I/O die sent and not answered. -/
def winSent (x : Nat) (t : Tiers) : Nat :=
  (t.txns.filter (fun y => winDie (tgetD t.imports y.win {}) == x)).length
/-- A transaction's RD or WR packet goes out. -/
def txnOut (t : Txn) (data : Bytes) (u : Units) : Units :=
  let w := tgetD u.tier.imports t.win {}
  let t := { t with sentAt := u.tick.time }
  dieBump (dieKey 2 (winDie w)) (if t.write then 0x20C else 0x20D) 1
    (sendTo (Config.windowPort w.base) (Config.windowOwner w.base).toNat (if t.write then 0x21 else 0x20) 2 t.tag 0
      (leBytes 8 t.addr ++ leBytes 4 t.bytes) data { u with tier := { u.tier with txns := u.tier.txns ++ [t] } })
/-- A transaction with the next TAG is sent, or waits while its I/O die has 1,024 outstanding. DEDUCED, log 197. -/
def txnIssue (t : Txn) (data : Bytes) (u : Units) : Units :=
  let t := { t with tag := u.tier.nextTag }
  let u := { u with tier := { u.tier with nextTag := (u.tier.nextTag + 1) % 2 ^ 32 } }
  if winSent (winDie (tgetD u.tier.imports t.win {})) u.tier < 1024 then txnOut t data u
  else { u with tier := { u.tier with waitTx := u.tier.waitTx ++ [(t, data)] } }
/-- The first waiting transaction whose I/O die has room goes out. DEDUCED, log 197. -/
def txnNext (u : Units) : Units :=
  match u.tier.waitTx.find? (fun e => winSent (winDie (tgetD u.tier.imports e.1.win {})) u.tier < 1024) with
  | none => u
  | some e => txnOut e.1 e.2 { u with tier := { u.tier with waitTx := u.tier.waitTx.filter (fun x => x.1.tag != e.1.tag) } }
/-- RD packets for n bytes of a window at an offset: 4,096 bytes at most each; where the data goes. -/
def sendRd (win off n : Nat) (core : Option Nat) (own : Option MoveId) (dst : Nat × Nat × Nat) (u : Units) : Units :=
  let w := tgetD u.tier.imports win {}
  forAll (List.range (ceilDiv n 4096)) (fun i u =>
    txnIssue { win := win, addr := w.base + off + 4096 * i, bytes := min 4096 (n - 4096 * i), core := core, own := own
               dspace := dst.1, dkey := dst.2.1, dst := dst.2.2 + 4096 * i } [] u) u
/-- WR packets for data written to a window at an offset. DESIGN CHOICE, log 128. -/
def sendWr (win off : Nat) (data : Bytes) (core : Option Nat) (own : Option MoveId) (u : Units) : Units :=
  let w := tgetD u.tier.imports win {}
  forAll (List.range (ceilDiv data.length 4096)) (fun i u =>
    let part := (data.drop (4096 * i)).take 4096
    txnIssue { win := win, addr := w.base + off + 4096 * i, bytes := part.length, write := true, core := core, own := own }
      part u) u

/-- The profiles a policy record names, with the offset of each and the mode it must have (R233). -/
def policyProfs (r : Bytes) : List (Nat × Nat × Nat) :=
  ([(0, 0), (2, 1), (4, 2), (6, 3), (8, 0), (10, 1), (12, 2)].map (fun f => (f.1, le r f.1 2, f.2))).filter
    (fun f => f.2.1 != 0xFFFF)

/-- Channel (stack × 16 + channel) that holds a 64-byte unit of tier 1 (R19; DESIGN CHOICE, log 25). -/
def chanOf (a : Asm) (unit64 : Nat) : Nat :=
  unit64 / 64 % nStacks a * 16 + Config.channelOf (unit64 / 64) % 16
/-- Whether a 64-byte unit of tier 1 is poisoned (R420, R437). -/
def t1Pois (a : Asm) (t : Tiers) (k : Nat) : Bool :=
  t.pois1.contains k || (t.lostChan.contains (chanOf a k) && !t.rewritten.contains k)
/-- A write of clean data: the units it writes whole are poisoned no longer (R420). -/
def t1Clean (a : Asm) (addr len : Nat) (t : Tiers) : Tiers :=
  let whole (k : Nat) : Bool := decide (addr ≤ 64 * k) && decide (64 * k + 64 ≤ addr + len)
  let t := { t with pois1 := t.pois1.filter (fun k => !whole k) }
  if t.lostChan.isEmpty then t
  else
    let new := (fromN (addr / 64) (len / 64 + 1)).filter (fun k =>
      whole k && t.lostChan.contains (chanOf a k) && !t.rewritten.contains k)
    { t with rewritten := t.rewritten ++ new }
/-- A write of poisoned data to the units of a range (R420). -/
def t1Poison (addr len : Nat) (t : Tiers) : Tiers :=
  let new := (fromN (addr / 64) (ceilDiv (addr + len) 64 - addr / 64)).filter (fun k => !t.pois1.contains k)
  { t with pois1 := t.pois1 ++ new }
/-- How much of n bytes a transfer wrote before it faulted (R350), which the manual leaves open. DESIGN CHOICE, log 8. -/
def faultedAt (n : Nat) (u : Units) : Nat × Units := ((drawNat u).1 % (n + 1), (drawNat u).2)
/-- Bytes written through a BUF, and whether the write went well; flt: it faulted outside the block. What was written before a
fault stays (R350). DESIGN CHOICE, log 8. -/
def bufWrite (s : State) (ctx : Nat) (b : Buf) (data : Bytes) (flt : Bool) : State × Bool :=
  let data := data.take b.len
  match b.space with
  | 2 =>
    let a := bufBase s.u ctx b
    ({ s with m := { s.m with t1 := mwrite s.m.t1 a data }
              u := { s.u with tier := t1Clean s.asm a data.length s.u.tier } }, true)
  | 3 =>
    let a := bufBase s.u ctx b
    let k := faultedAt data.length s.u
    if tier2Down s.u a data.length then
      ({ s with u := k.2, m := { s.m with t2 := mwrite s.m.t2 a (data.take k.1) } }, false)
    else ({ s with m := { s.m with t2 := mwrite s.m.t2 a data } }, true)
  | 4 =>
    let k := faultedAt (ceilDiv data.length 64) s.u
    if flt then ({ s with u := sendWr b.win b.addr ((padTo 64 data).take (64 * k.1)) none none k.2 }, false)
    else ({ s with u := sendWr b.win b.addr (padTo 64 data) none none s.u }, true)
  | p =>
    let k := faultedAt data.length s.u
    if !dmaUp s.u p then (s, false)
    else if flt then ({ s with u := emit (.host p b.addr (data.take k.1)) k.2 }, false)
    else ({ s with u := emit (.host p b.addr data) s.u }, true)

end Sys2Proof.Machine
end

