-- ==== Sys2Proof/Machine/Regs.lean ====
section
/-! DEFINITION. The control BAR: the registers the host reaches directly, their reads and writes (00, 02, 10, 11, 12, 15,
17, 19), and the commands of the register table. -/
namespace Sys2Proof.Machine

/-- 32-bit registers outside the mailbox windows and the ranges below. -/
def regs32 : List Nat :=
  [0x0, 0x10, 0x30, 0x40, 0x50, 0x100, 0x104, 0x108, 0x10C, 0x110, 0x10000, 0x10008, 0x10010, 0x10020, 0x10038,
   0x10040, 0x10048, 0x20000, 0x20008, 0x20010, 0x20020, 0x20088, 0x200B8, 0x20100, 0x30040, 0x30048, 0x30050, 0x40000]
/-- 64-bit registers outside those ranges. -/
def regs64 : List Nat :=
  [0x8, 0x18, 0x20, 0x118, 0x10018, 0x10028, 0x10030, 0x10050, 0x20018, 0x20080, 0x20090, 0x20098, 0x200A0, 0x200A8,
   0x200B0, 0x40008]
/-- Whether off is lo plus a multiple of step below hi. -/
def inRange (off lo hi step : Nat) : Bool := lo ≤ off && off < hi && (off - lo) % step == 0
/-- Width in bytes of the register that begins at a BAR offset; 0 where none does. The areas of a mailbox have none. -/
def regWidth (off : Nat) : Nat :=
  if 0x100000 ≤ off then
    if off < 0x180000 then
      let o := (off - 0x100000) % 0x2000
      if o == 0xFC0 || o == 0xFC8 || o == 0xFD0 || o == 0xFF8 then 4 else 0
    else 0
  else if regs32.contains off || inRange off 0x30000 0x30040 4 || inRange off 0x20840 0x21000 0x80 then 4
  else if regs64.contains off || inRange off 0x120 0x150 8 || inRange off 0x180 0x1D0 8 || inRange off 0x20040 0x20080 8
    || inRange off 0x40100 0x40180 8 || inRange off 0x40200 0x40280 8
    || (0x20800 ≤ off && off < 0x21000 && off % 8 == 0 && (off % 0x80 < 0x40 || off % 0x80 == 0x48)) then 8
  else 0
/-- Whether an access has the width and alignment of what it reaches (R12, R338). -/
def accessOk (off w : Nat) : Bool :=
  (w == 4 || w == 8) && off % w == 0 &&
    (if regWidth off ≠ 0 then regWidth off == w
     else if w == 8 then regWidth (off + 4) == 0
     else regWidth (off - 4) != 8)

/-- STATE of TICK_STATUS. -/
def tickStCode : TickSt → Nat
  | .stopped => 0
  | .starting => 1
  | .current => 2
  | .coasting => 3
  | .halted => 4
/-- A block-level counter as a register (R507). -/
def cntWord (c : Nat × Bool) : Nat := c.1 + b2n c.2 * 2 ^ 63
/-- A mailbox's MBX_STATUS. -/
def mbxStatus (u : Units) (m : Mbx) : Nat :=
  m.lastStatus * 2 ^ 16 + b2n u.fw.mbxUp * 16 + b2n m.overrun * 8 + b2n m.resp * 4 + b2n m.busy * 2
/-- A GPIO in a function switch (R468). -/
def parking (g : Gpio) : Bool := g.next.isSome
/-- The level PIN_IN reports (R468, R506). -/
def pinIn (g : Gpio) : Bool := !parking g && (g.func == 1 || g.func == 2 || g.func == 3) && g.level
/-- A word with bit n the answer of f. -/
def bitWord (n : Nat) (f : Nat → Bool) : Nat := ((List.range n).map (fun k => b2n (f k) * 2 ^ k)).sum

/-- Registers of block identity and control and of firmware (19, 11). -/
def readIdent (a : Asm) (u : Units) (off : Nat) : Nat :=
  let rec_ := u.fw.stage == 5
  if off == 0x0 then (0x3200 + a.variant) * 2 ^ 16 + a.variant * 256 + a.stepping
  else if off == 0x8 then a.serial
  else if off == 0x10 then 2 * 2 ^ 24 + nStacks a * 2 ^ 16 + ioDies a * 256 + engineDies a
  else if off == 0x18 then ((List.range 12).map (fun s => a.stackmap.getD s 0x1F * 2 ^ (5 * s))).sum
  else if off == 0x20 then nLinks a * 2 ^ 24 + 16 * ioDies a * 2 ^ 16 + nStacks a * 48
  else if off == 0x30 then b2n u.blk.arbPlain
  else if off == 0x40 then u.blk.firstReason * 2 ^ 16 + u.blk.nfail * 256 + b2n u.blk.stopping * 8
    + b2n u.blk.failed * 4 + b2n u.blk.checking * 2 + b2n u.blk.en
  else if off == 0x50 then u.blk.fatalCode * 2 ^ 16 + b2n u.blk.fatal * 16 + b2n u.blk.poison * 8
    + b2n u.blk.unit * 4 + b2n u.blk.iface * 2 + b2n u.blk.corr
  else if off == 0x100 then if rec_ then 0 else u.fw.run.ver
  else if off == 0x104 then if rec_ then 0 else u.fw.minSvn * 2 ^ 16 + u.fw.run.svn
  else if off == 0x108 then if rec_ then 0x03020300 else u.fw.run.ifMax * 2 ^ 16 + u.fw.run.ifMin
  else if off == 0x10C then u.fw.bootCfg
  else if off == 0x110 then u.fw.updResult * 2 ^ 24 + u.fw.vis * 2 ^ 18 + u.fw.updState * 2 ^ 16
    + b2n u.fw.mbxUp * 256 + u.fw.bank * 16 + u.fw.stage
  else if off == 0x118 then u.fw.updTick
  else if inRange off 0x120 0x150 8 then if rec_ then 0 else le u.fw.run.digest (off - 0x120) 8
  else if inRange off 0x180 0x1D0 8 then
    let r := tgetD u.fw.roles ((off - 0x180) / 8) {}
    r.restarts * 2 ^ 48 + r.moves * 2 ^ 40 + r.period * 2 ^ 16 + r.state * 2 ^ 8 + r.core / 6 * 8 + r.core % 6
  else 0

/-- Tick registers (R503). -/
def readTick (u : Units) (off : Nat) : Nat :=
  let t := u.tick
  if off == 0x10000 then b2n t.admitHold * 16 + b2n t.outEn * 8 + t.src * 2 + b2n t.en
  else if off == 0x10008 then t.period
  else if off == 0x10010 then t.egress * 2 ^ 16 + t.ingress
  else if off == 0x10018 then t.epoch
  else if off == 0x10020 then t.offset
  else if off == 0x10028 then t.time
  else if off == 0x10030 then t.number
  else if off == 0x10038 then b2n t.lastArmLate * 2 ^ 18 + b2n t.haltedBit * 2 ^ 17 + b2n t.srcFault * 2 ^ 16
    + t.coastRun * 256 + tickStCode t.st
  else if off == 0x10040 then unsigned 32 (t.slewNext.getD t.slew)
  else if off == 0x10048 then t.inlat
  else if off == 0x10050 then t.coastTotal
  else 0

/-- Notice-queue registers but NQ_POP (R505). -/
def readNq (q : QInst) (p : Prod) (port off : Nat) : Nat :=
  let b := if port = 0 then q.rbuf0 else q.rbuf1
  if off == 0x20000 then b2n q.intEn
  else if off == 0x20008 then b2n q.thr * 2 ^ 24
    + bitWord 4 (fun s => q.committed.any (fun c => c.sev == s)) * 2 ^ 20 + b2n q.committed.isEmpty * 2 ^ 16 + qfill q
  else if off == 0x20010 then q.thresh
  else if off == 0x20020 then b.poison * 2 ^ 24 + b.words.length * 256 + b.sev * 16 + b2n b.valid
  else if inRange off 0x20040 0x20080 8 then (b.words.getD ((off - 0x20040) / 8) 0).toNat
  else if off == 0x20080 then p.lost
  else if off == 0x20088 then p.lostSev
  else if off == 0x20090 then q.flushed
  else if off == 0x20098 then q.rewound
  else if off == 0x200A0 then q.parErr
  else if off == 0x200A8 then q.eccCorr
  else if off == 0x200B0 then q.eccUnc
  else if off == 0x200B8 then q.seqLast
  else if off == 0x20100 then bitWord 16 (fun k => (tget p.mirror k).isSome)
  else if 0x20800 ≤ off ∧ off < 0x21000 then
    let m := tgetD p.mirror ((off - 0x20800) / 0x80) {}
    let o := off % 0x80
    if o < 0x40 then (m.words.getD (o / 8) 0).toNat else if o == 0x40 then m.count else m.lastTick
  else 0

/-- Pin and counter registers (R506, R507). -/
def readPins (u : Units) (off : Nat) : Nat :=
  let g (n : Nat) : Gpio := tgetD u.pins.gpio n {}
  if inRange off 0x30000 0x30040 4 then let x := g ((off - 0x30000) / 4); x.park * 256 + x.func
  else if off == 0x30040 then u.pins.out
  else if off == 0x30048 then bitWord 16 (fun n => pinIn (g n))
  else if off == 0x30050 then b2n (gateOk u) * 2 ^ 20 + b2n (gateOk u) * 2 ^ 19 + b2n u.pins.pwrGood * 2 ^ 18
    + b2n u.pins.tripIn * 2 ^ 17 + b2n u.pins.throt * 2 ^ 16 + bitWord 16 (fun n => parking (g n))
  else if off == 0x40008 then u.cnt.snapTick
  else if inRange off 0x40100 0x40180 8 then cntWord (tgetD u.cnt.blk ((off - 0x40100) / 8) (0, false))
  else if inRange off 0x40200 0x40280 8 then cntWord (tgetD u.cnt.snap ((off - 0x40200) / 8) (0, false))
  else 0

/-- A mailbox window (R338). Mailbox 64 is reserved. -/
def readMbx (u : Units) (off w : Nat) : Nat :=
  let n := (off - 0x100000) / 0x2000
  let o := (off - 0x100000) % 0x2000
  let m := tgetD u.mbx n {}
  if 64 ≤ n then 0
  else if o < 0xFC0 then mle m.area o w
  else if o == 0xFC0 then mbxStatus u m
  else if o == 0xFC8 then b2n m.intEn
  else if o == 0xFD0 then m.lastSeq
  else if o == 0xFF8 then b2n m.busy
  else if 0x1000 ≤ o then mle m.respArea (o - 0x1000) w
  else 0

/-- The value of a register read, without the effect of the read. DESIGN CHOICE, log 46. -/
def regRead (a : Asm) (q : QInst) (u : Units) (port off w : Nat) : Nat :=
  if !barLive u port off then 0
  else if off < 0x10000 then readIdent a u off
  else if off < 0x20000 then readTick u off
  else if off < 0x30000 then readNq q u.prodN port off
  else if off < 0x100000 then readPins u off
  else readMbx u off w

/-- Offsets of the RC counters (R11, R305). -/
def rcRegs : List Nat := [0x20080, 0x20090, 0x20098, 0x200A0, 0x200A8, 0x200B0]
/-- An RC counter left at the events of the cycle of its read (R11). -/
def rcClear (off events : Nat) (s : State) : State :=
  let e := satN 48 events
  let q := s.q.notice
  let put (q : QInst) : State := { s with q := { s.q with notice := q } }
  if off == 0x20080 then { s with u := { s.u with prodN := { s.u.prodN with lost := e } } }
  else if off == 0x20090 then put { q with flushed := e }
  else if off == 0x20098 then put { q with rewound := e }
  else if off == 0x200A0 then put { q with parErr := e }
  else if off == 0x200A8 then put { q with eccCorr := e }
  else if off == 0x200B0 then put { q with eccUnc := e }
  else s
/-- What a read returned, put out through its port. -/
def answerRead (port v : Nat) (s : State) : State := { s with u := emit (.read port v) s.u }
/-- The REG_ACCESS notice (R12, R458). -/
def regAccessNotice (port off w : Nat) (u : Units) : Units := notice (dieKey 3 0) 0x0801 0 [off, w, port] u

/-- A host read of the control BAR. events: what else of an RC register happened in its cycle. DESIGN CHOICE, log 211. -/
def hostRead (port off w events : Nat) (s : State) : Res :=
  if 2 ^ 24 ≤ off then .fault .outsideBar
  else if !accessOk off w then .next (answerRead port 0 { s with u := regAccessNotice port off w s.u })
  else if off == 0x20018 then
    if barLive s.u port off then
      let r := qPopPort s.q.notice port 0 0
      .next (answerRead port r.2 { s with q := { s.q with notice := r.1 } })
    else .next (answerRead port 0 s)
  else
    let v := regRead s.asm s.q.notice s.u port off w
    if rcRegs.contains off ∧ barLive s.u port off then .next (answerRead port v (rcClear off events s))
    else .next (answerRead port v s)

/-- TICK_REG_LOCKED (R38, R40, R42, R53, R54). -/
def tickLocked (off val : Nat) (u : Units) : Units := notice (dieKey 3 0) 0x0105 0 [off, val] u
/-- Whether P, I and E satisfy R33 and R34. -/
def phasesOk (p i e : Nat) : Bool := 50 ≤ p && p ≤ 2000 && 5 ≤ i && 4 ≤ e && 2 * (i + e + 4) ≤ p
/-- Whether the fabric time unit disciplines the counter (R384). -/
def disciplined (u : Units) : Bool := u.blk.topoOk && u.fab.masterId != u.fab.selfId
/-- First edge under source 0 (R53): the first k whose edge lies at least 2 P after now. -/
def firstEdge (u : Units) : Nat :=
  let p := periodNs u
  let base := u.tick.epoch + u.tick.offset
  base + ceilDiv (u.tick.time + 2 * p - base) p * p
/-- Whether the tick runs: to its stopping edge, though EN reads 0 from the write that stops it (R42, R54). -/
def tickRuns (u : Units) : Bool := u.tick.st != .stopped
/-- The fields of a TICK_CTL write that takes effect, EN last (R42, R47, R53, R54). -/
def tickCtlFields (val : Nat) (u : Units) : Units :=
  let src := bitsOf val 2 1
  let en := bitAt val 0
  let u := { u with tick := { u.tick with outEn := bitAt val 3, src := if src = 3 then u.tick.src else src } }
  if en && !u.tick.en then
    if u.blk.en && !u.tick.stopReq then
      { u with tick := { u.tick with
          en := true, st := .starting, startAt := firstEdge u, anchor := none, groupEdge := none, groupNum := none
          holdover := 0, armed := [], next := [], cur := [], armSample := none, coastRun := 0, haltNext := false
          lastMark := 5 } }
    else tickLocked 0x10000 val u
  else if !en && u.tick.en then
    if u.blk.en then tickLocked 0x10000 val u
    else { u with tick := { u.tick with en := false, stopReq := true } }
  else u
/-- A write to TICK_CTL (R42): while the tick runs, one that would change SRC has no effect. DEDUCED, log 48. -/
def tickCtlWrite (val : Nat) (u : Units) : Units :=
  if tickRuns u && bitsOf val 2 1 != u.tick.src then tickLocked 0x10000 val u else tickCtlFields val u
/-- A write to TICK_PERIOD (R35, R42, R504). -/
def tickPeriodWrite (val : Nat) (u : Units) : Units :=
  let p := val % 2 ^ 11
  let i := 35 * p / 100 % 2 ^ 10
  let e := max 4 (7 * p / 100) % 2 ^ 10
  if tickRuns u ∨ (u.blk.en ∧ !phasesOk p i e) then tickLocked 0x10008 val u
  else { u with tick := { u.tick with period := p, ingress := i, egress := e } }
/-- A write to TICK_PHASES (R34, R42, R504). -/
def tickPhasesWrite (val : Nat) (u : Units) : Units :=
  let i := bitsOf val 9 0
  let e := bitsOf val 25 16
  if tickRuns u ∨ (u.blk.en ∧ !phasesOk u.tick.period i e) then tickLocked 0x10010 val u
  else { u with tick := { u.tick with ingress := i, egress := e } }
/-- A write to TICK_EPOCH (R42). -/
def tickEpochWrite (val : Nat) (u : Units) : Units :=
  if tickRuns u then tickLocked 0x10018 val u else { u with tick := { u.tick with epoch := val % 2 ^ 64 } }
/-- A write to TICK_OFFSET (R40, R42). -/
def tickOffsetWrite (val : Nat) (u : Units) : Units :=
  if tickRuns u ∨ periodNs u ≤ val then tickLocked 0x10020 val u
  else { u with tick := { u.tick with offset := val } }
/-- A write to TICK_TIME (R38). -/
def tickTimeWrite (val : Nat) (u : Units) : Units :=
  if tickRuns u then tickLocked 0x10028 val u else { u with tick := { u.tick with time := val % 2 ^ 64 } }
/-- A slew put in force at the next edge while the tick runs, at once otherwise (R39). -/
def setSlew (v : Int) (u : Units) : Units :=
  let v := clampI (-200000) 200000 v
  if tickRuns u then { u with tick := { u.tick with slewNext := some v } }
  else { u with tick := { u.tick with slew := v, slewNext := none } }
/-- A write to TICK_SLEW (R39, R384). -/
def tickSlewWrite (val : Nat) (u : Units) : Units :=
  if disciplined u then tickLocked 0x10040 val u else setSlew (signed 32 val) u

/-- ARB_PLAIN (R399, R501). DEDUCED, log 49. -/
def arbPlainWrite (v : Bool) (u : Units) : Units :=
  if u.blk.en then u
  else
    let u := { u with blk := { u.blk with arbPlain := v } }
    if v then notice (dieKey 3 0) 0x0E04 0 [] u else u
/-- EN written 1 (R412). -/
def blkEnableRequest (u : Units) : Units :=
  if u.blk.en ∨ u.blk.checking then u else { u with blk := { u.blk with checking := true } }
/-- Whether a context is enabled or disabling (R352). -/
def anyInService (u : Units) : Bool := u.ctx.any (fun c => c.2.state == 2 || c.2.state == 3)
/-- EN written 0 (R413). -/
def blkDisable (val : Nat) (u : Units) : Units :=
  if anyInService u then notice (dieKey 3 0) 0x0F04 0 [val] u else { u with blk := { u.blk with en := false } }
/-- A forced stop takes effect (R413): every context in service leaves it, EN is clear, FORCED_STOP names the contexts. -/
def forcedOut (u : Units) : Units :=
  let out (c : Ctx) : Bool := c.state == 2 || c.state == 3
  let mask := bitWord 64 (fun k => out (tgetD u.ctx k {}))
  let enable (c : Change) : Bool := match c with | .enable _ => true | _ => false
  notice (dieKey 3 0) 0x0F08 0 [mask] { u with
    blk := { u.blk with en := false, stopping := false }
    changes := u.changes.filter (fun c => !enable c.2)
    ctx := tmap u.ctx (fun _ c => { c with state := if out c then 1 else c.state, enableAt := none, holdFrom := none }) }
/-- STOP written 1 (R413). With the tick not running there is no edge to wait for, so it takes effect at once (DESIGN CHOICE, log 19). -/
def blkStop (u : Units) : Units :=
  if !u.blk.en then u
  else if running u then { u with blk := { u.blk with stopping := true }, tick := { u.tick with forced := true } }
  else forcedOut u
/-- A write to BLK_ENABLE (R412, R413). One that orders a forced stop is no write of 0 to EN (DEDUCED, log 31).
DEDUCED, log 50. -/
def blkEnableWrite (val : Nat) (u : Units) : Units :=
  let u := if bitAt val 3 && u.blk.en then blkStop u else if bitAt val 0 then blkEnableRequest u else blkDisable val u
  if bitAt val 2 then { u with blk := { u.blk with failed := false } } else u
/-- A write to BLK_ERR_STATUS: W1C. -/
def blkErrWrite (val : Nat) (u : Units) : Units :=
  { u with blk := { u.blk with
      corr := u.blk.corr && !bitAt val 0, iface := u.blk.iface && !bitAt val 1
      unit := u.blk.unit && !bitAt val 2, poison := u.blk.poison && !bitAt val 3 } }

/-- A write to PIN_FUNCn (R468). DEDUCED, log 52. -/
def pinFuncWrite (n val : Nat) (u : Units) : Units :=
  let f := bitsOf val 3 0
  let g := tgetD u.pins.gpio n {}
  let put (g : Gpio) : Units := { u with pins := { u.pins with gpio := tset u.pins.gpio n g } }
  if 5 < f then notice (dieKey 3 0) 0x0965 0 [n, val] u
  else
    let g := { g with park := bitsOf val 15 8 }
    if g.func = f ∧ g.next = none then put g else put { g with func := f, next := some f, level := false }

/-- A response header and payload with its trailer (R341, R342). cmd: the command's header. DEDUCED, log 39. -/
def respBytes (cmd : Memory) (major minor status seq : Nat) (payload : Bytes) : Bytes :=
  let p := padTo 8 payload
  let msg := leBytes 1 major ++ leBytes 1 minor ++ leBytes 2 (mle cmd 2 2) ++ leBytes 2 (p.length / 8)
    ++ leBytes 2 (mle cmd 6 2) ++ leBytes 1 (mle cmd 8 1) ++ leBytes 1 (0x80 + mle cmd 9 1 % 4) ++ leBytes 2 status
    ++ leBytes 4 seq ++ p
  msg ++ leBytes 4 (crc32c msg) ++ leBytes 4 0
/-- A response written whole (R339): RESP, LAST_STATUS, BUSY, and the vector. -/
def mbxWrite (n : Nat) (resp : Bytes) (u : Units) : Units :=
  let m := tgetD u.mbx n {}
  let noint := bitAt (mle m.cmd 9 1) 0
  let u := { u with mbx := tset u.mbx n { m with
      respArea := mwrite [] 0 resp, resp := true, busy := false, lastStatus := le resp 10 2, phase := .idle
      ans := none, touched := false } }
  if m.intEn && !noint then msix (16 + n) u else u
/-- The BUSY answer with LEN 0 (R319): not executed. -/
def mbxBusy (n : Nat) (u : Units) : Units :=
  let m := tgetD u.mbx n {}
  dieBump 56 0x0301 1 (mbxWrite n
    (respBytes m.cmd (mle m.cmd 0 1) (mle m.cmd 1 1) 1 (mle m.cmd 12 4) []) u)
/-- RING written 1 (R339, R319, R328). -/
def mbxRing (n : Nat) (u : Units) : Units :=
  let m := tgetD u.mbx n {}
  let rom := u.fw.stage == 5 && n == 0 && bitAt u.fw.bootCfg 6
  if m.busy then { u with mbx := tset u.mbx n { m with overrun := true } }
  else
    let m := { m with resp := false, cmd := m.area, touched := false }
    if u.fw.mbxUp || rom then
      { u with mbx := tset u.mbx n { m with busy := true, phase := .rung, ans := none, doneAt := 0 } }
    else mbxBusy n { u with mbx := tset u.mbx n m }

/-- A write inside a mailbox window (R338). DEDUCED, log 10. -/
def mbxWindowWrite (off w val : Nat) (u : Units) : Units :=
  let n := (off - 0x100000) / 0x2000
  let o := (off - 0x100000) % 0x2000
  let m := tgetD u.mbx n {}
  let put (m : Mbx) : Units := { u with mbx := tset u.mbx n m }
  if 64 ≤ n then u
  else if o < 0xFC0 then put { m with area := mwrite m.area o (leBytes w val), touched := m.touched || m.busy }
  else if o == 0xFC0 then put { m with overrun := m.overrun && !bitAt val 3, resp := m.resp && !bitAt val 2 }
  else if o == 0xFC8 then put { m with intEn := bitAt val 0 }
  else if o == 0xFF8 then if bitAt val 0 then mbxRing n u else u
  else u

/-- A write of a register of the units: those of the notice queue instance apart. Read-only and reserved ones ignore it. -/
def unitsWrite (off w val : Nat) (u : Units) : Units :=
  if 0x100000 ≤ off then mbxWindowWrite off w val u
  else if off == 0x30 then arbPlainWrite (bitAt val 0) u
  else if off == 0x40 then blkEnableWrite val u
  else if off == 0x50 then blkErrWrite val u
  else if off == 0x10000 then tickCtlWrite val u
  else if off == 0x10008 then tickPeriodWrite val u
  else if off == 0x10010 then tickPhasesWrite val u
  else if off == 0x10018 then tickEpochWrite val u
  else if off == 0x10020 then tickOffsetWrite val u
  else if off == 0x10028 then tickTimeWrite val u
  else if off == 0x10038 then { u with tick := { u.tick with
      haltedBit := u.tick.haltedBit && !bitAt val 17, srcFault := u.tick.srcFault && !bitAt val 16 } }
  else if off == 0x10040 then tickSlewWrite val u
  else if off == 0x10048 then { u with tick := { u.tick with inlat := val % 2 ^ 16 } }
  else if off == 0x20088 then { u with prodN := { u.prodN with
      lostSev := bitWord 4 (fun k => bitAt u.prodN.lostSev k && !bitAt val k) } }
  else if off == 0x20100 then critClear val u
  else if inRange off 0x30000 0x30040 4 then pinFuncWrite ((off - 0x30000) / 4) val u
  else if off == 0x30040 then { u with pins := { u.pins with out := val % 2 ^ 16 } }
  else if off == 0x40000 then { u with cnt := { u.cnt with
      snapReq := u.cnt.snapReq || bitAt val 1, clrReq := u.cnt.clrReq || bitAt val 0 } }
  else u
/-- A write of a register of the notice queue instance. -/
def nqWrite (off val : Nat) (q : QInst) : QInst :=
  if off == 0x20000 then
    let q := { q with intEn := bitAt val 0 }
    if bitAt val 1 then qFlush q else q
  else if off == 0x20008 then { q with thr := q.thr && !bitAt val 24 }
  else if off == 0x20010 then { q with thresh := val % 2 ^ 13 }
  else q

/-- A host write to the control BAR. DESIGN CHOICE, log 46. DESIGN CHOICE, log 211. -/
def hostWrite (port off w val : Nat) (bad : Bool) (s : State) : Res :=
  if 2 ^ 24 ≤ off then .fault .outsideBar
  else if bad ∨ !accessOk off w then .next { s with u := regAccessNotice port off w s.u }
  else if !barTakes s.u port off then .next s
  else
    let val := val % 2 ^ (8 * w)
    .next { s with u := unitsWrite off w val s.u, q := { s.q with notice := nqWrite off val s.q.notice } }

/-- REG_WRITE (R10, R458). -/
def execRegWrite (port : Fin 2) (off width : Nat) (val : W64) (bad : Bool) (s : State) : Res :=
  hostWrite port off width val.toNat bad s
/-- REG_ACCESS (R12). -/
def execRegAccess (port : Fin 2) (off width : Nat) (val : Option W64) (s : State) : Res :=
  match val with
  | some v => hostWrite port off width v.toNat false s
  | none => hostRead port off width 0 s
/-- RC_READ (R11). -/
def execRcRead (port : Fin 2) (off events : Nat) (s : State) : Res := hostRead port off 8 events s
/-- MBX_DOORBELL (R339). -/
def execMbxDoorbell (mb : Fin 64) (s : State) : Res := onReg (0x100FF8 + 0x2000 * mb.val) (mbxRing mb) s
/-- BLK_ENABLE_REQUEST (R412). -/
def execBlkEnableRequest (s : State) : Res := onReg 0x40 blkEnableRequest s
/-- BLK_DISABLE (R413). -/
def execBlkDisable (s : State) : Res := onReg 0x40 (blkDisable 0) s
/-- BLK_STOP (R413). -/
def execBlkStop (s : State) : Res := onReg 0x40 blkStop s
/-- ARB_PLAIN_WRITE (R399, R501). -/
def execArbPlainWrite (v : Bool) (s : State) : Res := onReg 0x30 (arbPlainWrite v) s
/-- TICK_START (R53): a write to TICK_CTL. -/
def execTickStart (val : W32) (s : State) : Res := onReg 0x10000 (tickCtlWrite val.toNat) s
/-- TICK_STOP_REQUEST (R54): a write to TICK_CTL. -/
def execTickStopRequest (val : W32) (s : State) : Res := onReg 0x10000 (tickCtlWrite val.toNat) s
/-- TICK_PERIOD_WRITE (R35). -/
def execTickPeriodWrite (val : W32) (s : State) : Res := onReg 0x10008 (tickPeriodWrite val.toNat) s
/-- TICK_TIME_WRITE (R38). -/
def execTickTimeWrite (val : W64) (s : State) : Res := onReg 0x10028 (tickTimeWrite val.toNat) s
/-- TICK_SLEW_WRITE (R39). -/
def execTickSlewWrite (val : W32) (s : State) : Res := onReg 0x10040 (tickSlewWrite val.toNat) s
/-- TICK_OFFSET_WRITE (R40). -/
def execTickOffsetWrite (val : W32) (s : State) : Res := onReg 0x10020 (tickOffsetWrite val.toNat) s
/-- CNT_SNAP (R507). -/
def execCntSnap (s : State) : Res := onReg 0x40000 (fun u => { u with cnt := { u.cnt with snapReq := true } }) s
/-- CNT_CLR (R507). -/
def execCntClr (s : State) : Res := onReg 0x40000 (fun u => { u with cnt := { u.cnt with clrReq := true } }) s
/-- PIN_FUNC_WRITE (R468). -/
def execPinFuncWrite (n : Fin 16) (val : W32) (s : State) : Res := onReg (0x30000 + 4 * n.val) (pinFuncWrite n val.toNat) s

end Sys2Proof.Machine
end

