-- ==== Sys2Proof/Machine/Mailbox.lean ====
section
/-! DEFINITION. The mailbox protocol (12, R341 to R350): begin, checks, answers, responses; the layouts of the catalogue;
the shape every message's meaning has. -/
namespace Sys2Proof.Machine

/-- Where an opcode may be sent (12, Mb column): 0 mailbox 0, 1 context mailboxes, 2 any. -/
abbrev MbKind := Nat
/-- Named bytes of a BUF at an offset (R350). -/
def bufNamed (off : Nat) : List (Nat × Nat) := [(off, 2), (off + 4, 12)]
/-- Layout of an opcode (R351 to R360): where it may be sent, its length in bytes for the counts of a payload, and the
named runs of bytes (offset, length). -/
def layoutOf (op : Nat) (p : Bytes) : Option (MbKind × Nat × List (Nat × Nat)) :=
  match op with
  | 0x0001 => some (2, 0, [])
  | 0x0002 => some (0, 32 + 16 * le p 24 1, (0, 25) :: (List.range (le p 24 1)).map (fun k => (32 + 16 * k, 10)))
  | 0x0003 => some (0, 14, [(0, 14)])
  | 0x0004 => some (0, 48, (0, 4) :: bufNamed 16 ++ bufNamed 32)
  | 0x0005 => some (0, 0, [])
  | 0x0006 => some (2, 0, [])
  | 0x0101 => some (0, 24 + 8 * le p 3 1, (0, 17) :: (List.range (le p 3 1)).map (fun k => (24 + 8 * k, 4)))
  | 0x0102 => some (0, 64, (0, 1) :: (2, 2) :: bufNamed 16 ++ bufNamed 32 ++ bufNamed 48)
  | 0x0103 => some (0, 8 + 4 * le p 1 1,
      (0, 2) :: (List.range (le p 1 1)).flatMap (fun k => [(8 + 4 * k, 1), (10 + 4 * k, 2)]))
  | 0x0104 => some (0, 1, [(0, 1)])
  | 0x0105 => some (0, 1, [(0, 1)])
  | 0x0106 => some (2, 1, [(0, 1)])
  | 0x0201 => some (0, 296, [(0, 2), (8, 288)])
  | 0x0202 => some (0, 2, [(0, 2)])
  | 0x0203 => some (0, 40, [(0, 1), (8, 32)])
  | 0x0204 => some (0, if le p 0 1 = 0 then 272 else 16, [(0, 1), (2, 3), (8, 8), (16, 256)])
  | 0x0205 => some (0, 8 + 8 * le p 4 2, [(0, 6), (8, 8 * le p 4 2)])
  | 0x0206 => some (0, 32, (0, 8) :: bufNamed 16)
  | 0x0207 => some (0, 136, [(0, 2), (8, 128)])
  | 0x0208 => some (0, 6, [(0, 6)])
  | 0x0209 => some (0, 32, (0, 4) :: bufNamed 16)
  | 0x020A => some (0, 32, (0, 6) :: bufNamed 16)
  | 0x0301 => some (0, 80, (0, 1) :: (32, 48) :: bufNamed 16)
  | 0x0302 => some (0, 16, [(0, 16)])
  | 0x0303 => some (0, 10, [(0, 2), (4, 6)])
  | 0x0304 => some (0, 1, [(0, 1)])
  | 0x0305 => some (0, 32, (0, 1) :: bufNamed 16)
  | 0x0401 => some (1, 72, [(0, 3), (4, 4), (8, 64)])
  | 0x0402 => some (1, 72, [(0, 4), (8, 64)])
  | 0x0403 => some (1, 4, [(0, 4)])
  | 0x0404 => some (1, 9, [(0, 9)])
  | 0x0405 => some (1, 72, [(0, 5), (8, 64)])
  | 0x0406 => some (1, 4, [(0, 4)])
  | 0x0407 => some (1, 4, [(0, 4)])
  | 0x0501 => some (1, 2, [(0, 2)])
  | 0x0502 => some (1, 2, [(0, 2)])
  | 0x0601 => some (0, 24, [(0, 2), (4, 20)])
  | 0x0602 => some (0, 32, [(0, 3), (8, 24)])
  | 0x0603 => some (0, 16, [(0, 1), (8, 8)])
  | 0x0604 => some (0, 40, [(0, 2), (8, 32)])
  | 0x0605 => some (0, 8, [(0, 1), (4, 4)])
  | 0x0606 => some (2, 32, (0, 1) :: (8, 8) :: bufNamed 16)
  | 0x0607 => some (2, 0, [])
  | 0x0701 => some (0, 80, (32, 48) :: bufNamed 16)
  | 0x0702 => some (0, 8, [(0, 8)])
  | 0x0703 => some (0, 4, [(0, 4)])
  | 0x0704 => some (0, 4, [(0, 1), (2, 2)])
  | 0x0705 => some (0, 32, (0, 2) :: bufNamed 16)
  | 0x0706 => some (0, 5, [(0, 5)])
  | 0x0707 => some (0, 208, [(0, 4), (8, 200)])
  | 0x0801 => some (0, 6, [(0, 3), (4, 2)])
  | 0x0802 => some (2, 32, (8, 8) :: bufNamed 16)
  | 0x0803 => some (0, 32, (0, 2) :: bufNamed 16)
  | 0x0804 => some (0, 16, [(0, 16)])
  | 0x0805 => some (0, 32, bufNamed 16)
  | 0x0806 => some (0, 32, (0, 2) :: bufNamed 16)
  | 0x0807 => some (1, 32, (0, 4) :: bufNamed 16)
  | 0x0808 => some (0, 32, bufNamed 16)
  | 0x0901 => some (0, 32, (0, 12) :: (if le p 16 1 = 2 then [(17, 1)] else []) ++ bufNamed 16)
  | 0x0902 => some (0, 1, [(0, 1)])
  | 0x0903 => some (0, 16, [(0, 1), (8, 8)])
  | 0x0904 => some (0, 1, [(0, 1)])
  | _ => none

/-- An OK answer with a payload. -/
def ok (payload : Bytes) : Ans := { payload := payload }
/-- BUSY with LEN 0: not executed (R344). -/
def busy0 : Ans := { status := 1, executed := false }
/-- An answer with a detail word (R345). DEDUCED, log 41. -/
def bad (status space off code : Nat) : Ans :=
  { status := status, payload := leBytes 8 (space * 2 ^ 32 + off * 2 ^ 16 + code) }
/-- INVALID at a payload offset. DEDUCED, log 41. -/
def invalid (off : Nat) : Ans := bad 7 0 off 0
/-- FAULT on the buffer or area at a payload offset (R344, R345, R350). DEDUCED, log 40. -/
def faultAt (off : Nat) : Ans := bad 0xC 0 off 0
/-- An answer with a status and no detail (OFFSET none). DEDUCED, log 41. -/
def plain (status : Nat) : Ans := bad status 0 0xFFFF 0

/-- Interface version under which a command is executed (R346): MAJOR × 256 + MINOR; none where unsupported.
DEDUCED, log 42. -/
def versionWord (f : Fw) (major minor : Nat) : Option Nat :=
  let v := major * 256 + minor
  let (lo, hi) := if f.stage = 5 then (0x0300, 0x0302) else (f.run.ifMin, f.run.ifMax)
  if lo ≤ v ∧ v ≤ hi then some v
  else if major = hi / 256 ∧ hi % 256 < minor then some hi
  else none
/-- Payload of a captured command. -/
def payloadOf (m : Mbx) : Bytes := mread m.cmd 16 (8 * mle m.cmd 4 2)

/-- The first of the checks of R343 that a captured command fails: its status. DEDUCED, log 38. DEDUCED, log 42. -/
def commandCheck (f : Fw) (n : Nat) (m : Mbx) : Option Nat :=
  let len := mle m.cmd 4 2
  let op := mle m.cmd 2 2
  let flags := mle m.cmd 9 1
  if 501 < len then some 2
  else if mle m.cmd (16 + 8 * len) 4 ≠ crc32c (mread m.cmd 0 (16 + 8 * len)) then some 3
  else match versionWord f (mle m.cmd 0 1) (mle m.cmd 1 1) with
    | none => some 4
    | some v =>
      let p := payloadOf m
      match layoutOf op p with
      | none => some 6
      | some (kind, bytes, _) =>
        let need := ceilDiv bytes 8
        let hi := if f.stage = 5 then 0x0302 else f.run.ifMax
        let given := mle m.cmd 0 1 * 256 + mle m.cmd 1 1
        if mle m.cmd 8 1 ≠ n ∨ (kind = 0 ∧ n ≠ 0) ∨ (kind = 1 ∧ n = 0) then some 5
        else if (if hi < given then len < need else if v < hi then need < len else len ≠ need) then some 2
        else if mle m.cmd (20 + 8 * len) 4 ≠ 0 ∨ mle m.cmd 10 2 ≠ 0 ∨ bitAt flags 7 ∨ (bitAt flags 1 ∧ op ≠ 0x0104) ∨ bitsOf flags 6 2 ≠ 0 then some 7
        else none
/-- Whether the BUF at an offset has a reserved byte that is not 0: bytes 2 and 3, and WIN where SPACE is not 4 (R350; DEDUCED, log 32)
and the message gives that byte no use of its own (R486). -/
def bufReserved (p : Bytes) (named : List (Nat × Nat)) (b : Nat) : Bool :=
  le p (b + 2) 2 != 0 || (le p b 1 != 4 && le p (b + 1) 1 != 0 && !named.contains (b + 1, 1))
/-- First field of a payload with a reserved byte that is not 0 (R343, R345): a BUF is one field. DEDUCED, log 32. -/
def reservedAt (p : Bytes) (bytes : Nat) (named : List (Nat × Nat)) : Option Nat :=
  let bufs := (named.filter (fun r => r.2 == 2 && named.contains (r.1 + 4, 12))).map (·.1)
  (List.range (min p.length (8 * ceilDiv bytes 8))).find? (fun i =>
    (bufs.contains i && bufReserved p named i) ||
      (p.getD i 0 != 0 && !named.any (fun r => r.1 ≤ i && i < r.1 + r.2) && !bufs.any (fun b => b ≤ i && i < b + 16)))

/-- An answer becomes ready. -/
def answer (n : Nat) (a : Ans) (u : Units) : Units :=
  { u with mbx := tupd u.mbx n (fun m => { m with phase := .ready, ans := some a, doneAt := u.fw.commits }) }
/-- A command waits for its operation or decision. -/
def await (n : Nat) (u : Units) : Units :=
  { u with mbx := tupd u.mbx n (fun m => { m with phase := .waiting }) }
/-- An answer to a mailbox that waits; none where no mailbox does. -/
def answerWaiting (n : Option Nat) (a : Ans) (u : Units) : Units :=
  match n with
  | none => u
  | some k => if (tgetD u.mbx k {}).phase = .waiting then answer k a u else u

/-- The mailbox MBX begins next (R348): rotation after the last begun. DESIGN CHOICE, log 43. -/
def nextRung (u : Units) : Option Nat :=
  let r := (u.mbx.filter (fun e => e.2.phase == .rung)).map (·.1)
  match r.filter (fun k => u.fw.mbxRot < k) with
  | k :: _ => some k
  | [] => r.head?

/-- Role whose loss leaves a message BUSY (R321): BOOT, TIERS and HEALTH. DEDUCED, log 44. -/
def neededRole (op : Nat) : Option Nat :=
  match op / 256 with
  | 7 => some 0
  | 6 => some 7
  | 8 => if op = 0x0806 ∨ op = 0x0807 then some 7 else some 8
  | 9 => some 8
  | 4 => if op = 0x0404 ∨ op = 0x0405 ∨ op = 0x0407 then some 7 else none
  | _ => none

/-- The roles whose checkpoints hold what a message changes (R313): MBX, and the one its family is dispatched to. DEDUCED, log 44. -/
def changedRoles (op : Nat) : List Nat :=
  match op / 256 with
  | 3 => [9, 2]
  | 4 => [9, 1, 5, 6, 7]
  | 5 => [9, 1]
  | 6 => [9, 7]
  | 7 => [9, 0]
  | 8 => [9, 8]
  | 9 => [9, 3]
  | _ => [9]
/-- Whether a response may be written (R313, R348): every role its command changed has committed since its answer was ready. A
lost role commits no more, and with the tick stopped, or under the boot ROM, there are no commits. DESIGN CHOICE, log 45. -/
def committedSince (m : Mbx) (u : Units) : Bool :=
  !running u || u.fw.stage == 5 || m.ans.any (fun a => !a.executed)
    || (changedRoles (mle m.cmd 2 2)).all (fun k =>
      let r := tgetD u.fw.roles k {}
      r.state == 2 || decide (m.doneAt < r.commitAt))
/-- The version a captured command is answered under: that of its execution, and its own where there is none (R342, R346). -/
def answerVer (f : Fw) (m : Mbx) : Nat :=
  (versionWord f (mle m.cmd 0 1) (mle m.cmd 1 1)).getD (mle m.cmd 0 1 * 256 + mle m.cmd 1 1)

/-- The effect of the beginning of mailbox n's command (R343, R347, R328, R321). DEDUCED, log 37. -/
def beginOne (n : Nat) (u : Units) : Units :=
  let m := tgetD u.mbx n {}
  let m := { m with ver := answerVer u.fw m, begunAt := u.fw.begun }
  let seq := mle m.cmd 12 4
  let lost := match neededRole (mle m.cmd 2 2) with
    | some r => (tgetD u.fw.roles r {}).state == 2
    | none => false
  let u := { u with fw := { u.fw with mbxRot := n, begun := u.fw.begun + 1 }, mbx := tset u.mbx n m }
  match commandCheck u.fw n m with
  | some st => answer n { bad st 0 0xFFFF 0 with executed := false } u
  | none =>
    if m.stored.isSome ∧ m.lastSeq = seq then answer n { whole := m.stored, executed := false } u
    else if u.fw.stage = 5 ∧ mle m.cmd 2 2 ≠ 0x0701 then answer n busy0 u
    else if lost then answer n busy0 u
    else { u with mbx := tset u.mbx n { m with phase := .begun } }
/-- MBX_COMMAND_BEGIN (R348). A command area written since its doorbell has no defined outcome (R314, DEDUCED, log 10). -/
def execMbxCommandBegin (s : State) : Res :=
  if !isUp s.u ∨ (!s.u.fw.mbxUp ∧ s.u.fw.stage ≠ 5) then .next s
  else match nextRung s.u with
    | none => .next s
    | some n =>
      if (tgetD s.u.mbx n {}).touched then .fault .commandAreaOverwritten
      else .next { s with u := beginOne n s.u }

/-- Whether commands are executed and answered: MBX runs, or the boot ROM serves mailbox 0 (R313, R328).
DESIGN CHOICE, log 45. -/
def mbxServes (u : Units) : Bool := u.fw.stage == 5 || (tgetD u.fw.roles 9 {}).state == 0
/-- MBX_RESPONSE (R339, R342, R347). DEDUCED, log 37. DESIGN CHOICE, log 45. -/
def mbxRespond (n : Nat) (u : Units) : Units :=
  let m := tgetD u.mbx n {}
  if !mbxServes u || !committedSince m u then u else
  match m.phase, m.ans with
  | .ready, some a =>
    let v := m.ver
    let seq := mle m.cmd 12 4
    let resp := a.whole.getD (respBytes m.cmd (v / 256) (v % 256) a.status seq a.payload)
    let u := if a.executed then
        dieBump 56 0x0300 1 { u with mbx := tset u.mbx n { m with lastSeq := seq, stored := some resp } }
      else u
    mbxWrite n resp u
  | _, _ => u
/-- MBX_RESPONSE (R339). -/
def execMbxResponse (mb : Fin 64) (s : State) : Res := onU (mbxRespond mb) s

/-- Whether mailbox n's command is the first begun of those not executed (R348). -/
def nextBegun (u : Units) (n : Nat) : Bool :=
  u.mbx.all (fun e => e.2.phase != .begun || decide ((tgetD u.mbx n {}).begunAt ≤ e.2.begunAt))
/-- The payload of mailbox n's command if it has begun, is the next to be executed, and carries an opcode. -/
def begunWith (u : Units) (n op : Nat) : Option Bytes :=
  let m := tgetD u.mbx n {}
  if mbxServes u ∧ m.phase = .begun ∧ nextBegun u n ∧ mle m.cmd 2 2 = op then some (payloadOf m) else none
/-- FLAGS of mailbox n's command. -/
def flagsOf (u : Units) (n : Nat) : Nat := mle (tgetD u.mbx n {}).cmd 9 1
/-- The answer to a payload with a reserved byte that is not 0 at off: the first field at fault counts (R345). -/
def reservedAns (off : Nat) (a : Option Ans) : Ans :=
  match a with
  | some x => if x.status = 7 ∧ le x.payload 2 2 < off then x else invalid off
  | none => invalid off
/-- The effect of a message on the units: f gives the units and the answer, or none while the command waits. A
reserved byte that is not 0 lets nothing take effect (R343). -/
def message (op n : Nat) (f : Bytes → Units → Units × Option Ans) (u : Units) : Units :=
  match begunWith u n op with
  | none => u
  | some p =>
    match layoutOf op p with
    | none => u
    | some (_, bytes, named) =>
      match reservedAt p bytes named with
      | some off => answer n (reservedAns off (f p u).2) u
      | none =>
        let r := f p u
        match r.2 with
        | some a => answer n a r.1
        | none => await n r.1
/-- The same for a message that reads or writes buffers or memory. -/
def messageS (op n : Nat) (f : Bytes → State → State × Option Ans) (s : State) : State :=
  match begunWith s.u n op with
  | none => s
  | some p =>
    match layoutOf op p with
    | none => s
    | some (_, bytes, named) =>
      match reservedAt p bytes named with
      | some off => { s with u := answer n (reservedAns off (f p s).2) s.u }
      | none =>
        let r := f p s
        match r.2 with
        | some a => { r.1 with u := answer n a r.1.u }
        | none => { r.1 with u := await n r.1.u }
/-- A refusal or success without change. -/
def keep (u : Units) (a : Ans) : Units × Option Ans := (u, some a)
/-- Eight bytes. -/
def le8 (n : Nat) : Bytes := leBytes 8 n
/-- A list of reasons as a check-result list (R350): (code, argument) in ascending code order. -/
def resultList (l : List (Nat × Nat)) : Bytes :=
  let l := (sortBy (fun a b => a.1 < b.1) l).take 64
  padTo 8 (leBytes 1 l.length) ++ l.flatMap (fun r => leBytes 2 r.1 ++ leBytes 2 0 ++ leBytes 4 r.2)

end Sys2Proof.Machine
end

