-- ==== Sys2Proof/Machine/Pins.lean ====
section
/-! DEFINITION. Ports, pins and power (17): the commands on GPIOs, RESET_N, the host ports, the CXL links, the management
ports, the SMBus target and the TAP, and the effective calibration values they use (16, R441 to R443). -/
namespace Sys2Proof.Machine

/-- The entry of an item and scope in a list of calibration entries; the last one counts. -/
def calFind (l : List CalEnt) (item scope : Nat) : Option CalEnt :=
  l.reverse.find? (fun e => e.item == item && e.scope == scope)
/-- Range of the user offset of an item (R441). -/
def calUserRange (item : Nat) : Option (Int × Int) :=
  match item with
  | 1 => some (-64, 64)
  | 2 => some (-20000, 20000)
  | 3 => some (-5000, 5000)
  | 4 => some (0, 5)
  | 5 => some (-2, 2)
  | _ => none
/-- Range of an item given its factory value (R441). -/
def calItemRange (item : Nat) (factory : Int) : Int × Int :=
  match item with
  | 1 => (-512, 512)
  | 2 => (-50000, 50000)
  | 3 => (-20000, 20000)
  | 4 => (factory, factory + 5)
  | 5 => (0, 10)
  | _ => (factory, factory)
/-- Effective value of an item (R441). -/
def calEffective (item : Nat) (factory user : Int) : Int :=
  let r := calItemRange item factory
  clampI r.1 r.2 (factory + user)
/-- Factory value and user offset of an item and scope, under a list of user entries. -/
def calPair (v : Svc) (user : List CalEnt) (item scope : Nat) : Int × Int :=
  (((calFind v.factory item scope).map (·.factory)).getD 0, ((calFind user item scope).map (·.user)).getD 0)
/-- Effective value of an item and scope. -/
def calValue (v : Svc) (user : List CalEnt) (item scope : Nat) : Int :=
  let p := calPair v user item scope
  calEffective item p.1 p.2

/-- PIN_PARK_END (R468): the new function takes the filtered level. DEDUCED, log 52. -/
def pinParkEnd (n : Nat) (level : Bool) (u : Units) : Units :=
  let g := tgetD u.pins.gpio n {}
  if g.next.isSome then
    { u with pins := { u.pins with gpio := tset u.pins.gpio n { g with next := none, level := level } } }
  else u
/-- PIN_PARK_END (R468). -/
def execPinParkEnd (n : Fin 16) (level : Bool) (s : State) : Res := onU (pinParkEnd n level) s

/- Reset, power and thermal trips (R451, R452, R464). -/
/-- The spare group of an entry of the repair map that a spare serves (R429, R440). -/
def entGroup (r : RepairEnt) : Nat × Nat :=
  match r.kind with
  | 1 => (1, (r.die * 16 + bitsOf r.pos 11 8) * 16 + bitsOf r.pos 7 4)
  | 4 => (4, r.pos / 256)
  | 5 => (5, r.pos)
  | 6 => (6, r.die * 2 + r.pos / 256)
  | 7 => (7, 0)
  | k => (k, r.die)
/-- The spares that committed entries have taken: an uncommitted change is lost with a reset (R440). -/
def savedSpares (v : Svc) : List (Nat × Nat) := (v.repair.filter (fun r => r.saved && r.state == 0)).map entGroup
/-- The units as a block reset leaves them: all at their reset values but what lies in the store, the fuses and assembly,
and the outputs already made. DESIGN CHOICE, log 5. -/
def resetUnits (u : Units) : Units :=
  { fw := {
      bootCfgNext := u.fw.bootCfgNext, bootCfg := u.fw.bootCfg, bankA := u.fw.bankA, bankB := u.fw.bankB
      minSvn := u.fw.minSvn, keys := u.fw.keys, revoked := u.fw.revoked, bank := u.fw.bank, roles := rolesDefault
      badCores := u.fw.badCores, bankTorn := u.fw.bankTorn }
    svc := {
      repair := u.svc.repair.filter (·.saved), repairSeq := u.svc.repairSeq, poweredNs := u.svc.poweredNs
      factory := u.svc.factory, user := u.svc.user, userEdge := u.svc.user, journal := u.svc.journal
      jseq := u.svc.jseq, spareBlk := u.svc.spareBlk, journalBlk := u.svc.journalBlk, storeLow := u.svc.storeLow
      badBlk := u.svc.badBlk, tripRecord := u.svc.tripRecord
      spares := savedSpares u.svc
      rowsUsed := ((savedSpares u.svc).filter (fun g => g.1 == 5)).foldl (fun t g => tset t g.2 (tgetD t g.2 0 + 1)) [] }
    pins := { pwrGood := u.pins.pwrGood, jtagIr := u.pins.jtagIr, bsr := u.pins.bsr, strap := u.pins.strap }
    out := u.out
    freeIx := u.freeIx }
/-- A block reset: the queues of the primitive are cleared (R305) and the memories hold nothing (DESIGN CHOICE, log 5). -/
def resetState (s : State) : State := { s with u := resetUnits s.u, q := {}, m := {} }

/-- RESET_ASSERT (R464): RESET_N has been low for 100 reference-clock cycles. DESIGN CHOICE, log 55. -/
def execResetAssert (s : State) : Res :=
  let s := resetState s
  .next { s with u := { s.u with blk := { s.u.blk with resetLow := true } } }
/-- PWR_GOOD_FALL (R464). DESIGN CHOICE, log 55. -/
def execPwrGoodFall (s : State) : Res :=
  let s := resetState s
  .next { s with u := { s.u with blk := { s.u.blk with powerLow := true }, pins := { s.u.pins with pwrGood := false } } }

/-- A record joins the journal (R447). DESIGN CHOICE, log 96. -/
def journalAdd (type : Nat) (payload : Bytes) (c0 c1 : Bool) (v : Svc) : Svc :=
  { v with jseq := v.jseq + 1
           journal := v.journal ++ [{ seq := v.jseq, type := type, payload := payload, c0 := c0, c1 := c1 }] }

/-- Output stops and a bank write ends without its image (R451, R450). -/
def tripStop (u : Units) : Units :=
  let inv (b : FwImg) : FwImg := { b with valid := false }
  let u := { u with blk := { u.blk with tripped := true } }
  match u.fw.loading with
  | none => u
  | some _ =>
    let f := { u.fw with loading := none, updState := 0, updResult := 0x0A }
    { u with fw := if f.bank = 0 then { f with bankB := inv f.bankB } else { f with bankA := inv f.bankA } }
/-- THERM_TRIP (R451): one TRIP record of the tick, the die and the temperature in copy 0. DEDUCED, log 53. -/
def thermTrip (kind die temp : Nat) (u : Units) : Units :=
  if u.blk.tripped ∨ u.blk.shutdown then u else
  let rec_ := leBytes 8 u.tick.number ++ leBytes 2 (kind * 64 + die) ++ leBytes 2 temp
  let u := tripStop { u with pins := { u.pins with tripIn := true } }
  { u with svc := { journalAdd 0x0A rec_ true false u.svc with tripRecord := some rec_ } }
/-- THERM_TRIP (R451). -/
def execThermTrip (kind : Fin 4) (die : Fin 32) (temp : BitVec 16) (s : State) : Res :=
  onU (thermTrip kind die temp.toNat) s
/-- THERM_CRITICAL (R452, R465): reported, and the pin pulled low; THERMAL_SHUTDOWN follows. A TRIP record being
programmed is abandoned. DEDUCED, log 53. -/
def thermCritical (kind die : Nat) (u : Units) : Units :=
  let u := if u.blk.tripped then { u with svc := { u.svc with tripRecord := none } } else u
  let u := tripStop { u with pins := { u.pins with tripOut := true, tripIn := true } }
  notice (dieKey kind die) 0x0002 0 [locDie kind die] u
/-- THERM_CRITICAL (R452). -/
def execThermCritical (kind : Fin 4) (die : Fin 32) (s : State) : Res := onU (thermCritical kind die) s
/-- THERMAL_SHUTDOWN (R451, R452): clocks stop, outputs take their reset state, contents are lost. The primitive and its
mirror keep what they hold (R305). DESIGN CHOICE, log 208. -/
def execThermalShutdown (s : State) : Res :=
  if s.u.blk.tripped then
    let t := resetState s
    .next { t with q := s.q, u := { t.u with
      prodN := { s.u.prodN with wait := [] }, prodL := { s.u.prodL with wait := [] }, prodF := { s.u.prodF with wait := [] }
      blk := { t.u.blk with shutdown := true, tripped := true }
      pins := { t.u.pins with tripOut := s.u.pins.tripOut, tripIn := s.u.pins.tripIn } } }
  else .next s

/- Host ports (R455 to R459). -/
/-- A host port by number. -/
def portGet (u : Units) (p : Fin 2) : Port := if p = 0 then u.port0 else u.port1
/-- The units with a host port replaced. PRESUMED, log 15. -/
def portPut (u : Units) (p : Fin 2) (x : Port) : Units := if p = 0 then { u with port0 := x } else { u with port1 := x }
/-- Pending vectors a port can now signal are signalled on it, once (R455). -/
def flushVectors (p : Fin 2) (u : Units) : Units :=
  let x := portGet u p
  let go := x.pend.filter (fun k => x.msixEn && x.unmasked.contains k && !x.d3hot)
  let drop (y : Port) : Port := { y with pend := y.pend.filter (fun k => !go.contains k) }
  { u with port0 := drop u.port0, port1 := drop u.port1, out := u.out ++ go.map (fun k => .msix p k) }
/-- CONFIGURATION_REQUEST (R454 to R456, R459): Retry Status until the boot ROM has run (DEDUCED, log 21). -/
def configurationRequest (a : Asm) (p : Fin 2) (req : CfgReq) (u : Units) : Units :=
  if !isUp u ∨ u.fw.stage = 0 then emit (.retry p) u
  else
    let x := portGet u p
    match req with
    | .busMaster on => portPut u p { x with busMaster := on }
    | .msixEnable on => flushVectors p (portPut u p { x with msixEn := on })
    | .msixMask v masked =>
      let rest := x.unmasked.filter (fun k => k != v.val)
      flushVectors p (portPut u p { x with unmasked := if masked then rest else rest ++ [v.val] })
    | .d3hot on => flushVectors p (portPut u p { x with d3hot := on })
    | .deviceId => emit (.read p (0x3200 + a.variant)) u
    | .classCode => emit (.read p 0x120000) u
    | .pending w => emit (.read p (bitWord 64 (fun k => x.pend.contains (64 * w.val + k)))) u
    | .other => u
/-- CONFIGURATION_REQUEST (R459). -/
def execConfigurationRequest (p : Fin 2) (req : CfgReq) (s : State) : Res := onU (configurationRequest s.asm p req) s
/-- HOST_PORT_RESET (R458): the port's configuration space, MSI-X table, read buffer and link. DEDUCED, log 56. -/
def execHostPortReset (p : Fin 2) (s : State) : Res :=
  let n := s.q.notice
  let n := if p = 0 then { n with rbuf0 := {} } else { n with rbuf1 := {} }
  .next { s with u := portPut s.u p {}, q := { s.q with notice := n } }
/-- PCIE_ERR (R457): recorded in AER and reported. DEDUCED, log 57. -/
def pcieErr (p : Fin 2) (aer : Nat) (u : Units) : Units :=
  let x := portGet u p
  notice (dieKey 2 p) 0x0966 0 [p, aer] (setIface (portPut u p { x with aer := Nat.lor x.aer aer }))
/-- PCIE_ERR (R457). -/
def execPcieErr (p : Fin 2) (aer : W32) (s : State) : Res := onU (pcieErr p aer.toNat) s
/-- The contexts with borrowed pages or saved states in tier 2. -/
def tier2Ctxs (u : Units) : List Nat :=
  (List.range 64).filter (fun c => u.str.any (fun e => e.2.ctx == c && e.2.pages.any (·.2.tier2))
    || u.tier.saved.any (fun e => e.2.str.ctx == c && e.2.target == 0))
/-- CXL_LINK_DOWN (R461): the link leaves service until the next training after a block reset; its expander completes no
access (R407 condition 4). -/
def cxlLinkDown (a : Asm) (link : Nat) (timeout : Bool) (u : Units) : Units :=
  if nLinks a ≤ link ∨ u.tier.linksOut.contains link then u
  else
    notice (dieKey 2 (link / 2)) 0x0967 0 [link, b2n timeout]
      (setIface (forAll (tier2Ctxs u) (condBroken 4) { u with tier := { u.tier with linksOut := u.tier.linksOut ++ [link] } }))
/-- CXL_LINK_DOWN (R461). -/
def execCxlLinkDown (link : Fin 12) (timeout : Bool) (s : State) : Res := onU (cxlLinkDown s.asm link timeout) s

/- Management ports (R462). -/
/-- Big-endian value of n bytes at off. -/
def be (b : Bytes) (off n : Nat) : Nat := leVal (((b.drop off).take n).reverse)
/-- Big-endian bytes. -/
def beBytes (n v : Nat) : Bytes := (leBytes n v).reverse
/-- Sum of big-endian 16-bit words. -/
def sum16 : Bytes → Nat
  | a :: b :: r => a.toNat * 256 + b.toNat + sum16 r
  | [a] => a.toNat * 256
  | [] => 0
/-- Internet checksum. -/
def inetSum (b : Bytes) : Nat :=
  let f (n : Nat) : Nat := n / 65536 + n % 65536
  65535 - f (f (f (sum16 b)))
/-- The answer to an ARP request for our address, or to an ICMP echo request to it. PRESUMED, log 20. DEDUCED, log 51. -/
def mgmtReply (mac ip : Nat) (p : Bytes) : Option Bytes :=
  let src := (p.drop 6).take 6
  let own := leBytes 6 mac
  if be p 12 2 == 0x0806 && be p 14 2 == 1 && be p 16 2 == 0x0800 && be p 18 2 == 0x0604 && be p 20 2 == 1
      && be p 38 4 == ip && 42 ≤ p.length then
    some (src ++ own ++ (p.drop 12).take 8 ++ beBytes 2 2 ++ own ++ (p.drop 38).take 4 ++ (p.drop 22).take 10)
  else
    let hl := be p 14 1 % 16 * 4
    if be p 12 2 == 0x0800 && be p 14 1 / 16 == 4 && 20 ≤ hl && be p 23 1 == 1 && be p 30 4 == ip
        && be p (14 + hl) 1 == 8 && 14 + hl + 8 ≤ p.length then
      let opts := (p.drop 34).take (hl - 20)
      let h0 := (p.drop 14).take 8 ++ beBytes 1 64 ++ beBytes 1 1
      let addrs := (p.drop 30).take 4 ++ (p.drop 26).take 4
      let hdr := h0 ++ beBytes 2 (inetSum (h0 ++ beBytes 2 0 ++ addrs ++ opts)) ++ addrs ++ opts
      let body := (p.drop (14 + hl + 4)).take (be p 16 2 - hl - 4)
      let c := inetSum (beBytes 4 0 ++ body)
      some (src ++ own ++ beBytes 2 0x0800 ++ hdr ++ beBytes 2 0 ++ beBytes 2 c ++ body)
    else none
/-- MGMT_PACKET (R462): ARP and ICMP echo from READY onward, nothing else. PRESUMED, log 20. -/
def mgmtPacket (a : Asm) (die : Fin 2) (p : Bytes) (u : Units) : Units :=
  if !isUp u ∨ u.fw.stage ≠ 4 then u
  else match mgmtReply (if die = 0 then a.mac0 else a.mac1) (Config.mgmtAddr die).toNat p with
    | some r => emit (.eth die r) u
    | none => u
/-- MGMT_PACKET (R462). -/
def execMgmtPacket (die : Fin 2) (p : Bytes) (s : State) : Res := onU (mgmtPacket s.asm die p) s

/- SMBus (R470 to R472, R477, R478). -/
/-- The target address (R470). -/
def smbAddr (u : Units) : Nat := 0x58 + u.pins.strap
/-- PEC: CRC-8 of polynomial x^8 + x^2 + x + 1, as SMBus has it. PRESUMED, log 20. -/
def pec8 (b : Bytes) : Byte :=
  b.foldl (fun c x => (List.range 8).foldl
    (fun (c : Byte) _ => if c.getLsbD 7 then (c <<< 1) ^^^ 0x07 else c <<< 1) (c ^^^ x)) 0
/-- Whether the SMBus target runs (R464, R328). DESIGN CHOICE, log 47. -/
def smbLive (u : Units) : Bool := isUp u && u.fw.stage != 5
/-- A read: the bytes the target sends, with the count of a block read, and PEC. -/
def smbRead (cmd : Nat) (block : Bool) (data : Bytes) (u : Units) : Units :=
  if !smbLive u then u else
  let a := smbAddr u
  let bytes := (if block then leBytes 1 data.length else []) ++ data
  emit (.smb (bytes ++ [pec8 (leBytes 1 (2 * a) ++ leBytes 1 cmd ++ leBytes 1 (2 * a + 1) ++ bytes)])) u
/-- A write: f if its PEC is right; otherwise it is discarded and counted. -/
def smbWrite (pec : Bool) (f : Units → Units) (u : Units) : Units :=
  if !smbLive u then u
  else if pec then f u
  else { u with pins := { u.pins with pecErrors := u.pins.pecErrors + 1 } }
/-- IDENT (R470). DEDUCED, log 51. -/
def execIdent (s : State) : Res :=
  let v := s.u.fw.run.ver
  onU (smbRead 0x01 true (leBytes 8 s.asm.serial ++ leBytes 1 s.asm.variant ++ leBytes 6 s.asm.mac0
    ++ leBytes 6 s.asm.mac1 ++ leBytes 1 (bitsOf v 31 24) ++ leBytes 1 (bitsOf v 23 16) ++ leBytes 1 (bitsOf v 7 0))) s
/-- STATUS word (R470). -/
def smbStatusWord (u : Units) : Nat :=
  b2n (u.fw.stage == 4) + b2n u.blk.en * 2 + b2n u.blk.fatal * 4 + b2n u.pins.throt * 8 + b2n (gateOk u) * 16
    + b2n (gateOk u) * 32 + b2n u.svc.tripReported * 64 + b2n u.pins.senseStale * 128
/-- SMB_STATUS (R470). -/
def execSmbStatus (s : State) : Res := onU (smbRead 0x02 false (leBytes 2 (smbStatusWord s.u))) s
/-- Reported temperature of a reading (R441, R442): its user offset applied within the item's range. -/
def tempReported (v : Svc) (reading : Int) (scope : Nat) : Int :=
  let p := calPair v v.user 1 scope
  reading - p.1 + calEffective 1 p.1 p.2
/- Sense outputs (R474). -/
/-- The TS group of a die: the engine dies in four groups of a quarter rounded up, then gate, I/O and control dies, and the
stacks. -/
def tsGroup (a : Asm) (kind die : Nat) : Nat := if kind = 0 then die / ceilDiv (engineDies a) 4 else kind + 3
/-- The hottest of a group's readings; what the group gave before where none is given. -/
def tsHottest (a : Asm) (l : List SensorIn) (g : Nat) (old : Option Int) : Option Int :=
  (l.filter (fun x => tsGroup a x.kind x.die == g)).foldl (fun m x =>
    some (match m with | some v => max v x.reading.toInt | none => x.reading.toInt)) none |>.or old
/-- The level of a TS output in microvolts: 0.500 V and 0.010 V a degree C, from 0.100 V to 1.750 V. -/
def tsLevel (t : Int) : Int := clampI 100000 1750000 (500000 + 625 * t)
/-- The level of a sense output, if it is driven: a VS output repeats its rail at unity gain. -/
def senseLevel (u : Units) (o : Nat) : Option Int :=
  if (tget u.pins.sensePark o).isSome ∨ !isUp u then none
  else if o < 8 then (u.pins.temps.getD o none).map tsLevel
  else tget u.pins.vs (o - 8)
/-- The level of a sense output put out. -/
def senseOut (o : Nat) (u : Units) : Units :=
  match senseLevel u o with
  | some v => emit (.level o v) u
  | none => u
/-- What the sensors read and the rails carry reaches the sense outputs. -/
def sensed (a : Asm) (x : Sensed) (u : Units) : Units :=
  forAll (List.range 14) senseOut { u with pins := { u.pins with
    temps := (List.range 8).map (fun g => tsHottest a x.sensors g (u.pins.temps.getD g none))
    vs := (List.range 6).map (fun k => (k, (x.rails.getD k 0).toInt)) } }
/-- A group's reported temperature: the hottest of its sensors' readings with their user offsets applied (R442). -/
def tsReported (a : Asm) (v : Svc) (l : List SensorIn) (g : Nat) : Int :=
  match (l.filter (fun x => tsGroup a x.kind x.die == g)).map (fun x => tempReported v x.reading.toInt x.scope.toNat) with
  | [] => 0
  | t :: r => r.foldl max t
/-- TEMPS (R470). DESIGN CHOICE, log 22. -/
def temps (a : Asm) (x : Sensed) (u : Units) : Units :=
  smbRead 0x03 true ((List.range 8).flatMap (fun g => leBytes 2 (unsigned 16 (tsReported a u.svc x.sensors g)))) (sensed a x u)
/-- TEMPS (R470). -/
def execTemps (x : Sensed) (s : State) : Res := onU (temps s.asm x) s
/-- LIMITS (R470). -/
def execLimits (s : State) : Res :=
  onU (smbRead 0x04 true ((List.range 8).flatMap (fun g => leBytes 2 (unsigned 16 (s.asm.critTemp.getD g 0))))) s

/- Throttle (R476). -/
/-- Temperature at which a group's sensors begin to ask for throttling: 8 C below its critical temperature. -/
def throtLevel (a : Asm) (group : Nat) : Int := a.critTemp.getD group 0 - 128
/-- Whether throttling is asked for: by a GPIO in function THROT_N that is not parking, or by a sensor whose reported reading is
at the level or above it. -/
def throtAsked (a : Asm) (x : ThrotIn) (group : Nat) (u : Units) : Bool :=
  match x with
  | .pin => u.pins.gpio.any (fun g => g.2.func == 4 && !parking g.2)
  | .sensor y => tsGroup a y.kind y.die == group && decide (throtLevel a group ≤ tempReported u.svc y.reading.toInt y.scope.toNat)
/-- THROTTLE_ON (R476): at a block tick edge. -/
def throttleOn (a : Asm) (x : ThrotIn) (group : Nat) (u : Units) : Units :=
  let sensor : Bool := match x with | .pin => false | .sensor _ => true
  if u.pins.throt ∨ !throtAsked a x group u ∨ !atEdge u then u
  else fwNotice 8 0x0961 0 [b2n sensor, group]
    { u with pins := { u.pins with throt := true, throtAt := u.tick.number, alert := setBit u.pins.alert 0 true } }
/-- THROTTLE_ON (R476). -/
def execThrottleOn (x : ThrotIn) (group : Fin 8) (s : State) : Res := onU (throttleOn s.asm x group) s
/-- THROTTLE_OFF (R476): at a block tick edge. -/
def throttleOff (u : Units) : Units :=
  if u.pins.throt ∧ atEdge u then
    fwNotice 8 0x0962 0 [u.tick.number - u.pins.throtAt]
      { u with pins := { u.pins with throt := false, alert := setBit u.pins.alert 0 true } }
  else u
/-- THROTTLE_OFF (R476). -/
def execThrottleOff (s : State) : Res := onU throttleOff s

/-- Nominal voltage in microvolts and tolerance in per cent of VS0 to VS5 (R477). -/
def railOf (k : Nat) : Int × Int :=
  match k with
  | 0 => (750000, 3)
  | 1 => (750000, 3)
  | 2 => (800000, 3)
  | 3 => (750000, 3)
  | 4 => (1100000, 3)
  | _ => (1800000, 5)
/-- The corrected value of a rail (R477). Scope of output VSk: k + 8 in bits 15:8, bits 7:0 zero (DESIGN CHOICE, log 22). -/
def railEffective (v : Svc) (k : Nat) (x : Int) : Int :=
  let scope := (k + 8) * 256
  let gain := calValue v v.userEdge 2 scope
  rneDiv (x * (1000000 + gain) + calValue v v.userEdge 3 scope * 1000000) 1000000
/-- One rail of a forward (R477, R478). -/
def railForward (k : Nat) (x : Int) (u : Units) : Units :=
  if (tget u.pins.sensePark (8 + k)).isSome then u
  else
    let e := railEffective u.svc k x
    let (nom, tol) := railOf k
    let run := if (e - nom).natAbs * 100 > (nom * tol).natAbs then tgetD u.pins.railRun k 0 + 1 else 0
    let u := { u with pins := { u.pins with
      rail := tset u.pins.rail k e, railRun := tset u.pins.railRun k run, lastFwd := u.tick.time
      senseStale := false } }
    if run = 3 then fwNotice 8 0x0963 0 [k, unsigned 64 e]
      { u with pins := { u.pins with alert := setBit u.pins.alert 1 true } }
    else u
/-- SENSE_FWD (R477). -/
def senseFwd (vals : List (BitVec 32)) (pec : Bool) : Units → Units :=
  smbWrite pec (forAll (List.range 6) (fun k u => railForward k (vals.getD k 0).toInt u))
/-- SENSE_FWD (R477). -/
def execSenseFwd (vals : List (BitVec 32)) (pec : Bool) (s : State) : Res := onU (senseFwd vals pec) s
/-- SENSE_STALE (R477): 1 s without a forward. -/
def senseStale (u : Units) : Units :=
  if u.pins.senseStale then u
  else
    let u := advTo (u.pins.lastFwd + 1000000000) u
    fwNotice 8 0x0964 0 [(u.tick.time - u.pins.lastFwd) / 1000000]
      { u with pins := { u.pins with senseStale := true, alert := setBit u.pins.alert 2 true } }
/-- SENSE_STALE (R477). -/
def execSenseStale (s : State) : Res := onU senseStale s
/-- SENSE_PARK (R478). A word outside the stated ranges is ignored (DESIGN CHOICE, log 22). -/
def sensePark (word : Nat) (pec : Bool) : Units → Units :=
  smbWrite pec (fun u =>
    let o := bitsOf word 3 0
    let ms := bitsOf word 13 4
    if 13 < o ∨ ms = 0 ∨ 1000 < ms then u
    else emit (.sense o true)
      { u with pins := { u.pins with sensePark := tset u.pins.sensePark o (u.tick.time + ms * 1000000) } })
/-- SENSE_PARK (R478). -/
def execSensePark (word : BitVec 16) (pec : Bool) (s : State) : Res := onU (sensePark word.toNat pec) s
/-- SENSE_PARK_END (R478). -/
def senseParkEnd (o : Nat) (u : Units) : Units :=
  match tget u.pins.sensePark o with
  | none => u
  | some t =>
    let u := advTo t u
    senseOut o (emit (.sense o false) { u with pins := { u.pins with sensePark := tdel u.pins.sensePark o } })
/-- SENSE_PARK_END (R478). -/
def execSenseParkEnd (o : Fin 14) (s : State) : Res := onU (senseParkEnd o) s

/-- CAL_BEGIN (R471). -/
def execCalBegin (pec : Bool) (s : State) : Res :=
  onU (smbWrite pec (fun u => { u with svc := { u.svc with calOpen := some [] } })) s
/-- Entries of a CAL_PART block (R470): none where the count does not fit the block. DESIGN CHOICE, log 22. -/
def calEntries (data : Bytes) : List CalEnt :=
  let k := le data 0 1
  if 31 < k ∨ data.length ≠ 1 + 8 * k then []
  else (List.range k).map (fun i =>
    { item := le data (1 + 8 * i) 2, scope := le data (3 + 8 * i) 2, user := signed 32 (le data (5 + 8 * i) 4) })
/-- CAL_PART (R471): up to 512 entries. -/
def execCalPart (data : Bytes) (pec : Bool) (s : State) : Res :=
  onU (smbWrite pec (fun u => { u with svc := { u.svc with
    calOpen := u.svc.calOpen.map (fun l => (l ++ calEntries data).take 512) } })) s
/-- The result of a CAL_COMMIT or CAL_CLEAR and the alert it raises (R472). -/
def calResult (r : Nat) (u : Units) : Units :=
  { u with pins := { u.pins with calResult := r, alert := setBit u.pins.alert 3 true } }
/-- A user record written to the journal, or a store failure (R443, R447). -/
def calStore (l : List CalEnt) (store : StoreOut) (u : Units) : Units :=
  match store with
  | .fail _ => calResult 3 u
  | .ok =>
    let body := l.flatMap (fun e => leBytes 2 e.item ++ leBytes 2 e.scope ++ leBytes 4 (unsigned 32 e.user))
    calResult 0 { u with svc := { journalAdd 4 body true true u.svc with user := l } }
/-- CAL_COMMIT (R443, R471). -/
def calCommit (store : StoreOut) (u : Units) : Units :=
  match u.svc.calOpen with
  | none => calResult 2 u
  | some l =>
    let u := { u with svc := { u.svc with calOpen := none } }
    let ok := l.all (fun e => match calUserRange e.item with
      | some (lo, hi) => lo ≤ e.user && e.user ≤ hi
      | none => false)
    if ok then calStore l store u else calResult 1 u
/-- CAL_COMMIT (R443). -/
def execCalCommit (pec : Bool) (store : StoreOut) (s : State) : Res := onU (smbWrite pec (calCommit store)) s
/-- CAL_CLEAR (R470). -/
def execCalClear (pec : Bool) (store : StoreOut) (s : State) : Res := onU (smbWrite pec (calStore [] store)) s
/-- ALERT_CAUSE (R472). -/
def alertCause (u : Units) : Units :=
  let v := u.pins.alert % 32 + u.pins.calResult * 256
  smbRead 0x30 false (leBytes 2 v)
    (if smbLive u then { u with pins := { u.pins with alert := 0 } } else u)
/-- ALERT_CAUSE (R472). -/
def execAlertCause (s : State) : Res := onU alertCause s
/-- ALERT_RESPONSE (R472): the block's own address, while an alert is pending. -/
def alertResponse (u : Units) : Units :=
  if smbLive u && u.pins.alert % 32 != 0 then
    let b := leBytes 1 (2 * smbAddr u)
    emit (.smb (b ++ [pec8 (leBytes 1 0x19 ++ b)])) u
  else u
/-- ALERT_RESPONSE (R472). -/
def execAlertResponse (s : State) : Res := onU alertResponse s

/- The TAP (R473). Instruction codes are the model's own names: 0 BYPASS, 1 SAMPLE/PRELOAD, 2 IDCODE, 3 EXTEST, 4 CLAMP,
5 HIGHZ. -/
/-- A scan through a register of the given contents: what is shifted out, and what is left. DESIGN CHOICE, log 54. -/
def scan (reg tdi : List Bool) : List Bool × List Bool :=
  ((reg ++ tdi).take tdi.length, (reg ++ tdi).drop tdi.length)
/-- A scan through the bypass register with an instruction in force. DESIGN CHOICE, log 209. -/
def tapBypass (ir : Nat) (tdi : List Bool) (u : Units) : Units :=
  emit (.tdo (scan [false] tdi).1) { u with pins := { u.pins with jtagIr := ir } }
/-- A scan through the boundary-scan register. DESIGN CHOICE, log 209. -/
def tapBoundary (ir : Nat) (tdi pins : List Bool) (u : Units) : Units :=
  let r := scan pins tdi
  emit (.tdo r.1) { u with pins := { u.pins with jtagIr := ir, bsr := r.2 } }
/-- Whether the block is in reset, where EXTEST, CLAMP and HIGHZ take effect (R473). -/
def inReset (u : Units) : Bool := u.blk.resetLow || u.blk.powerLow
/-- JTAG_BYPASS (R473). -/
def execJtagBypass (tdi : List Bool) (s : State) : Res := onU (tapBypass 0 tdi) s
/-- IDCODE of the variant (R473). -/
def idcode (a : Asm) : Nat := 0x3201A0D3 + 0x1000 * a.variant
/-- JTAG_IDCODE (R473). -/
def execJtagIdcode (tdi : List Bool) (s : State) : Res :=
  let id := (List.range 32).map (bitAt (idcode s.asm))
  onU (fun u => emit (.tdo (scan id tdi).1) { u with pins := { u.pins with jtagIr := 2 } }) s
/-- JTAG_SAMPLE_PRELOAD (R473). DESIGN CHOICE, log 54. -/
def execJtagSamplePreload (tdi pins : List Bool) (s : State) : Res := onU (tapBoundary 1 tdi pins) s
/-- JTAG_EXTEST (R473). DESIGN CHOICE, log 54. -/
def execJtagExtest (tdi pins : List Bool) (s : State) : Res :=
  onU (fun u => if inReset u then tapBoundary 3 tdi pins u else tapBypass 0 tdi u) s
/-- JTAG_CLAMP (R473). -/
def execJtagClamp (tdi : List Bool) (s : State) : Res := onU (fun u => tapBypass (if inReset u then 4 else 0) tdi u) s
/-- JTAG_HIGHZ (R473). -/
def execJtagHighz (tdi : List Bool) (s : State) : Res := onU (fun u => tapBypass (if inReset u then 5 else 0) tdi u) s
/-- JTAG_TAP_RESET (R473): the TAP alone. PRESUMED, log 15. -/
def execJtagTapReset (s : State) : Res := onU (fun u => { u with pins := { u.pins with jtagIr := 2 } }) s

end Sys2Proof.Machine
end

