-- ==== Sys2Proof/Machine/Repair.lean ====
section
/-! DEFINITION. Spares, the repair map and the store's blocks (16): the operations the service-life commands share. -/
namespace Sys2Proof.Machine

/-- Engine die that carries a stack's controller (01, R19). -/
def stackDie (a : Asm) (s : Nat) : Nat := a.stackmap.getD s 0
/-- Physical coding of a control core: die in bit 3, core in bits 2:0 (R502). DEDUCED, log 63. -/
def physCtl (core : Nat) : Nat := core / 6 * 8 + core % 6
/-- Active lanes of a lane group (R430). -/
def groupLanes (io : Nat) (groupC : Bool) : Nat := if groupC ∨ io < 2 then 32 else 16
/-- Group a unit's spare belongs to: kind of R440, key. -/
def spareGroup : RUnit → Nat × Nat
  | .array c e _ => (1, coreKey c * 16 + e)
  | .core c => (2, c.die)
  | .bank b => (3, b / 32)
  | .channel s _ => (4, s)
  | .row s ch b _ => (5, (s.val * 16 + ch) * 256 + b % 256)
  | .lane io g _ => (6, io * 2 + b2n g)
  | .control _ => (7, 0)
  | .store d _ => (8, d)
/-- Spares of a kind of group as built (R429). -/
def spareTotal (kind : Nat) : Nat :=
  match kind with
  | 3 => 2
  | 5 => 32
  | 6 => 2
  | 7 => 2
  | 8 => 48
  | _ => 1
/-- Spares of a unit's group still free. A spare array or core being loaded for another unit is not free. -/
def spareFree (v : Svc) (x : RUnit) : Nat :=
  let g := spareGroup x
  let loading := if g.1 ≤ 2 then (v.planned.filter (fun p => spareGroup p.1 == g && p.1 != x)).length else 0
  spareTotal g.1 - (v.spares.filter (fun y => y == g)).length - loading
/-- One spare of a unit's group comes into use. -/
def spareUse (x : RUnit) (u : Units) : Units := { u with svc := { u.svc with spares := u.svc.spares ++ [spareGroup x] } }

/-- The entry of a unit that leaves its position (R440): STATE, REASON, and AUX where it names a spare or a new place.
DEDUCED, log 63. DEDUCED, log 94. DEDUCED, log 95. DEDUCED, log 101. -/
def repairEnt (a : Asm) (u : Units) (x : RUnit) (state reason aux : Nat) : RepairEnt :=
  let base (kind dkind die pos phys : Nat) : RepairEnt :=
    { kind := kind, state := state, reason := reason, dkind := dkind, die := die, pos := pos, phys := phys
      aux := if state = 2 then 0xFFFFFFFF else aux, time := u.svc.poweredNs / 1000000000 % 2 ^ 32 }
  match x with
  | .array c e r =>
    let sp := (tgetD (tgetD u.core (coreKey c) {}).eng e {}).spareFor
    base 1 0 c.die (c.core * 256 + e * 16 + r) (if sp = some r.val then 16 else r)
  | .core c => base 2 0 c.die c.core ((tgetD u.core (coreKey c) {}).phys.getD c.core)
  | .bank b => base 3 1 (b / 32) (b % 32) ((tgetD u.mat.banks b {}).phys.getD (b % 32))
  | .channel s ch =>
    let out := u.svc.repair.any (fun r => r.kind == 4 && r.pos == s.val * 256 + ch && r.state == 0)
    base 4 0 (stackDie a s) (s.val * 256 + ch) (if out then 16 else ch)
  | .row s ch b _ => base 5 0 (stackDie a s) (s.val * 4096 + ch.val * 256 + b % 256) ch
  | .lane io g l => base 6 2 io (b2n g * 256 + l) l
  | .control c => base 7 3 (c / 6) (c % 6) (physCtl c)
  | .store d b => base 8 3 d b b
/-- The 16 bytes of an entry. -/
def repairBytes (r : RepairEnt) : Bytes :=
  leBytes 1 r.kind ++ leBytes 1 r.state ++ leBytes 1 r.reason ++ leBytes 1 (r.dkind * 64 + r.die) ++ leBytes 2 r.pos
    ++ leBytes 2 r.phys ++ leBytes 4 r.aux ++ leBytes 4 r.time
/-- The two words of an entry as notice arguments. -/
def repairArgs (r : RepairEnt) : List Nat := [le (repairBytes r) 0 8, le (repairBytes r) 8 8]
/-- An entry joins the repair map. -/
def repairAdd (r : RepairEnt) (u : Units) : Units := { u with svc := { u.svc with repair := u.svc.repair ++ [r] } }
/-- A spare takes a unit's place: entry, spare used, SPARE_TAKEN. DEDUCED, log 101. -/
def spareTaken (a : Asm) (x : RUnit) (reason aux : Nat) (u : Units) : Units :=
  let r := repairEnt a u x 0 reason aux
  fwNotice 8 0x0A01 0 (repairArgs r) (repairAdd r (spareUse x u))
/-- UNIT_NO_SPARE, for a unit that has no spare left. record: it joins the map. -/
def noSpare (a : Asm) (x : RUnit) (reason : Nat) (record : Bool) (u : Units) : Units :=
  let r := repairEnt a u x 2 reason 0
  fwNotice 8 0x0A02 0 (repairArgs r) (if record then repairAdd r u else u)

/-- Location of a unit (R306). -/
def unitLoc (a : Asm) : RUnit → Nat
  | .array c e r => loc 0 c.die c.core e r 0 0xFF
  | .core c => loc 0 c.die c.core 0 0 0 0xFF
  | .bank b => locDie 1 (b / 32)
  | .channel s _ => locDie 0 (stackDie a s)
  | .row s _ _ _ => locDie 0 (stackDie a s)
  | .lane io _ _ => locDie 2 io
  | .control c => locDie 3 (c / 6)
  | .store d _ => locDie 3 d

/-- Units of a channel read back at its planned copy stay good at a fault (R436, R437). -/
def chanLoss (a : Asm) (key : Nat) (u : Units) : Units :=
  let t := u.tier
  let copied := if u.svc.copying.contains key then
      (u.svc.copied.filter (fun k => chanOf a (64 * k) == key)).flatMap (fun k => fromN (64 * k) 64)
    else []
  { u with tier := { t with
      lostChan := if t.lostChan.contains key then t.lostChan else t.lostChan ++ [key]
      rewritten := t.rewritten.filter (fun k => chanOf a k != key) ++ copied } }
/-- The copy of a channel to its spare ends or is given up. -/
def copyEnd (a : Asm) (key : Nat) (u : Units) : Units :=
  { u with svc := { u.svc with
      copying := u.svc.copying.filter (fun k => k != key), copyDone := u.svc.copyDone.filter (fun k => k != key)
      copied := u.svc.copied.filter (fun k => chanOf a (64 * k) != key)
      chanFault := u.svc.chanFault.filter (fun k => k != key) } }
/-- The channel a key names. -/
def chanUnit (key : Nat) : RUnit := .channel (Fin.ofNat 12 (key / 16)) (Fin.ofNat 16 key)
/-- A repaired row's remap takes effect (R438): unit, row, whether planned. -/
def rowRemap (a : Asm) (w : RUnit × Nat × Bool) (u : Units) : Units :=
  let x := w.1
  let key := (spareGroup x).2
  if spareFree u.svc x = 0 then u
  else
    let u := spareTaken a x (if w.2.2 then 1 else 4) w.2.1 u
    let die := match x with | .row s _ _ _ => stackDie a s | _ => 0
    dieBump (dieKey 0 die) 0x64 1 { u with svc := { u.svc with
      rowsUsed := tset u.svc.rowsUsed key (tgetD u.svc.rowsUsed key 0 + 1)
      planned := u.svc.planned.filter (fun p => p.1 != x), decided := u.svc.decided.filter (fun y => y != x) } }
/-- At a tick edge the spares take the numbers of the channels that wait, and repaired rows are remapped (R436 to R438). -/
def chanEdge (a : Asm) (u : Units) : Units :=
  let rows := u.svc.rowWait
  let u := forAll rows (rowRemap a) { u with svc := { u.svc with rowWait := [] } }
  let flt := u.svc.chanFault
  let done := u.svc.copyDone.filter (fun k => !flt.contains k)
  let u := forAll flt (fun k u =>
    setUnit (copyEnd a k (chanLoss a k (spareTaken a (chanUnit k) 8 16 u)))) u
  forAll done (fun k u => copyEnd a k (spareTaken a (chanUnit k) 1 16 u)) u

/-- Spare blocks left on a control die, and usable blocks of its journal copy (R445). -/
def spareBlocks (v : Svc) (die : Nat) : Nat := tgetD v.spareBlk die 48
/-- Usable blocks of a journal copy (R445). -/
def journalBlocks (v : Svc) (die : Nat) : Nat := tgetD v.journalBlk die 76
/-- A store block is retired and a spare takes its place (R446). journal: it belongs to the journal copy. Answers
whether the region still has a block to write. DEDUCED, log 94. -/
def storeRetire (a : Asm) (die block reason : Nat) (journal : Bool) (u : Units) : Units × Bool :=
  let left := spareBlocks u.svc die
  let x : RUnit := .store (Fin.ofNat 2 die) (Fin.ofNat 256 block)
  let u := { u with svc := { u.svc with badBlk := u.svc.badBlk ++ [die * 256 + block] } }
  if left = 0 then
    let u := repairAdd (repairEnt a u x 2 reason 0) u
    if journal then
      let n := journalBlocks u.svc die - 1
      let u := { u with svc := { u.svc with journalBlk := tset u.svc.journalBlk die n } }
      (if n < 16 then trayService 7 u else u, 0 < n)
    else (u, false)
  else
    let u := repairAdd (repairEnt a u x 0 reason (256 - left)) u
    let u := { u with svc := { u.svc with spareBlk := tset u.svc.spareBlk die (left - 1) } }
    if left - 1 < 8 ∧ !u.svc.storeLow.contains die then
      (fwNotice 8 0x0A06 0 [die, left - 1] { u with svc := { u.svc with storeLow := u.svc.storeLow ++ [die] } }, true)
    else (u, true)

/-- Background work that is urgent no longer: it is satisfied, or its bound has passed. DEDUCED, log 97. -/
def urgentDone (kind : Nat) (l : Option Nat) (u : Units) : Units :=
  { u with svc := { u.svc with
      urgent := u.svc.urgent.filter (fun e => !(e.1 == kind && (match l with | some x => e.2 == x | none => true))) } }

end Sys2Proof.Machine
end

