-- ==== Sys2Proof/Machine/Match.lean ====
section
/-! DEFINITION. The match banks (06): searches and their records, updates and their paths, COMMITs, parity repair, and the
match messages of the catalogue (R353). -/
namespace Sys2Proof.Machine

/- Searches (R170 to R179). -/
/-- A bank. -/
def bankAt (u : Units) (b : Nat) : Bank := tgetD u.mat.banks b {}
/-- An entry. -/
def entryAt (u : Units) (addr : Nat) : MEntry := tgetD u.mat.entries addr {}
/-- Entries of a bank. -/
def bankSize : Nat := 16384
/-- Whether the reserved bits of a key of a mode are 0 (R175, R187). -/
def keyModeOk (mode key : Nat) : Bool :=
  match mode with
  | 0 => true
  | 1 => bitsOf key 159 148 == 0
  | 2 => bitsOf key 159 39 == 0
  | _ => bitsOf key 159 153 == 0
/-- Whether an entry matches a search key (R171). -/
def entryMatch (e : MEntry) (key : Nat) : Bool := e.valid && Nat.land (Nat.xor key e.key) e.mask == 0
/-- What a search yields (R173). -/
structure SRes where
  hit : Bool := false
  poison : Bool := false
  count : Nat := 0
  multi : Bool := false
  prio : Nat := 0
  action : Nat := 0
  addr : Nat := 0
deriving DecidableEq, Repr
/-- The 64-bit result record (R173). -/
def recWord (r : SRes) : Nat :=
  r.count * 2 ^ 60 + b2n r.multi * 2 ^ 59 + b2n r.hit * 2 ^ 58 + b2n r.poison * 2 ^ 57 + r.prio * 2 ^ 45
    + r.action * 2 ^ 20 + r.addr
/-- Whether a search of a mode takes a bank: selected, of that mode, in service. -/
def bankTaken (m : Match) (banks mode b : Nat) : Bool :=
  let x := tgetD m.banks b {}
  bitAt banks b && x.mode == mode && !x.outOfService
/-- The matching entries of the selected banks, in ascending address. -/
def matching (m : Match) (banks mode key : Nat) : List (Nat × MEntry) :=
  m.entries.filter (fun e => entryMatch e.2 key && bankTaken m banks mode (e.1 / bankSize))
/-- The winner (R172): the highest PRIO, at the lowest address among equals. -/
def winner : List (Nat × MEntry) → Option (Nat × MEntry)
  | [] => none
  | e :: r =>
    match winner r with
    | none => some e
    | some w => if e.2.prio < w.2.prio then some w else some e
/-- A search (R172, R173, R187, R201). DEDUCED, log 104. -/
def searchRes (m : Match) (mode banks key : Nat) : SRes :=
  if !keyModeOk mode key then { poison := true }
  else
    let dead := (List.range 64).any (fun b => bitAt banks b && (tgetD m.banks b {}).outOfService)
    let l := matching m banks mode key
    match winner l with
    | none => { poison := dead }
    | some w =>
      { hit := true, poison := dead, count := min 15 l.length, multi := decide (2 ≤ l.length), prio := w.2.prio
        action := w.2.action, addr := w.1 }
/- Parity (R170, R174, R193, R194). -/
/-- The 360 bits of an entry (R170). -/
def entryWord (e : MEntry) : Nat :=
  e.key + e.mask * 2 ^ 160 + e.prio * 2 ^ 320 + e.action * 2 ^ 332 + b2n e.valid * 2 ^ 351 + e.par * 2 ^ 352
/-- The entry that 360 bits hold. -/
def wordEntry (w : Nat) : MEntry :=
  { key := w % 2 ^ 160, mask := bitsOf w 319 160, prio := bitsOf w 331 320, action := bitsOf w 350 332, valid := bitAt w 351
    par := bitsOf w 359 352 }
/-- A number of up to 64 bits folded to the parity of its bits. -/
def oddOnes (n : Nat) : Nat := ([32, 16, 8, 4, 2, 1].foldl (fun (x : Nat) k => Nat.xor x (x / 2 ^ k)) n) % 2
/-- PAR of an entry: bit k is the even parity of bits 44k + 43:44k (R170). -/
def parOf (e : MEntry) : Nat :=
  ((List.range 8).map (fun k => oddOnes (bitsOf (entryWord e) (44 * k + 43) (44 * k)) * 2 ^ k)).sum
/-- Whether the stored bits of an entry agree with its PAR. -/
def parOk (e : MEntry) : Bool := e.par == parOf e
/-- An entry with PAR computed afresh. -/
def withPar (e : MEntry) : MEntry := { e with par := parOf e }
/-- Stored bits of entries that have flipped. -/
def upset (l : List Upset) (u : Units) : Units :=
  forAll l (fun f u => { u with mat := { u.mat with
    entries := tset u.mat.entries f.1.toNat (wordEntry (Nat.xor (entryWord (entryAt u f.1.toNat)) (2 ^ f.2.val))) } }) u
/-- An entry as the shadow gives it back; one between the first and the last step of an update stays without VALID (R194). -/
def shadowEntry (u : Units) (addr : Nat) (e : MEntry) : MEntry :=
  withPar { e with valid := e.valid && !(bankAt u (addr / bankSize)).queue.any (fun r => r.addr == addr && decide (0 < r.step)) }
/-- Location of a match entry (R306): its gate die. -/
def matchDie (addr : Nat) : Nat := dieKey 1 (addr / 2 ^ 19)
/-- A parity failure of an entry (R174): it is invalidated and rewritten from the shadow, and a notice names its address.
DEDUCED, log 102. -/
def parityFail (addr : Nat) (u : Units) : Units :=
  notice (matchDie addr) 0x0401 0 [addr] { u with mat := { u.mat with
    entries := match tget u.mat.shadow addr with
      | some e => tset u.mat.entries addr (shadowEntry u addr e)
      | none => tdel u.mat.entries addr } }
/-- Bank-searches counted (R509). DEDUCED, log 105. -/
def countSearch (m : Match) (banks mode : Nat) (u : Units) : Units :=
  forAll ((List.range 64).filter (bankTaken m banks mode)) (fun b u => dieBump (dieKey 1 (b / 32)) (0x100 + b % 32) 1 u) u
/-- A search carried out, merged on a gate die; the stored bits of a winner are checked (R174). DEDUCED, log 105. -/
def searchU (die mode banks key : Nat) (u : Units) : SRes × Units :=
  let r := searchRes u.mat mode banks key
  let bad := !parOk (entryAt u r.addr)
  let u := if keyModeOk mode key then countSearch u.mat banks mode u else u
  let r' := { r with poison := r.poison || (r.hit && bad) }
  let u := if r.hit && bad then parityFail r.addr (dieBump (matchDie r.addr) 0x123 1 u) else u
  let u := dieBump (dieKey 1 die) 0x125 (b2n r'.poison) (dieBump (dieKey 1 die) 0x126 (b2n r'.multi) u)
  (r', { u with mat := { u.mat with result := recWord r' } })

/- Profiles, descriptors, actions (R182, R183). -/
/-- A profile record in effect; a number beyond 255 names none. -/
def profAt (u : Units) (p : Nat) : Bytes := tgetD u.mat.profiles p []
/-- VALID of a profile record. -/
def profValid (p : Bytes) : Bool := bitAt (le p 8 1) 7
/-- MODE of a profile record. -/
def profMode (p : Bytes) : Nat := le p 8 1 % 4
/-- BANKS of a defined profile; an undefined one selects none. -/
def profBanks (p : Bytes) : Nat := if profValid p then le p 0 8 else 0
/-- The groups a TRANS profile names. -/
def profGroups (p : Bytes) : List Nat := (List.range (le p 9 1)).map (fun k => le p (16 + 2 * k) 2 % 4096)
/-- A group or set descriptor. -/
def descAt (u : Units) (set : Bool) (id : Nat) : Desc := tgetD (if set then u.mat.sets else u.mat.groups) id {}
/-- An action record. -/
def actionAt (u : Units) (k : Nat) : Nat := tgetD u.mat.actions k 0
/-- KIND of an action record. -/
def actKind (a : Nat) : Nat := bitsOf a 63 60
/-- The list a BAN record names (R179). -/
def banTokens (u : Units) (a : Nat) : List Nat :=
  (List.range (bitsOf a 30 20)).map (fun k => tgetD u.mat.lists (a % 2 ^ 20 + k) 0 % 2 ^ 20)

/-- MATCH_SEARCH (R172): a formed key, searched on the banks of a profile. -/
def matchSearch (p : Nat) (key : Nat) (upsets : List Upset) (u : Units) : Units :=
  let r := profAt u p
  (searchU 0 (profMode r) (profBanks r) key (upset upsets u)).2
/-- MATCH_SEARCH (R172). -/
def execMatchSearch (p : Fin 256) (key : Key) (upsets : List Upset) (s : State) : Res := onU (matchSearch p key.toNat upsets) s
/-- MATCH_SCRUB_READ (R174, R201): two bad scrubs in a row of one entry decide its bank's retirement. DEDUCED, log 102. -/
def matchScrubRead (addr : Nat) (u : Units) : Units :=
  let u := dieBump (matchDie addr) 0x129 1 u
  if (bankAt u (addr / bankSize)).outOfService then u
  else if parOk (entryAt u addr) then { u with mat := { u.mat with scrubFail := u.mat.scrubFail.filter (· != addr) } }
  else
    let x : RUnit := .bank (Fin.ofNat 64 (addr / bankSize))
    let u := parityFail addr u
    if u.mat.scrubFail.contains addr then
      if u.svc.decided.contains x then u else { u with svc := { u.svc with decided := u.svc.decided ++ [x] } }
    else { u with mat := { u.mat with scrubFail := u.mat.scrubFail ++ [addr] } }
/-- MATCH_SCRUB_READ (R174). -/
def execMatchScrubRead (addr : BitVec 20) (flips : List (Fin 360)) (s : State) : Res :=
  onU (fun u => matchScrubRead addr.toNat (upset (flips.map (fun i => (addr, i))) u)) s

/- Updates (R193 to R198, R512). -/
/-- The group or set a key of a bank's mode belongs to, with its generation: kind 0 group, 1 set. -/
def keyOwner (mode key : Nat) : Option (Nat × Nat × Bool) :=
  match mode with
  | 2 => some (0, bitsOf key 37 26, bitAt key 38)
  | 3 => some (1, bitsOf key 151 140, bitAt key 152)
  | _ => none
/-- Whether a record's key carries the inactive generation of its group or set (R197). -/
def staging (u : Units) (r : UpdRec) : Bool :=
  match keyOwner (bankAt u (r.addr / bankSize)).mode r.ent.key with
  | some (k, id, g) => g != (descAt u (k == 1) id).gen
  | none => false
/-- Whether an update's path is the one-slot path, decided as it begins (R196, R197). -/
def oneSlotPath (u : Units) (b : Bank) (r : UpdRec) : Bool :=
  b.steal && decide (b.used < b.budget) && (r.op == 3 || (r.op == 1 && !staging u r))
/-- Whether an update of a bank may begin or go on (R195): no earlier one to its address is queued. A segment's sweep is one
command, so no pin of R192 is held between commands. -/
def updReady (b : Bank) (r : UpdRec) : Bool :=
  0 < r.step || !(b.queue.any (fun x => x.addr == r.addr && x.ord < r.ord))
/-- The entry an update ends with (R193). -/
def updEntry (r : UpdRec) (old : MEntry) : MEntry :=
  if r.op = 3 then { old with valid := false } else { r.ent with key := Nat.land r.ent.key r.ent.mask }
/-- An entry written, PAR with it. DEDUCED, log 229. -/
def putEntry (addr : Nat) (e : MEntry) (u : Units) : Units :=
  { u with mat := { u.mat with entries := tset u.mat.entries addr (withPar e) } }
/-- A bank changed. -/
def modBank (b : Nat) (f : Bank → Bank) (u : Units) : Units :=
  { u with mat := { u.mat with banks := tmod u.mat.banks b {} f } }
/-- Records of a list that wait in tier 1 enter their banks' queues as places are free, in order (R512). full: banks a
record before them waits for. -/
def listFeed (full : List Nat) : List UpdRec → Units → List UpdRec × Units
  | [], u => ([], u)
  | r :: l, u =>
    let b := r.addr / bankSize
    if full.contains b ∨ 64 ≤ (bankAt u b).queue.length then
      let t := listFeed (b :: full) l u
      (r :: t.1, t.2)
    else listFeed full l (modBank b (fun x => { x with queue := x.queue ++ [r] }) u)
/-- The lists feed the queues in submission order. DEDUCED, log 108. -/
def feedLists (u : Units) : Units :=
  let r := u.mat.updLists.foldl (fun (acc : List UpdList × List Nat × Units) l =>
    let t := listFeed acc.2.1 l.waiting acc.2.2
    (acc.1 ++ [{ l with waiting := t.1 }], acc.2.1 ++ t.1.map (fun x => x.addr / bankSize), t.2)) ([], [], u)
  { r.2.2 with mat := { r.2.2.mat with updLists := r.1 } }
/-- A list all of whose records are done is answered (R353) and leaves. -/
def closeLists (u : Units) : Units :=
  let isDone (l : UpdList) : Bool := l.left == 0 && l.commits.isEmpty
  let done := u.mat.updLists.filter isDone
  forAll done (fun l u => answerWaiting (some l.mb)
      (ok (leBytes 4 l.one ++ leBytes 4 l.three ++ le8 l.lastCommit)) u)
    { u with mat := { u.mat with updLists := u.mat.updLists.filter (fun l => !isDone l) } }
/-- An update has completed its last step, on the one-slot path or not. -/
def updDone (r : UpdRec) (one : Bool) (u : Units) : Units :=
  let b := r.addr / bankSize
  let u := modBank b (fun x => { x with queue := x.queue.filter (fun y => y.ord != r.ord) }) u
  let u := { u with mat := { u.mat with updLists := u.mat.updLists.map (fun l =>
    if l.id = r.list then { l with left := l.left - 1, one := l.one + b2n one, three := l.three + b2n (!one) } else l) } }
  closeLists (feedLists (dieBump (matchDie r.addr) (if one then 0x120 else 0x121) 1 u))
/-- ONE_SLOT_UPDATE (R193): the word lands whole. -/
def oneSlotUpdate (b : Nat) (u : Units) : Units :=
  let x := bankAt u b
  match x.queue.find? (fun r => r.step == 0 && updReady x r && oneSlotPath u x r) with
  | none => u
  | some r => updDone r true (modBank b (fun x => { x with used := x.used + 1 }) (putEntry r.addr (updEntry r (entryAt u r.addr)) u))
/-- ONE_SLOT_UPDATE (R193). -/
def execOneSlotUpdate (b : Fin 64) (s : State) : Res := onU (oneSlotUpdate b) s
/-- One step of a three-step update (R194). -/
def updStep (r : UpdRec) (u : Units) : Units :=
  let e := entryAt u r.addr
  let b := r.addr / bankSize
  let mark (n : Nat) (u : Units) : Units :=
    modBank b (fun x => { x with queue := x.queue.map (fun y => if y.ord = r.ord then { y with step := n } else y) }) u
  match r.step with
  | 0 => mark 1 (putEntry r.addr { e with valid := false } u)
  | 1 => mark 2 (putEntry r.addr { updEntry r e with valid := false } u)
  | _ => updDone r false (putEntry r.addr { e with valid := r.op != 3 && r.ent.valid } u)
/-- THREE_STEP_UPDATE (R194): the update that has begun, else the next that takes this path. -/
def threeStepUpdate (b : Nat) (u : Units) : Units :=
  let x := bankAt u b
  match x.queue.find? (fun r => 0 < r.step) with
  | some r => updStep r u
  | none =>
    match x.queue.find? (fun r => updReady x r && !oneSlotPath u x r) with
    | none => u
    | some r =>
      let spent := r.op != 2 && x.steal && !(r.op == 1 && staging u r)
      updStep r (dieBump (matchDie r.addr) 0x122 (b2n (spent && r.op == 1)) u)
/-- THREE_STEP_UPDATE (R194). -/
def execThreeStepUpdate (b : Fin 64) (s : State) : Res := onU (threeStepUpdate b) s
/-- Update records not yet completed. DEDUCED, log 108. -/
def updPending (u : Units) : List UpdRec :=
  (u.mat.banks.flatMap (fun b => b.2.queue)) ++ u.mat.updLists.flatMap (·.waiting)
/-- At an edge: the budgets refill (R196), and the COMMITs whose earlier updates are done become due (R198). -/
def matchEdge (u : Units) : Units :=
  let open_ := updPending u
  let ready (c : Nat × Nat × Nat) : Bool := !open_.any (fun r => r.ord < c.1 && r.kind == c.2.1 && r.id == c.2.2)
  { u with mat := { u.mat with
      banks := tmap u.mat.banks (fun _ b => { b with used := 0 })
      due := u.mat.updLists.flatMap (fun l => l.commits.filter ready) } }
/-- TRANS profile that screens a stream's answer under the policy in effect (R233). -/
def ansTrans (u : Units) (s : Str) : Bytes :=
  match (tgetD u.pol s.policy {}).cur with
  | some (p, _) => profAt u (le p 12 2)
  | none => []
/-- A group of a stream is set to START and waits for its replay (R199, R511). -/
def groupRestart (slot g : Nat) (u : Units) : Units :=
  let st := (descAt u false g).start
  { u with
    str := tupd u.str slot (fun s => { s with ms := { s.ms with
      autos := (s.ms.autos.filter (fun a => a.1 != g)) ++ [(g, st)] } })
    mat := { u.mat with replay :=
      if u.mat.replay.contains (slot, g) then u.mat.replay else u.mat.replay ++ [(slot, g)] } }
/-- A descriptor of the shadow changed (R200). -/
def shadowDesc (set : Bool) (id : Nat) (f : Desc → Desc) (u : Units) : Units :=
  { u with mat := if set then { u.mat with shSets := tmod u.mat.shSets id {} f }
                  else { u.mat with shGroups := tmod u.mat.shGroups id {} f } }
/-- One COMMIT takes effect (R198): GEN inverts on both dies, unless the descriptor is no longer defined. n: COMMITs of the
same group or set before it at this edge. -/
def commitOne (c : Nat × Nat × Nat) (n : Nat) (u : Units) : Units :=
  let set := c.2.1 == 1
  let flip (t : Tbl Desc) : Tbl Desc := tupd t c.2.2 (fun d => { d with gen := !d.gen })
  let u := { u with mat := { u.mat with
    commits := u.mat.commits + 1
    updLists := u.mat.updLists.map (fun l =>
      if l.commits.contains c then { l with commits := l.commits.filter (fun x => x.1 != c.1), lastCommit := u.tick.number } else l) } }
  let u := if n = 0 then u else notice (dieKey 1 0) 0x0403 0 [c.2.1, c.2.2] u
  if !(descAt u set c.2.2).defined then u
  else
    let u := dieBump (dieKey 1 0) 0x124 1 (dieBump (dieKey 1 1) 0x124 1 u)
    let u := shadowDesc set c.2.2 (fun d => { d with gen := !d.gen }) u
    if set then { u with mat := { u.mat with sets := flip u.mat.sets } }
    else { u with mat := { u.mat with groups := flip u.mat.groups } }
/-- The due COMMITs in order. -/
def commitAll : List (Nat × Nat × Nat) → List (Nat × Nat) → Units → Units
  | [], _, u => u
  | c :: l, seen, u => commitAll l (seen ++ [c.2]) (commitOne c (seen.filter (· == c.2)).length u)
/-- The pad (R176). -/
def padTok : Nat := 0xFFFFF
/-- The 128 bytes of a match state (R190). Bytes 100 to 107 hold the profile numbers, byte 108 how many automata are in use,
bytes 109 and 110 the pinned generations: DESIGN CHOICE, log 230. -/
def msBytes (m : MState) : Bytes :=
  (List.range 8).flatMap (fun k => leBytes 4 (m.toks.getD k padTok)) ++ sliceZ (m.bytes.map (BitVec.ofNat 8)) 0 32
    ++ (List.range 8).flatMap (fun k => let a := m.autos.getD k (0, 0); leBytes 4 (a.1 * 2 ^ 18 + a.2))
    ++ leBytes 4 (min 32 m.bytes.length) ++ (List.range 4).flatMap (fun k => leBytes 2 (m.profs.getD k 0xFFFF))
    ++ leBytes 1 (min 8 m.autos.length) ++ leBytes 2 (((List.range 8).map (fun k => b2n (tgetD m.pins (m.autos.getD k (0, 0)).1 false) * 2 ^ k)).sum + 256 * b2n m.setPin)
    ++ List.replicate 17 0
/-- The match state that 128 bytes hold. -/
def msOf (b : Bytes) : MState :=
  let autos := (List.range (min 8 (le b 108 1))).map (fun k => let w := le b (64 + 4 * k) 4; (bitsOf w 29 18, w % 2 ^ 18))
  { toks := (List.range 8).map (fun k => le b (4 * k) 4)
    bytes := (List.range (min 32 (le b 96 4))).map (fun k => le b (32 + k) 1)
    autos := autos
    profs := (List.range 4).map (fun k => le b (100 + 2 * k) 2)
    pins := (autos.zip (List.range 8)).foldl (fun t a => tset t a.1.1 (bitAt (le b 109 2) a.2)) []
    setPin := bitAt (le b 109 2) 8 }
/-- A match state that holds no state of a group: its replay rebuilds it when the state is used again (R199). -/
def forget (g : Nat) (m : MState) : MState := { m with autos := m.autos.filter (fun a => a.1 != g), pins := tdel m.pins g }
/-- The states of a group's old generation that snapshots and saved streams hold are forgotten (R199). DEDUCED, log 109. -/
def forgetOld (g : Nat) (u : Units) : Units :=
  let old (s : Str) : Str := { s with ms0 := forget g s.ms0, snaps := tmap s.snaps (fun _ b => msBytes (forget g (msOf b))) }
  { u with
    str := tmap u.str (fun _ s => old s)
    tier := { u.tier with saved := tmap u.tier.saved (fun _ v => { v with str := { old v.str with ms := forget g v.str.ms } }) } }
/-- The groups of the TRANS profile that screens a stream's answer. -/
def strGroups (u : Units) (s : Str) : List Nat := profGroups (ansTrans u s)
/-- A stream's groups after its profile changed from groups old (R511): those no longer named are dropped, new ones begin at
START and await their replay. DEDUCED, log 109. -/
def regroup (n : Nat) (old : List Nat) (u : Units) : Units :=
  let new := strGroups u (tgetD u.str n {})
  let u := { u with str := tupd u.str n (fun s => { s with ms := { s.ms with autos := s.ms.autos.filter (fun a => new.contains a.1) } }) }
  (new.filter (fun g => !old.contains g)).foldl (fun u g => groupRestart n g u) u
/-- COMMIT_EFFECT (R198, R199): every stream that a group whose GEN changed screens restarts the group. DEDUCED, log 107. -/
def commitEffect (u : Units) : Units :=
  let due := u.mat.due
  let before := u.mat.groups
  let u := commitAll due [] { u with mat := { u.mat with due := [] } }
  let turned := (due.filterMap (fun c => if c.2.1 = 0 then some c.2.2 else none)).eraseDups.filter (fun g =>
    (tgetD before g {}).gen != (descAt u false g).gen)
  let u := forAll turned (fun g u => forAll (tkeys u.str) (fun n u =>
    let s := tgetD u.str n {}
    if s.st != .free && (strGroups u s).contains g then groupRestart n g u else u) (forgetOld g u)) u
  closeLists u
/-- COMMIT_EFFECT (R198). -/
def execCommitEffect (s : State) : Res := onU commitEffect s

/- The match messages (R353). -/
/-- The mode a bank has once the accepted changes are in effect. -/
def nextMode (u : Units) (b : Nat) : Nat :=
  u.changes.foldl (fun m c => match c.2 with | .bank k mode _ _ => if k = b then mode else m | _ => m) (bankAt u b).mode
/-- Whether a group or set is defined once the accepted changes are in effect. -/
def nextDefined (u : Units) (set : Bool) (id : Nat) : Bool :=
  u.changes.foldl (fun m c => match c.2 with | .desc s k d => if s = set ∧ k = id then d.defined else m | _ => m)
    (descAt u set id).defined
/-- A profile once the accepted changes are in effect; none where it is not defined. -/
def nextProfile (u : Units) (p : Nat) : Option Bytes :=
  u.changes.foldl (fun m c => match c.2 with | .profile k r => if k = p then r else m | _ => m) (tget u.mat.profiles p)
/-- Profiles that are defined or accepted as defined. DEDUCED, log 103. -/
def nextProfiles (u : Units) : List Bytes := (List.range 256).filterMap (nextProfile u)
/-- Whether a defined policy names a profile (R182). -/
def profNamed (u : Units) (p : Nat) : Bool := u.pol.any (fun e => (policyProfs e.2.last).any (fun f => f.2.1 == p) && !e.2.last.isEmpty)
/-- The lowest offset of a profile record at fault (R182). DEDUCED, log 103. -/
def profileFault (u : Units) (r : Bytes) : Option Nat :=
  let mode := profMode r
  let ng := le r 9 1
  let gs := (List.range 8).map (fun k => (k, le r (16 + 2 * k) 2))
  if profValid r then
    if le r 0 8 = 0 ∨ (List.range 64).any (fun b => bitAt (le r 0 8) b && nextMode u b != mode) then some 0
    else if bitsOf (le r 8 1) 6 2 ≠ 0 then some 8
    else if (if mode = 2 then ng = 0 ∨ 8 < ng else ng ≠ 0) then some 9
    else if (if mode = 3 then 4095 < le r 10 2 ∨ !nextDefined u true (le r 10 2) else le r 10 2 ≠ 0) then some 10
    else if le r 12 4 ≠ 0 then some 12
    else (gs.find? (fun g => if g.1 < ng then decide (4095 < g.2) || !nextDefined u false g.2 else g.2 != 0)).map
      (fun g => 16 + 2 * g.1)
  else ((List.range 32).find? (fun i => le r i 1 != 0))
/-- PROFILE_WRITE (R182, R200). -/
def profileWrite (n : Nat) : Units → Units :=
  message 0x0203 n (fun p u =>
    let r := sliceZ p 8 32
    let id := le p 0 1
    match profileFault u r with
    | some off => keep u (bad 7 5 (8 + off) 0)
    | none =>
      if !profValid r ∧ profNamed u id then keep u (plain 8)
      else keep (schedule (.profile id (if profValid r then some r else none)) { u with mat := { u.mat with
          shProfiles := if profValid r then tset u.mat.shProfiles id r else tdel u.mat.shProfiles id } }) (ok (le8 (nextTick u))))
/-- PROFILE_WRITE (R182). -/
def execProfileWrite (mb : Fin 64) (s : State) : Res := onU (profileWrite mb) s
/-- Whether a profile record names a group or set. -/
def profNames (r : Bytes) (set : Bool) (id : Nat) : Bool :=
  if set then profMode r == 3 && le r 10 2 == id else profMode r == 2 && (profGroups r).contains id
/-- DESC_WRITE (R183, R200, R353). DEDUCED, log 110. -/
def descWrite (n : Nat) : Units → Units :=
  message 0x0204 n (fun p u =>
    let kind := le p 0 1
    let id := le p 2 2
    let acc := le p 8 4
    let start := le p 12 4
    if 1 < kind then keep u (invalid 0)
    else if 4095 < id then keep u (invalid 2)
    else if 1 < le p 4 1 then keep u (invalid 4)
    else if (if kind = 0 then 524288 ≤ acc else acc ≠ 0) then keep u (bad 7 5 8 0)
    else if (if kind = 0 then 262144 ≤ start else start ≠ 0) then keep u (bad 7 5 12 0)
    else if le p 4 1 = 0 ∧ nextDefined u (kind == 1) id ∧ (nextProfiles u).any (fun r => profNames r (kind == 1) id) then
      keep u (plain 8)
    else
      let d : Desc := { defined := le p 4 1 == 1, accept := acc, start := start
                        classMap := if kind = 0 then sliceZ p 16 256 else [] }
      keep (schedule (.desc (kind == 1) id d) (shadowDesc (kind == 1) id (fun x => { d with gen := x.gen }) u)) (ok (le8 (nextTick u))))
/-- DESC_WRITE (R353). -/
def execDescWrite (mb : Fin 64) (s : State) : Res := onU (descWrite mb) s
/-- Whether an action record is refused (R183). -/
def actionBad (w : Nat) : Bool :=
  let kind := actKind w
  let arg := w % 2 ^ 32
  decide (5 < kind) || (kind != 4 && bitsOf w 47 32 != 0)
    || (if kind = 5 then decide (2 ^ 31 ≤ arg) || decide (1024 < bitsOf arg 30 20) || decide (2 ^ 20 < arg % 2 ^ 20 + bitsOf arg 30 20)
        else if kind = 3 then decide (4096 ≤ arg) else arg != 0)
/-- ACTION_WRITE (R183, R200). -/
def actionWrite (n : Nat) : Units → Units :=
  message 0x0205 n (fun p u =>
    let first := le p 0 4
    let cnt := le p 4 2
    if 524288 ≤ first then keep u (invalid 0)
    else if cnt = 0 ∨ 500 < cnt ∨ 524288 < first + cnt then keep u (invalid 4)
    else
      let l := (List.range cnt).map (fun k => (k, le p (8 + 8 * k) 8))
      match l.find? (fun x => actionBad x.2) with
      | some x => keep u (bad 7 5 (8 + 8 * x.1) 0)
      | none =>
        let put (t : Tbl Nat) : Tbl Nat := l.foldl (fun t x => tset t (first + x.1) x.2) t
        keep { u with mat := { u.mat with actions := put u.mat.actions, shActions := put u.mat.shActions } } (ok []))
/-- ACTION_WRITE (R183). -/
def execActionWrite (mb : Fin 64) (s : State) : Res := onU (actionWrite mb) s
/-- BANLIST_WRITE (R353): words in place; bits 31:20 of a word are 0. -/
def banlistWrite (n : Nat) (d : Dma) : State → State :=
  messageS 0x0206 n (fun p s =>
    let first := le p 0 4
    let cnt := le p 4 4
    let b := bufOf p 16
    if 2 ^ 20 ≤ first then (s, some (invalid 0))
    else if 2 ^ 20 < first + cnt then (s, some (invalid 4))
    else if !bufOk s.u n b ∨ b.len < 4 * cnt then (s, some (invalid 16))
    else match bufRead s n b d with
      | none => (s, some (faultAt 16))
      | some x =>
        let l := (List.range cnt).map (fun k => (first + k, le x (4 * k) 4))
        if l.any (fun w => 2 ^ 20 ≤ w.2) then (s, some (invalid 16))
        else ({ s with u := { s.u with mat := { s.u.mat with
          lists := l.foldl (fun t w => tset t w.1 w.2) s.u.mat.lists } } }, some (ok [])))
/-- BANLIST_WRITE (R353). -/
def execBanlistWrite (mb : Fin 64) (d : Dma) (s : State) : Res := .next (banlistWrite mb d s)
/-- The lowest offset at fault of a replacement entry (R231). -/
def replFault (r : Bytes) : Option Nat :=
  let len := le r 0 1
  if 31 < len then some 0
  else if le r 1 1 = 0 ∨ 8 < le r 1 1 then some 1
  else if le r 2 2 ≠ 0 then some 2
  else ((List.range 31).find? (fun k =>
    let w := le r (4 + 4 * k) 4
    if k < len then decide (0xFFFFF ≤ w) else w != 0)).map (fun k => 4 + 4 * k)
/-- REPLSEQ_WRITE (R231). -/
def replseqWrite (n : Nat) : Units → Units :=
  message 0x0207 n (fun p u =>
    if 4095 < le p 0 2 then keep u (invalid 0)
    else match replFault (sliceZ p 8 128) with
      | some off => keep u (invalid (8 + off))
      | none => keep { u with mat := { u.mat with repl := tset u.mat.repl (le p 0 2) (sliceZ p 8 128) } } (ok []))
/-- REPLSEQ_WRITE (R231). -/
def execReplseqWrite (mb : Fin 64) (s : State) : Res := onU (replseqWrite mb) s
/-- Whether a bank holds a valid entry. -/
def bankHolds (u : Units) (b : Nat) : Bool := u.mat.entries.any (fun e => e.1 / bankSize == b && e.2.valid)
/-- BANK_CONFIG (R175, R196). DEDUCED, log 103. -/
def bankConfig (n : Nat) : Units → Units :=
  message 0x0208 n (fun p u =>
    let b := le p 0 1 * 32 + le p 1 1
    let mode := le p 2 1
    if 1 < le p 0 1 then keep u (invalid 0)
    else if 31 < le p 1 1 then keep u (invalid 1)
    else if 3 < mode then keep u (invalid 2)
    else if 1 < le p 3 1 then keep u (invalid 3)
    else if u.tick.period * 1500 / 16 < le p 4 2 then keep u (invalid 4)
    else if mode ≠ nextMode u b ∧ (bankHolds u b || (nextProfiles u).any (fun r => bitAt (profBanks r) b)) then keep u (plain 8)
    else keep (schedule (.bank b mode (le p 3 1 == 1) (le p 4 2)) u) (ok (le8 (nextTick u))))
/-- BANK_CONFIG (R196). -/
def execBankConfig (mb : Fin 64) (s : State) : Res := onU (bankConfig mb) s

/-- An update record read from its 64 bytes. -/
def updParse (u : Units) (list ord : Nat) (r : Bytes) : UpdRec :=
  let w := le r 40 4
  let v := le r 44 4
  let op := bitsOf w 23 20
  let addr := w % 2 ^ 20
  let ent : MEntry := { key := Nat.land (le r 0 20) (le r 20 20), mask := le r 20 20, prio := v % 4096
                        action := bitsOf v 30 12, valid := bitAt v 31 }
  let own := keyOwner (nextMode u (addr / bankSize)) (if op = 3 then (tgetD u.mat.shadow addr {}).key else ent.key)
  if op = 4 then { list := list, ord := ord, op := op, kind := bitsOf (le r 48 2) 15 14, id := le r 48 2 % 4096 }
  else match own with
    | some (k, id, _) => { list := list, ord := ord, op := op, addr := addr, ent := ent, kind := k, id := id }
    | none => { list := list, ord := ord, op := op, addr := addr, ent := ent, kind := 2 }
/-- Whether an update record refuses its list (06). DEDUCED, log 107. -/
def updBad (u : Units) (r : Bytes) : Bool :=
  let w := le r 40 4
  let op := bitsOf w 23 20
  let k := le r 48 2
  bitsOf w 31 24 != 0 || op == 0 || decide (4 < op) || !allZero (sliceZ r 50 14)
    || (if op = 4 then decide (1 < bitsOf k 15 14) || bitsOf k 13 12 != 0 || !nextDefined u (bitsOf k 15 14 == 1) (k % 4096)
        else k != 0)
/-- A record reaches the match shadow (R200). -/
def shadowPut (r : UpdRec) (u : Units) : Units :=
  if r.op = 4 then u
  else { u with mat := { u.mat with shadow := tset u.mat.shadow r.addr (withPar (updEntry r (tgetD u.mat.shadow r.addr {}))) } }
/-- The records of a list, each read with the shadow as the records before it leave it. -/
def updRecords (list : Nat) : List Bytes → Nat → Units → List UpdRec × Units
  | [], _, u => ([], u)
  | r :: l, ord, u =>
    let x := updParse u list ord r
    let t := updRecords list l (ord + 1) (shadowPut x u)
    (x :: t.1, t.2)
/-- An accepted list (R195, R200, R512). -/
def updAccept (mb : Nat) (recs : List Bytes) (u : Units) : Units :=
  let id := u.mat.nextList
  let base := u.mat.nextOrd
  let t := updRecords id recs base { u with mat := { u.mat with nextList := id + 1, nextOrd := base + recs.length } }
  let ups := t.1.filter (fun r => r.op != 4)
  let l : UpdList := { id := id, mb := mb, waiting := ups, left := ups.length
                       commits := (t.1.filter (fun r => r.op == 4)).map (fun r => (r.ord, r.kind, r.id)) }
  feedLists { t.2 with mat := { t.2.mat with updLists := t.2.mat.updLists ++ [l] } }
/-- MATCH_UPDATE (R195). DEDUCED, log 40. -/
def matchUpdate (n : Nat) (d : Dma) : State → State :=
  messageS 0x0209 n (fun p s =>
    let cnt := le p 0 4
    let b := bufOf p 16
    if !bufOk s.u n b ∨ b.len < 64 * cnt then (s, some (invalid 16))
    else match bufRead s n b d with
      | none => (s, some (faultAt 16))
      | some x =>
        let recs := (List.range cnt).map (fun k => sliceZ x (64 * k) 64)
        if recs.any (updBad s.u) then (s, some (invalid 16))
        else if cnt = 0 then (s, some (ok (List.replicate 16 0)))
        else ({ s with u := updAccept n recs s.u }, none))
/-- MATCH_UPDATE (R195). -/
def execMatchUpdate (mb : Fin 64) (d : Dma) (s : State) : Res := .next (matchUpdate mb d s)
/-- An entry as an update record (R353). -/
def entryRecord (u : Units) (addr : Nat) : Bytes :=
  let e := entryAt u addr
  leBytes 20 e.key ++ leBytes 20 e.mask ++ leBytes 4 addr ++ leBytes 4 (b2n e.valid * 2 ^ 31 + e.action * 4096 + e.prio)
    ++ leBytes 16 0
/-- MATCH_READ (R353). -/
def matchRead (n : Nat) (flt : Bool) : State → State :=
  messageS 0x020A n (fun p s =>
    let addr := le p 0 4
    let cnt := le p 4 2
    let b := bufOf p 16
    if 2 ^ 20 ≤ addr then (s, some (invalid 0))
    else if cnt = 0 ∨ 4096 < cnt ∨ 2 ^ 20 < addr + cnt then (s, some (invalid 4))
    else if !bufOk s.u n b ∨ b.len < 64 * cnt then (s, some (invalid 16))
    else
      let r := bufWrite s n b ((fromN addr cnt).flatMap (entryRecord s.u)) flt
      (r.1, some (if r.2 then ok [] else faultAt 16)))
/-- MATCH_READ (R353). -/
def execMatchRead (mb : Fin 64) (flt : Bool) (s : State) : Res := .next (matchRead mb flt s)

end Sys2Proof.Machine
end

