-- ==== Sys2Proof/Machine/Sram.lean ====
section
/-! DEFINITION. The memories with their poison bits (15, R420, R421): core SRAM, tier 1, tier 2. -/
namespace Sys2Proof.Machine

/-- Bytes of core SRAM (R113). -/
def sramBytes : Nat := 4194304
/-- A core's state. -/
def coreAt (u : Units) (k : Nat) : CoreSt := tgetD u.core k {}
/-- The units with a core's state replaced. -/
def setCore (k : Nat) (c : CoreSt) (u : Units) : Units := { u with core := tset u.core k c }
/-- The units with a core's state changed. -/
def modCore (k : Nat) (f : CoreSt → CoreSt) (u : Units) : Units := setCore k (f (coreAt u k)) u
/-- A change of the units of a state. -/
def onUnits (f : Units → Units) (s : State) : State := { s with u := f s.u }
/-- The 64-byte units that a range touches. -/
def unitsOf (addr n : Nat) : List Nat := if n = 0 then [] else fromN (addr / 64) (ceilDiv (addr + n) 64 - addr / 64)
/-- A core's SRAM. -/
def sramOf (s : State) (k : Nat) : Memory := tgetD s.m.sram k []
/-- How many of the n bytes from an address lie in the 4 MiB of core SRAM (R113). -/
def sramFit (addr n : Nat) : Nat := min n (sramBytes - addr)
/-- n bytes of a core's SRAM. A byte beyond it does not exist, and what a read of one delivers is free. DESIGN CHOICE, log 210. -/
def sramRead (s : State) (k addr n : Nat) : Bytes :=
  mread (sramOf s k) addr (sramFit addr n) ++ (fromN (addr + sramFit addr n) (n - sramFit addr n)).map (Config.noSram k)
/-- Whether a range of a core's SRAM holds a poisoned unit. -/
def sramPois (s : State) (k addr n : Nat) : Bool := (unitsOf addr n).any (fun x => (coreAt s.u k).pois.contains x)
/-- Poison bits after a write of a range (R420). -/
def poisAfter (l : List Nat) (addr n : Nat) (poison : Bool) : List Nat :=
  if poison then l ++ (unitsOf addr n).filter (fun x => !l.contains x)
  else l.filter (fun x => !(decide (addr ≤ 64 * x) && decide (64 * x + 64 ≤ addr + n)))
/-- A write to a core's SRAM, poisoned or clean. What would lie beyond it lands nowhere. DESIGN CHOICE, log 210. -/
def sramWrite (k addr : Nat) (data : Bytes) (poison : Bool) (s : State) : State :=
  let data := data.take (sramFit addr data.length)
  { s with
    m := { s.m with sram := tset s.m.sram k (mwrite (sramOf s k) addr data) }
    u := modCore k (fun c => { c with pois := poisAfter c.pois addr data.length poison }) s.u }
/-- A range of a core's SRAM becomes poisoned, its bytes as they are. -/
def sramTaint (k addr n : Nat) (u : Units) : Units :=
  modCore k (fun c => { c with pois := poisAfter c.pois addr (sramFit addr n) true }) u

/- Poison of a launch (R146, R421). -/
/-- Units written by the launch on a core: space 1 its SRAM, 2 tier 1, 3 tier 2. -/
def noteOut (k space : Nat) (l : List Nat) (u : Units) : Units :=
  modCore k (fun c => { c with launch := c.launch.map (fun x =>
    { x with outs := x.outs ++ (l.map (fun y => (space, y))).filter (fun y => !x.outs.contains y) }) }) u
/-- Every output of the launch of a core is poisoned: those made, and those to come. -/
def poisonLaunch (k : Nat) (u : Units) : Units :=
  match (coreAt u k).launch with
  | none => u
  | some l =>
    let own := (l.outs.filter (fun o => o.1 == 1)).map (·.2)
    let t1 := (l.outs.filter (fun o => o.1 == 2)).map (·.2)
    let t2 := (l.outs.filter (fun o => o.1 == 3)).map (·.2)
    let u := modCore k (fun c => { c with
      launch := some { l with poison := true }
      passes := c.passes.map (fun p => { p with poison := true })
      pois := c.pois ++ own.filter (fun x => !c.pois.contains x) }) u
    { u with tier := { u.tier with
        pois1 := u.tier.pois1 ++ t1.filter (fun x => !u.tier.pois1.contains x)
        pois2 := u.tier.pois2 ++ t2.filter (fun x => !u.tier.pois2.contains x) } }
/-- Whether the launch of a core is poisoned. -/
def launchPois (u : Units) (k : Nat) : Bool :=
  match (coreAt u k).launch with
  | some l => l.poison
  | none => false
/-- An output of the launch of a core in its own SRAM. -/
def outWrite (k addr : Nat) (data : Bytes) (poison : Bool) (s : State) : State :=
  onUnits (noteOut k 1 (unitsOf addr data.length)) (sramWrite k addr data (poison || launchPois s.u k) s)

/- Tier 1 and tier 2 in 64-byte units. -/
/-- One unit of a local space read: bytes and poison. space: 0 a core's SRAM, 2 tier 1, 3 tier 2. -/
def unitRead (s : State) (space key addr : Nat) : Bytes × Bool :=
  match space with
  | 0 => (sramRead s key addr 64, sramPois s key addr 64)
  | 2 => (mread s.m.t1 addr 64, t1Pois s.asm s.u.tier (addr / 64))
  | _ => (mread s.m.t2 addr 64, s.u.tier.pois2.contains (addr / 64))
/-- One unit of a local space written whole. -/
def unitWrite (space key addr : Nat) (data : Bytes) (poison : Bool) (s : State) : State :=
  match space with
  | 0 => sramWrite key addr data poison s
  | 2 =>
    { s with
      m := { s.m with t1 := mwrite s.m.t1 addr data }
      u := { s.u with tier := if poison then t1Poison addr 64 s.u.tier else t1Clean s.asm addr 64 s.u.tier } }
  | _ =>
    { s with
      m := { s.m with t2 := mwrite s.m.t2 addr data }
      u := { s.u with tier := { s.u.tier with pois2 := poisAfter s.u.tier.pois2 addr 64 poison } } }
/-- n bytes copied between local spaces, unit by unit, each with its poison bit (R421). -/
def unitCopy (src dst : Nat × Nat × Nat) (n : Nat) (s : State) : State :=
  (List.range (n / 64)).foldl (fun s i =>
    let r := unitRead s src.1 src.2.1 (src.2.2 + 64 * i)
    unitWrite dst.1 dst.2.1 (dst.2.2 + 64 * i) r.1 r.2 s) s

end Sys2Proof.Machine
end

