-- ==== Sys2Proof/Machine/Engine.lean ====
section
/-! DEFINITION. Queues Q, F and M of a core (04, 05): rows into the engines' input buffers, passes, and what a pass that is
refused does. -/
namespace Sys2Proof.Machine

/-- Engines a mask names, in ascending order. -/
def maskEngines (m : BitVec 16) : List Nat := (List.range 16).filter (fun e => bitAt m.toNat e)
/-- An engine of a core. -/
def engAt (c : CoreSt) (e : Nat) : Eng := tgetD c.eng e {}
/-- A core with an engine changed. -/
def modEng (e : Nat) (f : Eng → Eng) (c : CoreSt) : CoreSt := { c with eng := tset c.eng e (f (engAt c e)) }
/-- A completion flag incremented (R128). -/
def flagInc (f : Option (Fin 32)) (c : CoreSt) : CoreSt :=
  match f with
  | none => c
  | some i => { c with flags := tset c.flags i.val (min 65535 (tgetD c.flags i.val 0 + 1)) }
/-- Location of a core, with the slot it serves (R306). -/
def coreLoc (u : Units) (k : Nat) : Nat := loc 0 (k / 16) (k % 16) 0 0 0 ((coreAt u k).slot.getD 0xFF)
/-- Location of an engine or an array of it. -/
def arrayLoc (u : Units) (k e a row : Nat) : Nat := loc 0 (k / 16) (k % 16) e a row ((coreAt u k).slot.getD 0xFF)
/-- Entry number of the launch of a core. -/
def entryOf (u : Units) (k : Nat) : Nat := match (coreAt u k).launch with | some l => l.entry | none => 0

/- Rows (R132, R133). -/
/-- Engines a row goes to, each with its part (R132): the whole row, or segment i to the i-th engine. -/
def rowParts (d : Distr) (engines : List Nat) (r : Row) : List (Nat × Row × Nat) :=
  match d with
  | .bcast => engines.map (fun e => (e, r, 0))
  | .split => ((engines.zip (List.range engines.length)).filter (fun p => 16384 * p.2 < r.codes.length)).map
      (fun p => (p.1, r.segment p.2, 16384 * p.2))
/-- Whether every engine a fill names has a free input buffer (R133). -/
def fillReady (c : CoreSt) (engines : List Nat) : Bool := engines.all (fun e => decide ((engAt c e).bufs.length < 2))
/-- A row put into the buffers of its engines, not yet ready. -/
def fillBuf (row : Row) (src : Option (List Nat × List Nat × Nat)) (ring : Option Nat) (e : Nat) (c : CoreSt) : CoreSt :=
  modEng e (fun x => { x with
    bufs := x.bufs ++ [{ row := row, src := src, ring := ring }] }) c
/-- One counter of a pair raised: a saturating 32-bit counter of CLIP_READ, by group. -/
def clipBump (t : Tbl Nat) (g n : Nat) : Tbl Nat := tset t g (satN 32 (tgetD t g 0 + n))
/-- Values of a group quantised and clipped, added to the span of the next clip check (R96). -/
def spanBump (t : Tbl (Nat × Nat)) (g q n : Nat) : Tbl (Nat × Nat) := tmod t g (0, 0) (fun p => (p.1 + q, p.2 + n))
/-- Clipping counters of one engine for its part of a row (R95): code channels quantised, and values clipped. A row that is
not finite has no code values (R79). DEDUCED, log 67. -/
def countClip (notFinite : Bool) (first : Nat) (row : Row) (clipped : List Nat) (e : Nat) (c : CoreSt) : CoreSt :=
  if notFinite then c else
  let n := row.codes.length
  let size (g : Nat) : Nat := min 1024 (n - 1024 * g) - (row.lanes.filter (fun l => l.1 / 1024 == g)).length
  let groups := List.range (ceilDiv n 1024)
  let mine := (clipped.filter (fun ch => first ≤ ch && ch < first + n)).map (fun ch => (ch - first) / 1024)
  modEng e (fun x => { x with
    quant := groups.foldl (fun t g => clipBump t g (size g)) x.quant
    clip := mine.foldl (fun t g => clipBump t g 1) x.clip
    span := mine.foldl (fun t g => spanBump t g 0 1) (groups.foldl (fun t g => spanBump t g (size g) 0) x.span) }) c
/-- The BF16 values of a row in SRAM. -/
def bfRow (s : State) (k src n : Nat) : List Nat :=
  let b := sramRead s k src (2 * n)
  (List.range n).map (fun i => le b (2 * i) 2)
/-- A QZ at the head of its queue starts: both reads, the codes, the lanes, the record (R132, R76 to R81). -/
def startQz (k : Nat) (s : State) : State :=
  let c := coreAt s.u k
  match c.qq with
  | [] => s
  | op :: _ =>
    let engines := maskEngines op.mask
    let r := quantise op.fmt op.outMax op.outTau.toNat (bfRow s k op.src op.n)
    let pois := r.1.poison || sramPois s k op.src (2 * op.n) || launchPois s.u k
    let row := { r.1 with poison := pois }
    let parts := rowParts op.distr engines row
    if c.qFill.isSome ∨ c.fFill.isSome ∨ !fillReady c (parts.map (·.1)) then s
    else
      let vals := bfRow s k op.src op.n
      let c := parts.foldl (fun c p =>
        countClip r.1.poison p.2.2 p.2.1 r.2 p.1
          (fillBuf p.2.1 (some (vals, row.lanes.map (·.1), p.2.2)) none p.1 c)) c
      let die := dieKey 0 (k / 16)
      let sat := (r.2.filter (fun ch => row.lanes.any (fun l => l.1 == ch))).length
      let u := dieBump die 0x30 1 (dieBump die 0x31 (r.2.length - sat) (dieBump die 0x32 sat
        (setCore k { c with qFill := some { engines := parts.map (·.1), flag := op.flag } } s.u)))
      let s := { s with u := u }
      match op.recTo with
      | none => s
      | some a => outWrite k a (rowRecord r.1 0 0 0) pois s
/-- Whether an address lies in the record ring of a terminal-head core (R118). DESIGN CHOICE, log 70. -/
def inRing (u : Units) (k addr : Nat) : Bool :=
  65536 ≤ addr && (match (coreAt u k).slot with
    | some n => le (mread (tgetD u.slot n {}).img 6 1) 0 1 == 1
    | none => false)
/-- A CF at the head of its queue starts (R133). -/
def startCf (k : Nat) (s : State) : State :=
  let c := coreAt s.u k
  match c.qf with
  | [] => s
  | op :: _ =>
    let nout := le (sramRead s k op.src 64) 24 2
    let size := 64 + op.n * afBits op.fmt / 8 + 8 * nout
    let b := sramRead s k op.src size
    let row := { rowOfRecord op.fmt op.n b with poison := sramPois s k op.src size || launchPois s.u k }
    let parts := rowParts op.distr (maskEngines op.mask) row
    if c.qFill.isSome ∨ c.fFill.isSome ∨ !fillReady c (parts.map (·.1)) then s
    else
      let ring := if inRing s.u k op.src then some op.src else none
      let c := parts.foldl (fun c p => fillBuf p.2.1 none ring p.1 c) c
      { s with u := setCore k { c with fFill := some { engines := parts.map (·.1), flag := op.flag } } s.u }
/-- A fill ends: the buffers are ready, the flag counts, the queue goes on (R128, R133). -/
def fillEnd (f : Fill) (c : CoreSt) : CoreSt :=
  let ready (bs : List InBuf) : List InBuf :=
    (bs.takeWhile (·.ready)) ++ (match bs.dropWhile (·.ready) with | [] => [] | b :: r => { b with ready := true } :: r)
  flagInc f.flag (f.engines.foldl (fun c e => modEng e (fun x => { x with bufs := ready x.bufs }) c) c)

/- Passes (R134, R135). -/
/-- The buffer a pass of an engine would consume. -/
def nextBuf (c : CoreSt) (e : Nat) : Option InBuf := (engAt c e).bufs.head?.filter (·.ready)
/-- Whether an MX is not executed (R135). -/
def mxInvalid (c : CoreSt) (op : MxOp) : Bool :=
  (maskEngines op.mask).any (fun e =>
    let w := (engAt c e).w
    (match nextBuf c e with | some b => b.row.fmt != op.fmt | none => false)
      || decide (w.groups ≤ op.group) || (op.chain.isSome && decide (1 < w.groups))
      || !bitAt w.afmtMask (afCode op.fmt))
/-- The engines of an MX that write, with their addresses: every engine, or a chain's head (R134). -/
def mxOuts (op : MxOp) : List (Nat × Nat) :=
  match op.chain with
  | some h => [(h.val, op.outAddr)]
  | none => (maskEngines op.mask).map (fun e => (e, op.outAddr + e * op.stride))
/-- Bytes an engine of an MX writes. -/
def mxLen (c : CoreSt) (op : MxOp) (e : Nat) : Nat := (engAt c e).w.wfmt.cols * (if op.outFp32 then 4 else 2)
/-- Output format of an MX. -/
def mxFf (op : MxOp) : FF := if op.outFp32 then .fp32 else .bf16
/-- The accumulators of column j that an engine's buffer gives (R85). -/
def engAcc (c : CoreSt) (g j e : Nat) : Int :=
  match nextBuf c e with
  | some b => (engAt c e).w.acc b.row g j
  | none => 0
/-- The values of a pass (R85, R87, R90): what each writing engine writes, and how many rescales saturated. A chain rescales
with the scale of its head's row. DESIGN CHOICE, log 216. -/
def passValues (c : CoreSt) (op : MxOp) : List (Nat × Nat × List Nat) × Nat :=
  let engines := maskEngines op.mask
  let one (e : Nat) (acc : Nat → Int) : List (Nat × Bool) :=
    let w := (engAt c e).w
    let row := ((nextBuf c e).getD ((nextBuf c (engines.headD e)).getD {})).row
    (List.range w.wfmt.cols).map (fun j => w.rescale (mxFf op) (acc j) row.sMant row.sExp j)
  let outs := match op.chain with
    | some h => [(h.val, op.outAddr, one h.val (fun j => (engines.map (engAcc c op.group j)).sum))]
    | none => engines.map (fun e => (e, op.outAddr + e * op.stride, one e (fun j => engAcc c op.group j e)))
  (outs.map (fun o => (o.1, o.2.1, o.2.2.map (·.1))), ((outs.map (fun o => (o.2.2.filter (·.2)).length)).sum))
/-- Engines whose buffers a refused MX consumes. -/
def dropBufs (engines : List Nat) (c : CoreSt) : CoreSt :=
  engines.foldl (fun c e => modEng e (fun x => { x with bufs := x.bufs.drop 1 }) c) c
/-- A refused MX: poisoned outputs, buffers consumed, flag counted, notice (R135, R122). DESIGN CHOICE, log 220. -/
def mxRefuse (k code : Nat) (op : MxOp) (s : State) : State :=
  let c := coreAt s.u k
  let outs := mxOuts op
  let u := setCore k (flagInc op.flag (dropBufs (maskEngines op.mask) { c with qm := c.qm.drop 1 })) s.u
  let u := forAll outs (fun o u => noteOut k 1 (unitsOf o.2 (mxLen c op o.1)) (sramTaint k o.2 (mxLen c op o.1) u)) u
  let u := dieBump (dieKey 0 (k / 16)) 0x36 outs.length u
  let args := if code = 0x0205 then [coreLoc u k] else [coreLoc u k, entryOf u k]
  { s with u := notice (dieKey 0 (k / 16)) code 0 args u }
/-- The MX at the head of its queue starts when every engine is free and holds a ready buffer (R134). -/
def startMx (k : Nat) (s : State) : State :=
  let c := coreAt s.u k
  match c.qm with
  | [] => s
  | op :: rest =>
    let engines := maskEngines op.mask
    if c.loading then mxRefuse k 0x0205 op s
    else if !engines.all (fun e => !(engAt c e).busy && (nextBuf c e).isSome) then s
    else if mxInvalid c op then mxRefuse k 0x0302 op s
    else
      let v := passValues c op
      let pois := engines.any (fun e => match nextBuf c e with | some b => b.row.poison | none => false)
      let silent := (engines.filter (fun e => !v.1.any (fun o => o.1 == e))).map (fun e => ({ engine := e } : PassOut))
      let outs := v.1.map (fun o => ({ engine := o.1, addr := o.2.1, data := passBytes (mxFf op) o.2.2 } : PassOut))
      let p : Pass := { outs := outs ++ silent, group := op.group, ff := mxFf op, poison := pois || launchPois s.u k, flag := op.flag }
      let c := engines.foldl (fun c e => modEng e (fun x => { x with busy := true }) c) c
      { s with u := dieBump (dieKey 0 (k / 16)) (0x10 + k % 16) engines.length (dieBump (dieKey 0 (k / 16)) 0x33 v.2 (setCore k { c with qm := rest, passes := c.passes ++ [p] } s.u)) }
/-- An engine of a pass ends it: its buffer is free, and a ring entry is noted as passed over (R118, R133). -/
def passFree (tick : Nat) (p : Pass) (o : PassOut) (c : CoreSt) : CoreSt :=
  let x := engAt c o.engine
  let b := x.bufs.headD {}
  let w := if o.data.isEmpty then (p.outs.find? (fun y => !y.data.isEmpty)).getD o else o
  let rest := (p.outs.map (·.engine)).filter (· != w.engine)
  let chain := if p.outs.any (fun y => y.data.isEmpty) then w.engine :: rest else [w.engine]
  let c := modEng o.engine (fun x =>
    let x := { x with
      busy := false, bufs := x.bufs.drop 1, last := some (b, p.group, p.ff), lastOut := w.data, lastAt := w.addr, chain := chain }
    if x.outTick = tick then { x with outs := x.outs ++ [(w.addr, w.data.length)] }
    else { x with outTick := tick, outs := [(w.addr, w.data.length)] }) c
  match b.ring with
  | none => c
  | some a =>
    let mark (r : RingEnt) : RingEnt :=
      if r.addr = a ∧ !r.done.contains o.engine then { r with done := r.done ++ [o.engine] } else r
    let left := (c.ring.map mark).filter (fun r => r.done.length < 16)
    { c with ring := left }
/-- The oldest pass in progress ends: its results are in SRAM (R109, R128). DEDUCED, log 81. -/
def passEnd (k : Nat) (s : State) : State :=
  let c := coreAt s.u k
  match c.passes with
  | [] => s
  | p :: rest =>
    let c := p.outs.foldl (fun c o => passFree s.u.tick.number p o c) (flagInc p.flag { c with passes := rest })
    let wr := p.outs.filter (fun o => !o.data.isEmpty)
    let u := dieBump (dieKey 0 (k / 16)) 0x36 (wr.filter (fun o => p.poison || o.poison)).length (setCore k c s.u)
    wr.foldl (fun s o => outWrite k o.addr o.data (p.poison || o.poison) s) { s with u := u }

end Sys2Proof.Machine
end

