-- ==== Sys2Proof/Machine/Dma.lean ====
section
/-! DEFINITION. Queue D of a core (05, R143 to R146): descriptors, windows of a slot, transfers, fences. -/
namespace Sys2Proof.Machine

/-- One side of a transfer: space (0 this core's SRAM, 1 another core's, 2 tier 1, 3 tier 2, 4 a fabric window), core key
or window, address. -/
structure DmaEnd where
  space : Nat
  key : Nat
  addr : Nat
deriving DecidableEq, Repr
/-- A transfer descriptor (R143). -/
structure DmaDesc where
  src : DmaEnd
  dst : DmaEnd
  len : Nat
  sstride : Nat
  dstride : Nat
  blocks : Nat
deriving DecidableEq, Repr

/-- A descriptor read from its 32 bytes (R143; the layout is DESIGN CHOICE, log 26). Addresses and lengths are multiples of 64 bytes. -/
def dmaParse (b : Bytes) : DmaDesc :=
  let f := fun n => Config.dmaField n b
  { src := { space := f 0 % 5, key := f 1, addr := 64 * f 2 }, dst := { space := f 3 % 5, key := f 4, addr := 64 * f 5 }
    len := 64 * f 6, sstride := 64 * f 7, dstride := 64 * f 8, blocks := f 9 }
/-- Whether a range lies in the address windows of the slot of a core (R146). -/
def endAllowed (u : Units) (k : Nat) (e : DmaEnd) (n : Nat) : Bool :=
  let slot := (coreAt u k).slot
  match e.space with
  | 0 => e.addr + n ≤ sramBytes
  | 1 => slot.isSome && (coreAt u e.key).slot == slot && e.addr + n ≤ sramBytes
  | sp =>
    let space := if sp = 4 then 4 + 16 * e.key else sp
    match slot with
    | none => false
    | some m => (tgetD u.slot m {}).wins.any (fun w => w.space == space && w.base ≤ e.addr && e.addr + n ≤ w.base + w.len)
/-- The blocks of a descriptor: source and destination of each. -/
def dmaBlocks (d : DmaDesc) : List (DmaEnd × DmaEnd) :=
  (List.range d.blocks).map (fun i =>
    ({ d.src with addr := d.src.addr + i * d.sstride }, { d.dst with addr := d.dst.addr + i * d.dstride }))
/-- Whether every block of a descriptor lies in the slot's windows (R146). DESIGN CHOICE, log 27. -/
def dmaAllowed (u : Units) (k : Nat) (d : DmaDesc) : Bool :=
  (dmaBlocks d).all (fun b => endAllowed u k b.1 d.len && endAllowed u k b.2 d.len)
/-- Whether a side of a descriptor is a fabric window. -/
def dmaRemote (d : DmaDesc) : Bool := d.src.space == 4 || d.dst.space == 4
/-- The space and key of a side among the local spaces. -/
def localEnd (k : Nat) (e : DmaEnd) : Nat × Nat × Nat :=
  match e.space with
  | 0 => (0, k, e.addr)
  | 1 => (0, e.key, e.addr)
  | sp => (sp, 0, e.addr)
/-- Whether a block uses tier 2 over a link that is out of service (R461). DEDUCED, log 75. -/
def endDown (u : Units) (e : DmaEnd) (n : Nat) : Bool := e.space == 3 && tier2Down u e.addr n
/-- Units of the destination of a block, as outputs of the launch. -/
def noteBlock (k : Nat) (e : DmaEnd) (n : Nat) (u : Units) : Units :=
  match e.space with
  | 0 => noteOut k 1 (unitsOf e.addr n) u
  | 2 => noteOut k 2 (unitsOf e.addr n) u
  | 3 => noteOut k 3 (unitsOf e.addr n) u
  | _ => u
/-- A block between local spaces (R144, R421). DEDUCED, log 75. -/
def blockLocal (k n : Nat) (b : DmaEnd × DmaEnd) (s : State) : State :=
  if endDown s.u b.1 n || endDown s.u b.2 n then onUnits (poisonLaunch k) (onUnits setIface s)
  else
    let s := unitCopy (localEnd k b.1) (localEnd k b.2) n s
    let s := if launchPois s.u k then
        (List.range (n / 64)).foldl (fun s i =>
          let d := localEnd k b.2
          let r := unitRead s d.1 d.2.1 (d.2.2 + 64 * i)
          unitWrite d.1 d.2.1 (d.2.2 + 64 * i) r.1 true s) s
      else s
    onUnits (noteBlock k b.2 n) s
/-- The bytes of a local range, and whether a unit of it is poisoned. -/
def rangeRead (s : State) (e : Nat × Nat × Nat) (n : Nat) : Bytes × Bool :=
  let r := (List.range (n / 64)).map (fun i => unitRead s e.1 e.2.1 (e.2.2 + 64 * i))
  (r.flatMap (·.1), r.any (·.2))
/-- A block to or from a window: its transactions are sent (R382). A poisoned unit is not sent and the DM fails (R422). A block
from a window to a window is read from the one, and each answer written to the other. -/
def blockRemote (k n : Nat) (b : DmaEnd × DmaEnd) (s : State) : State :=
  if b.2.space = 4 then
    if b.1.space = 4 then onUnits (sendRd b.1.key b.1.addr n (some k) none (16 + b.2.key, 0, b.2.addr)) s
    else
      let r := rangeRead s (localEnd k b.1) n
      if r.2 || endDown s.u b.1 n then onUnits (poisonLaunch k) s
      else onUnits (sendWr b.2.key b.2.addr r.1 (some k) none) s
  else onUnits (fun u => sendRd b.1.key b.1.addr n (some k) none (localEnd k b.2) (noteBlock k b.2 n u)) s
/-- The descriptors of a DM with their addresses in SRAM, up to 64. -/
def dmList (s : State) (k list count : Nat) : List (Nat × DmaDesc) :=
  (List.range (min count 64)).map (fun i => (list + 32 * i, dmaParse (sramRead s k (list + 32 * i) 32)))
/-- Transactions of a core on fabric windows not answered yet. -/
def fabOut (u : Units) (k : Nat) : Nat :=
  ((u.tier.txns ++ u.tier.waitTx.map (·.1)).filter (fun t => t.core == some k)).length
/-- The instruction at the head of queue D starts: a DM's descriptors are checked, those outside the windows refused, and
window transactions sent; a fence passes once no transaction is outstanding (R143 to R146). -/
def startD (k : Nat) (s : State) : State :=
  let c := coreAt s.u k
  if c.dStarted then s
  else match c.qd with
    | [] => s
    | .fence f :: rest => if fabOut s.u k = 0 then { s with u := setCore k (flagInc f { c with qd := rest }) s.u } else s
    | .dm list count _ :: _ =>
      let l := dmList s k list count
      let s := onUnits (modCore k (fun c => { c with dStarted := true })) s
      l.foldl (fun s d =>
        if !dmaAllowed s.u k d.2 then
          onUnits (fun u => dieBump (dieKey 0 (k / 16)) 0x3D 1
            (notice (dieKey 0 (k / 16)) 0x0303 0 [coreLoc u k, d.1] (poisonLaunch k u))) s
        else if dmaRemote d.2 then (dmaBlocks d.2).foldl (fun s b => blockRemote k d.2.len b s) s
        else s) s
/-- The DM at the head of queue D completes, once its window transactions have been answered (R143, R144): its local
transfers are done, its flag counts, and a SIG behind it waits for one DM less. DEDUCED, log 81. -/
def dmaEnd (k : Nat) (s : State) : State :=
  let c := coreAt s.u k
  match c.qd with
  | .dm list count flag :: rest =>
    if !c.dStarted ∨ fabOut s.u k ≠ 0 then s
    else
      let l := (dmList s k list count).filter (fun d => dmaAllowed s.u k d.2)
      let loc := l.filter (fun d => !dmaRemote d.2)
      let s := loc.foldl (fun s d => (dmaBlocks d.2).foldl (fun s b => blockLocal k d.2.len b s) s) s
      let units := (l.map (fun d => d.2.blocks * d.2.len / 64)).sum
      let die := dieKey 0 (k / 16)
      onUnits (fun u => dieBump die 0x3B l.length (dieBump die 0x3C units (modCore k (fun c =>
        flagInc flag { c with qd := rest, dStarted := false
                              sigs := c.sigs.map (fun g => { g with dms := g.dms - 1 }) }) u))) s
  | _ => s

end Sys2Proof.Machine
end

