-- ==== Sys2Proof/Machine/Transcendental.lean ====
section
/-! DEFINITION. The transcendental instructions of R138.

Each function is evaluated in fixed point with 2^-420 resolution, far beyond what rounding a binary32 or BF16 result
needs, and rounded once. Exact cases (exp 0, log 1, 2^n, reciprocals, square roots of powers of 4) come out exact.
Operands R138 does not list follow IEEE 754 and the function's limit (PRESUMED, log 13). -/
namespace Sys2Proof.Machine

/-- Fixed-point resolution in bits. -/
def fxP : Nat := 420
/-- 1 in fixed point. -/
def fxOne : Int := 2 ^ fxP
/-- Product in fixed point. -/
def fxMul (a b : Int) : Int := Int.fdiv (a * b) fxOne
/-- Sum of a series whose k-th term is made from the one before by next k; n terms. -/
def fxSeries (next : Nat → Int → Int) : Nat → Nat → Int → Int → Int
  | 0, _, _, acc => acc
  | n + 1, k, t, acc => fxSeries next n (k + 1) (next k t) (acc + t)
/-- 2 × atanh (n / d) in fixed point, for 0 ≤ n / d ≤ 1/3: the odd powers over the odd numbers. -/
def fxAtanhSum (y2 : Int) : Nat → Nat → Int → Int → Int
  | 0, _, _, acc => acc
  | f + 1, k, p, acc => fxAtanhSum y2 f (k + 1) (fxMul p y2) (acc + p / (2 * k + 1))
/-- 2 × atanh (n / d). -/
def fxAtanh2 (n d : Nat) : Int :=
  let y : Int := ((n * 2 ^ fxP / d : Nat) : Int)
  2 * fxAtanhSum (fxMul y y) 140 0 y 0
/-- ln 2 in fixed point. -/
def fxLn2 : Int := fxAtanh2 1 3
/-- exp r in fixed point for |r| ≤ 1. -/
def fxExp (r : Int) : Int := fxSeries (fun k t => Int.fdiv (fxMul t r) (k + 1)) 100 0 fxOne 0
/-- ± m × 2^e in fixed point, rounded down. -/
def fxOf (neg : Bool) (m : Nat) (e : Int) : Int :=
  let s := e + fxP
  let v : Int := if s ≥ 0 then ((m * 2 ^ s.toNat : Nat) : Int) else ((m / 2 ^ (-s).toNat : Nat) : Int)
  if neg then -v else v
/-- exp of a fixed-point x, as a fixed-point mantissa and a binary exponent. -/
def fxExpPair (x : Int) : Int × Int :=
  let k := Int.fdiv x fxLn2
  (fxExp (x - k * fxLn2), k)
/-- A fixed-point value × 2^k rounded to the format. -/
def fxRound (f : FF) (v : Int) (k : Int) : Nat := fround f (v < 0) v.natAbs 1 (k - fxP)
/-- A magnitude so large that exp overflows or vanishes for either sign: m × 2^e ≥ 256. -/
def fxHuge (m : Nat) (e : Int) : Bool := m != 0 && floorLog2 m 1 + e ≥ 8

/-- exp (R138). -/
def fexp (f : FF) (a : Nat) : Nat :=
  match fdec f a with
  | .nan => fnan f
  | .inf s => if s then fzero f false else finf f false
  | .fin s m e =>
    if m = 0 then fround f false 1 1 0
    else if fxHuge m e then (if s then fzero f false else finf f false)
    else let (v, k) := fxExpPair (fxOf s m e); fxRound f v k
/-- 2^x (R138). -/
def fexp2 (f : FF) (a : Nat) : Nat :=
  match fdec f a with
  | .nan => fnan f
  | .inf s => if s then fzero f false else finf f false
  | .fin s m e =>
    if fxHuge m e then (if s then fzero f false else finf f false)
    else
      let x := fxOf s m e
      let k := Int.fdiv x fxOne
      let r := x - k * fxOne
      if r = 0 && e ≥ -420 then fround f false 1 1 k else fxRound f (fxExp (fxMul r fxLn2)) k
/-- Natural logarithm (R138). PRESUMED, log 13. -/
def flog (f : FF) (a : Nat) : Nat :=
  match fdec f a with
  | .nan => fnan f
  | .inf s => if s then fnan f else finf f false
  | .fin s m e =>
    if m = 0 then finf f true
    else if s then fnan f
    else
      -- m × 2^e = y × 2^k with y = m / 2^lg in [1, 2)
      let lg := Nat.log2 m
      let k : Int := e + lg
      let y := fxAtanh2 (m - 2 ^ lg) (m + 2 ^ lg)
      let v := y + k * fxLn2
      if v = 0 then fzero f false else fxRound f v 0
/-- Reciprocal (R138). PRESUMED, log 13. -/
def frecip (f : FF) (a : Nat) : Nat :=
  match fdec f a with
  | .nan => fnan f
  | .inf s => fzero f s
  | .fin s m e => if m = 0 then finf f s else fround f s 1 m (-e)
/-- Reciprocal square root (R138). PRESUMED, log 13. -/
def frsqrt (f : FF) (a : Nat) : Nat :=
  match fdec f a with
  | .nan => fnan f
  | .inf s => if s then fnan f else fzero f false
  | .fin s m e =>
    if m = 0 then finf f s
    else if s then fnan f
    else
      -- 1 / sqrt (m × 2^e) with an even exponent
      let (m', e') := if e % 2 = 0 then (m, e) else (2 * m, e - 1)
      fround f false (isqrt (2 ^ (2 * fxP) / m')) 1 (-(fxP : Int) - e' / 2)
/-- exp of -|x| for a finite x, as a ratio n / 2^fxP × 2^k. -/
def fxExpNeg (m : Nat) (e : Int) : Int × Int :=
  if fxHuge m e then (fxOne, -400) else fxExpPair (fxOf true m e)
/-- tanh (R138): (1 - E) / (1 + E) with E = exp (-2 |x|); a small operand by its series. -/
def ftanh (f : FF) (a : Nat) : Nat :=
  match fdec f a with
  | .nan => fnan f
  | .inf s => fround f s 1 1 0
  | .fin s m e =>
    if m = 0 then fzero f s
    else if floorLog2 m 1 + e < -40 then
      -- x - x^3 / 3: the exact value lies just below |x|
      fround f s (m * 2 ^ 100 - 1) 1 (e - 100)
    else
      let (v, k) := fxExpNeg m (e + 1)
      let ev : Int := if k ≥ 0 then v * 2 ^ k.toNat else Int.fdiv v (2 ^ (-k).toNat)
      fround f s (fxOne - ev).natAbs (fxOne + ev).natAbs 0
/-- sigmoid (R138). -/
def fsigmoid (f : FF) (a : Nat) : Nat :=
  match fdec f a with
  | .nan => fnan f
  | .inf s => if s then fzero f false else fround f false 1 1 0
  | .fin s m e =>
    if m = 0 then fround f false 1 2 0
    else
      let (v, k) := fxExpNeg m e
      -- E = v / 2^fxP × 2^k ≤ 1; sigmoid x = 1 / (1 + E) or E / (1 + E)
      let big : Int := fxOne * 2 ^ (-k).toNat
      if s then fround f false v.natAbs (big + v).natAbs 0
      else fround f false big.natAbs (big + v).natAbs 0
/-- sqrt (pi) in fixed point, from pi = 16 atan (1/5) - 4 atan (1/239). -/
def fxAtanInv (d : Nat) : Int :=
  let y : Int := fxOne / d
  fxAtanhSum (-(fxOne / (d * d))) 200 0 y 0
/-- sqrt (pi) in fixed point. -/
def fxSqrtPi : Int := (isqrt ((16 * fxAtanInv 5 - 4 * fxAtanInv 239).natAbs * 2 ^ fxP) : Nat)
/-- erf (R138): 2 / sqrt (pi) × exp (-x²) × Σ 2^n x^(2n+1) / (2n+1)!!. -/
def ferf (f : FF) (a : Nat) : Nat :=
  match fdec f a with
  | .nan => fnan f
  | .inf s => fround f s 1 1 0
  | .fin s m e =>
    if m = 0 then fzero f s
    else if floorLog2 m 1 + e ≥ 3 then fround f s (2 ^ 100 - 1) 1 (-100)
    else
      let x := fxOf false m e
      let x2 := fxMul x x
      let sum := fxSeries (fun k t => Int.fdiv (fxMul (2 * t) x2) (2 * k + 3)) 500 0 x 0
      let (v, k) := fxExpPair (-x2)
      let ex : Int := Int.fdiv v (2 ^ (-k).toNat)
      fround f s (2 * fxMul sum ex).natAbs fxSqrtPi.natAbs 0

end Sys2Proof.Machine
end

