-- ==== Sys2Proof/Machine/Vector.lean ====
section
/-! DEFINITION. The arithmetic of the vector unit (05, R136 to R142), on lanes of 32 bits. -/
namespace Sys2Proof.Machine

/-- Lanes of a vector register. -/
def lanes : Nat := 256
/-- The floating-point format of a lane format. -/
def ffOf : VFmt → Option FF
  | .fp32 => some .fp32
  | .bf16 => some .bf16
  | _ => none
/-- A lane read in a floating-point format: BF16 stands in bits 31:16 (R136). PRESUMED, log 71. -/
def laneGet (f : FF) (w : W32) : Nat := match f with | .fp32 => w.toNat | .bf16 => w.toNat / 65536
/-- A lane written in a floating-point format. -/
def lanePut (f : FF) (v : Nat) : W32 := BitVec.ofNat 32 (match f with | .fp32 => v | .bf16 => v * 65536)
/-- Byte k of a lane, as a signed value. -/
def laneByte (w : W32) (k : Nat) : Int := signed 8 (w.toNat / 2 ^ (8 * k))

/-- The greater of two operands under the rules of R140: a NaN gives the canonical NaN. -/
def fmax2 (f : FF) (a b : Nat) : Nat := if fisNan f a || fisNan f b then fnan f else if fgt f b a then b else a
/-- The lesser of two operands. -/
def fmin2 (f : FF) (a b : Nat) : Nat := if fisNan f a || fisNan f b then fnan f else if fgt f a b then b else a
/-- Number of a lane format. -/
def fmtCode : VFmt → Nat
  | .fp32 => 0
  | .bf16 => 1
  | .int32 => 2
  | .int8 => 3
  | .codes f => 4 + afCode f
/-- A lane as the list of values it holds in a format (R136): one number, four bytes, or packed codes (R70). -/
def laneVals (fmt : VFmt) (w : W32) : List Int :=
  match fmt with
  | .int32 => [w.toInt]
  | .int8 => (List.range 4).map (laneByte w)
  | .codes f => unpackRow f (leBytes 4 w.toNat) (32 / afBits f)
  | .bf16 => [((w.toNat / 65536 : Nat) : Int)]
  | .fp32 => [(w.toNat : Int)]
/-- A lane whose value the manual does not state: free, by operation (its number), format and the operands as they are read.
DESIGN CHOICE, log 71. -/
def laneOpen (op : Nat) (fmt : VFmt) (a b c : W32) : W32 :=
  Config.laneFree op (fmtCode fmt) (laneVals fmt a) (laneVals fmt b) (laneVals fmt c)
/-- The stated result of an elementwise operation on one lane (R137, R142); none where the manual states none for the lane
format. -/
def laneStated (op : VOp) (fmt : VFmt) (a b c : W32) : Option W32 :=
  match ffOf fmt with
  | some f =>
    let x := laneGet f a
    let y := laneGet f b
    match op with
    | .add => some (lanePut f (fadd f x y))
    | .sub => some (lanePut f (fsub f x y))
    | .mul => some (lanePut f (fmul f x y))
    | .fma => some (lanePut f (ffma f x y (laneGet f c)))
    | .max => some (lanePut f (fmax2 f x y))
    | .min => some (lanePut f (fmin2 f x y))
    | _ => none
  | none =>
    match fmt, op with
    | .int32, .iadd => some (a + b)
    | .int32, .isub => some (a - b)
    | .int32, .imul => some (a * b)
    | _, _ => none
/-- Number of an elementwise operation. -/
def vopCode : VOp → Nat
  | .add => 0
  | .sub => 1
  | .mul => 2
  | .fma => 3
  | .max => 4
  | .min => 5
  | .iadd => 6
  | .isub => 7
  | .imul => 8
/-- An elementwise operation on one lane (R137, R142). DESIGN CHOICE, log 71. -/
def laneOp (op : VOp) (fmt : VFmt) (a b c : W32) : W32 := (laneStated op fmt a b c).getD (laneOpen (vopCode op) fmt a b c)
/-- A transcendental function of one lane (R138). -/
def laneFun (g : VFun) (f : FF) (x : Nat) : Nat :=
  match g with
  | .exp => fexp f x
  | .exp2 => fexp2 f x
  | .log => flog f x
  | .recip => frecip f x
  | .rsqrt => frsqrt f x
  | .tanh => ftanh f x
  | .sigmoid => fsigmoid f x
  | .erf => ferf f x
/-- One level of the tree of R139: e[i] + e[i + 2^k] at each i that is a multiple of 2^(k+1). -/
def treePairs (f : FF) : List Nat → List Nat
  | a :: b :: r => fadd f a b :: treePairs f r
  | l => l
/-- The tree of R139 over 2^k values. -/
def treeSum (f : FF) : Nat → List Nat → Nat
  | 0, l => l.headD 0
  | k + 1, l => treeSum f k (treePairs f l)
/-- A sum reduction over registers: the lanes folded in register order, then the tree (R139). -/
def sumReduce (f : FF) (regs : List (List W32)) : Nat :=
  match regs.map (fun r => r.map (laneGet f)) with
  | [] => 0
  | r0 :: rest => treeSum f 8 (rest.foldl (fun acc r => (acc.zip r).map (fun p => fadd f p.1 p.2)) r0)
/-- A max reduction of a list of values: value and lowest index (R140). -/
def maxReduce (f : FF) (l : List Nat) : Nat × Nat :=
  match (l.zip (List.range l.length)).find? (fun p => fisNan f p.1) with
  | some p => (fnan f, p.2)
  | none => (l.zip (List.range l.length)).foldl (fun a p => if fgt f p.1 a.1 then p else a) (l.headD 0, 0)
/-- A min reduction, the mirror image. -/
def minReduce (f : FF) (l : List Nat) : Nat × Nat :=
  match (l.zip (List.range l.length)).find? (fun p => fisNan f p.1) with
  | some p => (fnan f, p.2)
  | none => (l.zip (List.range l.length)).foldl (fun a p => if fgt f a.1 p.1 then p else a) (l.headD 0, 0)
/-- VTOP (R141): the K largest of a list, in descending order, with their indices; NaN elements are left out.
PRESUMED, log 71. -/
def topK (f : FF) (k : Nat) (l : List Nat) : List (Nat × Nat) :=
  let ok := (l.zip (List.range l.length)).filter (fun p => !fisNan f p.1)
  (sortBy (fun a b => fgt f a.1 b.1 || (!fgt f b.1 a.1 && a.2 < b.2)) ok).take (min k 64)
/-- VDOT8 on one lane (R142). -/
def dot8 (acc a b : W32) : W32 :=
  acc + BitVec.ofInt 32 (((List.range 4).map (fun k => laneByte a k * laneByte b k)).sum)
/-- VWIDE on one lane: the pair's low and high halves (R142). -/
def wide (lo hi a : W32) : W32 × W32 :=
  let v := (hi ++ lo) + (a.signExtend 64)
  (v.truncate 32, (v >>> 32).truncate 32)
/-- The stated result of a conversion of one lane (R142): an INT8 result stands in byte 0, the other bytes 0. None for a pair
of formats that R142 does not list. DESIGN CHOICE, log 223. -/
def convStated (src dst : VFmt) (a : W32) : Option W32 :=
  match ffOf src, dst with
  | some g, .fp32 => some (lanePut .fp32 (fconv g .fp32 (laneGet g a)))
  | some g, .bf16 => some (lanePut .bf16 (fconv g .bf16 (laneGet g a)))
  | some g, .int32 => some (BitVec.ofInt 32 (ftoI g (laneGet g a) (-2147483648) 2147483647))
  | some g, .int8 => some (BitVec.ofNat 32 (unsigned 8 (ftoI g (laneGet g a) (-128) 127)))
  | some _, .codes _ => none
  | none, _ =>
    match src, ffOf dst with
    | .int32, some f => some (lanePut f (froundI f a.toInt 0))
    | _, _ => none
/-- A conversion of one lane (R142); a pair of formats with no stated conversion gives a free value. DESIGN CHOICE, log 71. -/
def laneConvert (src dst : VFmt) (a : W32) : W32 := (convStated src dst a).getD (laneOpen (16 + fmtCode dst) src a 0 0)

end Sys2Proof.Machine
end

