-- ==== Sys2Proof/Machine/Seq.lean ====
section
/-! DEFINITION. The sequencer of a core (05, R126 to R151): dispatch and its stalls, completion flags, scalar registers,
control flow, semaphores, the end and the abort of a launch; and the instructions of every queue but H. -/
namespace Sys2Proof.Machine

/-- Profiles on a slot's list: those that the policies bound to it name (R148). -/
def slotProfiles (u : Units) (slot : Nat) : List Nat :=
  u.pol.flatMap (fun e => match e.2.cur with
    | some (r, _) =>
      if le r 16 1 = slot ∨ le r 17 1 = slot ∨ le r 18 1 = slot then (policyProfs r).map (fun f => f.2.1) else []
    | none => [])
/-- Credits of a slot that no key holds (R186): its share less those of the keys that its cores have issued. -/
def mqFree (u : Units) (slot : Nat) : Nat :=
  (tgetD u.slot slot {}).mqShare - ((u.core.filter (fun e => e.2.slot == some slot)).map (fun e => e.2.hOut)).sum
/-- The MQ at the head of queue H starts when its slot has a free credit: it issues as many keys as there are credits, each
later key with the credit of an earlier one (R186). An MQ off the slot's list issues none (R148). -/
def startH (k : Nat) (u : Units) : Units :=
  let c := coreAt u k
  match c.qh, c.slot with
  | op :: _, some n =>
    if c.hOut ≠ 0 ∨ !(slotProfiles u n).contains op.profile then u
    else setCore k { c with hOut := min (min op.count 256) (mqFree u n) } u
  | _, _ => u
/-- Everything that can start on a core starts (R126, R127). -/
def kick (k : Nat) (s : State) : State :=
  let s := (List.range 17).foldl (fun s _ => startMx k s) s
  let s := startCf k (startQz k s)
  onUnits (startH k) ((List.range 17).foldl (fun s _ => startD k s) s)
/-- Whether a core is there to complete its work: fitted and not retired. -/
def corePresent (a : Asm) (u : Units) (c : CoreId) : Bool := c.die.val < engineDies a && !(coreAt u (coreKey c)).retired
/-- Whether a core executes instructions: it runs a launch (R24, R116). DESIGN CHOICE, log 68. -/
def coreLive (a : Asm) (u : Units) (c : CoreId) : Bool := corePresent a u c && (coreAt u (coreKey c)).launch.isSome
/-- The program counter after a word: a loop end goes back while iterations are left, and a loop that the program has left by
a branch is over (R130). DESIGN CHOICE, log 72. -/
def nextPc (pc : Nat) : List LoopFrame → Nat × List LoopFrame
  | [] => (pc, [])
  | f :: r =>
    if pc < f.stop then (pc, f :: r)
    else if pc = f.stop ∧ 0 < f.left then (f.start, { f with left := f.left - 1 } :: r)
    else nextPc pc r
/-- One word dispatched; skip: words passed over as well. DESIGN CHOICE, log 68. -/
def advPc (skip : Nat) (c : CoreSt) : CoreSt :=
  let r := nextPc (c.pc + 1 + skip) c.loops
  { c with pc := r.1, loops := r.2, stalled := none }

/- Queue V: the vector unit (R126, R127, R136 to R142). -/
/-- A vector register. -/
def vreg (c : CoreSt) (r : Nat) : List W32 := tgetD c.v r (List.replicate lanes 0)
/-- A vector register written, with its poison. -/
def setV (r : Nat) (v : List W32) (poison : Bool) (c : CoreSt) : CoreSt :=
  { c with v := tset c.v r v
           vpois := if poison then (if c.vpois.contains r then c.vpois else c.vpois ++ [r]) else c.vpois.filter (· != r) }
/-- Whether a source register is poisoned. -/
def vbad (c : CoreSt) (l : List Nat) : Bool := l.any (fun r => c.vpois.contains r)
/-- The first lanes of a register replaced. -/
def setLanes (r : Nat) (new : List W32) (poison : Bool) (c : CoreSt) : CoreSt :=
  setV r ((new ++ (vreg c r).drop new.length).take lanes) poison c
/-- The registers of a sequence of n from va. -/
def vseq (va n : Nat) : List Nat := (fromN va n).map (· % 64)
/-- A vector load: 256 lanes of 32 bits from SRAM (R136). -/
def vLoad (k vd addr : Nat) (s : State) : State :=
  let b := sramRead s k addr 1024
  onUnits (modCore k (setV vd ((List.range lanes).map (fun i => BitVec.ofNat 32 (le b (4 * i) 4))) (sramPois s k addr 1024))) s
/-- A vector store: the first n lanes to SRAM (R128, R421). -/
def vStore (k vs addr n : Nat) (s : State) : State :=
  let x := coreAt s.u k
  outWrite k addr (((vreg x vs).take (min n lanes)).flatMap (fun w => leBytes 4 w.toNat)) (vbad x [vs]) s
/-- An elementwise operation (R137, R142). -/
def vArith (op : VOp) (fmt : VFmt) (vd va vb vc : Nat) (x : CoreSt) : CoreSt :=
  let third := if op = .fma then [vc] else []
  setV vd ((vreg x va).zip ((vreg x vb).zip (vreg x vc)) |>.map (fun p => laneOp op fmt p.1 p.2.1 p.2.2))
    (vbad x ([va, vb] ++ third)) x
/-- A transcendental instruction (R138). -/
def vFun (g : VFun) (f : FF) (vd va : Nat) (x : CoreSt) : CoreSt :=
  setV vd ((vreg x va).map (fun w => lanePut f (laneFun g f (laneGet f w)))) (vbad x [va]) x
/-- A sum reduction (R139): the sum in lane 0. DESIGN CHOICE, log 223. -/
def vSum (f : FF) (vd va n : Nat) (x : CoreSt) : CoreSt :=
  setLanes vd [lanePut f (sumReduce f ((vseq va n).map (vreg x)))] (vbad x (vseq va n)) x
/-- A max or min reduction (R140): the value in lane 0, its index in lane 1. DESIGN CHOICE, log 223. -/
def vMax (f : FF) (isMin : Bool) (vd va n : Nat) (x : CoreSt) : CoreSt :=
  let l := ((vseq va n).flatMap (vreg x)).map (laneGet f)
  let r := if isMin then minReduce f l else maxReduce f l
  setLanes vd [lanePut f r.1, BitVec.ofNat 32 r.2] (vbad x (vseq va n)) x
/-- VTOP (R141): pair i in lanes 2i (value) and 2i + 1 (element index). DESIGN CHOICE, log 223. -/
def vTop (f : FF) (vd va n k : Nat) (x : CoreSt) : CoreSt :=
  let l := ((vseq va n).flatMap (vreg x)).map (laneGet f)
  let x := { x with nanFlag := x.nanFlag || l.any (fisNan f) }
  setLanes vd ((topK f k l).flatMap (fun p => [lanePut f p.1, BitVec.ofNat 32 p.2])) (vbad x (vseq va n)) x
/-- VDOT8 (R142): added into the destination's lanes. DESIGN CHOICE, log 223. -/
def vDot8 (vd va vb : Nat) (x : CoreSt) : CoreSt :=
  setV vd ((vreg x vd).zip ((vreg x va).zip (vreg x vb)) |>.map (fun p => dot8 p.1 p.2.1 p.2.2)) (vbad x [vd, va, vb]) x
/-- VWIDE (R142): the lane pairs of registers vd (low halves) and vd + 1 (high halves). DESIGN CHOICE, log 223. -/
def vWide (vd va : Nat) (x : CoreSt) : CoreSt :=
  let r := (vreg x vd).zip ((vreg x (vd + 1)).zip (vreg x va)) |>.map (fun p => wide p.1 p.2.1 p.2.2)
  let bad := vbad x [vd, vd + 1, va]
  setV (vd + 1) (r.map (·.2)) bad (setV vd (r.map (·.1)) bad x)
/-- A conversion (R142). -/
def vConvert (src dst : VFmt) (vd va : Nat) (x : CoreSt) : CoreSt :=
  setV vd ((vreg x va).map (laneConvert src dst)) (vbad x [va]) x
/-- A float format's operation; nothing for a lane format the instruction does not read. -/
def onFloat (fmt : VFmt) (f : FF → CoreSt → CoreSt) (x : CoreSt) : CoreSt :=
  match ffOf fmt with
  | some g => f g x
  | none => x
/-- What an instruction of queue V does when the vector unit executes it. -/
def vEffect (k : Nat) (i : Instr) (s : State) : State :=
  let core (f : CoreSt → CoreSt) : State := onUnits (modCore k f) s
  match i with
  | .vectorLoad _ vd addr => vLoad k vd.reg addr s
  | .vectorStore _ vs addr n _ => vStore k vs addr n s
  | .vectorArith _ op fmt vd va vb vc => core (vArith op fmt vd.reg va vb vc)
  | .vectorTranscendental _ g fmt vd va => core (onFloat fmt (fun f => vFun g f vd.reg va))
  | .vectorSumReduce _ fmt vd va n => core (onFloat fmt (fun f => vSum f vd.reg va n))
  | .vectorMaxReduce _ fmt isMin vd va n => core (onFloat fmt (fun f => vMax f isMin vd.reg va n))
  | .vtop _ fmt vd va n k => core (onFloat fmt (fun f => vTop f vd.reg va n k))
  | .vdot8 _ vd va vb => core (vDot8 vd.reg va vb)
  | .vwide _ vd va => if vd.reg.val < 63 then core (vWide vd.reg va) else s
  | .vectorConvert _ src dst vd va => core (vConvert src dst vd.reg va)
  | _ => s
/-- The flag that an instruction of queue V names (R128). -/
def vFlag : Instr → Option (Fin 32)
  | .vectorLoad _ vd _ => vd.flag
  | .vectorStore _ _ _ _ f => f
  | .vectorArith _ _ _ vd _ _ _ => vd.flag
  | .vectorTranscendental _ _ _ vd _ => vd.flag
  | .vectorSumReduce _ _ vd _ _ => vd.flag
  | .vectorMaxReduce _ _ _ vd _ _ => vd.flag
  | .vtop _ _ vd _ _ _ => vd.flag
  | .vdot8 _ vd _ _ => vd.flag
  | .vwide _ vd _ => vd.flag
  | .vectorConvert _ _ _ vd _ => vd.flag
  | _ => none
/-- The vector unit executes the instruction at the head of its queue; its flag counts as it completes (R126, R128). -/
def vHead (k : Nat) (s : State) : State :=
  match (coreAt s.u k).qv with
  | [] => s
  | i :: rest => onUnits (modCore k (flagInc (vFlag i))) (vEffect k i (onUnits (modCore k (fun c => { c with qv := rest })) s))
/-- The vector unit executes n instructions of its queue. -/
def vRun (k : Nat) : Nat → State → State
  | 0, s => s
  | n + 1, s => vRun k n (vHead k s)
/-- Time passes for the vector unit: how many of the instructions that wait it executes meanwhile is a free value, since no
rule orders its queue against the others (R127). DESIGN CHOICE, log 224. -/
def vAdvance (k : Nat) (s : State) : State :=
  let n := (coreAt s.u k).qv.length
  if n = 0 then s else let d := drawNat s.u; vRun k (d.1 % (n + 1)) { s with u := d.2 }

/-- Whether an instruction is one of queue V (R126). -/
def isVector : Instr → Bool
  | .vectorLoad .. => true
  | .vectorStore .. => true
  | .vectorArith .. => true
  | .vectorTranscendental .. => true
  | .vectorSumReduce .. => true
  | .vectorMaxReduce .. => true
  | .vtop .. => true
  | .vdot8 .. => true
  | .vwide .. => true
  | .vectorConvert .. => true
  | _ => false
/-- The sequencer's own test of an instruction that may stall, and its effect: none while it stalls (R126, R128, R149 to
R151). -/
def tryDispatch (i : Instr) (k : Nat) (s : State) : Option State :=
  let c := coreAt s.u k
  let put (c : CoreSt) : State := { s with u := setCore k c s.u }
  match i with
  | .qz _ op => if c.qq.length < 4 then some (put { c with qq := c.qq ++ [op] }) else none
  | .cf _ op => if c.qf.length < 4 then some (put { c with qf := c.qf ++ [op] }) else none
  | .mx _ op => if c.qm.length < 16 then some (put { c with qm := c.qm ++ [op] }) else none
  | .dm _ list count flag => if c.qd.length < 16 then some (put { c with qd := c.qd ++ [.dm list count flag] }) else none
  | .dmFence x => if c.qd.length < 16 then some (put { c with qd := c.qd ++ [.fence x.flag] }) else none
  | .mq _ op => if c.qh.length < 8 then some (put { c with qh := c.qh ++ [op] }) else none
  | .wait _ f n =>
    let v := tgetD c.flags f.val 0
    if n ≤ v then some (put { c with flags := tset c.flags f.val (v - n) }) else none
  | .mark _ m => if s.u.tick.lastMark ≠ 6 ∧ m.val ≤ s.u.tick.lastMark then some s else none
  | .swait _ idx n =>
    let key := k / 16 * 64 + idx.val
    let v := tgetD s.u.sem key 0
    if n ≤ v then some { s with u := { s.u with sem := tset s.u.sem key (v - n) } } else none
  | .endLaunch _ =>
    if c.qq.isEmpty && c.qf.isEmpty && c.qm.isEmpty && c.qv.isEmpty && c.qd.isEmpty && c.qh.isEmpty && c.passes.isEmpty
        && c.qFill.isNone && c.fFill.isNone && c.sigs.isEmpty then
      some (put { c with launch := none })
    else none
  | i => if !isVector i then some s else if c.qv.length < 32 then some (put { c with qv := c.qv ++ [i] }) else none
/-- The same, the vector unit working on through at most n instructions of its queue while dispatch waits. -/
def whileStalled (i : Instr) (k : Nat) : Nat → State → Option State
  | 0, s => tryDispatch i k s
  | n + 1, s =>
    match tryDispatch i k s with
    | some t => some t
    | none => whileStalled i k n (vHead k s)
/-- What follows a dispatch: everything that can start does, and the vector unit goes on for a while. -/
def afterDispatch (k : Nat) (s : State) : State := vAdvance k (kick k (onUnits (modCore k (advPc 0)) s))
/-- An instruction is dispatched, or stalls dispatch. While one stalls, no other is dispatched. DESIGN CHOICE, log 69.
DESIGN CHOICE, log 224. -/
def dispatch (i : Instr) (id : CoreId) (s : State) : State :=
  let k := coreKey id
  let n := (coreAt s.u k).qv.length
  if !coreLive s.asm s.u id ∨ (coreAt s.u k).stalled.any (fun j => j != i) then s
  else match whileStalled i k n s with
    | none => onUnits (modCore k (fun c => { c with stalled := some i })) (vRun k n s)
    | some t => afterDispatch k t
/-- The instruction that stalls a core is tried again. DESIGN CHOICE, log 69. -/
def retry (k : Nat) (s : State) : State :=
  match (coreAt s.u k).stalled with
  | none => s
  | some i =>
    match tryDispatch i k s with
    | none => s
    | some t => afterDispatch k t
/-- What follows a completion on a core: starts, and the stalled instruction. DESIGN CHOICE, log 69. -/
def settle (k : Nat) (s : State) : State := retry k (vAdvance k (kick k s))
/-- An instruction of the sequencer itself that never stalls: f is its effect. -/
def dispatchNow (id : CoreId) (f : State → State) (s : State) : State :=
  let k := coreKey id
  if !coreLive s.asm s.u id ∨ (coreAt s.u k).stalled.isSome then s
  else onUnits (modCore k (advPc 0)) (f s)
/-- The same for an instruction that changes its core alone. DESIGN CHOICE, log 68. -/
def dispatchCore (id : CoreId) (f : CoreSt → CoreSt) (s : State) : State :=
  dispatchNow id (onUnits (modCore (coreKey id) f)) s

/-- Slot and generation part of a handle (R13). -/
def handleSlot (h : Nat) : Nat := h % 4096
/-- A launch ends in an abort (R151): queued work that has not started is dropped; what executes (fills, passes, the DM and the
MQ that have started, a SIG that has left) completes without its flag; its streams have no token in this tick, and the slot's
semaphores return to 0 at the next edge. DEDUCED, log 73. -/
def abortLaunch (k : Nat) (u : Units) : Units :=
  let c := coreAt u k
  match c.launch with
  | none => u
  | some l =>
    let dm (q : List DOp) : List DOp := if c.dStarted then
        (q.take 1).map (fun x => match x with | .dm a n _ => .dm a n none | x => x) else []
    let c' := { c with
      launch := none, stalled := none, loops := []
      qq := if c.qFill.isSome then c.qq.take 1 else [], qf := if c.fFill.isSome then c.qf.take 1 else []
      qm := [], qv := [], qd := dm c.qd, qh := if c.hOut = 0 then [] else (c.qh.take 1).map (fun op => { op with flag := none })
      qFill := c.qFill.map (fun f => { f with flag := none }), fFill := c.fFill.map (fun f => { f with flag := none })
      passes := c.passes.map (fun p => { p with flag := none }), sigs := c.sigs.filter (fun g => g.dms == 0), flags := [] }
    let u := setCore k c' u
    let u := { u with semClear := if u.semClear.contains l.slot then u.semClear else u.semClear ++ [l.slot] }
    forAll l.streams (fun h u => { u with str := tupd u.str (handleSlot h) (fun x => { x with noSample := true }) }) u
/-- A poisoned scalar in control flow: the launch is poisoned and ends (R421). DEDUCED, log 74. -/
def poisonAbort (k : Nat) (u : Units) : Units := abortLaunch k (poisonLaunch k u)

/- Scalars and control flow (R129, R130). -/
/-- A scalar register. -/
def sreg (c : CoreSt) (r : Nat) : W64 := tgetD c.s r 0
/-- A scalar register written, with its poison. -/
def setS (r : Nat) (v : W64) (poison : Bool) (c : CoreSt) : CoreSt :=
  { c with s := tset c.s r v
           spois := if poison then (if c.spois.contains r then c.spois else c.spois ++ [r]) else c.spois.filter (· != r) }
/-- The result of a scalar operation (R129). A right shift brings in zeros; a compare is of unsigned values and gives 1 or 0:
DESIGN CHOICE, log 225. A shift by 64 or more has no stated result: DESIGN CHOICE, log 7. -/
def scalarAlu (op : SOp) (a b : W64) : W64 :=
  match op with
  | .add => a + b
  | .sub => a - b
  | .shl => if b.toNat < 64 then a <<< b.toNat else Config.farShift 0 a b
  | .shr => if b.toNat < 64 then a >>> b.toNat else Config.farShift 1 a b
  | .and => a &&& b
  | .or => a ||| b
  | .mul => a * b
  | .cmpEq => if a = b then 1 else 0
  | .cmpLt => if a < b then 1 else 0
/-- SCALAR_OP (R129). -/
def execScalarOp (c : CoreId) (op : SOp) (rd ra rb : Fin 16) (s : State) : Res :=
  .next (dispatchCore c (fun x =>
    setS rd (scalarAlu op (sreg x ra) (sreg x rb)) (x.spois.contains ra.val || x.spois.contains rb.val) x) s)
/-- SCALAR_LOAD (R129): 8 bytes of core SRAM. -/
def execScalarLoad (c : CoreId) (rd ra : Fin 16) (off : Nat) (s : State) : Res :=
  let k := coreKey c
  let x := coreAt s.u k
  let addr := (sreg x ra).toNat + off
  let v := BitVec.ofNat 64 (leVal (sramRead s k addr 8))
  .next (dispatchCore c (setS rd v (sramPois s k addr 8 || x.spois.contains ra.val)) s)
/-- LOOP (R130). DESIGN CHOICE, log 72. -/
def loopOp (k : Nat) (rs : Nat) (bound len : Nat) (u : Units) : Units :=
  let c := coreAt u k
  let n := (sreg c rs).toNat
  if c.spois.contains rs then poisonAbort k u
  else
    let cut := decide (bound < n)
    let go := min n bound
    let start := c.pc + 1
    let c := { c with stalled := none, launch := c.launch.map (fun l => { l with truncated := l.truncated || cut }) }
    let c := if go = 0 ∨ len = 0 then advPc len c
      else { c with pc := start, loops := { start := start, stop := start + len, left := go - 1 } :: c.loops }
    let u := setCore k c u
    if cut then notice (dieKey 0 (k / 16)) 0x0301 0 [coreLoc u k, entryOf u k] (dieBump (dieKey 0 (k / 16)) 0x35 1 u) else u
/-- Whether an instruction of a core may be dispatched. -/
def mayDispatch (s : State) (c : CoreId) : Bool := coreLive s.asm s.u c && (coreAt s.u (coreKey c)).stalled.isNone
/-- LOOP (R130). -/
def execLoop (c : CoreId) (rs : Fin 16) (bound len : Nat) (s : State) : Res :=
  if mayDispatch s c then onU (loopOp (coreKey c) rs bound len) s else .next s
/-- BR (R130): forward. -/
def brOp (k : Nat) (cond : SCond) (rs : Nat) (off : Nat) (u : Units) : Units :=
  let c := coreAt u k
  if c.spois.contains rs then poisonAbort k u
  else
    let z := sreg c rs == 0
    let taken := match cond with | .zero => z | .nonzero => !z
    setCore k (advPc (if taken then off else 0) c) u
/-- BR (R130). -/
def execBr (c : CoreId) (cond : SCond) (rs : Fin 16) (off : Nat) (s : State) : Res :=
  if mayDispatch s c then onU (brOp (coreKey c) cond rs off) s else .next s
/-- TICKNUM (R149). -/
def execTicknum (c : CoreId) (rd : Fin 16) (s : State) : Res :=
  .next (dispatchCore c (setS rd (BitVec.ofNat 64 s.u.tick.number) false) s)
/-- WAIT (R128). -/
def execWait (c : CoreId) (f : Fin 32) (n : Nat) (s : State) : Res := .next (dispatch (.wait c f n) c s)
/-- MARK (R149). -/
def execMark (c : CoreId) (m : Fin 6) (s : State) : Res := .next (dispatch (.mark c m) c s)
/-- DMs that a queue D holds. -/
def dmsIn (q : List DOp) : Nat := (q.filter (fun d => match d with | .dm _ _ _ => true | .fence _ => false)).length
/-- SIG (R150): it leaves once the DMs before it have completed. -/
def execSig (c : CoreId) (die : Fin 26) (idx : Fin 64) (n : Nat) (s : State) : Res :=
  .next (dispatchCore c (fun x =>
    { x with sigs := x.sigs ++ [{ die := die, idx := idx, n := n, dms := dmsIn x.qd }] }) s)
/-- Cores of an engine die. -/
def dieCores (die : Nat) : List Nat := fromN (die * 16) 16
/-- SIG_LAND (R150): the oldest SIG that has left lands; a semaphore saturates at 65,535, with a notice when the addition
reaches it. DESIGN CHOICE, log 226. -/
def sigLand (k : Nat) (s : State) : State :=
  let c := coreAt s.u k
  match c.sigs.find? (fun g => g.dms == 0) with
  | none => s
  | some g =>
    let key := g.die * 64 + g.idx
    let v := tgetD s.u.sem key 0 + g.n
    let u := setCore k { c with sigs := c.sigs.erase g } { s.u with sem := tset s.u.sem key (min 65535 v) }
    let u := dieBump (dieKey 0 (k / 16)) 0x3F 1 u
    let u := if 65535 ≤ v then notice (dieKey 0 g.die) 0x0305 0 [g.die, g.idx] u else u
    (k :: dieCores g.die).foldl (fun s j => retry j s) { s with u := u }
/-- SIG_LAND (R150). -/
def execSigLand (c : CoreId) (s : State) : Res := .next (if corePresent s.asm s.u c then sigLand (coreKey c) s else s)
/-- SWAIT (R150). -/
def execSwait (c : CoreId) (idx : Fin 64) (n : Nat) (s : State) : Res := .next (dispatch (.swait c idx n) c s)
/-- END (R151). -/
def execEndLaunch (c : CoreId) (s : State) : Res := .next (dispatch (.endLaunch c) c s)

/- Rows, passes and DMA (R132 to R135, R143 to R145). -/
/-- QZ (R132). -/
def execQz (c : CoreId) (op : QzOp) (s : State) : Res := .next (dispatch (.qz c op) c s)
/-- CF (R133). -/
def execCf (c : CoreId) (op : CfOp) (s : State) : Res := .next (dispatch (.cf c op) c s)
/-- BUFFER_READY (R133). DEDUCED, log 81. -/
def bufferReady (k : Nat) (isQ : Bool) (s : State) : State :=
  let c := coreAt s.u k
  match (if isQ then c.qFill else c.fFill) with
  | none => s
  | some f =>
    let c := fillEnd f c
    let c := if isQ then { c with qFill := none, qq := c.qq.drop 1 } else { c with fFill := none, qf := c.qf.drop 1 }
    settle k { s with u := setCore k c s.u }
/-- BUFFER_READY (R133). -/
def execBufferReady (c : CoreId) (isQ : Bool) (s : State) : Res :=
  .next (if corePresent s.asm s.u c then bufferReady (coreKey c) isQ s else s)
/-- MX (R134). -/
def execMx (c : CoreId) (op : MxOp) (s : State) : Res := .next (dispatch (.mx c op) c s)
/-- MX_PASS_DONE (R109, R128). -/
def execMxPassDone (c : CoreId) (s : State) : Res :=
  .next (if corePresent s.asm s.u c then settle (coreKey c) (passEnd (coreKey c) s) else s)
/-- DM (R143). DEDUCED, log 74. -/
def execDm (c : CoreId) (list count : Nat) (flag : Option (Fin 32)) (s : State) : Res :=
  if mayDispatch s c ∧ sramPois s (coreKey c) list (32 * min count 64) then onU (poisonAbort (coreKey c)) s
  else .next (dispatch (.dm c list count flag) c s)
/-- DMA_DONE (R143). -/
def execDmaDone (c : CoreId) (s : State) : Res :=
  .next (if corePresent s.asm s.u c then settle (coreKey c) (dmaEnd (coreKey c) s) else s)
/-- DM.FENCE (R145). -/
def execDmFence (c : FenceOp) (s : State) : Res := .next (dispatch (.dmFence c) c.core s)
/-- MQ (R147, R186). DEDUCED, log 79. -/
def execMq (c : CoreId) (op : MqOp) (s : State) : Res := .next (dispatch (.mq c op) c s)

/- Vector instructions (R136 to R142): each joins queue V. -/
/-- VECTOR_LOAD (R136). -/
def execVectorLoad (c : CoreId) (vd : VDst) (addr : Nat) (s : State) : Res :=
  .next (dispatch (.vectorLoad c vd addr) c s)
/-- VECTOR_STORE (R128, R421). -/
def execVectorStore (c : CoreId) (vs : Fin 64) (addr n : Nat) (flag : Option (Fin 32)) (s : State) : Res :=
  .next (dispatch (.vectorStore c vs addr n flag) c s)
/-- VECTOR_ARITH (R137, R142). -/
def execVectorArith (c : CoreId) (op : VOp) (fmt : VFmt) (vd : VDst) (va vb vc : Fin 64) (s : State) : Res :=
  .next (dispatch (.vectorArith c op fmt vd va vb vc) c s)
/-- VECTOR_TRANSCENDENTAL (R138). -/
def execVectorTranscendental (c : CoreId) (g : VFun) (fmt : VFmt) (vd : VDst) (va : Fin 64) (s : State) : Res :=
  .next (dispatch (.vectorTranscendental c g fmt vd va) c s)
/-- VECTOR_SUM_REDUCE (R139). -/
def execVectorSumReduce (c : CoreId) (fmt : VFmt) (vd : VDst) (va : Fin 64) (n : Nat) (s : State) : Res :=
  .next (dispatch (.vectorSumReduce c fmt vd va n) c s)
/-- VECTOR_MAX_REDUCE (R140). -/
def execVectorMaxReduce (c : CoreId) (fmt : VFmt) (isMin : Bool) (vd : VDst) (va : Fin 64) (n : Nat) (s : State) : Res :=
  .next (dispatch (.vectorMaxReduce c fmt isMin vd va n) c s)
/-- VTOP (R141). -/
def execVtop (c : CoreId) (fmt : VFmt) (vd : VDst) (va : Fin 64) (n k : Nat) (s : State) : Res :=
  .next (dispatch (.vtop c fmt vd va n k) c s)
/-- VDOT8 (R142). -/
def execVdot8 (c : CoreId) (vd : VDst) (va vb : Fin 64) (s : State) : Res :=
  .next (dispatch (.vdot8 c vd va vb) c s)
/-- VWIDE (R142). -/
def execVwide (c : CoreId) (vd : VDst) (va : Fin 64) (s : State) : Res := .next (dispatch (.vwide c vd va) c s)
/-- VECTOR_CONVERT (R142). -/
def execVectorConvert (c : CoreId) (src dst : VFmt) (vd : VDst) (va : Fin 64) (s : State) : Res :=
  .next (dispatch (.vectorConvert c src dst vd va) c s)

end Sys2Proof.Machine
end

