-- ==== Sys2Proof/Machine/Sweep.lean ====
section
/-! DEFINITION. Sweeps over streams and jobs (06, R176 to R192): keys, the detokeniser, the sweep of one token, replay,
continuation lists; and the MQ of a core. -/
namespace Sys2Proof.Machine

/-- A token of a history, T0 first; the pad beyond its end. -/
def histTok (m : MState) (k : Nat) : Nat := m.toks.getD k padTok
/-- TOKEN key (R176). -/
def tokenKey (m : MState) : Nat := ((List.range 8).map (fun k => histTok m k * 2 ^ (20 * k))).sum
/-- BYTE key (R177). -/
def byteKey (source : Nat) (m : MState) : Nat :=
  let n := min 16 m.bytes.length
  source * 2 ^ 144 + (2 ^ n - 1) * 2 ^ 128 + ((List.range n).map (fun k => m.bytes.getD k 0 * 2 ^ (8 * k))).sum
/-- TRANS key (R178). -/
def transKey (gen : Bool) (group cls st : Nat) : Nat := b2n gen * 2 ^ 38 + group * 2 ^ 26 + cls * 2 ^ 18 + st
/-- CONT key (R179). -/
def contKey (gen : Bool) (set : Nat) (m : MState) : Nat :=
  b2n gen * 2 ^ 152 + set * 2 ^ 140 + ((List.range 7).map (fun k => histTok m k * 2 ^ (20 * k))).sum
/-- The bytes a token gives the sweeps (R180, R181). -/
def detok (m : Match) (t : Nat) : List Nat :=
  if m.ntok ≤ t then []
  else
    let w := tgetD m.vocIdx t 0
    if bitAt w 0 then [] else (mread m.pool (bitsOf w 31 10) (bitsOf w 9 4)).map (·.toNat)
/-- State of a group in a match state; START where the state has none. -/
def autoState (u : Units) (m : MState) (g : Nat) : Nat :=
  match m.autos.find? (fun a => a.1 == g) with
  | some a => a.2
  | none => (descAt u false g).start
/-- A match state with a group's state set. -/
def setAuto (g st : Nat) (m : MState) : MState :=
  { m with autos := if m.autos.any (fun a => a.1 == g) then m.autos.map (fun a => if a.1 = g then (g, st) else a)
                    else m.autos ++ [(g, st)] }
/-- A match state as the gate die keeps it for a stream (R190): the profiles of a policy record, and the generations that its
automata and its continuation set stand at. -/
def pinState (u : Units) (pol : Bytes) (m : MState) : MState :=
  { m with profs := [le pol 8 2, le pol 10 2, le pol 12 2, le pol 6 2]
           pins := m.autos.foldl (fun t a => tset t a.1 (descAt u false a.1).gen) []
           setPin := (descAt u true (le (profAt u (le pol 6 2)) 10 2 % 4096)).gen }
/-- The groups of a match state that are pinned to a generation no longer active. -/
def staleGroups (u : Units) (m : MState) : List Nat :=
  (m.pins.filter (fun x => (descAt u false x.1).gen != x.2)).map (·.1)
/-- A match state at the start of an answer or a segment (R192): every group of a TRANS profile at START. -/
def freshState (u : Units) (trans : Bytes) : MState :=
  { toks := List.replicate 8 padTok, autos := (profGroups trans).map (fun g => (g, (descAt u false g).start)) }

/-- What a sweep has gathered. -/
structure Sweep where
  ms : MState := {}
  hits : List Hit := []
  poison : Bool := false
/-- Whom a sweep is for: profiles of the three modes, source, segment, token position, merging die. -/
structure SweepFor where
  tok : Bytes := []
  byte : Bytes := []
  trans : Bytes := []
  source : Nat := 0
  seg : Nat := 0
  pos : Nat := 0
  die : Nat := 0
/-- One key of a sweep, searched on a profile of its mode; act: the action a hit reports, if any. -/
def sweepKey (f : SweepFor) (p : Bytes) (mode key : Nat) (act : SRes → Option Nat) (x : Sweep × Units) :
    SRes × Sweep × Units :=
  let r := searchU f.die mode (profBanks p) key x.2
  let s := { x.1 with poison := x.1.poison || r.1.poison }
  let s := match (if r.1.hit then act r.1 else none) with
    | some a => { s with hits := s.hits ++ [{ seg := f.seg, pos := f.pos, action := a, addr := r.1.addr, count := r.1.count }] }
    | none => s
  (r.1, s, r.2)
/-- The step of one group on one byte (R178). -/
def sweepGroup (f : SweepFor) (b : Nat) (x : Sweep × Units) (g : Nat) : Sweep × Units :=
  let d := descAt x.2 false g
  let cls := le d.classMap b 1
  let r := sweepKey f f.trans 2 (transKey d.gen g cls (autoState x.2 x.1.ms g))
    (fun r => if bitAt r.action 18 then some d.accept else none) x
  let u := if r.1.hit then r.2.2
    else dieBump (dieKey 1 f.die) 0x128 1 { r.2.2 with mat := { r.2.2.mat with misses := r.2.2.mat.misses + 1 } }
  ({ r.2.1 with ms := setAuto g (if r.1.hit then r.1.action % 2 ^ 18 else d.start) r.2.1.ms }, u)
/-- One byte: its BYTE key, then a TRANS key for each group (R189). -/
def sweepByte (f : SweepFor) (x : Sweep × Units) (b : Nat) : Sweep × Units :=
  let x := ({ x.1 with ms := { x.1.ms with bytes := (b :: x.1.ms.bytes).take 32 } }, x.2)
  let x := if profBanks f.byte = 0 then x
    else (sweepKey f f.byte 1 (byteKey f.source x.1.ms) (fun r => some r.action) x).2
  (if profBanks f.trans = 0 then [] else profGroups f.trans).foldl (sweepGroup f b) x
/-- The sweep of one token (R189). -/
def sweepToken (f : SweepFor) (t : Nat) (x : Sweep × Units) : Sweep × Units :=
  let x := ({ x.1 with ms := { x.1.ms with toks := (t :: x.1.ms.toks).take 8 } }, x.2)
  let x := if profBanks f.tok = 0 then x else (sweepKey f f.tok 0 (tokenKey x.1.ms) (fun r => some r.action) x).2
  (detok x.2.mat t).foldl (sweepByte f) x

/-- The policy record in effect for a number. DEDUCED, log 162. -/
def polCur (u : Units) (p : Nat) : Bytes := match (tgetD u.pol p {}).cur with | some (r, _) => r | none => []
/-- A profile a policy record names at an offset; none named reads as no profile. -/
def polProf (u : Units) (pol : Bytes) (off : Nat) : Bytes :=
  if pol.isEmpty ∨ le pol off 2 = 0xFFFF then [] else profAt u (le pol off 2)
/-- Gate die that owns a stream slot (R25). -/
def slotDie (n : Nat) : Nat := n % 2
/-- The sweep of a stream's token at a position under the policy in effect. -/
def streamSweep (u : Units) (n : Nat) (s : Str) (pos : Nat) : SweepFor :=
  let p := polCur u s.policy
  { tok := polProf u p 8, byte := polProf u p 10, trans := polProf u p 12, pos := pos, die := slotDie n }

/-- Banned next tokens of a stream for a step (R179, R188); none where the result is poisoned. -/
def contSearch (n : Nat) (u : Units) : Option (List Nat) × Units :=
  let s := tgetD u.str n {}
  let p := polProf u (polCur u s.policy) 6
  if profBanks p = 0 then (some [], u)
  else
    let set := le p 10 2 % 4096
    let r := searchU (slotDie n) 3 (profBanks p) (contKey (descAt u true set).gen set s.ms) u
    if r.1.poison then (none, r.2)
    else if !r.1.hit then (some [], r.2)
    else
      let a := actionAt u r.1.action
      if actKind a = 5 then (some (banTokens u a), r.2)
      else (some [], noticeLimited (dieKey 1 (slotDie n)) 0x0402 0 0 [r.1.addr]
        (dieBump (dieKey 1 (slotDie n)) 0x127 1 r.2))

/-- A group's state rebuilt from a byte history, oldest byte first, with no hit reported (R199). -/
def replayGroup (die : Nat) (trans : Bytes) (g : Nat) (m : MState) (u : Units) : MState × Units :=
  let start := setAuto g (descAt u false g).start m
  let r := m.bytes.reverse.foldl (fun x b => sweepGroup { trans := trans, die := die } b x g)
    (({ ms := start } : Sweep), u)
  (r.1.ms, r.2)
/-- The groups of a match state brought to a TRANS profile (R511, R199): those it does not name are dropped, those the state
lacks, or holds of another generation, are replayed. -/
def replayTo (die : Nat) (trans : Bytes) (m : MState) (u : Units) : MState × Units :=
  let gs := profGroups trans
  let again := staleGroups u m
  let m := { m with autos := m.autos.filter (fun a => gs.contains a.1) }
  (gs.filter (fun g => again.contains g || !m.autos.any (fun a => a.1 == g))).foldl
    (fun x g => replayGroup die trans g x.1 x.2) (m, u)
/-- AUTOMATON_REPLAY (R199, R511): the groups of a stream that wait. -/
def automatonReplay (n : Nat) (u : Units) : Units :=
  let gs := (u.mat.replay.filter (fun x => x.1 == n)).map (·.2)
  match tget u.str n with
  | none => u
  | some s =>
    if gs.isEmpty then u
    else
      let t := ansTrans u s
      let r := (gs.filter (profGroups t).contains).foldl (fun x g => replayGroup (slotDie n) t g x.1 x.2) (s.ms, u)
      { r.2 with
        str := tset r.2.str n { s with ms := r.1 }
        mat := { r.2.mat with replay := r.2.mat.replay.filter (fun x => x.1 != n) } }
/-- AUTOMATON_REPLAY (R199). -/
def execAutomatonReplay (n : Fin 4096) (s : State) : Res := onU (automatonReplay n) s

/- MQ (R147, R148, R186, R187). -/
/-- One key of an MQ and its record. DEDUCED, log 79. DEDUCED, log 80. -/
def mqKey (k : Nat) (op : MqOp) (i : Nat) (s : State) : State :=
  let src := op.src + 32 * i
  let b := sramRead s k src 32
  let dirty := sramPois s k src 32
  let mode := if op.byteForm then 1 else 0
  let key := leVal (b.take 20)
  let r := if allZero (b.drop 20) then searchU 0 mode (profBanks (profAt s.u op.profile)) key s.u
    else ({ poison := true }, s.u)
  outWrite k (op.dst + 8 * i) (le8 (recWord { r.1 with poison := r.1.poison || dirty })) dirty { s with u := r.2 }
/-- The MQs of a slot's cores that wait for a credit take those that are free (R186). -/
def wakeMq (slot : Nat) (u : Units) : Units :=
  forAll (tkeys u.core) (fun k u => if (coreAt u k).slot == some slot then startH k u else u) u
/-- MQ_RESULT (R128, R147, R148, R186): the records of the MQ at the head of queue H are in SRAM, its credits return, and its
flag counts. An MQ that has issued no key for want of a credit has no result yet. DESIGN CHOICE, log 78. -/
def mqResult (k : Nat) (s : State) : State :=
  match (coreAt s.u k).qh with
  | [] => s
  | op :: rest =>
    let n := min op.count 256
    let slot := (coreAt s.u k).slot.getD 0xFF
    let listed := (slotProfiles s.u slot).contains op.profile
    if listed ∧ (coreAt s.u k).hOut = 0 ∧ n ≠ 0 then s
    else
    let s :=
      if listed then
        onUnits (dieBump (dieKey 0 (k / 16)) 0x3E n) ((List.range n).foldl (fun s i => mqKey k op i s) s)
      else
        onUnits (notice (dieKey 0 (k / 16)) 0x0304 0 [coreLoc s.u k, op.profile])
          (outWrite k op.dst ((List.replicate n (le8 (recWord { poison := true }))).flatten) true s)
    onUnits (wakeMq slot) (settle k (onUnits (modCore k (fun c => flagInc op.flag { c with qh := rest, hOut := 0 })) s))
/-- MQ_RESULT (R128). -/
def execMqResult (c : CoreId) (s : State) : Res :=
  .next (if corePresent s.asm s.u c then mqResult (coreKey c) s else s)

end Sys2Proof.Machine
end

