-- ==== Sys2Proof/Machine/Image.lean ====
section
/-! DEFINITION. Model images (05, R156 to R164): header, sections, the load checks, an engine's weights. -/
namespace Sys2Proof.Machine

/-- A section table entry (R157). -/
structure Sec where
  type : Nat
  engine : Nat
  core : Nat
  off : Nat
  len : Nat
  rsvd : Bool
deriving DecidableEq, Repr
/-- KIND of an image. -/
def imgKind (m : Memory) : Nat := mle m 6 1
/-- NCORE of an image. -/
def imgNcore (m : Memory) : Nat := mle m 8 2
/-- VOCAB of an image. -/
def imgVocab (m : Memory) : Nat := mle m 28 4
/-- HIDDEN of an image. -/
def imgHidden (m : Memory) : Nat := mle m 24 4
/-- HEAD_OUT_MAX of an image. -/
def imgOutMax (m : Memory) : Nat := mle m 32 2
/-- The sections of an image (R157). NSEC beyond the image's bytes names nothing. -/
def imgSecs (m : Memory) (len : Nat) : List Sec :=
  (List.range (min (mle m 12 4) (len / 32))).map (fun k =>
    let o := 128 + 32 * k
    { type := mle m o 1, engine := mle m (o + 1) 1, core := mle m (o + 2) 2, off := mle m (o + 8) 8, len := mle m (o + 16) 8
      rsvd := mle m (o + 4) 4 != 0 || mle m (o + 24) 8 != 0 })
/-- A section of a type for a core and an engine. -/
def secFind (l : List Sec) (type core engine : Nat) : Option Sec :=
  l.find? (fun x => x.type == type && x.core == core && x.engine == engine)
/-- Whether a section's scope fits its type (R157). -/
def secScope (ncore : Nat) (x : Sec) : Bool :=
  match x.type with
  | 1 => x.engine == 0xFF && decide (x.core < ncore)
  | 2 => decide (x.engine < 16) && decide (x.core < ncore)
  | 3 => decide (x.engine < 16) && decide (x.core < ncore)
  | 4 => x.engine == 0xFF && decide (x.core < ncore)
  | 5 => x.engine == 0xFF && decide (x.core < ncore)
  | _ => x.engine == 0xFF && x.core == 0xFFFF
/-- Whether a section's length fits its type (R157); an instruction store that is too long has a reason of its own. -/
def secLen (m : Memory) (x : Sec) : Bool :=
  match x.type with
  | 1 => x.len % 16 == 0
  | 2 => x.len == 2097216
  | 3 => x.len == 4096
  | 4 => decide (64 ≤ x.len)
  | 5 => x.len == 16 * mle m 10 2
  | 6 => x.len == 64 + 8 * mle m 34 2
  | 7 => x.len == 256
  | 8 => true
  | 9 => x.len == 64
  | _ => false
/-- Whether two runs of bytes overlap. -/
def overlap (a n b k : Nat) : Bool := decide (a < b + k) && decide (b < a + n) && decide (0 < n) && decide (0 < k)
/-- Whether any section overlaps a later one. -/
def anyOverlap : List Sec → Bool
  | [] => false
  | x :: l => l.any (fun y => overlap x.off x.len y.off y.len || (x.type == y.type && x.core == y.core && x.engine == y.engine))
      || anyOverlap l
/-- Whether the cells of a range of an image are all 0. -/
def zeroRange (m : Memory) (a n : Nat) : Bool := !m.any (fun c => a ≤ c.1 && c.1 < a + n)
/-- The header is out of range (reason 0x03). -/
def headerBad (a : Asm) (m : Memory) (len : Nat) : Bool :=
  let head := imgKind m == 1
  decide (1 < imgKind m) || mle m 7 1 != 0 || imgNcore m == 0 || decide (384 < imgNcore m) || mle m 10 2 == 0
    || decide (256 < mle m 10 2) || decide (len < mle m 16 8) || decide (mle m 16 8 < 128)
    || (!head && (imgHidden m != 0 || imgVocab m != 0 || imgOutMax m != 0))
    || decide (64 * min (imgNcore m) (engineDies a) < mle m 34 2) || !zeroRange m 96 32
/-- The sections are out of order (reason 0x04). -/
def sectionsBad (m : Memory) (l : List Sec) : Bool :=
  let n := mle m 16 8
  let table := 128 + 32 * mle m 12 4
  decide (n < table) || anyOverlap l || l.any (fun x =>
    decide (n < x.off + x.len) || x.off % 64 != 0 || decide (x.off < table) || !secLen m x || !secScope (imgNcore m) x
      || x.type == 0 || decide (9 < x.type))
/-- Whether an engine's cells hold an invalid code (reason 0x06). -/
def cellsBad (m : Memory) (x : Sec) : Bool :=
  match WFmt.ofCode (mle m x.off 1) with
  | none => false
  | some f => m.any (fun c => x.off + 64 ≤ c.1 && c.1 < x.off + x.len
      && (f.badCell (c.2.toNat % 16) || f.badCell (c.2.toNat / 16)))
/-- Whether a section has a reserved field that is not 0 (reason 0x07). -/
def secRsvd (m : Memory) (x : Sec) : Bool :=
  x.rsvd ||
  (match x.type with
   | 2 => !zeroRange m (x.off + 4) 60
   | 3 => m.any (fun c => x.off ≤ c.1 && c.1 < x.off + x.len &&
       (let b := (c.1 - x.off) % 8; decide (3 ≤ b) || (b == 2 && decide (64 ≤ c.2.toNat))))
   | 4 => !zeroRange m (x.off + 8) 56
   | 5 => m.any (fun c => x.off ≤ c.1 && c.1 < x.off + x.len &&
       (let b := (c.1 - x.off) % 16; b == 3 || decide (8 ≤ b) || (b == 2 && decide (4 ≤ c.2.toNat))))
   | _ => false)
/-- Bytes of a core's instruction store. -/
def storeLen (l : List Sec) (core : Nat) : Nat := match secFind l 1 core 0xFF with | some x => x.len | none => 0
/-- The geometry of an engine's weights (reason 0x0D). DEDUCED, log 82. -/
def weightsBad (m : Memory) (x : Sec) : Bool :=
  x.type == 2 &&
    (let g := mle m (x.off + 2) 1
     let am := mle m (x.off + 1) 1
     !(g == 1 || g == 2 || g == 4 || g == 8 || g == 16) || am % 16 == 0 || decide (16 ≤ am)
       || (match WFmt.ofCode (mle m x.off 1) with | some f => f.twoBit && am == 1 | none => true))
/-- The geometry of a terminal head (reason 0x0C). -/
def headBad (m : Memory) (l : List Sec) : Bool :=
  imgKind m == 1 &&
    (imgVocab m != 4096 * imgNcore m || imgHidden m % 256 != 0 || decide (min (imgHidden m / 50) 327 < imgOutMax m)
      || l.any (fun x => x.type == 2 && (match WFmt.ofCode (mle m x.off 1) with | some f => f.twoBit | none => false)))
/-- Whether SRAM initial data lies outside a core or over the record ring (reason 0x0B). -/
def dataBad (m : Memory) (x : Sec) : Bool :=
  x.type == 4 && decide ((if imgKind m = 1 then 65536 else sramBytes) < mle m x.off 8 + (x.len - 64))
/-- The digest of the contents of an image (R156): SHA-384 over IMG_LEN bytes, as far as they were loaded, with bytes 48 to 95
taken as 0. -/
def imgDigest (m : Memory) (len : Nat) : Bytes :=
  let n := min (mle m 16 8) len
  sha384 (mread m 0 (min n 48) ++ List.replicate (min (n - 48) 48) 0 ++ mread m 96 (n - 96))
/-- The reasons for which a load is refused before placement (R164); room: free bytes of tier 1. -/
def imageReasons (a : Asm) (m : Memory) (len room : Nat) (digest : Bytes) : List Nat :=
  let l := imgSecs m len
  let cores := List.range (imgNcore m)
  let t (b : Bool) (r : Nat) : List Nat := if b then [r] else []
  t (mread m 48 48 != digest || imgDigest m len != digest) 1 ++
  if mle m 0 4 ≠ 0x5A484D49 ∨ mle m 4 2 ≠ 3 then [2]
  else if headerBad a m len then [3]
  else
    t (sectionsBad m l) 4
      ++ t (l.any (fun x => x.type == 2 && cellsBad m x)) 6 ++ t (l.any (secRsvd m)) 7
      ++ t (l.any (fun x => x.type == 1 && decide (65536 < x.len)) || l.any (fun x => x.type == 5 &&
          (List.range (mle m 10 2)).any (fun k => decide (storeLen l x.core ≤ 16 * mle m (x.off + 16 * k) 2)))) 8
      ++ t (cores.any (fun c => (secFind l 5 c 0xFF).isNone) || l.any (fun x => x.type == 5 &&
          (List.range (mle m 10 2)).any (fun k => mle m (x.off + 16 * k + 4) 4 == 0))) 9
      ++ t (l.any (dataBad m)) 0x0B ++ t (headBad m l) 0x0C ++ t (l.any (weightsBad m)) 0x0D
      ++ t (decide (room < len)) 0x0F

/-- The rows of an engine's weight section (R159). -/
def secRows (m : Memory) (off : Nat) : Tbl Nat :=
  (m.filter (fun c => off + 64 ≤ c.1 && c.1 < off + 2097216)).foldl (fun t c =>
    let k := c.1 - off - 64
    tmod t (k / 128) 0 (fun r => r + c.2.toNat * 256 ^ (k % 128))) []
/-- One row of an engine in an image; 0 where the engine has no weight section. -/
def imgRow (m : Memory) (len core engine row : Nat) : Nat :=
  match secFind (imgSecs m len) 2 core engine with
  | some x => leVal (mread m (x.off + 64 + row * 128) 128)
  | none => 0
/-- An engine's weights as an image gives them to a logical core (R159, R160). -/
def imgWeights (m : Memory) (len core engine : Nat) : Weights :=
  let l := imgSecs m len
  let table := match secFind l 3 core engine with
    | some x => (m.filter (fun c => x.off ≤ c.1 && c.1 < x.off + x.len)).foldl (fun t c =>
        let k := c.1 - x.off
        tmod t (k / 8) {} (fun r =>
          match k % 8 with
          | 0 => { r with rm := r.rm + c.2.toNat }
          | 1 => { r with rm := r.rm + c.2.toNat * 256 }
          | 2 => { r with rs := c.2.toNat % 64 }
          | _ => r)) []
    | none => []
  match secFind l 2 core engine with
  | none => { table := table }
  | some x =>
    { wfmt := (WFmt.ofCode (mle m x.off 1)).getD .int4, afmtMask := mle m (x.off + 1) 1, groups := mle m (x.off + 2) 1
      rx := signed 8 (mle m (x.off + 3) 1), cells := secRows m x.off, table := table }
/-- The SRAM initial data of a logical core (R161): address and bytes. -/
def imgData (m : Memory) (len core : Nat) : Option (Nat × Bytes) :=
  (secFind (imgSecs m len) 4 core 0xFF).map (fun x => (mle m x.off 8, mread m (x.off + 64) (x.len - 64)))
/-- The interface declaration of an image; its fields are DESIGN CHOICE, log 12. Field 0 to 3: the bounds of tier 1, tier 2, a fabric
round trip and a match key; 4: bytes of state per token; 5: score outputs. -/
def imgIface (m : Memory) (len n : Nat) : Nat :=
  match secFind (imgSecs m len) 7 0xFFFF 0xFF with
  | some x => Config.ifaceField n (mread m x.off x.len)
  | none => Config.ifaceField n []
/-- The entry record of an entry on a logical core: START, FLAGS (R162). -/
def imgEntry (m : Memory) (len core entry : Nat) : Option (Nat × Nat × Nat) :=
  match secFind (imgSecs m len) 5 core 0xFF with
  | some x => if entry < mle m 10 2 then
      some (mle m (x.off + 16 * entry) 2, mle m (x.off + 16 * entry + 2) 1, mle m (x.off + 16 * entry + 4) 4) else none
  | none => none
/-- Whether an image has an entry that uses fabric windows. -/
def imgFabric (m : Memory) (len : Nat) : Bool :=
  (imgSecs m len).any (fun x => x.type == 5 && (List.range (mle m 10 2)).any (fun k => bitAt (mle m (x.off + 16 * k + 2) 1) 1))
/-- Cycles of one vector at a head's activation width (R22, R27): where its engines' masks permit several formats, a 4-bit
one counts before 8 bits, and 8 bits before 2. DESIGN CHOICE, log 214. -/
def headCycles (m : Memory) (len : Nat) : Nat :=
  let masks := ((imgSecs m len).filter (fun x => x.type == 2)).map (fun x => mle m (x.off + 1) 1)
  if masks.isEmpty ∨ masks.any (fun k => bitAt k 1 || bitAt k 2) then 128
  else if masks.any (fun k => bitAt k 0) then 256
  else 64

end Sys2Proof.Machine
end

