-- ==== Sys2Proof/Machine/Checks.lean ====
section
/-! DEFINITION. The enabling checks (15, R412 to R418): the block check, the context check, the re-check; and the layout of
tier 1 that they and the allocations share (09, R268; DESIGN CHOICE, log 28). -/
namespace Sys2Proof.Machine

/- Tier 1 (R268). -/
/-- Bytes of the regions whose size the manual fixes: match shadow, stream areas, pause directory. -/
def t1FixedBytes : Nat := 388 * 2 ^ 20
/-- Pages of the escape quota (R268). -/
def escapeQuota (a : Asm) : Nat := ceilDiv (tier1Bytes a / 65536) 100
/-- Tier-1 bytes ahead of the host-configured remainder (DESIGN CHOICE, log 28). -/
def t1Start (a : Asm) (t : Tiers) : Nat := t1FixedBytes + 65536 * (t.pageMain + escapeQuota a + t.jobPool)
/-- Ranges of the remainder in use: context areas, shadow copies, what tempering runs hold (R487, R495).
DESIGN CHOICE, log 28. -/
def t1Used (u : Units) : List (Nat × Nat) :=
  u.tier.areas.map (fun x => (x.2.1, 65536 * x.2.2))
    ++ (u.slot.filter (fun e => 0 < e.2.imgLen)).map (fun e => (e.2.base, e.2.imgLen))
    ++ u.temper.flatMap (fun r =>
      (if 0 < r.2.moments then [(r.2.base, r.2.moments)] else [])
        ++ (if r.2.ready.isSome then [(r.2.shadow, (tgetD u.slot r.2.slot {}).imgLen)] else []))
/-- Bytes in use of all of tier 1. -/
def t1Need (a : Asm) (u : Units) : Nat := t1Start a u.tier + ((t1Used u).map (fun r => 65536 * ceilDiv r.2 65536)).sum
/-- The lowest base at which n bytes fit in the remainder (DESIGN CHOICE, log 28). -/
def t1Fit (a : Asm) (u : Units) (n : Nat) : Option Nat :=
  let used := t1Used u
  let start := t1Start a u.tier
  let up (x : Nat) : Nat := 65536 * ceilDiv x 65536
  let cand := (start :: used.map (fun r => up (r.1 + r.2))).filter (fun b =>
    decide (start ≤ b) && decide (b + n ≤ tier1Bytes a) && !used.any (fun r => overlap b n r.1 r.2))
  cand.foldl (fun best b => match best with | some x => some (min x b) | none => some b) none
/-- Bytes of the remainder left free, for an image's shadow copy (R164). -/
def t1Room (a : Asm) (u : Units) : Nat := tier1Bytes a - t1Need a u

/- Block check (R412, R418). -/
/-- A reason with its argument, where it applies. -/
def reason (applies : Bool) (code arg : Nat) : List (Nat × Nat) := if applies then [(code, arg)] else []
/-- A role that is LOST. -/
def lostRole (u : Units) : Option Nat := (u.fw.roles.find? (fun r => r.2.state == 2)).map (·.1)
/-- The argument of reason 0x0104: the first neighbour at fault. -/
def topoFault (a : Asm) (f : Fabric) : Option Nat :=
  if f.groupId = 0 ∨ f.selfId = 0 then some 0xFFFF
  else (List.range f.nbrs.length).find? (fun k =>
    let n := f.nbrs.getD k {}
    n.id == 0 || n.id == f.selfId || (f.nbrs.take k).any (fun x => x.id == n.id) || decide (ioDies a ≤ n.xdie))
/-- Whether the time master is none that the block could reach (0x0105). DEDUCED, log 187. -/
def masterBad (f : Fabric) : Bool :=
  f.masterId == 0 || (f.masterId != f.selfId && !f.nbrs.any (fun n => n.id == f.masterId || n.kind == 2))
/-- The argument of reason 0x0107. -/
def phaseFault (t : Tick) : Option Nat :=
  let i2 := 2 * t.ingress + 2 * t.egress
  if t.period < 50 ∨ 2000 < t.period then some t.period
  else if t.ingress < 5 ∨ t.egress < 4 ∨ t.period < i2 + 8 then some (t.egress * 65536 + t.ingress)
  else none
/-- The link of reason 0x0109 (R460). DEDUCED, log 193. -/
def tier2Fault (a : Asm) (t : Tiers) : Option Nat :=
  let links := (List.range 12).filter (bitAt t.linkMask)
  let gran := 2 ^ 28 * links.length
  match links.find? (fun k => decide (nLinks a ≤ k) || t.linksOut.contains k) with
  | some k => some k
  | none =>
    if !(([1, 2, 3, 4, 6, 8, 12] : List Nat).contains links.length) then some 0
    else if t.pageBase % gran ≠ 0 ∨ t.pageLen % gran ≠ 0 ∨ t.stageBase % gran ≠ 0 ∨ t.stageLen % gran ≠ 0
        ∨ overlap t.pageBase t.pageLen t.stageBase t.stageLen then some (links.headD 0)
    else none
/-- The first window of a table that overlaps an earlier one in a space. -/
def winOverlap (f : Win → Nat) (same : Win → Win → Bool) : Tbl Win → Option Nat
  | [] => none
  | (_, w) :: l =>
    match l.find? (fun y => same w y.2 && overlap (f w) w.len (f y.2) y.2.len) with
    | some y => some y.1
    | none => winOverlap f same l
/-- The window of reason 0x010B. -/
def windowFault (t : Tiers) : Option Nat :=
  match winOverlap (·.loc) (fun x y => x.tier == y.tier) t.exports with
  | some w => some w
  | none =>
    match t.exports.find? (fun w => w.2.tier == 1 && overlap w.2.loc w.2.len 0 t1FixedBytes) with
    | some w => some w.1
    | none => winOverlap (·.base) (fun _ _ => true) t.imports
/-- The reasons of scope block that apply, in ascending code (R412, R418). DEDUCED, log 187. -/
def blockCheck (a : Asm) (u : Units) : List (Nat × Nat) :=
  let opt (c : Bool) (x : Option Nat) (code : Nat) : List (Nat × Nat) :=
    match x with | some k => reason c code k | none => []
  (if u.fw.stage ≠ 4 then [(0x0101, 0xFF)] else opt true (lostRole u) 0x0101)
    ++ reason u.blk.fatal 0x0102 u.blk.fatalCode
    ++ reason (!u.blk.topoOk) 0x0103 0
    ++ opt u.blk.topoOk (topoFault a u.fab) 0x0104
    ++ reason (u.blk.topoOk && masterBad u.fab) 0x0105 0
    ++ reason (u.blk.topoOk && u.tick.src == 2 && u.fab.masterId == u.fab.selfId) 0x0106 0
    ++ opt true (phaseFault u.tick) 0x0107
    ++ reason (!u.blk.vocabOk) 0x0108 0
    ++ opt true (tier2Fault a u.tier) 0x0109
    ++ reason (decide (tier1Bytes a < t1Need a u)) 0x010A (ceilDiv (t1Need a u - tier1Bytes a) 65536)
    ++ opt true (windowFault u.tier) 0x010B
    ++ reason (!u.blk.configOk) 0x010C 0

/- Context check (R414 to R418). -/
/-- Whether a slot is RESIDENT or IN_SERVICE. -/
def slotPlaced (u : Units) (n : Nat) : Bool :=
  match (tgetD u.slot n {}).st with | .resident => true | .inService => true | _ => false
/-- Whether a slot is in service. -/
def slotServing (u : Units) (n : Nat) : Bool := (tgetD u.slot n {}).st == .inService
/-- Image of a slot. -/
def slotImg (u : Units) (n : Nat) : Memory := (tgetD u.slot n {}).img
/-- The record a policy number holds once accepted changes are in effect; empty where it is not defined. -/
def polLast (u : Units) (p : Nat) : Bytes := (tgetD u.pol p {}).last
/-- The defined policies with their last accepted records. -/
def definedPols (u : Units) : List (Nat × Bytes) := (u.pol.filter (fun e => !e.2.last.isEmpty)).map (fun e => (e.1, e.2.last))
/-- Request slots of a policy record (R235). -/
def reqSlots (p : Bytes) : List Nat := ([le p 16 1, le p 17 1].filter (· != 0xFF)).eraseDups
/-- Answer slot of a policy record. DEDUCED, log 188. -/
def ansSlot (p : Bytes) : Option Nat := if p.isEmpty ∨ le p 18 1 = 0xFF then none else some (le p 18 1)
/-- A category entry of a policy record (R233). -/
structure Cat where
  cat : Nat
  src : Nat
  side : Nat
  out : Nat
  thresh : Nat
deriving DecidableEq, Repr
/-- The categories in use of a policy record. -/
def polCats (p : Bytes) : List Cat :=
  (List.range (min 16 (le p 26 1))).map (fun k =>
    let w := le p (32 + 16 * k) 2
    { cat := w % 4096, src := bitsOf w 13 12, side := bitsOf w 15 14, out := le p (34 + 16 * k) 1, thresh := le p (36 + 16 * k) 4 })
/-- Contexts that a check counts (R415): enabled, disabling, accepted, and the one under check. -/
def counted (u : Units) (ctx : Nat) : List Ctx :=
  (u.ctx.filter (fun e => e.1 == ctx || e.2.state == 2 || e.2.state == 3 || e.2.enableAt.isSome)).map (·.2)
/-- The first request or answer slot of a policy that reason 0x020E names. -/
def polSlotFault (u : Units) (p : Bytes) : Option Nat :=
  let slots := [(0, le p 16 1), (1, le p 17 1), (2, le p 18 1)].filter (fun s => s.2 != 0xFF)
  (slots.find? (fun s =>
    let x := tgetD u.slot s.2 {}
    !slotPlaced u s.2 || imgKind x.img == 1
      || (polCats p).any (fun c => c.src == s.1 && decide (imgIface x.img x.imgLen 5 ≤ c.out)))).map (·.2)
/-- The first profile of a policy that reason 0x020F names. -/
def polProfFault (u : Units) (p : Bytes) : Option Nat :=
  ((policyProfs p).find? (fun f =>
    match nextProfile u f.2.1 with
    | none => true
    | some r =>
      !profValid r || profMode r != f.2.2
        || (List.range 64).any (fun b => bitAt (le r 0 8) b && (bankAt u b).outOfService)
        || (if f.2.2 = 2 then (profGroups r).any (fun g => !nextDefined u false g)
            else f.2.2 == 3 && !nextDefined u true (le r 10 2 % 4096)))).map (fun f => f.2.1)
/-- Request keys a bank takes in a tick (R244). DEDUCED, log 189. -/
def mcap (u : Units) : Nat := 5 * (1500 * u.tick.period / 16)
/-- Classes of a context once accepted changes are in effect. -/
def nextClasses (u : Units) (ctx : Nat) : List (Nat × Nat) :=
  u.changes.foldl (fun m c => match c.2 with | .classes k l _ _ _ => if k = ctx then l else m | _ => m) (tgetD u.ctx ctx {}).classes
/-- Shares of a context once accepted changes are in effect. -/
def nextShares (u : Units) (ctx : Nat) : Tbl Nat :=
  u.changes.foldl (fun m c => match c.2 with | .shares k l => if k = ctx then l else m | _ => m) (tgetD u.ctx ctx {}).shares
/-- Job-pool units of a job (R241). -/
def poolUnits (u : Units) (slots : List Nat) (ntok nseg : Nat) : Nat :=
  let k := (slots.map (fun n => let s := tgetD u.slot n {}; imgIface s.img s.imgLen 4)).sum
  ceilDiv (4 * ntok + 64 * nseg + ntok * k) 65536
/-- Streams that the contexts of a check declare for a head slot and a cohort. -/
def headLoad (l : List Ctx) (h cohort : Nat) : Nat :=
  ((l.filter (fun c => c.headSlot == h && c.cohort == cohort)).map (·.maxStreams)).sum
/-- Replicas of a head slot that serve (R27). -/
def servingReps (u : Units) (h : Nat) : Nat := (tgetD u.slot h {}).nrep - (tgetD u.slot h {}).out.length
/-- Bound of R27 on the head tokens of a cohort. -/
def headBound (u : Units) (h : Nat) : Nat :=
  let s := tgetD u.slot h {}
  servingReps u h * (u.tick.period * 500 / headCycles s.img s.imgLen)
/-- Bound of R119 on the streams of a cohort. DEDUCED, log 190. -/
def ringBound (u : Units) (h : Nat) : Nat :=
  let s := tgetD u.slot h {}
  servingReps u h * (4128768 / (64 * ceilDiv (64 + imgHidden s.img / 2 + 8 * imgOutMax s.img) 64))
/-- Entries of a ring BUF (R362). -/
def ringN (b : Buf) : Nat := b.len / 64 - 1
/-- Whether the window of a ring is not imported. DEDUCED, log 190. -/
def ringGone (u : Units) (b : Buf) : Bool := b.space == 4 && (tget u.tier.imports b.win).isNone
/-- The first ring whose control words are not both 0, or cannot be read (0x0205). -/
def ringState (u : Units) (c : Ctx) (lines : List Dma) : Option Nat :=
  (([(0, c.sub), (1, c.cpl), (2, c.bat)] : List (Nat × Buf)).find? (fun (r : Nat × Buf) =>
    ringGone u r.2 ||
    (match lines[r.1]? with
     | some (.data b) => le b 0 4 != 0 || le b 32 4 != 0
     | some .fault => true
     | none => false))).map (·.1)
/-- Pairs of a head slot and a cohort that the counted contexts use, ascending. -/
def headPairs (l : List Ctx) : List (Nat × Nat) :=
  (List.range 32).flatMap (fun h => [(h, 0), (h, 1)].filter (fun p => 0 < headLoad l p.1 p.2))
/-- The first class and slot of reason 0x0210; slot 0xFF where MCAP is exceeded. -/
def classFault (u : Units) (ctx : Nat) : Option (Nat × Nat) :=
  let cl := nextClasses u ctx
  let slots := ((definedPols u).flatMap (fun p => reqSlots p.2)).eraseDups
  (List.range cl.length).findSome? (fun k =>
    let c := cl.getD k (0, 0)
    match slots.find? (fun n => let s := tgetD u.slot n {}; decide (s.u * (c.2 - 3 - s.l) < c.1)) with
    | some n => some (k, n)
    | none => if mcap u < c.1 then some (k, 0xFF) else none)
/-- Slots in service; extra: one taken as in service (R166). -/
def servingWith (u : Units) (extra : Option Nat) : List Nat :=
  (tkeys u.slot).filter (fun n => slotServing u n || extra == some n)
/-- What the launch plan of R416 is formed from: the phases of the tick, the counted contexts with their maxima, and the slots
in service with their images, loads and replicas. -/
def planFacts (u : Units) (ctx : Nat) (extra : Option Nat) : List Nat :=
  [u.tick.period, u.tick.ingress, u.tick.egress]
    ++ (counted u ctx).flatMap (fun c => [c.cohort, c.headSlot, c.maxStreams])
    ++ (servingWith u extra).flatMap (fun n =>
      let x := tgetD u.slot n {}
      [n, x.imageId, x.u, x.l, x.mqShare, servingReps u n])
/-- The first launch of a rising list (mark, WCET, entry) that does not end before the next one's mark (R155). -/
def lateRun : List (Nat × Nat × Nat) → Option Nat
  | a :: b :: r => if b.1 < a.1 + a.2.1 then some a.2.2 else lateRun (b :: r)
  | _ => none
/-- The entry of a slot in service whose launch the plan lets run past its core's next launch mark (0x0212). -/
def lateEntry (u : Units) (facts : List Nat) (n : Nat) : Option Nat :=
  let x := tgetD u.slot n {}
  (List.range (imgNcore x.img)).findSome? (fun core =>
    let runs := (List.range 6).flatMap (fun m => (List.range (mle x.img 10 2)).filterMap (fun e =>
      if bitAt (Config.planMarks facts n core e) m then
        (imgEntry x.img x.imgLen core e).map (fun r => (markNs u m, r.2.2, e)) else none))
    lateRun (runs ++ (runs.take 1).map (fun r => (periodNs u + r.1, 0, 0))))
/-- The slot and entry of reason 0x0212: a launch past its next mark, or a cohort's sampling past its egress mark. -/
def planLate (u : Units) (facts : List Nat) (extra : Option Nat) : Option Nat :=
  match (servingWith u extra).findSome? (fun n => (lateEntry u facts n).map (fun e => e * 256 + n)) with
  | some x => some x
  | none => Config.planBreak 0x0212 facts
/-- Bytes in 10 ns that tier 1 gives its weighted requesters, 0.9 × B1 (R397, R398). -/
def t1Rate (a : Asm) : Nat := if a.variant = 2 then 432000 else 288000
/-- Whether the published tier-1 bound of 64 KiB, with A requesters active, exceeds t ns; A then exceeds A_lim of R398 for
T = t, and a declaration of t is tighter than the bound (R163). -/
def t1Over (a : Asm) (active t : Nat) : Bool := decide (t * t1Rate a < 1500 * t1Rate a + 655360 * active)
/-- The least tier-1 bound that an image in service declares, in ns (R398). -/
def t1Declared (u : Units) (extra : Option Nat) : Option Nat :=
  ((servingWith u extra).map (fun n => let x := tgetD u.slot n {}; imgIface x.img x.imgLen 0)).min?
/-- The slot and bound of reason 0x0217 (R163, R186, R398, R400). -/
def ifaceFault (a : Asm) (u : Units) (active : Nat) : Option (Nat × Nat) :=
  let rtt := u.tier.imports.foldl (fun m w => max m w.2.rtt) 0
  (tkeys u.slot).findSome? (fun n =>
    let s := tgetD u.slot n {}
    let f := imgIface s.img s.imgLen
    if !slotPlaced u n then none
    else if t1Over a active (f 0) then some (n, 0)
    else if f 1 < 12000 then some (n, 1)
    else if imgFabric s.img s.imgLen ∧ f 2 < rtt then some (n, 2)
    else if f 3 < 1503 then some (n, 3)
    else none)
/-- The slot of reason 0x0218 (R186); extra: a slot taken as in service. -/
def mqFault (u : Units) (extra : Option Nat) : Option Nat :=
  let listing := (tkeys u.slot).filter (fun n => !(slotProfiles u n).isEmpty)
  let serving := servingWith u extra
  match listing.find? (fun n => slotPlaced u n && (tgetD u.slot n {}).mqShare == 0) with
  | some n => some n
  | none => serving.find? (fun n => decide (512 < ((serving.filter (· ≤ n)).map (fun m => (tgetD u.slot m {}).mqShare)).sum))
/-- The window of reason 0x0219. -/
def targetFault (u : Units) (c : Ctx) : Option Nat :=
  if c.defTarget = 0 then if u.tier.pageLen = 0 ∧ 0 < c.maxStreams then some 0 else none
  else match tget u.tier.imports c.defTarget with
    | some w => if w.pauseOk then none else some c.defTarget
    | none => some c.defTarget
/-- The reasons of scope context that apply, in ascending code (R414, R418). lines: the control lines read by CTX_ENABLE,
none at a re-check. DESIGN CHOICE, log 11. DEDUCED, log 189. -/
def contextCheck (a : Asm) (u : Units) (ctx : Nat) (lines : List Dma) (extra : Option Nat) : List (Nat × Nat) :=
  let c := tgetD u.ctx ctx {}
  let all := counted u ctx
  let pols := definedPols u
  let opt (cond : Bool) (x : Option Nat) (code : Nat) : List (Nat × Nat) :=
    match x with | some k => reason cond code k | none => []
  let streams := (all.map (·.maxStreams)).sum
  let pages := (all.map (fun x => x.maxStreams * (x.maxPos / 16 + 1))).sum
  let room := u.tier.pageMain + u.tier.pageLen / 65536
  let lagged := pols.any (fun p => (ansSlot p.2).isSome)
  let pool := (all.map (fun x =>
    let n := x.classes.foldl (fun m k => max m k.1) 0
    pols.foldl (fun m p => max m (poolUnits u (reqSlots p.2) n 64)) (poolUnits u [] n 64))).sum
  let reqs := (pols.flatMap (fun p => reqSlots p.2)).eraseDups
  let facts := planFacts u ctx extra
  let active := Config.planActive facts
  reason (!u.blk.en) 0x0201 0
    ++ reason (!u.tick.en) 0x0202 0
    ++ (if c.state = 0 then [(0x0203, 0)] else reason (!c.ringsSet) 0x0203 1)
    ++ (if !c.ringsSet then [] else
         if ringN c.cpl < 64 then [(0x0204, 1)] else reason (decide (ringN c.bat < 2 * c.maxStreams + 64)) 0x0204 2)
    ++ opt c.ringsSet (ringState u c lines) 0x0205
    ++ reason u.blk.arbPlain 0x0206 0
    ++ reason (decide (0 < c.maxStreams) && decide (u.tick.period < 80)) 0x0207 u.tick.period
    ++ reason (decide (0 < c.maxStreams) && !(slotPlaced u c.headSlot && imgKind (slotImg u c.headSlot) == 1)) 0x0208 c.headSlot
    ++ reason (decide (0 < c.maxStreams) && slotPlaced u c.headSlot && decide (u.mat.ntok < imgVocab (slotImg u c.headSlot)))
         0x0209 c.headSlot
    ++ opt true (((headPairs all).find? (fun p => decide (headBound u p.1 < headLoad all p.1 p.2))).map (fun p => p.1 * 256 + p.2)) 0x020A
    ++ opt true (((headPairs all).find? (fun p => decide (ringBound u p.1 < headLoad all p.1 p.2))).map (fun p => p.1 * 256 + p.2)) 0x020B
    ++ reason (decide (4096 < streams)) 0x020C (streams - 4096)
    ++ reason (lagged && decide (room < pages)) 0x020D (pages - room)
    ++ opt true (pols.findSome? (fun p => (polSlotFault u p.2).map (fun s => s * 65536 + p.1))) 0x020E
    ++ opt true (pols.findSome? (fun p => (polProfFault u p.2).map (fun s => s * 65536 + p.1))) 0x020F
    ++ opt true ((classFault u ctx).map (fun x => x.2 * 256 + x.1)) 0x0210
    ++ reason (decide (u.tier.jobPool < pool)) 0x0211 (pool - u.tier.jobPool)
    ++ opt true (planLate u facts extra) 0x0212
    ++ [0x0213, 0x0214, 0x0215].flatMap (fun k => opt true (Config.planBreak k facts) k)
    ++ reason ((t1Declared u extra).any (t1Over a active)) 0x0216 active
    ++ opt true ((ifaceFault a u active).map (fun x => x.2 * 256 + x.1)) 0x0217
    ++ opt true (mqFault u extra) 0x0218
    ++ opt true (targetFault u c) 0x0219
    ++ opt true (((nextShares u ctx).find? (fun s => 0 < s.2 && ((tgetD u.slot s.1 {}).u == 0 || !reqs.contains s.1))).map (·.1)) 0x021A
/-- The re-check of one context (R417): CTX_CHECK_FAIL, or CTX_CHECK_OK at the first that passes after a failure.
DEDUCED, log 190. -/
def recheckOne (a : Asm) (ctx : Nat) (u : Units) : Units :=
  let c := tgetD u.ctx ctx {}
  let l := contextCheck a u ctx [] none
  match l with
  | (code, arg) :: _ =>
    fwNotice 1 0x0F02 ctx [code, arg, l.length] { u with ctx := tset u.ctx ctx { c with checkFailed := true } }
  | [] =>
    if c.checkFailed then fwNotice 1 0x0F03 ctx [] { u with ctx := tset u.ctx ctx { c with checkFailed := false } } else u
/-- The re-check of every enabled context (R417): each check reads objects of the whole block. DEDUCED, log 186. -/
def recheck (a : Asm) (u : Units) : Units :=
  forAll ((u.ctx.filter (fun e => e.2.state == 2)).map (·.1)) (recheckOne a) u

end Sys2Proof.Machine
end

