-- ==== Sys2Proof/Machine/Traffic.lean ====
section
/-! DEFINITION. Tier-2 traffic (09, R274, R275): the budget of a tick, its shares, the transfers it serves; and where pages
stand (R268). -/
namespace Sys2Proof.Machine

/-- A tier-1 page's address: the page region follows the fixed regions (DESIGN CHOICE, log 28). -/
def pageAddr1 (p : Nat) : Nat := t1FixedBytes + 65536 * p
/-- A tier-2 page's address. -/
def pageAddr2 (u : Units) (p : Nat) : Nat := u.tier.pageBase + 65536 * p
/-- Pages a tick can move over the CXL links in service, 125 bytes a nanosecond each (R274). DEDUCED, log 172.
DEDUCED, log 200. -/
def tier2Budget (u : Units) : Nat :=
  let links := ((List.range 12).filter (fun k => bitAt u.tier.linkMask k && !u.tier.linksOut.contains k)).length
  links * 125 * periodNs u / 65536
/-- The class of a transfer, in the order of R274's table after check reads: page-in, pause copies, variant loads. A ring's
entries are none of these. -/
def moveClass : MoveId → Nat
  | .back _ _ => 0
  | .resume _ => 0
  | .pause _ => 1
  | .saved _ => 1
  | .load _ => 2
  | .ring _ _ => 3
/-- The guaranteed share of each of these classes. -/
def moveShare (u : Units) : Nat := tier2Budget u * 20 / 100
/-- Pages a class wants moved in the present tick. -/
def moveDemand (u : Units) (c : Nat) : Nat :=
  ((u.tier.moves.filter (fun m => moveClass m.id == c && decide (m.first ≤ u.tick.number))).map (·.left)).sum
/-- Pages that checks may read from tier 2 in a tick: their share, and what the other classes leave of theirs (R274).
DEDUCED, log 172. -/
def checkBudget (u : Units) : Nat :=
  tier2Budget u * 40 / 100 + ((List.range 3).map (fun c => moveShare u - moveDemand u c)).sum
/-- Pages each class moves in a tick: within its share, then of what is left in the order of the table (R274). -/
def moveGrants (u : Units) : List Nat :=
  let own := (List.range 3).map (fun c => min (moveDemand u c) (moveShare u))
  let rest := tier2Budget u - u.tier.checkRead - own.sum
  ((List.range 3).foldl (fun (x : List Nat × Nat) c =>
    let more := min (moveDemand u c - own.getD c 0) x.2
    (x.1 ++ [own.getD c 0 + more], x.2 - more)) ([], rest)).1
/-- The transfers after a tick: within a class the oldest first (R274). The budget of the checks begins anew. -/
def serveMoves (u : Units) : Units :=
  let r := u.tier.moves.foldl (fun (x : List Move × List Nat) m =>
    let c := moveClass m.id
    let k := if m.first ≤ u.tick.number then min m.left (x.2.getD c 0) else 0
    (x.1 ++ [{ m with left := m.left - k }], x.2.set c (x.2.getD c 0 - k))) ([], moveGrants u)
  { u with tier := { u.tier with moves := r.1.filter (fun m => m.left != 0), checkRead := 0 } }
/-- A transfer of n pages begins; from the tick first on it is served. -/
def addMove (id : MoveId) (n first : Nat) (u : Units) : Units :=
  if n = 0 then u else { u with tier := { u.tier with moves := u.tier.moves ++ [{ id := id, left := n, first := first }] } }
/-- Whether a transfer has been served; while no tick runs nothing bounds it. DEDUCED, log 172. -/
def moveDone (u : Units) (id : MoveId) : Bool := !running u || !u.tier.moves.any (fun m => m.id == id)
/-- Transfers given up: what their transactions still bring goes nowhere. -/
def dropMoves (f : MoveId → Bool) (u : Units) : Units :=
  let mine (t : Txn) : Bool := t.own.any f
  { u with tier := { u.tier with
      moves := u.tier.moves.filter (fun m => !f m.id)
      txns := u.tier.txns.map (fun t => if mine t then { t with own := none, dspace := 1 } else t)
      waitTx := u.tier.waitTx.filter (fun e => !mine e.1) } }
/-- Whether transactions of a copy are outstanding. -/
def copying (u : Units) (id : MoveId) : Bool :=
  u.tier.txns.any (fun t => t.own == some id) || u.tier.waitTx.any (fun t => t.1.own == some id)
/-- The page-ins from windows that the tick with number k is to begin: one read for each page saved (R285). -/
def pageInReads (k : Nat) (u : Units) : Units :=
  forAll (u.tier.moves.filter (fun m => m.first == k)) (fun m u =>
    match m.id with
    | .resume n =>
      let y := tgetD u.str n {}
      match u.tier.saved.find? (fun e => e.2.id == y.restoring) with
      | none => u
      | some e =>
        if e.2.target = 0 then u
        else forAll (List.range (min e.2.npages y.pages.length)) (fun i u =>
          sendRd e.2.target (65536 * e.2.t2.getD (i + 1) 0) 65536 none (some m.id)
            (2, 0, pageAddr1 (y.pages.getD i (0, {})).2.page) u) u
    | _ => u) u

end Sys2Proof.Machine
end

