-- ==== Sys2Proof/Machine/Tick.lean ====
section
/-! DEFINITION. The step tick (02): edges, arming, coast and halt, tick sources, time discipline (13, R384, R385), and
the counters that follow the edge (19). Phase marks and the stopping edge are in Marks. -/
namespace Sys2Proof.Machine

/- Counters (19). -/
/-- Kind of the die a key names, as KIND of R306. -/
def keyKind (k : Nat) : Nat := if k < 32 then 0 else if k < 48 then 1 else if k < 56 then 2 else 3
/-- Die number within its kind. -/
def keyDie (k : Nat) : Nat := k - dieKey (keyKind k) 0
/-- Whether a source is listed for a die kind (R509). -/
def sourceOk (kind src : Nat) : Bool :=
  src ≤ 2 ||
  (match kind with
   | 0 => 0x10 ≤ src && src ≤ 0x67
   | 1 => (0x100 ≤ src && src ≤ 0x129) || (0x130 ≤ src && src ≤ 0x13B)
   | 2 => 0x200 ≤ src && src ≤ 0x218
   | _ => 0x300 ≤ src && src ≤ 0x30B)
/-- CNT_SELECT (R509). -/
def cntSelect (a : Asm) (n : Nat) : Units → Units :=
  message 0x0801 n (fun p u =>
    let kind := le p 0 1
    let die := le p 1 1
    if !dieFitted a kind die then keep u (invalid (if 3 < kind then 0 else 1))
    else if 31 < le p 2 1 then keep u (invalid 2)
    else if !sourceOk kind (le p 4 2) then keep u (invalid 4)
    else keep (schedule (.cntSel (dieKey kind die * 32 + le p 2 1) (le p 4 2)) u) (ok (le8 (nextTick u))))
/-- CNT_SELECT (R509). -/
def execCntSelect (mb : Fin 64) (s : State) : Res := onU (cntSelect s.asm mb) s
/-- The dies a CNT_READ names: fitted dies of the mask, in ascending bit; none on a context mailbox (R510). -/
def cntDies (a : Asm) (n mask : Nat) : List Nat :=
  if n ≠ 0 then [] else
  (List.range 64).filter (fun k => bitAt mask k && dieFitted a (keyKind k) (keyDie k))
/-- CNT_READ (R510): waits for the next edge. flt: the write of its buffer faults outside the block. -/
def cntRead (a : Asm) (n : Nat) (flt : Bool) : Units → Units :=
  message 0x0802 n (fun p u =>
    let b := bufOf p 16
    if !bufOk u n b ∨ b.len < 512 * (cntDies a n (le p 8 8)).length + 256 then keep u (invalid 16)
    else ({ u with cnt := { u.cnt with reads := u.cnt.reads ++ [(n, flt)] } }, none))
/-- CNT_READ (R510). -/
def execCntRead (mb : Fin 64) (flt : Bool) (s : State) : Res := onU (cntRead s.asm mb flt) s
/-- A counter entry (R510). -/
def cntEntry (value : Nat) (sat : Bool) (source kind die index : Nat) : Bytes :=
  leBytes 6 value ++ leBytes 2 (b2n sat * 2 ^ 15) ++ leBytes 2 source ++ leBytes 1 kind ++ leBytes 1 die
    ++ leBytes 1 index ++ leBytes 3 0
/-- The entries of a snapshot (R510). -/
def cntEntries (u : Units) (dies : List Nat) : Bytes :=
  dies.flatMap (fun k => (List.range 32).flatMap (fun i =>
    let c := tgetD u.cnt.die (k * 32 + i) {}
    cntEntry c.value c.sat c.source (keyKind k) (keyDie k) i)) ++
  (List.range 16).flatMap (fun i =>
    let c := tgetD u.cnt.blk i (0, false)
    cntEntry c.1 c.2 (0xFF00 + i) 0xFF 0 i)
/-- The snapshots of the waiting CNT_READ commands, at the edge that begins tick k. -/
def cntLatch (k : Nat) (s : State) : State :=
  let reads := s.u.cnt.reads
  let s := { s with u := { s.u with cnt := { s.u.cnt with reads := [] } } }
  reads.foldl (fun s x =>
    let n := x.1
    let p := payloadOf (tgetD s.u.mbx n {})
    let r := bufWrite s n (bufOf p 16) (cntEntries s.u (cntDies s.asm n (le p 8 8))) x.2
    { r.1 with u := answerWaiting (some n) (if r.2 then ok (le8 k) else faultAt 16) r.1.u }) s
/-- Snapshot and clear of the block-level counters at an edge (R507): a snapshot takes the values before the clear, and an event
in the cycle of the edge counts after both. -/
def cntEdge (k : Nat) (u : Units) : Units :=
  let c := u.cnt
  let c := if c.snapReq then { c with snap := c.blk, snapTick := k } else c
  let c := if c.clrReq then { c with blk := [] } else c
  { u with cnt := { c with snapReq := false, clrReq := false } }

/- Units and arming (R48 to R52). -/
/-- The role that arms a unit (R308). -/
def unitRole (a : Asm) : UnitId → Nat
  | .core c => if c.die.val < ceilDiv (engineDies a) 2 then 2 else 3
  | .matchSeq g => 5 + g.val
  | .sampling g => 5 + g.val
  | .ingress _ => 4
  | .egress _ => 4
  | .stack _ => 4
/-- Whether a unit is fitted and in service. -/
def unitInService (a : Asm) (u : Units) : UnitId → Bool
  | .core c => c.die.val < engineDies a && !(tgetD u.core (coreKey c) {}).retired
  | .matchSeq _ => true
  | .sampling _ => true
  | .ingress x => x.val < ioDies a
  | .egress x => x.val < ioDies a
  | .stack n => n.val < nStacks a
/-- Every unit that could be fitted. -/
def allUnits : List UnitId :=
  (List.finRange 26).flatMap (fun d => (List.finRange 16).map (fun c => .core ⟨d, c⟩))
  ++ (List.finRange 2).flatMap (fun g => [.matchSeq g, .sampling g])
  ++ (List.finRange 6).flatMap (fun x => [.ingress x, .egress x])
  ++ (List.finRange 12).map .stack
/-- Whether every unit in service is armed (R51). -/
def allArmed (a : Asm) (u : Units) : Bool :=
  allUnits.all (fun x => !unitInService a u x || u.tick.armed.contains x)
/-- The step programs of a core's table by mark: mark, and the entry record of the image for that core, if there is one. -/
def tablePrograms (u : Units) (k : Nat) (table : List LaunchEntry) : List (Nat × Bool × Option (Nat × Nat × Nat)) :=
  let c := tgetD u.core k {}
  (List.range 6).flatMap (fun m => table.filterMap (fun e => match e.act with
    | .program slot entry _ _ =>
      let x := tgetD u.slot slot.val {}
      if e.mark.val = m then some (m, e.once, imgEntry x.img x.imgLen c.lidx entry) else none
    | _ => none))
/-- Whether each launch of a rising list of marks and durations ends before the next one's mark (R155). -/
def launchesFit : List (Nat × Nat) → Bool
  | a :: b :: r => decide (a.1 + a.2 ≤ b.1) && launchesFit (b :: r)
  | _ => true
/-- Whether firmware may place a core's next table (R154, R155): a repeatable launch names an entry that is REPEATABLE, and
every launch, the last of the current table among them, ends by its WCET before the core's next launch mark. -/
def placeOk (u : Units) (x : UnitId) (table : List LaunchEntry) : Bool :=
  match x with
  | .core c =>
    let k := coreKey c
    let next := tablePrograms u k table
    let cur := tablePrograms u k ((u.tick.cur.find? (fun e => e.1 == x)).elim [] (·.2))
    let span (late : Nat) (p : Nat × Bool × Option (Nat × Nat × Nat)) : Nat × Nat :=
      (late + markNs u p.1, p.2.2.elim 0 (·.2.2))
    next.all (fun p => p.2.1 || p.2.2.all (fun r => bitAt r.2.1 0))
      && launchesFit (((cur.reverse.take 1).map (span 0)) ++ next.map (span (periodNs u)))
  | _ => true
/-- UNIT_ARM (R50): a locked table ignores it; a role that is not running arms nothing (R320), and firmware arms no table
that R154 or R155 forbids. DEDUCED, log 213. -/
def unitArm (a : Asm) (x : UnitId) (table : List LaunchEntry) (u : Units) : Units :=
  if u.tick.armed.contains x ∨ !unitInService a u x ∨ (tgetD u.fw.roles (unitRole a x) {}).state ≠ 0 ∨ !placeOk u x table then u
  else { u with tick := { u.tick with
    armed := u.tick.armed ++ [x], next := (u.tick.next.filter (fun e => e.1 != x)) ++ [(x, table.take 64)] } }
/-- UNIT_ARM (R50). -/
def execUnitArm (x : UnitId) (table : List LaunchEntry) (s : State) : Res := onU (unitArm s.asm x table) s
/-- ARM_DEADLINE (R50, R51, R64): MA of the current tick, sampled once in it. Before the first edge there is no MA, so that
the first edge is never one at which every unit is armed. DEDUCED, log 212. -/
def armDeadline (a : Asm) (u : Units) : Units :=
  if !running u ∨ u.tick.anchor.isNone ∨ u.tick.armSample.isSome then u
  else
    let u := advTo (u.tick.edgeAt + markNs u 6) u
    let ok := allArmed a u
    { u with tick := { u.tick with
        armSample := some ok, lastArmLate := !ok
        haltNext := !ok && u.tick.st == .coasting && 8 ≤ u.tick.coastRun } }
/-- ARM_DEADLINE (R50). -/
def execArmDeadline (s : State) : Res := onU (armDeadline s.asm) s

/- Edges. -/
/-- A coasting or halted tick begins (R65, R509). -/
def coastCount (u : Units) : Units :=
  dieBump 56 0x030A 1 (dieBump 57 0x030A 1 { u with tick := { u.tick with
    coastRun := min 255 (u.tick.coastRun + 1), coastTotal := (u.tick.coastTotal + 1) % 2 ^ 64 } })
/-- Contexts in service. -/
def inService (u : Units) : List Nat := (u.ctx.filter (fun c => c.2.state == 2 || c.2.state == 3)).map (·.1)
/-- Tables and state at the edge that begins tick k (R51, R61, R64, R65). Every table may be written again after it (R50).
DEDUCED, log 212. -/
def tableEdge (k : Nat) (u : Units) : Units :=
  let t := u.tick
  let armed := t.armSample = some true
  let u := { u with tick := { t with armSample := none, haltNext := false, armed := [] } }
  if armed then
    let u := { u with tick := { u.tick with st := .current, cur := t.next, next := [], coastRun := 0 } }
    if t.st = .coasting ∨ t.st = .halted then
      notice (dieKey 3 0) 0x0102 0 [t.coastFirst, k - 1, b2n (t.st == .halted)] u
    else u
  else match t.st with
    | .current =>
      notice (dieKey 3 0) 0x0101 0 [] (coastCount { u with
        tick := { u.tick with st := .coasting, coastRun := 0, coastFirst := k }
        conds := u.conds ++ (inService u).map (fun c => (5, c)) })
    | .coasting =>
      if t.haltNext then
        notice (dieKey 3 0) 0x0001 0 [t.coastFirst] (coastCount { u with
          tick := { u.tick with st := .halted, haltedBit := true } })
      else coastCount u
    | .halted => coastCount u
    | _ => u
/-- COND_BREACH (R410): a notice for each condition found broken, naming the contexts, once in 1,024 ticks.
DEDUCED, log 192. -/
def condBreach (u : Units) : Units :=
  let found := u.conds
  forAll [1, 2, 3, 4, 5] (fun c u =>
    let ctxs := (found.filter (fun x => x.1 == c)).map (·.2)
    if ctxs.isEmpty then u
    else noticeLimited (ctlProd 1) 0x0E01 c 0 [c, bitWord 64 (fun k => ctxs.contains k)] u)
    { u with conds := [] }
/-- Contexts whose step-batch CONS did not pass a batch within 2 ticks of its PROD (condition 1, R372). -/
def ringCond (k : Nat) (u : Units) : Units :=
  { u with conds := u.conds ++ (u.ctx.filter (fun c => c.2.unread.any (fun x => x.2 + 2 < k))).map (fun c => (1, c.1)) }
/-- Semaphores of the slots whose launches were aborted return to 0 (R151). -/
def semEdge (u : Units) : Units :=
  { u with
    sem := u.sem.filter (fun e => !(match tget u.semSlot e.1 with | some n => u.semClear.contains n | none => false))
    semClear := [] }
/-- The watchdogs run from the first edge: before it no tick had a kick (R315). DESIGN CHOICE, log 180. -/
def kicksStart (u : Units) : Units :=
  { u with fw := { u.fw with roles := tmap u.fw.roles (fun _ r => { r with kickAt := u.tick.time }) } }
/-- A block tick edge at block time t that begins tick k; st: the state with the memories that CNT_READ may write.
DEDUCED, log 185. -/
def edge (t k : Nat) (s : State) : State :=
  let first := s.u.tick.anchor.isNone
  let s := { s with u := serveMoves (cntEdge k (advTo t s.u)) }
  let s := if first then { s with u := kicksStart { s.u with changes := s.u.changes.map (fun c => (min c.1 k, c.2)) } } else s
  let s := { s with u := { s.u with tick := { s.u.tick with
    number := k % 2 ^ 64, edgeAt := t, anchor := some t, groupEdge := none, lastMark := 6, sweeps := []
    slew := s.u.tick.slewNext.getD s.u.tick.slew, slewNext := none } } }
  let s := cntLatch k s
  let u := pageInReads s.u.tick.number <| matchEdge <| chanEdge s.asm { s.u with svc := { s.u.svc with userEdge := s.u.svc.user } }
  let u := if u.tick.en then blkBump 0 1 u else u
  let u := forAll (List.range 58) (fun d => dieBump d 2 1) u
  let u := condBreach (ringCond k (tableEdge k (semEdge u)))
  let u := if u.tick.en && u.tick.outEn then emit (.tickOut (t - u.tick.offset)) u else u
  let u := if u.tick.en && u.tick.src == 0 && u.blk.topoOk && u.fab.masterId == u.fab.selfId then
      sendAll (fun _ => true) 0x01 0 k (le8 u.fab.groupId) [] u
    else u
  { s with u := u }
/-- Number of the first block edge under source 1 (R46). -/
def firstNum (u : Units) (g : Nat) : Nat :=
  let p := periodNs u
  if p = 0 then 0 else (rneDiv ((g : Int) - u.tick.epoch) p).toNat
/-- Number and block time of the edge that is due, if one is (R40, R43, R46). -/
def edgeDue (u : Units) : Option (Nat × Nat) :=
  let t := u.tick
  if !running u then none
  else if t.src = 0 then
    match t.anchor with
    | none => some (t.startAt, firstTick u)
    | some _ => some (t.epoch + (t.number + 1) * periodNs u + t.offset, t.number + 1)
  else match t.groupEdge with
    | none => none
    | some g =>
      some (g + t.offset,
        match t.anchor with
        | some _ => t.number + 1
        | none => t.groupNum.getD (firstNum u g))
/-- TICK_EDGE (R40). An edge at which the tick stops is TICK_STOP_EDGE's. -/
def tickEdge (s : State) : State :=
  match edgeDue s.u with
  | none => s
  | some (t, k) =>
    if s.u.tick.stopReq ∨ s.u.tick.forced then s
    else edge t k { s with u := { s.u with tick := { s.u.tick with holdover := 0 } } }
/-- TICK_EDGE (R40). -/
def execTickEdge (s : State) : Res := .next (tickEdge s)
/-- TICK_HALT (R64): the edge that follows the eighth coasting tick's unarmed MA. -/
def execTickHalt (s : State) : Res := .next (if s.u.tick.haltNext then tickEdge s else s)
/-- Expected group edge (R43). -/
def expected (u : Units) : Option Nat := u.tick.anchor.map (fun a => a - u.tick.offset + periodNs u)
/-- The holdover edge that the block makes where no acceptable group edge has come: its number and block time (R44). -/
def holdoverDue (u : Units) : Option (Nat × Nat) :=
  if u.tick.src = 0 ∨ !running u ∨ u.tick.groupEdge.isSome then none
  else (expected u).map (fun e => (e + u.tick.offset, u.tick.number + 1))
/-- HOLDOVER_EDGE (R44): no acceptable group edge by 500 ns after the expected edge. A holdover edge at which the tick stops
is TICK_STOP_EDGE's. -/
def holdoverEdge (s : State) : State :=
  match holdoverDue s.u with
  | none => s
  | some (t, k) =>
    if s.u.tick.stopReq ∨ s.u.tick.forced then s
    else
      let n := s.u.tick.holdover
      let late := t - s.u.tick.offset + 500
      let s := edge t k s
      { s with u := advTo late { s.u with tick := { s.u.tick with holdover := n + 1 } } }
/-- HOLDOVER_EDGE (R44). -/
def execHoldoverEdge (s : State) : Res := .next (holdoverEdge s)
/-- SRC_FAULT (R44). -/
def srcFault (u : Units) : Units :=
  if u.tick.holdover = 16 then
    notice (dieKey 3 0) 0x0103 0 [16] { u with tick := { u.tick with srcFault := true } }
  else u
/-- SRC_FAULT (R44). -/
def execSrcFault (s : State) : Res := onU srcFault s

/-- A measured group edge judged (R43): accepted, or discarded and counted. num: the number a TICK message gave. -/
def judge (g : Nat) (num : Option Nat) (u : Units) : Units :=
  match expected u with
  | none =>
    if u.tick.groupEdge.isSome then { u with tick := { u.tick with stray := u.tick.stray + 1 } }
    else
      let k := num.getD (firstNum u g)
      let dist := ((g : Int) - (u.tick.epoch + k * periodNs u : Nat)).natAbs
      let u := { u with tick := { u.tick with groupEdge := some g, groupNum := some k } }
      if u.tick.src = 1 ∧ periodNs u < 4 * dist then notice (dieKey 3 0) 0x0106 0 [k, dist] u else u
  | some e =>
    if ((g : Int) - e).natAbs ≤ 500 ∧ u.tick.groupEdge.isNone then
      { u with tick := { u.tick with groupEdge := some g } }
    else { u with tick := { u.tick with stray := u.tick.stray + 1 } }
/-- TICK_IN_EDGE (R466, R43). -/
def tickInEdge (at_ : Nat) (u : Units) : Units :=
  let u := advTo at_ u
  if u.tick.src ≠ 1 ∨ !running u then u else judge (at_ - u.tick.inlat) none u
/-- TICK_IN_EDGE (R466). DESIGN CHOICE, log 55. -/
def execTickInEdge (at_ : Nat) (s : State) : Res := onU (tickInEdge at_) s
/-- TICK_PACKET (R385, R45). -/
def tickPacket (rx : Rx) (p : Bytes) (at_ : Nat) (u : Units) : Units :=
  fabReceive 0x01 rx p (fun u =>
    if u.tick.src ≠ 2 ∨ !running u then u
    else if le p 32 8 ≠ u.fab.groupId then { u with fab := { u.fab with foreign := u.fab.foreign + 1 } }
    else
      let k := le p 24 8
      let want := if u.tick.anchor.isNone then k else u.tick.number + 1
      if k ≠ want then
        noticeLimited (dieKey 3 0) 0x0104 0 0 [k, want] { u with tick := { u.tick with stray := u.tick.stray + 1 } }
      else judge (at_ - u.tick.inlat) (some k) u) (advTo at_ u)
/-- TICK_PACKET (R385). -/
def execTickPacket (rx : Rx) (p : Bytes) (at_ : Nat) (s : State) : Res := onU (tickPacket rx p at_) s

/- Time discipline (R384). -/
/-- SYNC_SEND (R384): the time master's counter crosses a multiple of 1 ms. -/
def syncSend (u : Units) : Units :=
  if !isUp u ∨ !u.blk.topoOk ∨ u.fab.masterId ≠ u.fab.selfId then u
  else
    let u := advTo ((u.tick.time / 1000000 + 1) * 1000000) u
    let no := (u.fab.lastNo + 1) % 2 ^ 32
    sendAll (fun _ => true) 0x02 0 0 (le8 u.tick.time ++ leBytes 4 no) [] { u with fab := { u.fab with lastNo := no } }
/-- SYNC_SEND (R384). -/
def execSyncSend (s : State) : Res := onU syncSend s
/-- A value in signed 64-bit arithmetic (R384). -/
def s64 (x : Int) : Int := signed 64 (unsigned 64 x)
/-- The correction at a SYNC once the path delay is known (R384): the counter steps only while the tick does not run (R38,
R39). -/
def discipline (theta : Int) (u : Units) : Units :=
  if u.tick.en || tickRuns u then
    let i := clampI (-200000) 200000 (s64 (u.fab.integ - 32 * theta))
    setSlew (clampI (-200000) 200000 (s64 (i - 500 * theta))) { u with fab := { u.fab with integ := i } }
  else { u with
    tick := { u.tick with time := unsigned 64 ((u.tick.time : Int) - theta) }
    fab := { u.fab with integ := 0 } }
/-- SYNC_RECEIVE (R384). -/
def syncReceive (rx : Rx) (p : Bytes) (at_ : Nat) (u : Units) : Units :=
  fabReceive 0x02 rx p (fun u =>
    let port := rx.port.val
    if !disciplined u ∨ le p 16 8 ≠ u.fab.masterId then u
    else
      let t1 := le p 32 8
      let no := le p 40 4
      let n := u.fab.syncs + 1
      let u := { u with fab := { u.fab with
        lastNo := no, lastAt := at_, lostNoted := false, syncs := if n = 16 then 0 else n } }
      let u := match u.fab.delay with
        | some d => discipline (s64 ((at_ : Int) - t1 - d)) u
        | none => u
      if n = 16 then
        let u := { u with fab := { u.fab with sync := some (t1, at_, no), t3 := u.tick.time } }
        sendTo port u.fab.masterId 0x03 0 0 0 (le8 u.tick.time ++ leBytes 4 no) [] u
      else u) (advTo at_ u)
/-- SYNC_RECEIVE (R384). -/
def execSyncReceive (rx : Rx) (p : Bytes) (at_ : Nat) (s : State) : Res := onU (syncReceive rx p at_) s
/-- DREQ_RECEIVE (R384). -/
def dreqReceive (rx : Rx) (p : Bytes) (at_ : Nat) (u : Units) : Units :=
  fabReceive 0x03 rx p (fun u =>
    let port := rx.port.val
    if !u.blk.topoOk ∨ u.fab.masterId ≠ u.fab.selfId then u
    else
      let cf := le8 (le p 32 8) ++ leBytes 4 (le p 40 4) ++ leBytes 4 0 ++ le8 at_
      sendTo port (le p 16 8) 0x04 0 0 0 cf [] u) (advTo at_ u)
/-- DREQ_RECEIVE (R384). -/
def execDreqReceive (rx : Rx) (p : Bytes) (at_ : Nat) (s : State) : Res := onU (dreqReceive rx p at_) s
/-- DRESP_RECEIVE (R384): divisions truncate toward 0. -/
def drespReceive (rx : Rx) (p : Bytes) (at_ : Nat) (u : Units) : Units :=
  fabReceive 0x04 rx p (fun u =>
    match u.fab.sync with
    | some (t1, t2, no) =>
      if disciplined u ∧ le p 16 8 = u.fab.masterId ∧ le p 40 4 = no then
        let d := Int.tdiv (s64 (((t2 : Int) - t1) + ((le p 48 8 : Int) - u.fab.t3))) 2
        { u with fab := { u.fab with delay := some d, sync := none } }
      else u
    | none => u) (advTo at_ u)
/-- DRESP_RECEIVE (R384). -/
def execDrespReceive (rx : Rx) (p : Bytes) (at_ : Nat) (s : State) : Res := onU (drespReceive rx p at_) s
/-- TIME_LOST (R384): 16 intervals of 1 ms without a SYNC. -/
def timeLost (u : Units) : Units :=
  if !disciplined u ∨ u.fab.lostNoted then u
  else
    let u := advTo (u.fab.lastAt + 16000000) u
    notice (dieKey 2 0) 0x0D04 0 [u.fab.lastNo] { u with fab := { u.fab with lostNoted := true } }
/-- TIME_LOST (R384). -/
def execTimeLost (s : State) : Res := onU timeLost s

/-- One engine cycle in which nothing is commanded (R38, R39; DESIGN CHOICE, log 2): TICK_TIME advances by 1, more or less a
nanosecond gathered from the slew. -/
def idleCycle (u : Units) : Units :=
  let f := u.tick.slewFrac + u.tick.slew
  let step : Nat := if 1000000000 ≤ f then 2 else if f ≤ -1000000000 then 0 else 1
  let f := if 1000000000 ≤ f then f - 1000000000 else if f ≤ -1000000000 then f + 1000000000 else f
  let u := advTo (u.tick.time + step) u
  { u with tick := { u.tick with slewFrac := f } }

end Sys2Proof.Machine
end

