-- ==== Sys2Proof/Machine/Service.lean ====
section
/-! DEFINITION. Service life (16) and background work (14): wear, channels, rows, lanes, the store's journal, the repair
map, patrol scrub. Retirement of arrays and cores is in Retire, of match banks in Match. -/
namespace Sys2Proof.Machine

/-- Whether a firmware role runs. -/
def roleRuns (u : Units) (r : Nat) : Bool := u.fw.stage == 4 && (tgetD u.fw.roles r {}).state == 0
/-- Whether a unit of the service-life chapter is fitted. -/
def unitFitted (a : Asm) : RUnit → Bool
  | .array c _ _ => c.die.val < engineDies a
  | .core c => c.die.val < engineDies a
  | .channel s _ => s.val < nStacks a
  | .row s _ _ _ => s.val < nStacks a
  | .lane io g l => io.val < ioDies a && l.val < groupLanes io g
  | _ => true

/-- A planned level is crossed (R431, R432): the warning, and the planned retirement where a spare is free. -/
def wearPlanned (a : Asm) (x : RUnit) (signal : Nat) (u : Units) : Units :=
  if u.svc.warned.contains (x, signal) then u
  else
    let u := fwNotice 8 0x0A05 0 [unitLoc a x, signal] { u with svc := { u.svc with warned := u.svc.warned ++ [(x, signal)] } }
    let plan (reason : Nat) (u : Units) : Units :=
      if u.svc.planned.any (fun p => p.1 == x) then u
      else { u with svc := { u.svc with planned := u.svc.planned ++ [(x, reason)] } }
    match x with
    | .bank _ => u
    | .control _ => u
    | .row _ _ _ _ => plan 1 u
    | .store _ _ => plan 0x0A u
    | .channel s ch =>
      let k := s.val * 16 + ch
      if spareFree u.svc x = 0 then noSpare a x 1 false u
      else if u.svc.copying.any (fun y => y / 16 == s.val) then u
      else { u with svc := { u.svc with copying := u.svc.copying ++ [k] } }
    | _ => if spareFree u.svc x = 0 then noSpare a x 1 false u else plan 1 u
/-- Row of R431's table that judges a unit. -/
def wearRow : RUnit → Nat
  | .array _ _ _ => 1
  | .core _ => 2
  | .bank _ => 3
  | .row _ _ _ _ => 4
  | .channel _ _ => 5
  | .lane _ _ _ => 6
  | .control _ => 7
  | .store _ _ => 8
/-- The rail that feeds a unit's monitored paths: VS0 (VDD_E) or VS1 (VDD_G). -/
def wearRail : RUnit → Nat
  | .bank _ => 1
  | _ => 0
/-- Whether slack readings count: not while the unit's rail is out of band or no results are forwarded (R477). -/
def slackCounts (u : Units) (x : RUnit) : Bool := !u.pins.senseStale && tgetD u.pins.railRun (wearRail x) 0 == 0
/-- The window of powered time over which a unit's errors count, in ns. -/
def wearWindow : RUnit → Nat
  | .channel _ _ => 3600000000000
  | _ => 86400000000000
/-- The unit's counts after a reading: the runs of low slack, and the errors inside the window. -/
def wearCount (u : Units) (x : RUnit) (r : WearIn) (w : Wear) : Wear :=
  let now := u.svc.poweredNs
  let live (e : Nat × Nat) : Bool := decide (now < e.1 + wearWindow x)
  { slackRun := match r.slack with
      | some (v, f) => if !slackCounts u x then w.slackRun else if 2 * v < f then w.slackRun + 1 else 0
      | none => w.slackRun
    corr := (if r.corrected = 0 then w.corr else w.corr ++ [(now, r.corrected)]).filter live
    uncorr := (w.uncorr ++ r.uncorr.map (fun k => (now, k))).filter live }
/-- Corrected errors in the window. -/
def wearCorr (w : Wear) : Nat := (w.corr.map (·.2)).sum
/-- Whether a unit stands beyond its planned level (R431). -/
def wearPlans (x : RUnit) (r : WearIn) (w : Wear) : Bool :=
  let n := wearCorr w
  match x with
  | .array _ _ _ => decide (4 ≤ w.slackRun) || decide (8 ≤ n)
  | .core _ => decide (4 ≤ w.slackRun) || decide (64 ≤ n)
  | .bank _ => decide (4 ≤ w.slackRun)
  | .row _ _ _ _ => decide (3 ≤ n)
  | .channel _ _ => decide (4096 ≤ n) || r.rowsLeft == some 0
  | .lane _ _ _ => r.margin.any (fun m => decide (m.1 < m.2)) || decide (r.symbols.2 < 100000 * r.symbols.1)
  | .control _ => false
  | .store _ _ => decide (30000 ≤ r.cycles)
/-- Whether a unit has reached its fault level (R431). The retirements of arrays for a row or a mismatch, of banks, control cores
and store blocks are decided where those faults are found (R99, R121, R201, R317, R446). -/
def wearFaults (x : RUnit) (w : Wear) (failed : Bool) : Bool :=
  match x with
  | .core _ => failed || decide (2 ≤ w.uncorr.length)
  | .row _ _ _ _ => !w.uncorr.isEmpty
  | .channel _ _ => failed || decide (16 ≤ ((w.uncorr.map (·.2)).eraseDups).length)
  | .lane _ _ _ => failed
  | _ => false
/-- WEAR_CHECK (R431, R432, R435): HEALTH counts and judges. A fault level decides the unit's fault retirement, which its own
command carries out. -/
def wearCheck (a : Asm) (x : RUnit) (signal : Nat) (r : WearIn) (failed : Bool) (u : Units) : Units :=
  if !roleRuns u 8 ∨ !unitFitted a x ∨ signal ≠ wearRow x then u
  else
    let w := wearCount u x r (((u.svc.wear.find? (fun e => e.1 == x)).map (·.2)).getD {})
    let u := { u with svc := { u.svc with wear := u.svc.wear.filter (fun e => e.1 != x) ++ [(x, w)] } }
    let u := if wearPlans x r w then wearPlanned a x signal u else u
    if wearFaults x w failed && !u.svc.decided.contains x then
      { u with svc := { u.svc with decided := u.svc.decided ++ [x] } }
    else u
/-- WEAR_CHECK (R431). -/
def execWearCheck (x : RUnit) (signal : Nat) (r : WearIn) (failed : Bool) (s : State) : Res :=
  onU (wearCheck s.asm x signal r failed) s

/-- CHANNEL_COPY_DONE (R436): the spare takes the number at the next edge. DESIGN CHOICE, log 99. -/
def channelCopyDone (key : Nat) (u : Units) : Units :=
  if u.svc.copying.contains key && !u.svc.copyDone.contains key then
    { u with svc := { u.svc with copyDone := u.svc.copyDone ++ [key] } }
  else u
/-- CHANNEL_COPY_DONE (R436). -/
def execChannelCopyDone (st : Fin 12) (ch : Fin 16) (s : State) : Res := onU (channelCopyDone (st * 16 + ch)) s
/-- CHANNEL_RETIRE (R437): at the next edge the spare takes the number with no copy; with no spare left the channel stays,
its faults poisoned. -/
def channelRetire (a : Asm) (st : Fin 12) (ch : Fin 16) (u : Units) : Units :=
  let k := st.val * 16 + ch
  if nStacks a ≤ st ∨ u.svc.chanFault.contains k then u
  else if 0 < spareFree u.svc (.channel st ch) then { u with svc := { u.svc with chanFault := u.svc.chanFault ++ [k] } }
  else trayService 4 (noSpare a (.channel st ch) 8 true (setUnit u))
/-- CHANNEL_RETIRE (R437). -/
def execChannelRetire (st : Fin 12) (ch : Fin 16) (s : State) : Res := onU (channelRetire s.asm st ch) s
/-- ROW_REPAIR (R438): the row is copied in the guard phase, and the remap takes effect at the next edge. uncorr: the 64-byte
units of the row that were uncorrectable. -/
def rowRepair (a : Asm) (st : Fin 12) (ch : Fin 16) (bank row : Nat) (uncorr : List Nat) (u : Units) : Units :=
  let x : RUnit := .row st ch bank row
  let u := { u with tier := { u.tier with
    pois1 := u.tier.pois1 ++ uncorr.filter (fun k => !u.tier.pois1.contains k) } }
  if nStacks a ≤ st ∨ spareFree u.svc x = 0 ∨ u.svc.rowWait.any (fun w => w.1 == x) then u
  else
    let w := (x, row, u.svc.planned.any (fun p => p.1 == x))
    if running u then { u with svc := { u.svc with rowWait := u.svc.rowWait ++ [w] } } else rowRemap a w u
/-- ROW_REPAIR (R438). -/
def execRowRepair (st : Fin 12) (ch : Fin 16) (bank row : Nat) (uncorr : List Nat) (s : State) : Res :=
  onU (rowRepair s.asm st ch bank row uncorr) s
/-- LANE_RETRAIN (R439): the port or link trains, and a free spare of the group takes the lane's place. DEDUCED, log 94.
DEDUCED, log 98. -/
def laneRetrain (a : Asm) (io : Fin 6) (g : Bool) (l : Fin 32) (u : Units) : Units :=
  let x : RUnit := .lane io g l
  if !unitFitted a x then u
  else if spareFree u.svc x = 0 then trayService 6 u
  else
    let planned := u.svc.planned.any (fun p => p.1 == x)
    let u := spareTaken a x (if planned then 1 else 8) (groupLanes io g + (2 - spareFree u.svc x)) u
    setUnit { u with svc := { u.svc with
      planned := u.svc.planned.filter (fun p => p.1 != x), decided := u.svc.decided.filter (fun y => y != x) } }
/-- LANE_RETRAIN (R439). -/
def execLaneRetrain (io : Fin 6) (g : Bool) (l : Fin 32) (s : State) : Res := onU (laneRetrain s.asm io g l) s

/-- BG_URGENT (R402, R390): once per unit and bound; the work is urgent until it is satisfied. DEDUCED, log 97. -/
def bgUrgent (kind l : Nat) (u : Units) : Units :=
  if kind = 0 ∨ u.svc.urgent.contains (kind, l) then u
  else blkBump 15 1 (fwNotice 8 0x0E02 0 [kind, l] { u with svc := { u.svc with urgent := u.svc.urgent ++ [(kind, l)] } })
/-- BG_URGENT (R402). -/
def execBgUrgent (kind : Fin 9) (l : W64) (s : State) : Res := onU (bgUrgent kind l.toNat) s
/-- BG_MISSED (R404). -/
def bgMissed (kind l : Nat) (u : Units) : Units :=
  if kind = 0 then u else fwNotice 8 0x0E03 0 [kind, l] (urgentDone kind (some l) u)
/-- BG_MISSED (R404). -/
def execBgMissed (kind : Fin 9) (l : W64) (s : State) : Res := onU (bgMissed kind l.toNat) s

/-- The slots whose shadow copy holds a tier-1 address (R120). -/
def shadowOf (u : Units) (addr : Nat) : List Nat :=
  (u.slot.filter (fun e => e.2.st != .empty && e.2.base ≤ addr && addr < e.2.base + e.2.imgLen)).map (·.1)
/-- A 64-byte unit of tier 1 is found uncorrectable (R420, R423). -/
def t1Uncorr (a : Asm) (k : Nat) (u : Units) : Units :=
  let die := dieKey 0 (stackDie a (k / 64 % nStacks a))
  let u := notice die 0x0F05 0 [64 * k] { u with tier := t1Poison (64 * k) 64 u.tier }
  forAll (shadowOf u (64 * k)) (fun n u => notice die 0x0F06 0 [n, 64 * k] u) u
/-- PATROL_SCRUB (R403, R423, R436): a 4 KiB unit of tier 1 is read. DESIGN CHOICE, log 99. -/
def patrolScrub (a : Asm) (unit : Nat) (corr uncorr : List Nat) (u : Units) : Units :=
  if tier1Bytes a ≤ 4096 * unit then u
  else
    let die := dieKey 0 (stackDie a (unit % nStacks a))
    let u := dieBump die 0x65 1 (dieBump die 0x62 corr.length (dieBump die 0x63 uncorr.length u))
    let u := if corr.isEmpty then u else setCorr u
    let u := forAll uncorr (fun k u => t1Uncorr a (64 * unit + k) u) u
    let u := if u.svc.copying.contains (chanOf a (64 * unit)) && !u.svc.copied.contains unit then
        { u with svc := { u.svc with copied := u.svc.copied ++ [unit] } }
      else u
    urgentDone 5 (some (locDie 0 (stackDie a (unit % nStacks a)))) u
/-- PATROL_SCRUB (R403). -/
def execPatrolScrub (unit : Nat) (corr uncorr : List (Fin 64)) (s : State) : Res :=
  onU (patrolScrub s.asm unit (corr.map (·.val)) (uncorr.map (·.val))) s

/- The journal (R445 to R449). -/
/-- A page of a journal copy is programmed: the block that fails is retired and the page written again in its spare. -/
def journalPage (a : Asm) (die : Nat) (st : StoreOut) (u : Units) : Units × Bool :=
  let u := dieBump (dieKey 3 die) 0x308 1 u
  match st with
  | .ok => (u, 0 < journalBlocks u.svc die)
  | .fail b =>
    let r := storeRetire a die b 9 true u
    (dieBump (dieKey 3 die) 0x308 (b2n r.2) r.1, r.2)
/-- Blocks of a die that reached their endurance are retired at the next erase (R431, R446). -/
def eraseRetire (a : Asm) (die : Nat) (u : Units) : Units :=
  let l := u.svc.planned.filterMap (fun p => match p.1 with
    | .store d b => if d.val = die then some b.val else none
    | _ => none)
  forAll l (fun b u => (storeRetire a die b 0x0A true u).1)
    { u with svc := { u.svc with planned := u.svc.planned.filter (fun p => match p.1 with
        | .store d _ => d.val != die
        | _ => true) } }
/-- A copy at 75 % of its blocks takes a new snapshot; what is older than the previous snapshot is erased (R449). -/
def journalSnap (a : Asm) (u : Units) : Units :=
  let pages := u.svc.journal.length
  if pages * 4 < journalBlocks u.svc 0 * 16 * 3 ∨ journalBlocks u.svc 0 = 0 then u
  else
    let prev := ((u.svc.journal.filter (fun r => r.type == 1)).getLast?).map (·.seq)
    let v := journalAdd 2 [] true true (journalAdd 1 [] true true u.svc)
    match prev with
    | none => { u with svc := v }
    | some q =>
      let kept := v.journal.filter (fun r => q ≤ r.seq)
      let n := (v.journal.length - kept.length) / 16
      eraseRetire a 1 (eraseRetire a 0 (dieBump 57 0x309 n (dieBump 56 0x309 n
        { u with svc := { v with journal := kept } })))
/-- JOURNAL_WRITE (R447): copy 0, then copy 1. A REPAIR record commits the entries made before it (R440). -/
def journalWrite (a : Asm) (type : Nat) (payload : Bytes) (c0 c1 : StoreOut) (u : Units) : Units :=
  if !isUp u ∨ u.blk.tripped ∨ (tgetD u.fw.roles 0 {}).state ≠ 0 ∨ type = 0 ∨ 0x0A < type ∨ 16352 < payload.length then u
  else
    let r0 := journalPage a 0 c0 u
    let r1 := journalPage a 1 c1 r0.1
    let u := r1.1
    let seq := u.svc.jseq
    let u := { u with svc := journalAdd type payload r0.2 r1.2 u.svc }
    let u := if type = 3 ∧ r1.2 then
        { u with svc := { u.svc with repair := u.svc.repair.map (fun e => { e with saved := true }), repairSeq := seq } }
      else u
    journalSnap a u
/-- JOURNAL_WRITE (R447). DESIGN CHOICE, log 96. -/
def execJournalWrite (type : Nat) (payload : Bytes) (c0 c1 : StoreOut) (s : State) : Res :=
  onU (journalWrite s.asm type payload c0 c1) s

/-- A calibration entry of REPAIR_READ (R443). -/
def calBytes (v : Svc) (item scope : Nat) : Bytes :=
  let p := calPair v v.user item scope
  leBytes 2 item ++ leBytes 2 scope ++ leBytes 4 (unsigned 32 p.1) ++ leBytes 4 (unsigned 32 p.2)
    ++ leBytes 4 (unsigned 32 (calEffective item p.1 p.2))
/-- The items and scopes that REPAIR_READ reports: those of the factory copy, then those only a user entry names. -/
def calScopes (v : Svc) : List (Nat × Nat) :=
  let f := v.factory.map (fun e => (e.item, e.scope))
  f ++ ((v.user.map (fun e => (e.item, e.scope))).filter (fun x => !f.contains x)).eraseDups
/-- What REPAIR_READ writes (R440). -/
def repairImage (v : Svc) : Bytes :=
  let cal := calScopes v
  sliceZ (leBytes 2 1 ++ leBytes 2 v.repair.length ++ leBytes 2 cal.length ++ leBytes 2 0 ++ leBytes 8 v.repairSeq
    ++ leBytes 8 (v.poweredNs / 1000000000)) 0 64
    ++ v.repair.flatMap repairBytes ++ cal.flatMap (fun c => calBytes v c.1 c.2)
/-- REPAIR_READ (R359, R440). Entries that do not fit are left out. -/
def execRepairRead (mb : Fin 64) (flt : Bool) (s : State) : Res :=
  .next (messageS 0x0808 mb (fun p s =>
    let b := bufOf p 16
    if !bufOk s.u mb b then (s, some (invalid 16))
    else
      let img := (repairImage s.u.svc).take (b.len / 16 * 16)
      let r := bufWrite s mb b img flt
      (r.1, some (if r.2 then ok (leBytes 4 img.length) else faultAt 16))) s)

end Sys2Proof.Machine
end

