-- ==== Sys2Proof/Machine/Block.lean ====
section
/-! DEFINITION. The block, context and policy messages (12, R351 to R353; 08, R233, R234) and the end of the block check
(15, R412). -/
namespace Sys2Proof.Machine

/- Counts of the stream and job tables. -/
/-- Whether a stream holds its slot (R262). -/
def holds (s : Str) : Bool := s.st != .free
/-- Slot-holding streams of a context. -/
def ctxStreams (u : Units) (c : Nat) : Nat := (u.str.filter (fun e => holds e.2 && e.2.ctx == c)).length
/-- Admitted jobs of a context. -/
def ctxJobs (u : Units) (c : Nat) : Nat := (u.job.filter (fun j => j.ctx == c)).length

/- Block messages (R351). -/
/-- BLK_INFO (R351). -/
def blkInfo (a : Asm) (n : Nat) : Units → Units :=
  message 0x0001 n (fun _ u => keep u (ok (le8 a.serial ++ leBytes 1 a.variant ++ leBytes 1 (engineDies a)
    ++ leBytes 1 (ioDies a) ++ leBytes 1 (nStacks a) ++ leBytes 2 u.fw.run.ifMin ++ leBytes 2 u.fw.run.ifMax
    ++ leBytes 4 u.fw.run.ver ++ leBytes 4 u.tick.period)))
/-- BLK_INFO (R351). -/
def execBlkInfo (mb : Fin 64) (s : State) : Res := onU (blkInfo s.asm mb) s
/-- BLK_TOPOLOGY (R351). -/
def blkTopology (n : Nat) : Units → Units :=
  message 0x0002 n (fun p u =>
    let cnt := le p 24 1
    let nbrs := (List.range cnt).map (fun k =>
      ({ id := le p (32 + 16 * k) 8, kind := le p (40 + 16 * k) 1, xdie := le p (41 + 16 * k) 1 } : Nbr))
    if 64 < cnt then keep u (invalid 24)
    else match (List.range cnt).find? (fun k => decide (3 < le p (40 + 16 * k) 1)) with
      | some k => keep u (invalid (40 + 16 * k))
      | none =>
        if u.blk.en then keep u (plain 8)
        else keep { u with
            blk := { u.blk with topoOk := true }
            fab := { u.fab with groupId := le p 0 8, selfId := le p 8 8, masterId := le p 16 8, nbrs := nbrs } } (ok []))
/-- BLK_TOPOLOGY (R351). -/
def execBlkTopology (mb : Fin 64) (s : State) : Res := onU (blkTopology mb) s
/-- The tier-1 record once accepted changes are in effect: PAGE_MAIN, HIGH_WM, LOW_WM, JOB_POOL. -/
def nextConfig (u : Units) : Nat × Nat × Nat × Nat :=
  u.changes.foldl (fun m c => match c.2 with | .config a b d e _ => (a, b, d, e) | _ => m)
    (u.tier.pageMain, u.tier.highWm, u.tier.lowWm, u.tier.jobPool)
/-- BLK_CONFIG (R351). -/
def blkConfig (a : Asm) (n : Nat) : Units → Units :=
  message 0x0003 n (fun p u =>
    let main := le p 0 4
    let high := le p 4 2
    let low := le p 6 2
    let pool := le p 8 4
    let scrub := le p 12 2
    let t := { u.tier with pageMain := main, jobPool := pool }
    if 1024 < high then keep u (invalid 4)
    else if high ≤ low then keep u (invalid 6)
    else if scrub = 0 ∨ 3600 < scrub then keep u (invalid 12)
    else if u.blk.en ∧ (main, high, low, pool) ≠ nextConfig u then keep u (plain 8)
    else if tier1Bytes a < t1Need a { u with tier := t } then keep u (bad 0xA 1 0xFFFF 0x010A)
    else keep (schedule (.config main high low pool scrub) { u with blk := { u.blk with configOk := true } })
      (ok (le8 (nextTick u))))
/-- BLK_CONFIG (R351). -/
def execBlkConfig (mb : Fin 64) (s : State) : Res := onU (blkConfig s.asm mb) s
/-- Whether a vocabulary index word is refused (R180): pool bytes. -/
def vocabBad (pool w : Nat) : Bool := bitsOf w 3 1 != 0 || decide (pool < bitsOf w 31 10 + bitsOf w 9 4)
/-- BLK_VOCAB (R180, R351). -/
def blkVocab (n : Nat) (idx pool : Dma) : State → State :=
  messageS 0x0004 n (fun p s =>
    let cnt := le p 0 4
    let bi := bufOf p 16
    let bp := bufOf p 32
    if cnt = 0 ∨ 1048575 < cnt then (s, some (invalid 0))
    else if !bufOk s.u n bi ∨ bi.len < 4 * cnt then (s, some (invalid 16))
    else if !bufOk s.u n bp ∨ 2 ^ 22 < bp.len then (s, some (invalid 32))
    else if s.u.blk.en ∨ anyInService s.u then (s, some (plain 8))
    else match bufRead s n bi idx, bufRead s n bp pool with
      | none, _ => (s, some (faultAt 16))
      | _, none => (s, some (faultAt 32))
      | some x, some y =>
        let words := (List.range cnt).map (fun k => (k, le x (4 * k) 4))
        if words.any (fun w => vocabBad bp.len w.2) then (s, some (invalid 16))
        else ({ s with u := { s.u with
            blk := { s.u.blk with vocabOk := true }
            mat := { s.u.mat with ntok := cnt, vocIdx := words.filter (fun w => w.2 != 0), pool := mwrite [] 0 y } } }, some (ok [])))
/-- BLK_VOCAB (R180). -/
def execBlkVocab (mb : Fin 64) (idx pool : Dma) (s : State) : Res := .next (blkVocab mb idx pool s)
/-- BLK_CHECK (R351, R412). -/
def blkCheck (a : Asm) (n : Nat) : Units → Units :=
  message 0x0005 n (fun _ u => keep u (ok (resultList (blockCheck a u))))
/-- BLK_CHECK (R351). -/
def execBlkCheck (mb : Fin 64) (s : State) : Res := onU (blkCheck s.asm mb) s
/-- BLK_STATUS (R351). -/
def blkStatus (a : Asm) (n : Nat) : Units → Units :=
  message 0x0006 n (fun _ u =>
    let en := bitWord 64 (fun c => (tgetD u.ctx c {}).state == 2)
    let slots := bitWord 32 (slotServing u)
    keep u (ok (leBytes 1 (readIdent a u 0x40) ++ leBytes 1 (tickStCode u.tick.st) ++ leBytes 6 0 ++ le8 en ++ leBytes 4 slots
      ++ leBytes 4 (u.str.filter (fun e => holds e.2)).length ++ leBytes 4 u.job.length)))
/-- BLK_STATUS (R351). -/
def execBlkStatus (mb : Fin 64) (s : State) : Res := onU (blkStatus s.asm mb) s
/-- BLOCK_CHECK_DONE (R412). DEDUCED, log 50. -/
def blockCheckDone (a : Asm) (u : Units) : Units :=
  if !u.blk.checking then u
  else match blockCheck a u with
    | [] => { u with blk := { u.blk with checking := false, en := true, firstReason := 0, nfail := 0 } }
    | l =>
      let first := (l.headD (0, 0)).1
      let n := min 255 l.length
      fwNotice 1 0x0F01 0 [first, n] { u with blk := { u.blk with
        checking := false, failed := true, firstReason := first, nfail := n } }
/-- BLOCK_CHECK_DONE (R412). -/
def execBlockCheckDone (s : State) : Res := onU (blockCheckDone s.asm) s

/- Context messages (R352). -/
/-- The lowest offset at fault of a CTX_CONFIG payload (R352). -/
def ctxConfigFault (p : Bytes) : Option Nat :=
  let bads : List (Bool × Nat) :=
    [(le p 0 1 == 0 || decide (63 < le p 0 1), 0), (decide (1 < le p 1 1), 1),
     (decide (31 < le p 2 1) && le p 2 1 != 0xFF, 2), (le p 3 1 == 0 || decide (4 < le p 3 1), 3),
     (decide (4096 < le p 4 2), 4), (decide (8192 < le p 6 2), 6),
     (le p 8 4 % 16 != 0 || le p 8 4 == 0 || decide (65536 < le p 8 4), 8),
     (le p 12 4 == 0 || decide (86400 < le p 12 4), 12), (decide (254 < le p 16 1), 16)]
    ++ (List.range (min 4 (le p 3 1))).flatMap (fun k =>
      [(decide (le p (24 + 8 * k) 2 < 16) || decide (32768 < le p (24 + 8 * k) 2), 24 + 8 * k),
       (decide (le p (26 + 8 * k) 2 < 4) || decide (1024 < le p (26 + 8 * k) 2), 26 + 8 * k)])
  (bads.find? (·.1)).map (·.2)
/-- CTX_CONFIG (R352). -/
def ctxConfig (n : Nat) : Units → Units :=
  message 0x0101 n (fun p u =>
    match ctxConfigFault p with
    | some off => keep u (invalid off)
    | none =>
      let k := le p 0 1
      let c := tgetD u.ctx k {}
      let busy := c.state == 2 || c.state == 3 || c.enableAt.isSome
      let fixed := c.cohort == le p 1 1 && c.maxStreams == le p 4 2 && c.jobQuota == le p 6 2 && c.maxPos == le p 8 4
      let head := le p 2 1
      let cl := (List.range (le p 3 1)).map (fun j => (le p (24 + 8 * j) 2, le p (26 + 8 * j) 2))
      if busy ∧ (!fixed ∨ (head ≠ c.headSlot ∧ ctxStreams u k ≠ 0)) then keep u (plain 8)
      else
        let c' : Ctx := if busy then c else { c with
          state := 1, cohort := le p 1 1, headSlot := head, maxStreams := le p 4 2, jobQuota := le p 6 2, maxPos := le p 8 4
          classes := cl, defTtl := le p 12 4, defTarget := le p 16 1 }
        let u := { u with ctx := tset u.ctx k c' }
        keep (if busy then schedule (.classes k cl (le p 12 4) (le p 16 1) head) u else u) (ok (le8 (nextTick u))))
/-- CTX_CONFIG (R352). -/
def execCtxConfig (mb : Fin 64) (s : State) : Res := onU (ctxConfig mb) s
/-- Whether a ring BUF gives a legal ring (R362). lo: fewest entries. -/
def ringOk (u : Units) (b : Buf) (lo : Nat) : Bool :=
  (b.space == 0 || b.space == 1 || b.space == 4) && bufOk u 0 b && decide (128 ≤ b.len) && decide (lo ≤ ringN b)
    && decide (ringN b ≤ 65536) && (List.range 17).any (fun k => 2 ^ k == ringN b)
/-- CTX_RINGS (R352, R362). -/
def ctxRings (n : Nat) : Units → Units :=
  message 0x0102 n (fun p u =>
    let k := le p 0 1
    let c := tgetD u.ctx k {}
    let s := bufOf p 16
    let cp := bufOf p 32
    let b := bufOf p 48
    if k = 0 ∨ 63 < k then keep u (invalid 0)
    else if le p 2 2 < 80 ∨ 2047 < le p 2 2 then keep u (invalid 2)
    else if !ringOk u s 16 then keep u (invalid 16)
    else if !ringOk u cp 16 then keep u (invalid 32)
    else if !ringOk u b 64 then keep u (invalid 48)
    else if c.state = 2 ∨ c.state = 3 ∨ c.enableAt.isSome then keep u (plain 8)
    else keep { u with ctx := tset u.ctx k { c with ringsSet := true, vec := le p 2 2, sub := s, cpl := cp, bat := b } } (ok []))
/-- CTX_RINGS (R352). -/
def execCtxRings (mb : Fin 64) (s : State) : Res := onU (ctxRings mb) s
/-- CTX_SHARES (R352, R242). DEDUCED, log 191. -/
def ctxShares (n : Nat) : Units → Units :=
  message 0x0103 n (fun p u =>
    let k := le p 0 1
    let ents := (List.range (le p 1 1)).map (fun j => (le p (8 + 4 * j) 1, le p (10 + 4 * j) 2))
    if k = 0 ∨ 63 < k then keep u (invalid 0)
    else if 32 < le p 1 1 then keep u (invalid 1)
    else match (List.range ents.length).findSome? (fun j =>
        let e := ents.getD j (0, 0)
        if 31 < e.1 ∨ (ents.take j).any (fun x => x.1 == e.1) then some (8 + 4 * j)
        else if 1024 < e.2 then some (10 + 4 * j) else none) with
      | some off => keep u (invalid off)
      | none =>
        let sh : Tbl Nat := ents.foldl (fun t e => if e.2 = 0 then t else tset t e.1 e.2) []
        let total (slot : Nat) : Nat :=
          tgetD sh slot 0 + ((u.ctx.filter (fun e => e.1 != k)).map (fun e => tgetD (nextShares u e.1) slot 0)).sum
        match (List.range ents.length).find? (fun j => decide (1024 < total (ents.getD j (0, 0)).1)) with
        | some j => keep u (invalid (10 + 4 * j))
        | none => keep (schedule (.shares k sh) { u with ctx := tmod u.ctx k {} id }) (ok (le8 (nextTick u))))
/-- CTX_SHARES (R352). -/
def execCtxShares (mb : Fin 64) (s : State) : Res := onU (ctxShares mb) s
/-- CTX_ENABLE (R414). lines: the control lines of the three rings as read. -/
def ctxEnable (a : Asm) (n : Nat) (lines : List Dma) : Units → Units :=
  message 0x0104 n (fun p u =>
    let k := le p 0 1
    let c := tgetD u.ctx k {}
    let only := bitAt (flagsOf u n) 1
    if k = 0 ∨ 63 < k then keep u (invalid 0)
    else if c.state = 2 ∨ c.state = 3 ∨ c.enableAt.isSome then keep u (plain 8)
    else match contextCheck a u k lines none with
      | [] =>
        if only then keep u (ok (resultList []))
        else
          let t := nextTick u
          let u := schedule (.enable k) { u with ctx := tset u.ctx k { c with enableAt := some t } }
          keep u (ok (le8 t))
      | l => keep u { status := 0xA, payload := resultList l })
/-- CTX_ENABLE (R414). -/
def execCtxEnable (mb : Fin 64) (lines : List Dma) (s : State) : Res := onU (ctxEnable s.asm mb lines) s
/-- CTX_DISABLE (R352). -/
def ctxDisable (n : Nat) : Units → Units :=
  message 0x0105 n (fun p u =>
    let k := le p 0 1
    let c := tgetD u.ctx k {}
    if k = 0 ∨ 63 < k then keep u (invalid 0)
    else if c.state ≠ 2 then keep u (plain 8)
    else keep { u with ctx := tset u.ctx k { c with state := 3, holdFrom := some (nextTick u) } } (ok (le8 (nextTick u))))
/-- CTX_DISABLE (R352). -/
def execCtxDisable (mb : Fin 64) (s : State) : Res := onU (ctxDisable mb) s
/-- CTX_STATUS (R352): a context mailbox may ask for its own context alone. -/
def ctxStatus (n : Nat) : Units → Units :=
  message 0x0106 n (fun p u =>
    let k := le p 0 1
    let c := tgetD u.ctx k {}
    if k = 0 ∨ 63 < k then keep u (invalid 0)
    else if n ≠ 0 ∧ n ≠ k then keep u (plain 5)
    else keep u (ok (leBytes 1 c.state ++ leBytes 1 c.cohort ++ leBytes 2 (ctxStreams u k) ++ leBytes 4 (ctxJobs u k)
      ++ le8 c.deferrals ++ le8 c.truncs)))
/-- CTX_STATUS (R352). DEDUCED, log 39. -/
def execCtxStatus (mb : Fin 64) (s : State) : Res := onU (ctxStatus mb) s

/- Policies (R233, R234). -/
/-- Whether a 32-bit word is a finite FP32. -/
def finite32 (w : Nat) : Bool := bitsOf w 30 23 != 255
/-- The offset at fault of a category entry (R234), among the entries before it. -/
def catFault (r : Bytes) (k : Nat) : Option Nat :=
  let n := le r 26 1
  let o := 32 + 16 * k
  if n ≤ k then (List.range 16).findSome? (fun i => if le r (o + i) 1 ≠ 0 then some (o + i) else none)
  else
    let cats := polCats r
    let c := cats.getD k { cat := 0, src := 0, side := 0, out := 0, thresh := 0 }
    if c.side = 0 ∨ (c.src < 2 ∧ c.side ≠ 1) ∨ (c.src = 2 ∧ c.side ≠ 2)
        ∨ (cats.take k).any (fun d => d.cat == c.cat && Nat.land d.side c.side != 0) then some o
    else if 63 < c.out then some (o + 2)
    else if le r (o + 3) 1 ≠ 0 then some (o + 3)
    else if !finite32 c.thresh then some (o + 4)
    else if le r (o + 8) 8 ≠ 0 then some (o + 8)
    else none
/-- The lowest offset at fault of a policy record (R234). -/
def policyFault (u : Units) (r : Bytes) : Option Nat :=
  let prof := (policyProfs r).find? (fun f =>
    match nextProfile u f.2.1 with | some x => !profValid x || profMode x != f.2.2 | none => true)
  let bads : List (Bool × Nat) :=
    [(le r 14 2 != 0, 14), (decide (31 < le r 16 1) && le r 16 1 != 0xFF, 16), (decide (31 < le r 17 1) && le r 17 1 != 0xFF, 17),
     (decide (31 < le r 18 1) && le r 18 1 != 0xFF, 18), (le r 19 1 != 0, 19),
     (decide (2 < le r 20 1 % 16) || decide (2 < le r 20 1 / 16), 20), (decide (1 < le r 21 1 % 16) || decide (1 < le r 21 1 / 16), 21),
     (decide (le r 22 2 < 4) || decide (1024 < le r 22 2), 22), (decide (1 < le r 24 2 / 4096), 24), (decide (16 < le r 26 1), 26),
     (le r 27 5 != 0, 27)]
  match prof with
  | some f => some f.1
  | none =>
    match bads.find? (·.1) with
    | some b => some b.2
    | none => (List.range 16).findSome? (catFault r)
/-- POLICY_WRITE (R234). -/
def policyWrite (n : Nat) : Units → Units :=
  message 0x0201 n (fun p u =>
    let id := le p 0 2
    let r := sliceZ p 8 288
    if 1023 < id then keep u (invalid 0)
    else match policyFault u r with
      | some off => keep u (bad 7 5 (8 + off) 0)
      | none =>
        let x := tgetD u.pol id {}
        let v := (x.lastVer + 1) % 2 ^ 32
        keep (schedule (.policy id r v) { u with pol := tset u.pol id { x with last := r, lastVer := v } })
          (ok (leBytes 4 v ++ leBytes 4 0 ++ le8 (nextTick u))))
/-- POLICY_WRITE (R234). -/
def execPolicyWrite (mb : Fin 64) (s : State) : Res := onU (policyWrite mb) s
/-- POLICY_READ (R353). DEDUCED, log 106. -/
def policyRead (n : Nat) : Units → Units :=
  message 0x0202 n (fun p u =>
    let id := le p 0 2
    if 1023 < id then keep u (invalid 0)
    else keep u (ok (leBytes 4 (tgetD u.pol id {}).lastVer ++ leBytes 4 0 ++ sliceZ (polLast u id) 0 288)))
/-- POLICY_READ (R353). -/
def execPolicyRead (mb : Fin 64) (s : State) : Res := onU (policyRead mb) s

end Sys2Proof.Machine
end

