-- ==== Sys2Proof/Machine/Slots.lean ====
section
/-! DEFINITION. Model slots (05, R164 to R167; 12, R354; 09, R288): load, placement, service, unloading, status; the cores
that serve no slot; and the ends of a tempering run that other events cause (18, R494). -/
namespace Sys2Proof.Machine

/-- A slot. -/
def slotAt (u : Units) (n : Nat) : Slot := tgetD u.slot n {}
/-- A slot changed. -/
def modSlot (n : Nat) (f : Slot → Slot) (u : Units) : Units := { u with slot := tset u.slot n (f (slotAt u n)) }

/- Free cores (R166, R433, R488). -/
/-- Whether a tempering run holds a core. -/
def temperHolds (u : Units) (k : Nat) : Bool :=
  u.temper.any (fun r => r.2.cores.any (fun c => c.1 * 16 + c.2 == k) || r.2.loads.any (fun l => l.2.2.1 * 16 + l.2.2.2 == k))
/-- Whether a core is active, serves no slot, does not load, and is claimed by no run. -/
def coreFree (a : Asm) (u : Units) (k : Nat) : Bool :=
  let c := coreAt u k
  decide (k / 16 < engineDies a) && c.slot.isNone && !c.loading && !c.retired && !temperHolds u k
/-- Free cores of the dies of a mask, in ascending order. DEDUCED, log 87. -/
def freeIn (a : Asm) (u : Units) (mask : Nat) : List Nat :=
  (List.range 416).filter (fun k => bitAt mask (k / 16) && coreFree a u k)
/-- The placement die mask of a slot: 0 allows every die. -/
def maskOf (m : Nat) : Nat := if m % 2 ^ 26 = 0 then 2 ^ 26 - 1 else m % 2 ^ 26
/-- Free cores in the order of R433: the dies of a mask, then the other dies. -/
def freeOrder (a : Asm) (u : Units) (mask : Nat) : List Nat :=
  freeIn a u (maskOf mask) ++ freeIn a u (2 ^ 26 - 1 - maskOf mask)

/-- A tempering run ends without a commit (R494): it is idle, its cores and its moment space are free. -/
def temperAborted (run cause : Nat) (u : Units) : Units :=
  let r := tgetD u.temper run {}
  fwNotice 8 0x0982 0 [run, cause, r.done] { u with temper := tset u.temper run {} }
/-- A commit fails (R497): the run is back in state 2. -/
def commitFailed (run : Nat) (u : Units) : Units :=
  let r := tgetD u.temper run {}
  fwNotice 8 0x0982 0 [run, 7, r.done] { u with temper := tset u.temper run { r with state := 2, ready := none, loads := [] } }
/-- A slot's run ends as the slot is unloaded or one of its head cores leaves its place (R494; R497 in state 3). -/
def temperSlotGone (slot : Nat) (u : Units) : Units :=
  forAll (tkeys u.temper) (fun run u =>
    let r := tgetD u.temper run {}
    if r.state = 0 ∨ r.slot ≠ slot then u else temperAborted run 3 u) u

/- Loading (R120, R164, R165). -/
/-- Whether work of n ticks beginning at the next edge falls in ticks Q to Q + 3 of a pending update (R330). -/
def updateClash (u : Units) (n : Nat) : Bool :=
  match u.fw.upd with
  | some w => decide (nextTick u ≤ w.q + 3) && decide (w.q < nextTick u + n)
  | none => false
/-- SLOT_LOAD (R354, R164). DEDUCED, log 86. -/
def slotLoad (n : Nat) (d : Dma) : State → State :=
  messageS 0x0301 n (fun p s =>
    let k := le p 0 1
    let b := bufOf p 16
    let x := slotAt s.u k
    if 31 < k then (s, some (invalid 0))
    else if !bufOk s.u n b then (s, some (invalid 16))
    else if s.u.pins.throt ∨ updateClash s.u (ceilDiv b.len (2 ^ 24)) then (s, some busy0)
    else if x.st ≠ .empty ∨ x.bringing then (s, some (bad 0xA 3 0xFFFF 0x10))
    else match bufRead s n b d with
      | none => (s, some (faultAt 16))
      | some bytes =>
        let x := match t1Fit s.asm s.u b.len with
          | some base => { x with base := base, imgLen := b.len }
          | none => x
        let u := if b.space = 3 then addMove (.load k) (ceilDiv b.len 65536) (s.u.tick.number + 1) s.u else s.u
        ({ s with u := { u with slot := tset u.slot k { x with bringing := true, img := mwrite [] 0 bytes, mb := some n } } }, none))
/-- SLOT_LOAD (R354). -/
def execSlotLoad (mb : Fin 64) (d : Dma) (s : State) : Res := .next (slotLoad mb d s)
/-- IMAGE_STAGED (R164, R165): the image passes its checks, or the load is refused whole with its lowest reason.
DEDUCED, log 86. -/
def imageStaged (a : Asm) (n : Nat) (u : Units) : Units :=
  let x := slotAt u n
  if !x.bringing ∨ !onceRuns u ∨ !moveDone u (.load n) then u
  else
    let p := match x.mb with | some k => payloadOf (tgetD u.mbx k {}) | none => []
    let len := (bufOf p 16).len
    match imageReasons a x.img len (if x.imgLen = 0 then 0 else len) (sliceZ p 32 48) with
    | [] =>
      answerWaiting x.mb (ok (leBytes 8 (mle x.img 40 8) ++ leBytes 1 (imgKind x.img) ++ [0] ++ leBytes 2 (imgNcore x.img)))
        (modSlot n (fun x => { x with st := .staged, bringing := false, imageId := mle x.img 40 8, mb := none }) u)
    | l =>
      answerWaiting x.mb (bad 0xA 3 0xFFFF (l.foldl min 255)) { u with slot := tset u.slot n {} }
/-- IMAGE_STAGED (R165). -/
def execImageStaged (slot : Fin 32) (s : State) : Res := onU (imageStaged s.asm slot) s

/- Placement (R166, R121). -/
/-- A core bound to a slot, its load begun. -/
def bindCore (slot rep lidx k : Nat) (u : Units) : Units :=
  modCore k (fun c => { c with slot := some slot, rep := rep, lidx := lidx, loading := true }) u
/-- A core that serves no slot any longer; its physical place, its spares and its clipping counters stay as they are.
DESIGN CHOICE, log 217. DEDUCED, log 227. -/
def unbindCore (k : Nat) (u : Units) : Units :=
  modCore k (fun c => { c with
    slot := none, rep := 0, lidx := 0, loading := false, launch := none, ring := [], ringPtr := 0
    s := [], spois := [], v := [], vpois := [], istore := [], stalled := none, qv := [], qh := [], hOut := 0
    eng := tmap c.eng (fun _ e => { e with w := {}, check := [], bufs := [], last := none }) }) u
/-- The semaphores of a slot given back. -/
def semFree (slot : Nat) (u : Units) : Units :=
  { u with
    sem := u.sem.filter (fun e => tget u.semSlot e.1 != some slot)
    semSlot := u.semSlot.filter (fun e => e.2 != slot) }
/-- The semaphores of one replica's map placed on the dies it spans: the lowest free of each die (DESIGN CHOICE, log 12). -/
def semPlace (slot : Nat) (section_ : Bytes) (dies : List Nat) : List Nat → Units → Option Units
  | [], u => some u
  | k :: l, u =>
    let die := dies.getD (Config.semMapEntry k section_ % dies.length) 0
    match (fromN (die * 64) 64).find? (fun i => (tget u.semSlot i).isNone) with
    | none => none
    | some i => semPlace slot section_ dies l { u with semSlot := tset u.semSlot i slot }
/-- The semaphores of every replica of a placement. -/
def semAll (slot : Nat) (x : Slot) (cores : List Nat) : Nat → Units → Option Units
  | 0, u => some u
  | r + 1, u =>
    match semAll slot x cores r u with
    | none => none
    | some u =>
      let n := imgNcore x.img
      let dies := (((cores.drop (r * n)).take n).map (· / 16)).eraseDups
      let sec := match secFind (imgSecs x.img x.imgLen) 6 0xFFFF 0xFF with
        | some y => mread x.img y.off y.len
        | none => []
      if sec.isEmpty then some u else semPlace slot sec dies (List.range (mle x.img 34 2)) u
/-- SLOT_PLACE (R354, R166). DESIGN CHOICE, log 27. DEDUCED, log 87. DEDUCED, log 88. -/
def slotPlace (a : Asm) (n : Nat) : Units → Units :=
  message 0x0302 n (fun p u =>
    let k := le p 0 1
    let nrep := le p 1 1
    let share := le p 2 2
    let mask := le p 8 8
    let x := slotAt u k
    if 31 < k then keep u (invalid 0)
    else if nrep = 0 ∨ 32 < nrep then keep u (invalid 1)
    else if 512 < share then keep u (invalid 2)
    else if u.pins.throt ∨ updateClash u 8 then keep u busy0
    else if x.st ≠ .staged then keep u (plain 8)
    else
      let ncore := imgNcore x.img
      let cores := (freeIn a u (if mask = 0 then 2 ^ 26 - 1 else mask % 2 ^ 26)).take (nrep * ncore)
      if cores.length < nrep * ncore then keep u (bad 0xA 3 0xFFFF 5)
      else match semAll k x cores nrep u with
        | none => keep u (bad 0xA 3 0xFFFF 0x0A)
        | some u =>
          let bind := (List.range cores.length).map (fun i =>
            let c := cores.getD i 0
            ({ rep := i / ncore, lidx := i % ncore, die := c / 16, core := c % 16 } : Binding))
          let u := bind.foldl (fun u b => bindCore k b.rep b.lidx (b.die * 16 + b.core) u) u
          (modSlot k (fun x => { x with
            st := .loading, nrep := nrep, bind := bind, mqShare := share, clipPpm := le p 4 4, dieMask := mask, mb := some n }) u, none))
/-- SLOT_PLACE (R354). -/
def execSlotPlace (mb : Fin 64) (s : State) : Res := onU (slotPlace s.asm mb) s
/-- Key of a bound core. -/
def bindKey (b : Binding) : Nat := b.die * 16 + b.core
/-- The instruction store that an image gives a logical core (R116, R157). -/
def imgStore (m : Memory) (len core : Nat) : Memory :=
  match secFind (imgSecs m len) 1 core 0xFF with
  | some x => mcopy [] m 0 x.off x.len
  | none => []
/-- A core's arrays with their check bits, tables, instruction store and SRAM initial data as its slot's image gives them
(R105, R116, R159 to R161): its load has ended. -/
def coreLoaded (k : Nat) (s : State) : State :=
  let c := coreAt s.u k
  match c.slot with
  | none => s
  | some n =>
    let x := slotAt s.u n
    let eng := (List.range 16).foldl (fun t e =>
      tmod t e {} (fun g =>
        let w := imgWeights x.img x.imgLen c.lidx e
        { g with w := w, check := tmap w.cells (fun _ v => Config.rowCheck v), last := none })) c.eng
    let u := setCore k { c with
      loading := false, eng := eng, ring := [], ringPtr := 0, istore := imgStore x.img x.imgLen c.lidx } s.u
    match imgData x.img x.imgLen c.lidx with
    | none => { s with u := u }
    | some d => sramWrite k d.1 d.2 false { s with u := u }
/-- PLACE_LOAD_DONE (R165, R121): the slot is RESIDENT; an array that failed with no spare left returns it to STAGED. -/
def placeLoadDone (n : Nat) (s : State) : State :=
  let x := slotAt s.u n
  if x.st ≠ .loading ∨ !onceRuns s.u then s
  else if x.bind.any (fun b => (coreAt s.u (bindKey b)).eng.any (fun e => !e.2.marked.isEmpty)) then
    let u := x.bind.foldl (fun u b => unbindCore (bindKey b) u) (semFree n s.u)
    let u := modSlot n (fun x => { x with st := .staged, nrep := 0, bind := [], mb := none }) u
    { s with u := answerWaiting x.mb (bad 0xA 3 0xFFFF 0x0E) u }
  else
    let s := x.bind.foldl (fun s b => coreLoaded (bindKey b) s) s
    let wins := (Config.slotWindows n x.imageId).map (fun w => ({ space := w.1, base := w.2.1, len := w.2.2 } : DmaWin))
    let u := modSlot n (fun x => { x with st := .resident, wins := wins, mb := none }) s.u
    { s with u := recheckSoon (answerWaiting x.mb (ok (leBytes 2 x.bind.length)) u) }
/-- PLACE_LOAD_DONE (R165). -/
def execPlaceLoadDone (slot : Fin 32) (s : State) : Res := .next (placeLoadDone slot s)

/- Service, unloading, status (R166, R288). -/
/-- Whether a slot-holding stream has stepped under a slot. -/
def steppedUnder (u : Units) (n : Nat) : Bool :=
  u.str.any (fun e => holds e.2 && e.2.stepped.contains n)
/-- The reasons that keep a slot from entering service (R166), in ascending order. DEDUCED, log 93. -/
def serviceReasons (a : Asm) (u : Units) (n : Nat) : List Nat :=
  let ctxs := (u.ctx.filter (fun e => e.2.state == 2)).map (·.1)
  let x := slotAt u n
  ctxs.flatMap (fun c => (contextCheck a u c [] (some n)).map (·.1))
    ++ (if imgKind x.img == 1 && decide (u.mat.ntok < imgVocab x.img) then [0x0209] else [])
/-- SLOT_SERVICE (R354, R166, R288). DEDUCED, log 89. -/
def slotService (a : Asm) (n : Nat) : Units → Units :=
  message 0x0303 n (fun p u =>
    let k := le p 0 1
    let enter := le p 1 1
    let x := slotAt u k
    let head := imgKind x.img == 1
    if 31 < k then keep u (invalid 0)
    else if 1 < enter then keep u (invalid 1)
    else if enter = 1 then
      if x.st ≠ .resident ∨ x.move.isSome then keep u (plain 8)
      else if head && le p 4 4 != 0 then keep u (invalid 4)
      else if head && le p 8 2 != 0 then keep u (invalid 8)
      else
        let u' := modSlot k (fun x => { x with u := le p 4 4, l := le p 8 2 }) u
        match serviceReasons a u' k with
        | [] =>
          keep (schedule (.slot k true) (modSlot k (fun x => { x with move := some (true, nextTick u) }) u')) (ok (le8 (nextTick u)))
        | l => keep u (bad 0xA 1 0xFFFF (l.foldl min 0xFFFF))
    else if x.st ≠ .inService ∨ x.move.isSome ∨ steppedUnder u k then keep u (plain 8)
    else
      keep (schedule (.slot k false) (modSlot k (fun x => { x with move := some (false, nextTick u) }) u)) (ok (le8 (nextTick u))))
/-- SLOT_SERVICE (R354). -/
def execSlotService (mb : Fin 64) (s : State) : Res := onU (slotService s.asm mb) s
/-- The arrays and cores of a set of cores whose spare loads end as their slot is unloaded (R435, R453): a planned
retirement is abandoned; a failed unit's spare takes its place with nothing to hold. DEDUCED, log 92. -/
def dropLoads (a : Asm) (keys : List Nat) (u : Units) : Units :=
  let mine (x : RUnit) : Bool := match x with
    | .array c _ _ => keys.contains (coreKey c)
    | .core c => keys.contains (coreKey c)
    | _ => false
  let gone := u.svc.planned.filter (fun p => mine p.1)
  let u := { u with svc := { u.svc with planned := u.svc.planned.filter (fun p => !mine p.1) } }
  forAll (gone.filter (fun p => p.2 != 1)) (fun p u =>
    let u := spareTaken a p.1 p.2 16 u
    match p.1 with
    | .array c e r => modCore (coreKey c) (modEng e (fun g => { g with spareFor := some r.val })) u
    | .core c => modCore (coreKey c) (fun k => { k with phys := some 16 }) u
    | _ => u) u
/-- SLOT_UNLOAD (R354, R165, R288): the cores, the semaphores and the shadow copy are free. DEDUCED, log 92. -/
def slotUnload (a : Asm) (n : Nat) : Units → Units :=
  message 0x0304 n (fun p u =>
    let k := le p 0 1
    let x := slotAt u k
    if 31 < k then keep u (invalid 0)
    else if !(x.st == .staged || x.st == .resident) ∨ x.move.isSome ∨ steppedUnder u k then keep u (plain 8)
    else
      let keys := x.bind.map bindKey
      let u := dropLoads a keys (temperSlotGone k (semFree k u))
      let u := keys.foldl (fun u c => unbindCore c u) u
      keep (recheckSoon { u with slot := tset u.slot k {} }) (ok []))
/-- SLOT_UNLOAD (R354). -/
def execSlotUnload (mb : Fin 64) (s : State) : Res := onU (slotUnload s.asm mb) s
/-- STATE of SLOT_STATUS. -/
def slotCode : SlotState → Nat
  | .empty => 0
  | .staged => 1
  | .loading => 2
  | .resident => 3
  | .inService => 4
/-- The binding entries of a slot, by replica and logical core (R354). -/
def bindEntries (u : Units) (x : Slot) : Bytes :=
  (sortBy (fun (b c : Binding) => b.rep < c.rep || (b.rep == c.rep && b.lidx < c.lidx)) x.bind).flatMap (fun b =>
    leBytes 1 b.rep ++ leBytes 1 b.die ++ leBytes 1 ((coreAt u (bindKey b)).phys.getD b.core) ++ [0] ++ leBytes 2 b.lidx ++ leBytes 2 0)
/-- SLOT_STATUS (R354). -/
def slotStatus (n : Nat) (flt : Bool) : State → State :=
  messageS 0x0305 n (fun p s =>
    let k := le p 0 1
    let b := bufOf p 16
    let x := slotAt s.u k
    if 31 < k then (s, some (invalid 0))
    else if !bufOk s.u n b then (s, some (invalid 16))
    else
      let named := x.st != .empty
      let resp := leBytes 1 (slotCode x.st)
        ++ (if named then leBytes 1 (imgKind x.img) ++ leBytes 2 (imgNcore x.img) ++ leBytes 1 x.nrep ++ leBytes 3 0 ++ leBytes 8 x.imageId
              ++ mread x.img 48 48
            else leBytes 63 0)
      let data := (bindEntries s.u x).take (b.len / 8 * 8)
      if b.len = 0 then (s, some (ok resp))
      else
        let r := bufWrite s n b data flt
        (r.1, some (if r.2 then ok resp else faultAt 16)))
/-- SLOT_STATUS (R354). -/
def execSlotStatus (mb : Fin 64) (flt : Bool) (s : State) : Res := .next (slotStatus mb flt s)

end Sys2Proof.Machine
end

