-- ==== Sys2Proof/Machine/Arrays.lean ====
section
/-! DEFINITION. Arrays in service: scrub reads and row writes (04, R106 to R108, R121), clipping counters (03, R95, R96) and
reference mode (R98 to R100). Retirement is in Retire. -/
namespace Sys2Proof.Machine

/-- An engine of a core. -/
def engOf (u : Units) (k e : Nat) : Eng := engAt (coreAt u k) e
/-- An engine of a core changed. -/
def onEng (k e : Nat) (f : Eng → Eng) (u : Units) : Units := modCore k (modEng e f) u
/-- A unit's fault retirement is decided. -/
def decideFault (x : RUnit) (u : Units) : Units :=
  if u.svc.decided.contains x then u else { u with svc := { u.svc with decided := u.svc.decided ++ [x] } }
/-- First byte in tier 1 of a row of an engine in the shadow copy of its slot (R120, R159). -/
def shadowRow (u : Units) (k e row : Nat) : Option (Nat × Nat) :=
  let c := coreAt u k
  match c.slot with
  | none => none
  | some n =>
    let x := slotAt u n
    (secFind (imgSecs x.img x.imgLen) 2 c.lidx e).map (fun y => (n, x.base + y.off + 64 + row * 128))
/-- The row of an engine as the shadow copy holds it. -/
def shadowCells (u : Units) (k e row : Nat) : Nat :=
  let c := coreAt u k
  match c.slot with
  | none => 0
  | some n => let x := slotAt u n; imgRow x.img x.imgLen c.lidx e row

/- Scrubbing (R106 to R108). -/
/-- A pass in progress once a row of engine e is found uncorrectable: the outputs that use the row are poisoned, those of e
itself, or of the head of a chain that e is part of (R108). -/
def taintPass (e : Nat) (p : Pass) : Pass :=
  let chain := p.outs.any (fun o => o.data.isEmpty)
  if p.outs.any (fun o => o.engine == e) then
    { p with outs := p.outs.map (fun o => if chain || o.engine == e then { o with poison := true } else o) }
  else p
/-- Outputs of the present tick's passes of an engine, and those of its passes in progress, become poisoned (R108). -/
def taintPasses (k e : Nat) (u : Units) : Units :=
  let g := engOf u k e
  let outs := if g.outTick = u.tick.number then g.outs else []
  let u := forAll outs (fun o u => sramTaint k o.1 o.2 u) u
  modCore k (fun c => { c with passes := c.passes.map (taintPass e) }) u
/-- A row's cells written, with their check bits (R105, R121). -/
def putRow (r v : Nat) (g : Eng) : Eng :=
  { g with w := { g.w with cells := tset g.w.cells r v }, check := tset g.check r (Config.rowCheck v) }
/-- An uncorrectable row (R106, R108, R423): its notice, its outputs poisoned, the row rewritten from the shadow; a poisoned
shadow unit leaves the row beyond repair. The tick of a row never scrubbed clean reads 0: DESIGN CHOICE, log 219. -/
def scrubUncorr (id : CoreId) (e a row : Nat) (u : Units) : Units :=
  let k := coreKey id
  let r := a * 1024 + row
  let die := dieKey 0 (k / 16)
  let u := notice die 0x0204 0 [arrayLoc u k e a row, tgetD (engOf u k e).scrubbed r 0] (dieBump die 0x39 1 u)
  let u := taintPasses k e u
  match shadowRow u k e r with
  | none => onEng k e (putRow r 0) u
  | some (n, addr) =>
    if u.tier.pois1.contains (addr / 64) ∨ u.tier.pois1.contains (addr / 64 + 1) then
      decideFault (.array id (Fin.ofNat 16 e) (Fin.ofNat 16 a)) (notice die 0x0F06 0 [n, addr] u)
    else onEng k e (putRow r (shadowCells u k e r)) u
/-- Whether an array of an engine is idle: no pass is in progress in it, and none is queued on it (R103, R107, R124). -/
def engIdle (c : CoreSt) (e : Nat) : Bool := !(engAt c e).busy && !c.qm.any (fun op => (maskEngines op.mask).contains e)
/-- A row of the sweep of its array read; a whole sweep ends the array's urgency (R107, R402). -/
def sweepRow (asm : Asm) (id : CoreId) (e a : Fin 16) (row : Nat) (u : Units) : Units :=
  let k := coreKey id
  let g := engOf u k e
  let r := a.val * 1024 + row
  let l := if g.swept.contains r then g.swept else g.swept ++ [r]
  let whole := decide ((l.filter (fun x => x / 1024 == a.val)).length = 1024)
  let u := onEng k e (fun g => { g with swept := if whole then l.filter (fun x => x / 1024 != a.val) else l }) u
  if whole then urgentDone 1 (some (unitLoc asm (.array id e a))) u else u
/-- ARRAY_SCRUB_READ (R106, R107): a read that would meet a pass waits for a later idle slot (R124). -/
def arrayScrubRead (asm : Asm) (id : CoreId) (e a : Fin 16) (row : Fin 1024) (out : Ecc) (u : Units) : Units :=
  let k := coreKey id
  let die := dieKey 0 (k / 16)
  if engineDies asm ≤ id.die ∨ (coreAt u k).retired ∨ !engIdle (coreAt u k) e then u
  else
    let u := sweepRow asm id e a row (dieBump die 0x37 1 u)
    match out with
    | .clean => onEng k e (fun g => { g with scrubbed := tset g.scrubbed (a * 1024 + row) u.tick.number }) u
    | .corrected => setCorr (dieBump die 0x38 1 u)
    | .uncorrectable => scrubUncorr id e a row u
/-- ARRAY_SCRUB_READ (R106). DEDUCED, log 85. -/
def execArrayScrubRead (c : CoreId) (engine array : Fin 16) (row : Fin 1024) (out : Ecc) (s : State) : Res :=
  onU (arrayScrubRead s.asm c engine array row out) s

/- Row writes (R121, R124). -/
/-- A row failed its second verification: what follows depends on what the load is for. DEDUCED, log 90. -/
def rowFailed (asm : Asm) (id : CoreId) (e a : Fin 16) (u : Units) : Units :=
  let k := coreKey id
  let x : RUnit := .array id e a
  let planned (y : RUnit) : Bool := u.svc.planned.any (fun p => p.1 == y && p.2 == 1)
  let drop (y : RUnit) (u : Units) : Units :=
    spareUse y { u with svc := { u.svc with planned := u.svc.planned.filter (fun p => p.1 != y) } }
  match u.temper.find? (fun r => r.2.loads.any (fun l => l.2.2.1 * 16 + l.2.2.2 == k)) with
  | some r => commitFailed r.1 u
  | none =>
    if planned x then drop x u
    else if planned (.core id) then drop (.core id) u
    else if u.svc.planned.any (fun p => p.1 == x) then decideFault x (drop x u)
    else if (coreAt u k).loading then
      if (engOf u k e).spareFor.isNone ∧ 0 < spareFree u.svc x then
        onEng k e (fun g => { g with spareFor := some a.val }) (spareTaken asm x 2 16 u)
      else if (slotAt u ((coreAt u k).slot.getD 32)).st = .loading then
        onEng k e (fun g => { g with marked := if g.marked.contains a.val then g.marked else g.marked ++ [a.val] }) u
      else decideFault (.core id) u
    else decideFault x u
/-- Whether the spare of an array, or of its core, loads while the unit serves (R123). -/
def spareLoads (u : Units) (id : CoreId) (e a : Fin 16) : Bool :=
  u.svc.planned.any (fun p => p.2 == 1 && (p.1 == .array id e a || p.1 == .core id))
/-- WEIGHT_ROW_WRITE (R121): a row of a loading core, of a spare being loaded, or of an array being repaired. A row of an
array in service is not written while a pass is in progress in it (R103); a row of a spare that loads while its unit serves
leaves the unit's own cells as they are (R123). -/
def weightRowWrite (asm : Asm) (id : CoreId) (e a : Fin 16) (row : Fin 1024) (v1 v2 : Bool) (u : Units) : Units :=
  let k := coreKey id
  let r := a * 1024 + row.val
  let own := (coreAt u k).slot.isSome && !spareLoads u id e a
  if engineDies asm ≤ id.die ∨ ((coreAt u k).slot.isNone ∧ !temperHolds u k) ∨ (own && (engOf u k e).busy) then u
  else
    let u := if own then onEng k e (putRow r (shadowCells u k e r)) u else u
    let u := if v1 then u else dieBump (dieKey 0 (k / 16)) 0x3A 1 u
    if v1 || v2 then u else rowFailed asm id e a u
/-- WEIGHT_ROW_WRITE (R121). -/
def execWeightRowWrite (c : CoreId) (engine array : Fin 16) (row : Fin 1024) (v1 v2 : Bool) (s : State) : Res :=
  onU (weightRowWrite s.asm c engine array row v1 v2) s

/- Clipping (R95, R96). -/
/-- Groups of an engine that stand above a threshold over the ticks since the last check, with their shares in ppm.
DEDUCED, log 67. DESIGN CHOICE, log 217. -/
def clipShares (g : Eng) (ppm : Nat) : List (Nat × Nat) :=
  (List.range 16).filterMap (fun i =>
    let n := tgetD g.span i (0, 0)
    if ppm * n.1 < 1000000 * n.2 then some (i, 1000000 * n.2 / max n.1 1) else none)
/-- The check of one engine. -/
def clipEngine (k e ppm : Nat) (u : Units) : Units :=
  let g := engOf u k e
  let high := if ppm = 0 then [] else clipShares g ppm
  let u := forAll (high.filter (fun h => !g.clipHigh.contains h.1)) (fun h u =>
    fwNotice 8 0x0201 0 [arrayLoc u k e 0 0, h.1, h.2] u) u
  onEng k e (fun g => { g with span := [], clipHigh := high.map (·.1) }) u
/-- Whether 1,024 ticks have passed since the last clip check. DESIGN CHOICE, log 217. -/
def clipDue (u : Units) : Bool := decide (u.svc.clipAt + 1024 ≤ u.tick.number) || decide (u.tick.number < u.svc.clipAt)
/-- The clip check of every slot's engines (R96). -/
def clipCheck (u : Units) : Units :=
  let u := { u with svc := { u.svc with clipAt := u.tick.number } }
  forAll u.slot (fun n u =>
    forAll n.2.bind (fun b u => forAll (tkeys (coreAt u (bindKey b)).eng) (fun e u => clipEngine (bindKey b) e n.2.clipPpm u) u) u) u
/-- CLIP_CHECK (R96). -/
def execClipCheck (s : State) : Res := onU (fun u => if roleRuns u 8 && clipDue u then clipCheck u else u) s
/-- The records of CLIP_READ (R359): every group of every engine of the slot's cores, by location. -/
def clipRecords (u : Units) (x : Slot) : Bytes :=
  (sortBy (fun a b => decide (a < b)) (x.bind.map bindKey)).flatMap (fun k => (List.range 16).flatMap (fun e =>
    let g := engOf u k e
    (List.range 16).flatMap (fun i =>
      leBytes 8 (arrayLoc u k e i 0) ++ leBytes 4 (tgetD g.quant i 0) ++ leBytes 4 (tgetD g.clip i 0))))
/-- CLIP_READ (R359, R95). -/
def clipRead (n : Nat) (flt : Bool) : State → State :=
  messageS 0x0803 n (fun p s =>
    let k := le p 0 1
    let b := bufOf p 16
    let x := slotAt s.u k
    if 31 < k then (s, some (invalid 0))
    else if 1 < le p 1 1 then (s, some (invalid 1))
    else if !bufOk s.u n b then (s, some (invalid 16))
    else
      let data := (clipRecords s.u x).take (b.len / 16 * 16)
      let r := bufWrite s n b data flt
      if !r.2 then (r.1, some (faultAt 16))
      else
        let u := if le p 1 1 = 1 then
            forAll x.bind (fun c u => modCore (bindKey c) (fun c => { c with eng := tmap c.eng (fun _ g =>
              { g with quant := [], clip := [] }) }) u) r.1.u
          else r.1.u
        ({ r.1 with u := u }, some (ok (leBytes 4 (data.length / 16)))))
/-- CLIP_READ (R359). -/
def execClipRead (mb : Fin 64) (flt : Bool) (s : State) : Res := .next (clipRead mb flt s)

/- Reference mode (R98 to R100). -/
/-- Core key and engine of a location (R306). -/
def locEngine (l : Nat) : Nat × Nat × Nat × Nat := (bitsOf l 63 61, bitsOf l 60 56, bitsOf l 55 52, bitsOf l 51 48)
/-- REF_START (R359, R98). -/
def refStart (a : Asm) (n : Nat) : Units → Units :=
  message 0x0804 n (fun p u =>
    let k := le p 0 1
    let mode := le p 1 1
    let (kind, die, core, e) := locEngine (le p 8 8)
    let c := die * 16 + core
    if 31 < k then keep u (invalid 0)
    else if 2 < mode then keep u (invalid 1)
    else if le p 2 2 = 0 then keep u (invalid 2)
    else if kind ≠ 0 ∨ engineDies a ≤ die ∨ (coreAt u c).slot ≠ some k then keep u (invalid 8)
    else if mode ≠ 0 ∧ imgKind (slotAt u k).img = 1 then keep u (invalid 1)
    else if u.pins.throt then keep u busy0
    else if u.ref.any (fun r => r.running && r.die == die && r.core == core && r.engine == e) then keep u (plain 8)
    else
      let old := u.ref.filter (fun r => !(r.die == die && r.core == core && r.engine == e))
      let run : RefRun := { die := die, core := core, engine := e, slot := k, mode := mode, ticks := le p 2 2, tol := le p 4 4
                            first := nextTick u }
      keep { u with ref := old ++ [run] } (ok (le8 (nextTick u))))
/-- REF_START (R359). -/
def execRefStart (mb : Fin 64) (s : State) : Res := onU (refStart s.asm mb) s
/-- A finite value in units of 2^-149. -/
def fix149 (f : FF) (w : Nat) : Option Int :=
  match fdec f w with
  | .fin neg m e => let v : Int := ((m * 2 ^ (e + 149).toNat : Nat) : Int); some (if neg then -v else v)
  | _ => none
/-- The engines of the last pass of an engine, the one that rescaled first: weights, row, source, row group. -/
def refParts (c : CoreSt) (e : Nat) : List (Weights × InBuf × Nat) :=
  (engAt c e).chain.filterMap (fun j => let g := engAt c j; g.last.map (fun l => (g.w, l.1, l.2.1)))
/-- A pass recomputed in INT8 mode (R98): column j. DEDUCED, log 83. -/
def refInt8 (parts : List (Weights × InBuf × Nat)) (f : FF) (j : Nat) : Nat :=
  match parts with
  | [] => 0
  | (w, b, _) :: _ =>
    match b.src with
    | none => 0
    | some (x, outl, _) =>
      let row := (quantiseWith .int8 (((List.range x.length).zip (x.map bfInt)).filter (fun p => outl.contains p.1)) x).1
      let acc := (parts.map (fun q =>
        let first := match q.2.1.src with | some y => y.2.2 | none => 0
        q.1.acc (row.segment (first / 16384)) q.2.2 j)).sum
      (w.rescale f acc row.sMant row.sExp j).1
/-- A pass recomputed in BF16 mode (R98): each weight its integer times its column's scale, in BF16; fused multiply-adds in
256 lanes in ascending channel, then the tree of R139. DEDUCED, log 83. -/
def refBf16 (parts : List (Weights × InBuf × Nat)) (j : Nat) : Nat :=
  match parts with
  | [] => 0
  | (w, _, _) :: _ =>
    let t := tgetD w.table j {}
    let terms := parts.flatMap (fun q =>
      match q.2.1.src with
      | none => []
      | some (x, _, first) =>
        let n := q.2.1.row.codes.length
        (((List.range n).zip ((x.drop first).take n))).map (fun p =>
          let row := tgetD q.1.cells (q.2.2 * (16384 / q.1.groups) + p.1) 0
          (first + p.1, p.2, froundI .bf16 (weightOf q.1.wfmt row j * t.rm) (w.rx - t.rs))))
    let lanes := (List.range 256).map (fun l =>
      (terms.filter (fun p => p.1 % 256 == l)).foldl (fun acc p => ffma .bf16 p.2.1 p.2.2 acc) 0)
    treeSum .bf16 8 lanes
/-- The statistics of one wide-mode comparison added: for each column the difference from the delivered output.
DEDUCED, log 83. -/
def refStats (c : CoreSt) (r : RefRun) : Tbl (Nat × Nat × Nat) :=
  let g := engAt c r.engine
  let parts := refParts c r.engine
  let f := match g.last with | some l => l.2.2 | none => .bf16
  let size := match f with | .bf16 => 2 | .fp32 => 4
  (List.range (g.lastOut.length / size)).foldl (fun t j =>
    let wide := if r.mode = 1 then fix149 f (refInt8 parts f j) else fix149 .bf16 (refBf16 parts j)
    tmod t j (0, 0, 0) (fun st =>
      match wide, fix149 f (le g.lastOut (j * size) size) with
      | some a, some b => (max st.1 (a - b).natAbs, st.2.1 + (a - b).natAbs ^ 2, st.2.2)
      | _, _ => (st.1, st.2.1, st.2.2 + 1))) r.stats
/-- A tick in which a run finds no spare time (R100): counted once, and not where the run made a comparison in it. -/
def refSkip (t : Nat) (r : RefRun) : RefRun :=
  if r.cmpAt = some t ∨ r.skipAt = some t then r else { r with skipped := r.skipped + 1, skipAt := some t }
/-- A pass compared in a tick (R100): the tick is no skipped one. -/
def refCount (t : Nat) (r : RefRun) : RefRun :=
  let r := if r.skipAt = some t then { r with skipped := r.skipped - 1, skipAt := none } else r
  { r with compared := r.compared + 1, cmpAt := some t }
/-- REF_COMPARE (R98 to R100). A pass is exact (R102): in NARROW mode the comparison fails where an array's cells gave a wrong
sum, and only there. DESIGN CHOICE, log 84. -/
def refCompare (id : CoreId) (e : Nat) (spare : Bool) (bad : Option (Fin 16)) (u : Units) : Units :=
  let k := coreKey id
  let c := coreAt u k
  let g := engAt c e
  let mine (r : RefRun) : Bool :=
    r.running && r.die * 16 + r.core == k && r.engine == e && r.first ≤ u.tick.number && decide (u.tick.number < r.first + r.ticks)
  let upd (f : RefRun → RefRun) (u : Units) : Units := { u with ref := u.ref.map (fun r => if mine r then f r else r) }
  match u.ref.find? mine with
  | none => u
  | some r =>
    if !spare ∨ u.pins.throt then upd (refSkip u.tick.number) u
    else match g.last with
      | none => u
      | some l =>
        if l.1.row.poison ∨ (r.mode ≠ 0 ∧ l.1.src.isNone) then u
        else if r.mode = 0 then
          match bad with
          | none => upd (refCount u.tick.number) u
          | some a =>
            let u := upd (fun r => { refCount u.tick.number r with mismatches := r.mismatches + 1 }) u
            decideFault (.array id (Fin.ofNat 16 e) a) (sramTaint k g.lastAt g.lastOut.length
              (fwNotice 8 0x0202 0 [arrayLoc u k e a 0] u))
        else upd (fun r => { refCount u.tick.number r with stats := refStats c r }) u
/-- REF_COMPARE (R98). -/
def execRefCompare (c : CoreId) (engine : Fin 16) (spareTime : Bool) (bad : Option (Fin 16)) (s : State) : Res :=
  onU (refCompare c engine spareTime bad) s
/-- The largest absolute difference of a column as FP32. -/
def refMax (st : Nat × Nat × Nat) : Nat := fround .fp32 false st.1 1 (-149)
/-- The root mean square of a column's differences over n passes as FP32. -/
def refRms (st : Nat × Nat × Nat) (n : Nat) : Nat :=
  let d := max n 1
  let v := st.2.1 * 4 ^ 200
  let q := isqrt (v / d)
  fround .fp32 false (2 * q + b2n (q * q * d != v)) 1 (-350)
/-- REF_DONE (R359, R99): the run has lasted its ticks. A column above tolerance has one notice, with its largest difference.
DESIGN CHOICE, log 218. -/
def refDone (id : CoreId) (e : Nat) (u : Units) : Units :=
  let k := coreKey id
  let mine (r : RefRun) : Bool :=
    r.running && r.die * 16 + r.core == k && r.engine == e && decide (r.first + r.ticks ≤ u.tick.number)
  match u.ref.find? mine with
  | none => u
  | some r =>
    let u := { u with ref := u.ref.map (fun x => if mine x then { x with running := false } else x) }
    let u := forAll (r.stats.filter (fun st => fgt .fp32 (refMax st.2) r.tol)) (fun st u =>
      fwNotice 8 0x0203 0 [arrayLoc u k e 0 0, st.1, refMax st.2] u) u
    fwNotice 8 0x0C02 0 [arrayLoc u k e 0 0, r.mismatches] u
/-- REF_DONE (R359). -/
def execRefDone (c : CoreId) (engine : Fin 16) (s : State) : Res := onU (refDone c engine) s
/-- A statistic of a column: a difference that was not finite has no stated value (DESIGN CHOICE, log 7). -/
def refWord (bad : Bool) (v : Nat) (u : Units) : Bytes × Units :=
  if bad then let d := drawWord u; (leBytes 4 d.1.toNat, d.2) else (leBytes 4 v, u)
/-- REF_REPORT (R359): the run started last. -/
def refReport (n : Nat) (flt : Bool) : State → State :=
  messageS 0x0805 n (fun p s =>
    let b := bufOf p 16
    if !bufOk s.u n b then (s, some (invalid 16))
    else
      let r := s.u.ref.getLastD { running := false }
      let d := r.stats.foldl (fun x st =>
        let bad := 0 < st.2.2.2
        let m := refWord bad (refMax st.2) x.2
        let q := refWord bad (refRms st.2 r.compared) m.2
        (x.1 ++ m.1 ++ q.1, q.2)) (([] : Bytes), s.u)
      let w := bufWrite { s with u := d.2 } n b (d.1.take (b.len / 8 * 8)) flt
      (w.1, some (if w.2 then
          ok (leBytes 4 r.compared ++ leBytes 4 r.skipped ++ leBytes 4 r.mismatches ++ leBytes 1 (b2n r.running))
        else faultAt 16)))
/-- REF_REPORT (R359). -/
def execRefReport (mb : Fin 64) (flt : Bool) (s : State) : Res := .next (refReport mb flt s)

end Sys2Proof.Machine
end

