-- ==== Sys2Proof/Machine/Windows.lean ====
section
/-! DEFINITION. Fabric windows and the tier messages (12, R357; 13, R382, R383; 17, R460): imports, exports, requests that
the block answers, responses to its own transactions, tier-2 ranges, tier-1 areas. -/
namespace Sys2Proof.Machine

/- Messages (R357). -/
/-- Whether an import of a window is accepted and not yet in effect. -/
def importDue (u : Units) (w : Nat) : Bool :=
  u.changes.any (fun c => match c.2 with | .winImport k _ => k == w | _ => false)
/-- WINDOW_IMPORT (R357, R289). DEDUCED, log 194. -/
def windowImport (n : Nat) : Units → Units :=
  message 0x0601 n (fun p u =>
    let w := le p 0 1
    if w = 0 ∨ 254 < w then keep u (invalid 0)
    else if 1 < le p 1 1 then keep u (invalid 1)
    else if (tget u.tier.imports w).isSome ∨ importDue u w then keep u (plain 8)
    else
      let d : Win := { pauseOk := le p 1 1 == 1, rtt := le p 4 4, base := le p 8 8, len := le p 16 8 }
      keep (schedule (.winImport w d) u) (ok (le8 (nextTick u))))
/-- WINDOW_IMPORT (R357). -/
def execWindowImport (mb : Fin 64) (s : State) : Res := onU (windowImport mb) s
/-- WINDOW_EXPORT (R357). DEDUCED, log 194. -/
def windowExport (n : Nat) : Units → Units :=
  message 0x0602 n (fun p u =>
    let tier := le p 1 1
    if tier ≠ 1 ∧ tier ≠ 2 then keep u (invalid 1)
    else if 1 < le p 2 1 then keep u (invalid 2)
    else
      let d : Win := { base := le p 24 8, len := le p 16 8, tier := tier, writable := le p 2 1 == 1, loc := le p 8 8 }
      keep (schedule (.winExport (le p 0 1) d) u) (ok (le8 (nextTick u))))
/-- WINDOW_EXPORT (R357). -/
def execWindowExport (mb : Fin 64) (s : State) : Res := onU (windowExport mb) s
/-- A saved state's entry of the directory changed. -/
def modSaved (e : Nat) (f : Saved → Saved) (u : Units) : Units :=
  { u with tier := { u.tier with saved := tupd u.tier.saved e f } }
/-- WINDOW_DEPART (R290): the window's saved states are being moved from now on. DEDUCED, log 198. -/
def windowDepart (n : Nat) : Units → Units :=
  message 0x0603 n (fun p u =>
    let w := le p 0 1
    match tget u.tier.imports w with
    | none => keep u (plain 8)
    | some d =>
      keep { u with tier := { u.tier with
          imports := tset u.tier.imports w { d with depart := some (le p 8 8) }
          saved := tmap u.tier.saved (fun _ s => if s.target = w ∧ s.st = 1 then { s with st := 2 } else s) } } (ok []))
/-- WINDOW_DEPART (R357). -/
def execWindowDepart (mb : Fin 64) (s : State) : Res := onU (windowDepart mb) s
/-- TIER2_CONFIG (R357, R460): the ranges and links are judged by the block check (0x0109). -/
def tier2Config (n : Nat) : Units → Units :=
  message 0x0604 n (fun p u =>
    if u.blk.en then keep u (plain 8)
    else keep { u with tier := { u.tier with
        linkMask := le p 0 2, pageBase := le p 8 8, pageLen := le p 16 8, stageBase := le p 24 8, stageLen := le p 32 8 } } (ok []))
/-- TIER2_CONFIG (R357). -/
def execTier2Config (mb : Fin 64) (s : State) : Res := onU (tier2Config mb) s
/-- TIER1_AREA (R357). -/
def tier1Area (a : Asm) (n : Nat) : Units → Units :=
  message 0x0605 n (fun p u =>
    let k := le p 0 1
    let units := le p 4 4
    let c := tgetD u.ctx k {}
    let give (base : Nat) (u : Units) : Units := { u with
      ctx := tset u.ctx k { c with areaBase := base, areaUnits := units }
      tier := { u.tier with areas := u.tier.areas ++ (if units = 0 then [] else [(k, base, units)]) } }
    if k = 0 ∨ 63 < k then keep u (invalid 0)
    else if c.state = 2 ∨ c.state = 3 ∨ c.enableAt.isSome then keep u (plain 8)
    else
      let v := { u with tier := { u.tier with areas := u.tier.areas.filter (fun x => x.1 != k) } }
      if units = 0 then keep (give 0 v) (ok (le8 0))
      else match t1Fit a v (65536 * units) with
        | none => keep u (bad 0xA 1 0xFFFF 0x010A)
        | some base => keep (give base v) (ok (le8 base)))
/-- TIER1_AREA (R357). -/
def execTier1Area (mb : Fin 64) (s : State) : Res := onU (tier1Area s.asm mb) s
/-- The bytes of an area range with poisoned units as zeros, and whether one was poisoned (R422). DEDUCED, log 199. -/
def areaRead (s : State) (addr n : Nat) : Bytes × Bool :=
  let r := (List.range (n / 64)).map (fun i =>
    let x := unitRead s 2 0 (addr + 64 * i)
    if x.2 then (leBytes 64 0, true) else x)
  (r.flatMap (·.1), r.any (·.2))
/-- TIER_COPY (R357, R422). d: what the host buffer delivered, or whether the write to it faulted. DEDUCED, log 199. -/
def tierCopy (n : Nat) (d : Dma) : State → State :=
  messageS 0x0606 n (fun p s =>
    let dir := le p 0 1
    let b := bufOf p 16
    let area : Buf := { space := 2, len := b.len, addr := le p 8 8 }
    if 1 < dir then (s, some (invalid 0))
    else if !bufOk s.u n area then (s, some (invalid 8))
    else if 1 < b.space ∨ !bufOk s.u n b then (s, some (invalid 16))
    else if s.u.pins.throt ∨ updateClash s.u (ceilDiv b.len (2 ^ 24)) then (s, some busy0)
    else if dir = 0 then
      match bufRead s n b d with
      | none =>
        let k := faultedAt b.len s.u
        let came := (List.range k.1).map (fun i => (Config.freeWord (k.2.freeIx + i)).setWidth 8)
        ((bufWrite { s with u := { k.2 with freeIx := k.2.freeIx + k.1 } } n area came false).1, some (faultAt 16))
      | some x =>
        let r := bufWrite s n area x false
        (r.1, some (ok []))
    else
      let x := areaRead s (bufBase s.u n area) b.len
      let r := bufWrite s n b x.1 (decide (d = .fault))
      let s := if x.2 then onUnits (poisonSink n) r.1 else r.1
      (s, some (if x.2 then faultAt 8 else if r.2 then ok [] else faultAt 16)))
/-- TIER_COPY (R357). -/
def execTierCopy (mb : Fin 64) (d : Dma) (s : State) : Res := .next (tierCopy mb d s)
/-- Pages of streams that stand in tier 2. -/
def borrowed (u : Units) : Nat := (u.str.map (fun e => (e.2.pages.filter (fun p => p.2.tier2)).length)).sum
/-- A freed page credited: to the escape quota while it is below its full size, else to the main quota (R268). -/
def creditPage (p : Nat) (t : Tiers) : Tiers :=
  let t := { t with t1 := t.t1.filter (· != p) }
  if 0 < t.escUse then { t with escUse := t.escUse - 1 } else { t with mainUse := t.mainUse - 1 }
/-- The pages in use: a page given up is in use no longer, though its quota is credited later (R268, R403; DEDUCED, log 33).
DEDUCED, log 146. -/
def inUse (t : Tiers) : Tiers := t.freed.foldl (fun t p => creditPage p t) t
/-- TIER_STATUS (R357). DEDUCED, log 33. DEDUCED, log 146. -/
def tierStatus (n : Nat) : Units → Units :=
  message 0x0607 n (fun _ u =>
    let t := inUse u.tier
    keep u (ok (leBytes 4 t.mainUse ++ leBytes 4 t.escUse ++ leBytes 4 t.escUse ++ leBytes 4 (borrowed u)
      ++ leBytes 4 (u.tier.saved.filter (fun e => e.2.st != 3)).length ++ leBytes 4 (tier2Budget u))))
/-- TIER_STATUS (R357). -/
def execTierStatus (mb : Fin 64) (s : State) : Res := onU (tierStatus mb) s

/- Requests to exported windows (R383). -/
/-- The NACK STATUS a request draws before any memory is touched; none for one that is answered (R374, R383).
DEDUCED, log 195. -/
def reqFault (u : Units) (addr n : Nat) (write : Bool) : Option Nat :=
  if addr % 64 ≠ 0 ∨ n % 64 ≠ 0 ∨ n < 64 ∨ 4096 < n then some 3
  else match u.tier.exports.find? (fun e => decide (e.2.base ≤ addr) && decide (addr + n ≤ e.2.base + e.2.len)) with
    | none => some 1
    | some e => if write && !e.2.writable then some 2 else none
/-- Where a request falls: the space of its window's tier and the address in it. -/
def reqPlace (u : Units) (addr n : Nat) : Nat × Nat :=
  match u.tier.exports.find? (fun e => decide (e.2.base ≤ addr) && decide (addr + n ≤ e.2.base + e.2.len)) with
  | none => (2, 0)
  | some e => (if e.2.tier = 1 then 2 else 3, e.2.loc + (addr - e.2.base))
/-- A NACK to a request. -/
def sendNack (port : Nat) (p : Bytes) (status : Nat) (u : Units) : Units :=
  sendTo port (le p 16 8) 0x2F 3 (le p 4 4) 0 (sliceZ p 32 12 ++ [BitVec.ofNat 8 status]) [] u
/-- A packet received on a port whose effect reaches memory. -/
def fabReceiveS (cls : Nat) (r : Rx) (p : Bytes) (f : State → State) (s : State) : State :=
  let t := fabJudge cls r p s.u
  if t.2 then f { s with u := t.1 } else { s with u := t.1 }
/-- RD_REQUEST (R383). Uncorrectable data at the block gives STATUS 4. DEDUCED, log 195. -/
def rdRequest (rx : Rx) (p : Bytes) : State → State :=
  fabReceiveS 0x20 rx p (fun s =>
    let port := rx.port.val
    let addr := le p 32 8
    let n := le p 40 4
    let s := onUnits (dieBump (dieKey 2 (port / 2)) 0x218 1) s
    match reqFault s.u addr n false with
    | some st => onUnits (sendNack port p st) s
    | none =>
      let w := reqPlace s.u addr n
      let r := (List.range (n / 64)).map (fun i => unitRead s w.1 0 (w.2 + 64 * i))
      if r.any (·.2) || (w.1 == 3 && tier2Down s.u w.2 n) then onUnits (sendNack port p 4) s
      else onUnits (sendTo port (le p 16 8) 0x28 3 (le p 4 4) 0 (sliceZ p 32 12) (r.flatMap (·.1))) s)
/-- RD_REQUEST (R383). -/
def execRdRequest (rx : Rx) (p : Bytes) (s : State) : Res := .next (rdRequest rx p s)
/-- WR_REQUEST (R383): the data is readable before the WACK. -/
def wrRequest (rx : Rx) (p : Bytes) : State → State :=
  fabReceiveS 0x21 rx p (fun s =>
    let port := rx.port.val
    let addr := le p 32 8
    let n := le p 40 4
    let data := p.drop 64
    let s := onUnits (dieBump (dieKey 2 (port / 2)) 0x218 1) s
    match (if data.length ≠ n then some 3 else reqFault s.u addr n true) with
    | some st => onUnits (sendNack port p st) s
    | none =>
      let w := reqPlace s.u addr n
      if w.1 = 3 ∧ tier2Down s.u w.2 n then onUnits (sendNack port p 4) s
      else
        let s := (List.range (n / 64)).foldl (fun s i => unitWrite w.1 0 (w.2 + 64 * i) ((data.drop (64 * i)).take 64) false s) s
        onUnits (sendTo port (le p 16 8) 0x29 3 (le p 4 4) 0 (sliceZ p 32 12) []) s)
/-- WR_REQUEST (R383). -/
def execWrRequest (rx : Rx) (p : Bytes) (s : State) : Res := .next (wrRequest rx p s)

/- Responses (R382). -/
/-- The outstanding transaction that a response answers: its TAG, kind, ADDR and BYTES. DEDUCED, log 196. -/
def txnOf (u : Units) (p : Bytes) (write : Bool) : Option Txn :=
  u.tier.txns.find? (fun t => t.tag == le p 4 4 && t.write == write && t.addr == le p 32 8 && t.bytes == le p 40 4)
/-- Whether entries of a ring in a window still wait for their WACKs (R363). -/
def ringOwed (u : Units) (id : MoveId) : Bool :=
  u.tier.txns.any (fun t => t.own == some id) || u.tier.waitTx.any (fun e => e.1.own == some id)
/-- The control lines of a ring in a window are written, each followed by the ring vector (R363, R368). -/
def ringLines (ctx ring : Nat) (u : Units) : Units :=
  let c := tgetD u.ctx ctx {}
  let mine := c.ringWait.filter (fun w => w.ring == ring)
  forAll mine (fun w u => msix c.vec (sendWr w.buf.win w.buf.addr w.line none none u))
    { u with ctx := tset u.ctx ctx { c with ringWait := c.ringWait.filter (fun w => w.ring != ring) } }
/-- The control lines go out once every entry has its WACK. -/
def ringAcked (ctx ring : Nat) (u : Units) : Units :=
  if ringOwed u (.ring ctx ring) ∨ (tgetD u.ctx ctx {}).ringBad.contains ring then u else ringLines ctx ring u
/-- The entries of a write to a ring in a window. -/
def ringSend (ctx : Nat) (w : RingWait) (u : Units) : Units :=
  forAll (List.range w.ents.length) (fun i u =>
    sendWr w.buf.win (w.buf.addr + 64 * (1 + (w.index + i) % ringN w.buf)) (padTo 64 (w.ents.getD i [])) none
      (some (.ring ctx w.ring)) u) u
/-- Writes to a ring in a window that failed are repeated (13, RING_FAULT). -/
def ringRetry (ctx ring : Nat) (u : Units) : Units :=
  let c := tgetD u.ctx ctx {}
  if !c.ringBad.contains ring ∨ ringOwed u (.ring ctx ring) then u
  else forAll (c.ringWait.filter (fun w => w.ring == ring)) (ringSend ctx)
    { u with ctx := tset u.ctx ctx { c with ringBad := c.ringBad.filter (· != ring) } }
/-- The I/O die of a ring: of its host port, or of its window. DEDUCED, log 124. -/
def ringDie (u : Units) (b : Buf) : Nat := if b.space = 4 then winDie (tgetD u.tier.imports b.win {}) else b.space
/-- A fault reading or writing a ring, or words that break R363 (R513, R419). DEDUCED, log 127. DEDUCED, log 132. -/
def ringFault (ctx ring index : Nat) (b : Buf) (dma : Bool) (u : Units) : Units :=
  let d := dieKey 2 (ringDie u b)
  notice d 0x0D02 ctx [ring, index] (setIface (dieBump d 0x20A (b2n (dma && b.space != 4)) u))
/-- An entry's write to a ring in a window failed: RING_FAULT, once until it is repeated. -/
def ringFailed (ctx ring : Nat) (u : Units) : Units :=
  let c := tgetD u.ctx ctx {}
  match c.ringWait.find? (fun w => w.ring == ring) with
  | some w =>
    if c.ringBad.contains ring then u
    else ringFault ctx ring w.index w.buf false { u with ctx := tset u.ctx ctx { c with ringBad := c.ringBad ++ [ring] } }
  | none => u
/-- A transaction is outstanding no longer, and one that waits for its place goes out (R382). -/
def txnEnd (t : Txn) (u : Units) : Units :=
  let u := txnNext { u with tier := { u.tier with txns := u.tier.txns.filter (fun x => x.tag != t.tag) } }
  match t.own with
  | some (.ring c r) => ringAcked c r u
  | _ => u
/-- A transaction fails (R382): its DM's launch is poisoned, or the copy of its stream fails. -/
def txnFail (t : Txn) (u : Units) : Units :=
  let u := match t.own with | some (.ring c r) => ringFailed c r u | _ => u
  let u := txnEnd t u
  let u := match t.core with | some k => poisonLaunch k u | none => u
  match t.own with
  | some (.pause n) => { u with str := tupd u.str n (fun s => { s with copyFail := true }) }
  | some (.resume n) => { u with str := tupd u.str n (fun s => { s with copyFail := true }) }
  | some (.saved e) => modSaved e (fun s => { s with fail := true }) u
  | _ => u
/-- A response with a TAG that names no transaction it could answer (R382). DEDUCED, log 196. -/
def fabTag (port : Nat) (p : Bytes) : Units → Units := fabError port 0x0D25 [port, le p 4 4]
/-- RDATA (R382): the data goes where its DM or copy wants it. -/
def rdata (rx : Rx) (p : Bytes) : State → State :=
  fabReceiveS 0x28 rx p (fun s =>
    let port := rx.port.val
    match txnOf s.u p false with
    | none => onUnits (fabTag port p) s
    | some t =>
      let data := sliceZ (p.drop 64) 0 t.bytes
      if t.dspace = 1 then onUnits (txnEnd t) s
      else if 16 ≤ t.dspace then onUnits (fun u => sendWr (t.dspace - 16) t.dst data t.core t.own (txnEnd t u)) s
      else
        let s := (List.range (t.bytes / 64)).foldl (fun s i =>
          unitWrite t.dspace t.dkey (t.dst + 64 * i) ((data.drop (64 * i)).take 64) false s) s
        onUnits (txnEnd t) s)
/-- RDATA (R382). -/
def execRdata (rx : Rx) (p : Bytes) (s : State) : Res := .next (rdata rx p s)
/-- WACK (R382). -/
def wack (rx : Rx) (p : Bytes) : Units → Units :=
  fabReceive 0x29 rx p (fun u =>
    let port := rx.port.val
    match txnOf u p true with
    | none => fabTag port p u
    | some t => txnEnd t u)
/-- WACK (R382). -/
def execWack (rx : Rx) (p : Bytes) (s : State) : Res := onU (wack rx p) s
/-- NACK (R382). -/
def nack (rx : Rx) (p : Bytes) : Units → Units :=
  fabReceive 0x2F rx p (fun u =>
    let port := rx.port.val
    match (match txnOf u p true with | some t => some t | none => txnOf u p false) with
    | none => fabTag port p u
    | some t =>
      fabError port 0x0D26 [t.win, t.addr, le p 44 1] (dieBump (dieKey 2 (port / 2)) 0x20F 1 (txnFail t u)))
/-- NACK (R382). -/
def execNack (rx : Rx) (p : Bytes) (s : State) : Res := onU (nack rx p) s
/-- The contexts a transaction serves: its stream's, or those that use a slot placed on the core whose DM issued it. -/
def txnCtxs (t : Txn) (u : Units) : List Nat :=
  let slots := (u.slot.filter (fun e => e.2.bind.any (fun b => t.core == some (b.die * 16 + b.core)))).map (·.1)
  let uses (c : Nat) : Bool :=
    slots.contains (tgetD u.ctx c {}).headSlot
      || u.str.any (fun e => e.2.ctx == c && holds e.2 && slots.contains e.2.ansSlot)
      || u.job.any (fun j => j.ctx == c && !j.emitted && j.cells.any (fun x => slots.contains x.slot))
  match t.own with
  | some (.pause n) => [(tgetD u.str n {}).ctx]
  | some (.resume n) => [(tgetD u.str n {}).ctx]
  | some (.saved e) => [(tgetD u.tier.saved e {}).str.ctx]
  | some (.ring c _) => [c]
  | _ => (List.range 64).filter (fun c => 2 ≤ (tgetD u.ctx c {}).state && uses c)
/-- WINDOW_TIMEOUT (R382, R407 condition 3): RTT_NS have passed since the transaction with this TAG was sent. -/
def windowTimeout (tag : Nat) (u : Units) : Units :=
  match u.tier.txns.find? (fun t => t.tag == tag) with
  | none => u
  | some t =>
    let w := tgetD u.tier.imports t.win {}
    let port := Config.windowPort w.base
    let u := advTo (t.sentAt + w.rtt) u
    let u := forAll (txnCtxs t u) (condBroken 3) u
    fabError port 0x0D27 [t.win, t.addr] (dieBump (dieKey 2 (port / 2)) 0x20E 1 (txnFail t u))
/-- WINDOW_TIMEOUT (R382). -/
def execWindowTimeout (tag : W32) (s : State) : Res := onU (windowTimeout tag.toNat) s
/-- FAB_CRC (R374): a packet that fails a check is dropped and recorded; one that passes them all belongs to its own class's
command (DESIGN CHOICE, log 1). -/
def fabCrc (rx : Rx) (p : Bytes) (u : Units) : Units := (fabJudge 0x100 rx p u).1
/-- FAB_CRC (R374). -/
def execFabCrc (rx : Rx) (p : Bytes) (s : State) : Res := onU (fabCrc rx p) s

end Sys2Proof.Machine
end

