-- ==== Sys2Proof/Machine/Pages.lean ====
section
/-! DEFINITION. Pages and saved states (09, R268 to R273, R279 to R290): quotas, growth, borrowing, migration back, crediting;
room for saved states, expiry, departure of a window. -/
namespace Sys2Proof.Machine

/- Places of pages. -/
/-- The lowest n numbers that a list does not hold. DEDUCED, log 145. -/
def lowestFree (used : List Nat) (n : Nat) : List Nat :=
  ((List.range (used.length + n)).filter (fun k => !used.contains k)).take n
/-- LAG of a sampling record in tokens (R221). -/
def lagOf (samp : Bytes) : Nat := match bitsOf (le samp 33 1) 5 4 with | 0 => 0 | 1 => 8 | 2 => 16 | _ => 32
/-- A stream changed. -/
def modStr (n : Nat) (f : Str → Str) (u : Units) : Units := { u with str := tupd u.str n f }
/-- A stream's handle. -/
def handleOf (n : Nat) (s : Str) : Nat := s.ctx * 2 ^ 24 + s.gen * 2 ^ 12 + n

/- Quotas (R268, R270). -/
/-- n pages of the main quota, if it holds them. DEDUCED, log 145. -/
def takeMain (n : Nat) (u : Units) : Option (List Nat × Units) :=
  if u.tier.mainUse + n ≤ u.tier.pageMain then
    let l := lowestFree u.tier.t1 n
    some (l, { u with tier := { u.tier with t1 := u.tier.t1 ++ l, mainUse := u.tier.mainUse + n } })
  else none
/-- n pages of the main quota for an open or a resume: use stays at or below HIGH_WM (R270). -/
def takeHigh (n : Nat) (u : Units) : Option (List Nat × Units) :=
  if (u.tier.mainUse + n) * 1024 ≤ u.tier.pageMain * u.tier.highWm then takeMain n u else none
/-- n pages of the escape quota, if it holds the whole need. DEDUCED, log 145. -/
def takeEscape (a : Asm) (n : Nat) (u : Units) : Option (List Nat × Units) :=
  if u.tier.escUse + n ≤ escapeQuota a then
    let l := lowestFree u.tier.t1 n
    some (l, { u with tier := { u.tier with t1 := u.tier.t1 ++ l, escUse := u.tier.escUse + n } })
  else none
/-- A page given up: a tier-1 page awaits its crediting (R403), a tier-2 page is free. -/
def freePage (p : Page) (u : Units) : Units :=
  let t := if p.tier2 then { u.tier with t2 := u.tier.t2.filter (· != p.page) }
           else { u.tier with freed := u.tier.freed ++ [p.page] }
  let t := match p.to_ with
    | some k => { t with freed := t.freed ++ [k] }
    | none => t
  { u with tier := t }
/-- The pages of a stream that f selects by chunk given up. -/
def freePages (n : Nat) (f : Nat → Bool) (u : Units) : Units :=
  let l := (tgetD u.str n {}).pages.filter (fun e => f e.1)
  let mine (i : MoveId) : Bool := match i with | .back k c => k == n && f c | _ => false
  dropMoves mine (modStr n (fun s => { s with pages := s.pages.filter (fun e => !f e.1) }) (forAll (l.map (·.2)) freePage u))
/-- PAGE_EVICTION (R403): up to 4,096 freed pages are credited, oldest first; background work of the once class (R61, R330). DESIGN CHOICE, log 147. -/
def pageEviction (u : Units) : Units :=
  if !backgroundRuns u then u
  else
    let l := u.tier.freed.take 4096
    let t := l.foldl (fun t p => creditPage p t) u.tier
    let u := { u with tier := { t with freed := u.tier.freed.drop 4096 } }
    if u.tier.freed.length < 4096 then urgentDone 7 none u else u
/-- PAGE_EVICTION (R403). -/
def execPageEviction (s : State) : Res := onU pageEviction s

/- Room for saved states and borrowed pages (R279, R283). -/
/-- Pages reserved at a target by pauses under way. -/
def roomHeld (u : Units) (target : Nat) : Nat :=
  (u.str.map (fun e => match e.2.pause with
    | some r => if r.target = target then r.room - r.pages.length else 0
    | none => 0)).sum
/-- Pages at a target in use: local tier 2 (0) or a window. -/
def usedAt (u : Units) (target : Nat) : List Nat :=
  if target = 0 then u.tier.t2
  else (u.tier.saved.filter (fun e => e.2.target == target)).flatMap (fun e => e.2.t2)
    ++ u.tier.saved.flatMap (fun e => match e.2.to_ with | some x => if x.1 = target then x.2 else [] | none => [])
    ++ u.str.flatMap (fun e => match e.2.pause with
      | some r => if r.target = target then r.pages else []
      | none => [])
/-- Pages a target has in all. -/
def capAt (u : Units) (target : Nat) : Nat :=
  if target = 0 then u.tier.pageLen / 65536 else (tgetD u.tier.imports target {}).len / 65536
/-- Pages free at a target. -/
def roomAt (u : Units) (target : Nat) : Nat := capAt u target - (usedAt u target).length - roomHeld u target
/-- Pages of local tier 2 given up. -/
def freeLocal (l : List Nat) (u : Units) : Units := { u with tier := { u.tier with t2 := u.tier.t2.filter (fun p => !l.contains p) } }
/-- The local pages a saved state holds: its own, or those it is being moved to. -/
def savedLocal (s : Saved) : List Nat :=
  (if s.target = 0 then s.t2 else []) ++ (match s.to_ with | some x => if x.1 = 0 then x.2 else [] | none => [])
/-- A saved state is gone; its local pages are free, and a move of it is given up. code: notice, or none. -/
def dropSaved (e : Nat) (code : Option Nat) (u : Units) : Units :=
  match tget u.tier.saved e with
  | none => u
  | some s =>
    let u := dropMoves (fun i => i == .saved e) (freeLocal (savedLocal s) { u with tier := { u.tier with saved := tdel u.tier.saved e } })
    match code with
    | some c => fwNotice 7 c s.str.ctx [s.id] u
    | none => u
/-- Saved states in ascending expiry time, ties to the lower pause ID. DEDUCED, log 154. -/
def byExpiry (l : Tbl Saved) : List (Nat × Saved) :=
  sortBy (fun (a b : Nat × Saved) => a.2.expiry < b.2.expiry || (a.2.expiry == b.2.expiry && a.2.id < b.2.id)) l
/-- Forced expiry of PAUSED states in local tier 2, in order, until n pages are free; before: only states that expire
earlier may go (R283). none where the room cannot be found, and then nothing changes. DEDUCED, log 154. -/
def forceRoom (n : Nat) (before : Option Nat) : List (Nat × Saved) → Units → Option Units
  | [], u => if n ≤ roomAt u 0 then some u else none
  | (e, s) :: l, u =>
    if n ≤ roomAt u 0 then some u
    else if before.all (fun t => decide (s.expiry < t)) then forceRoom n before l (dropSaved e (some 0x0603) u)
    else none
/-- The PAUSED states of local tier 2 in the order of forced expiry. -/
def forceList (u : Units) : List (Nat × Saved) := byExpiry (u.tier.saved.filter (fun e => e.2.target == 0 && e.2.st == 1))
/-- A borrowed page of tier 2, taken after forced expiry if need be (R270, R283). -/
def borrow (u : Units) : Option (Nat × Units) :=
  if u.tier.pageLen < 65536 then none
  else match forceRoom 1 none (forceList u) u with
    | none => none
    | some u =>
      match lowestFree u.tier.t2 1 with
      | p :: _ => some (p, { u with tier := { u.tier with t2 := u.tier.t2 ++ [p] } })
      | [] => none

/- Growth (R269 to R271). -/
/-- One page for a chunk of a growing stream: the main quota if it is not full, else a borrowed page; none is page-wait.
DEDUCED, log 148. -/
def growOne (n chunk : Nat) (u : Units) : Units :=
  match takeMain 1 u with
  | some (p :: _, u) => modStr n (fun s => { s with pages := tset s.pages chunk { page := p } }) u
  | _ =>
    match borrow u with
    | some (p, u) => modStr n (fun s => { s with pages := tset s.pages chunk { tier2 := true, page := p, since := u.tick.number } }) u
    | none => u
/-- The growth of a stream at a boundary: the pages it lacks up to one ahead of its current chunk (R269). DEDUCED, log 148. -/
def grow (n : Nat) (u : Units) : Units :=
  let s := tgetD u.str n {}
  if lagOf s.samp = 0 then u
  else
    let l := (List.range (s.pos / 16 + 2)).filter (fun c => decide (c < s.maxPos / 16) && (tget s.pages c).isNone)
    forAll l (growOne n) u
/-- Whether a stream lacks the page of its current chunk. -/
def lacksPage (s : Str) : Bool := lagOf s.samp != 0 && decide (s.pos < s.maxPos) && (tget s.pages (s.pos / 16)).isNone

/- Migration back (R272). -/
/-- Borrowed pages not yet being moved: slot, chunk, page. -/
def borrowedPages (u : Units) : List (Nat × Nat × Page) :=
  u.str.flatMap (fun e => (e.2.pages.filter (fun p => p.2.tier2 && p.2.to_.isNone)).map (fun p => (e.1, p.1, p.2)))
/-- PAGE_MIGRATE (R272): the earliest-borrowed page starts to move while use is below LOW_WM; background work of the
once class (R61, R330).
DESIGN CHOICE, log 147. -/
def pageMigrate (u : Units) : Units :=
  let l := sortBy (fun (a b : Nat × Nat × Page) => a.2.2.since < b.2.2.since) (borrowedPages u)
  match l with
  | [] => u
  | x :: _ =>
    if !backgroundRuns u ∨ u.tier.pageMain * u.tier.lowWm ≤ u.tier.mainUse * 1024
        ∨ tier2Down u (pageAddr2 u x.2.2.page) 65536 then u
    else match takeMain 1 u with
      | some (p :: _, u) =>
        addMove (.back x.1 x.2.1) 1 u.tick.number
          (urgentDone 6 none (modStr x.1 (fun s => { s with pages := tupd s.pages x.2.1 (fun g => { g with to_ := some p }) }) u))
      | _ => u
/-- PAGE_MIGRATE (R272). -/
def execPageMigrate (s : State) : Res := onU pageMigrate s
/-- One page whose move has been served arrives: its bytes stand in tier 1, and the map points to them (R272). -/
def arriveOne (n chunk : Nat) (s : State) : State :=
  match tget (tgetD s.u.str n {}).pages chunk with
  | some { tier2 := true, pstate := st, page := p, since := _, to_ := some k } =>
    if !moveDone s.u (.back n chunk) then s else
    let s := unitCopy (3, 0, pageAddr2 s.u p) (2, 0, pageAddr1 k) 65536 s
    onUnits (fun u => modStr n (fun s => { s with pages := tset s.pages chunk { pstate := st, page := k } })
      { u with tier := { u.tier with t2 := u.tier.t2.filter (· != p) } }) s
  | _ => s
/-- The moves of a stream's pages that a boundary completes. -/
def arrivePages (n : Nat) (s : State) : State :=
  (tkeys (tgetD s.u.str n {}).pages).foldl (fun s c => arriveOne n c s) s

/- Saved states (R282, R290). -/
/-- PAUSE_EXPIRY (R282): at an edge, every state at or past its expiry time is freed. -/
def pauseExpiry (u : Units) : Units :=
  let due := byExpiry (u.tier.saved.filter (fun e => decide (e.2.expiry ≤ u.tick.edgeAt) && e.2.st != 3))
  forAll due (fun e u => dropSaved e.1 (some 0x0602) u) u
/-- PAUSE_EXPIRY (R282). -/
def execPauseExpiry (s : State) : Res := onU pauseExpiry s
/-- WINDOW_DEPART_EDGE (R290, R291): the states not moved expire, copies in flight fail, the window is imported no longer.
DEDUCED, log 198. -/
def windowDepartEdge (w : Nat) (u : Units) : Units :=
  match tget u.tier.imports w with
  | none => u
  | some d =>
    if d.depart.all (fun t => decide (u.tick.number < t)) then u
    else
      let gone := byExpiry (u.tier.saved.filter (fun e => e.2.target == w && e.2.st != 3))
      let u := forAll gone (fun e u => dropSaved e.1 (some 0x0604) u) u
      let hurt (s : Str) : Bool :=
        (s.st == .pausing && s.pause.any (fun r => r.target == w))
          || (s.st == .resuming && u.tier.saved.any (fun e => e.2.id == s.restoring && e.2.target == w))
      let stuck := tkeys (u.tier.saved.filter (fun e => e.2.to_.any (fun x => x.1 == w)))
      let u := forAll stuck (fun e u => modSaved e (fun s => { s with fail := true }) u) u
      recheckSoon { u with
        str := tmap u.str (fun _ s => if hurt s then { s with copyFail := true } else s)
        tier := { u.tier with imports := tdel u.tier.imports w } }
/-- WINDOW_DEPART_EDGE (R290). -/
def execWindowDepartEdge (w : Fin 256) (s : State) : Res := onU (windowDepartEdge w) s
/-- Target that takes a migrating state: local tier 2, else the lowest other window with room (R290). -/
def migrateTarget (u : Units) (s : Saved) : Option Nat :=
  let need := s.npages + 1
  if need ≤ roomAt u 0 then some 0
  else (u.tier.imports.find? (fun e => e.1 != s.target && e.2.pauseOk && e.2.depart.isNone && decide (need ≤ roomAt u e.1))).map (·.1)
/-- The next state of a window to be moved: in ascending expiry time, of those that a target has room for (R290). -/
def migrateNext (u : Units) (w : Nat) : Option Nat :=
  ((byExpiry (u.tier.saved.filter (fun x => x.2.st == 2 && x.2.target == w && x.2.to_.isNone && (migrateTarget u x.2).isSome))).head?).map (·.1)
/-- A saved state's move begins: its record and its pages are read from the departing window (R290). -/
def migrateBegin (e t : Nat) (s : Saved) (u : Units) : Units :=
  let to_ := lowestFree (usedAt u t) (s.npages + 1)
  let u := forAll (List.range (s.npages + 1)) (fun i u =>
    let dst := 65536 * to_.getD i 0
    sendRd s.target (65536 * s.t2.getD i 0) 65536 none (some (.saved e))
      (if t = 0 then (3, 0, u.tier.pageBase + dst) else (16 + t, 0, dst)) u) u
  let u := if t = 0 then { u with tier := { u.tier with t2 := u.tier.t2 ++ to_ } } else u
  addMove (.saved e) (s.npages + 1) u.tick.number (modSaved e (fun s => { s with to_ := some (t, to_), fail := false }) u)
/-- A saved state's move ends: the state stands at its new target, PAUSED; or the copy failed, and it is to be moved again. -/
def migrateEnd (e : Nat) (ok : Bool) (s : Saved) (x : Nat × List Nat) (u : Units) : Units :=
  if !ok ∨ s.fail then
    dropMoves (fun i => i == .saved e) (modSaved e (fun s => { s with to_ := none, fail := false })
      (if x.1 = 0 then freeLocal x.2 u else u))
  else if copying u (.saved e) ∨ !moveDone u (.saved e) then u
  else
    let leaving := (tget u.tier.imports x.1).any (fun w => w.depart.isSome)
    modSaved e (fun s => { s with st := if leaving then 2 else 1, target := x.1, t2 := x.2, to_ := none }) u
/-- PAUSE_MIGRATE (R290): the move of a MIGRATING state begins, or one under way ends. ok: the copy went well. DEDUCED, log 198. -/
def pauseMigrate (e : Nat) (ok : Bool) (u : Units) : Units :=
  match tget u.tier.saved e with
  | none => u
  | some s =>
    if s.st ≠ 2 then u
    else match s.to_ with
      | some x => migrateEnd e ok s x u
      | none =>
        match migrateTarget u s with
        | none => u
        | some t => if !ok ∨ !backgroundRuns u ∨ migrateNext u s.target ≠ some e then u else migrateBegin e t s u
/-- PAUSE_MIGRATE (R290). -/
def execPauseMigrate (entry : BitVec 16) (ok : Bool) (s : State) : Res := onU (pauseMigrate entry.toNat ok) s

/- Page map (R273, R359). -/
/-- A page map entry. -/
def pageEntry (p : Option Page) : Nat :=
  match p with
  | none => 0
  | some p => b2n p.tier2 * 2 ^ 31 + 2 ^ 30 + (if p.to_.isSome then 3 else p.pstate) * 2 ^ 28 + p.page % 2 ^ 26
/-- The slot a handle names for a context (R13, R14, R276): the slot, or the status that answers it. -/
def handleSlotOf (u : Units) (ctx h : Nat) : Nat ⊕ Nat :=
  let n := h % 4096
  let g := h / 2 ^ 12 % 4096
  let s := tgetD u.str n {}
  if h / 2 ^ 24 ≠ ctx ∨ g = 0 ∨ g ≠ s.gen ∨ s.ctx ≠ ctx then .inr 7
  else if !holds s then .inr 9
  else .inl n
/-- The answer to a handle that names no stream. -/
def badHandle (st : Nat) : Ans := if st = 7 then invalid 0 else plain st
/-- PAGEMAP_READ (R359). -/
def pagemapRead (n : Nat) (flt : Bool) : State → State :=
  messageS 0x0807 n (fun p s =>
    let b := bufOf p 16
    match handleSlotOf s.u n (le p 0 4) with
    | .inr st => (s, some (badHandle st))
    | .inl k =>
      if !bufOk s.u n b then (s, some (invalid 16))
      else
        let x := tgetD s.u.str k {}
        let cnt := min (x.maxPos / 16) (b.len / 4)
        let data := (List.range cnt).flatMap (fun c => leBytes 4 (pageEntry (tget x.pages c)))
        let r := bufWrite s n b data flt
        (r.1, some (if r.2 then ok (leBytes 4 cnt) else faultAt 16)))
/-- PAGEMAP_READ (R359). -/
def execPagemapRead (mb : Fin 64) (flt : Bool) (s : State) : Res := .next (pagemapRead mb flt s)

end Sys2Proof.Machine
end

