-- ==== Sys2Proof/Machine/Streams.lean ====
section
/-! DEFINITION. Streams (09; 07, R221; 12, R355): sampling records, messages, decisions, seats, start, cancellation, pause and
resume, and the freeing of a slot. -/
namespace Sys2Proof.Machine

/- Boundaries and admission. -/
/-- The cohort tick whose beginning boundary has come last (R26): the boundary of cohort 1 falls between marks M2 and M3, as
that of cohort 0 falls between the edge and M0. DEDUCED, log 158. -/
def boundTick (u : Units) (cohort : Nat) : Nat :=
  if cohort = 0 ∨ (2 ≤ u.tick.lastMark ∧ u.tick.lastMark ≤ 5) then u.tick.number else u.tick.number - 1
/-- Whether the block stands at a boundary of a cohort: its ingress has not opened, or opened with the last mark.
DEDUCED, log 158. -/
def atBoundary (u : Units) (cohort : Nat) : Bool :=
  running u && (if cohort = 0 then u.tick.lastMark == 6 || u.tick.lastMark == 0
                else u.tick.lastMark == 2 || u.tick.lastMark == 3)
/-- Effective cohort tick that stands for the edge that ends a coast (R277). DEDUCED, log 142. DEDUCED, log 143. -/
def coastEnd : Nat := 2 ^ 64 - 1
/-- Whether a stream's accepted cancellation takes effect at the boundary that has come last: one accepted in a coast does at
the first in a tick that is current again (R62, R277). -/
def cancelDue (u : Units) (s : Str) : Bool :=
  s.cancelAt.any (fun c => if c = coastEnd then u.tick.st == .current else decide (c ≤ boundTick u s.cohort))
/-- Whether the tick state holds admission: start-up, coast, halt, a declared coast, or a context not enabled or disabling
(R62, R66, R266), the fatal state, a thermal trip (R425, R451). DEDUCED, log 163. -/
def heldPlain (u : Units) (ctx : Nat) : Bool :=
  let c := tgetD u.ctx ctx {}
  let holds := c.state != 2 && !(c.state == 3 && c.holdFrom.any (fun t => decide (u.tick.number < t)))
  u.tick.st != .current || u.tick.admitHold || holds || u.blk.fatal || u.blk.tripped
/-- Whether admission is held for submissions, opens and resumes: also while throttled (R476). -/
def admissionHeld (u : Units) (ctx : Nat) : Bool := heldPlain u ctx || u.pins.throt

/- Work of admitted jobs that awaits a replan (R246). -/
/-- Cell slots of a job's match work (R244): its TOKEN keys, its bytes. -/
def tokCell : Nat := 256
/-- Cells of a job that its slots no longer hold: its replica or its slot is out of service, from now on (R246). -/
def deadCell (u : Units) (x : Cell) : Bool :=
  decide (x.slot < tokCell) && decide (u.tick.number ≤ x.tick)
    && (!slotServing u x.slot || (slotAt u x.slot).out.any (fun o => o.1 == x.rep))
/-- A job still at work. -/
def jobLive (j : Job) : Bool := j.done.isNone && !j.stopped
/-- The cells that f selects are lost (R246). -/
def loseCells (f : Cell → Bool) (why : Nat) (j : Job) : Job :=
  if jobLive j && j.cells.any f then
    { j with cells := j.cells.filter (fun x => !f x), undone := j.undone ++ j.cells.filter f, why := why }
  else j
/-- Cells on replicas that have left service are lost. -/
def loseDead (u : Units) : Units := { u with job := u.job.map (loseCells (deadCell u) 0x20) }
/-- Whether a job awaits a replan. -/
def wantsReplan (j : Job) : Bool := jobLive j && j.lost.isNone && (!j.undone.isEmpty || j.copyLost)
/-- Whether a replan comes before any new decision (R246, R320): a job awaits one, and its cancel is not accepted (R259). -/
def replanDue (u : Units) : Bool :=
  u.tick.st == .current && (loseDead u).job.any (fun j => wantsReplan j && j.cancelAt.isNone)

/- Decision rounds (R239, R264). -/
/-- The descriptor or message a context has decided next: a message accepted in the tick before comes first.
DEDUCED, log 140. -/
def headWaiting (u : Units) (ctx : Nat) : Option Waiting :=
  let due := (tgetD u.ctx ctx {}).waiting.filter (fun w => decide (w.tick ≤ u.tick.number))
  match due.find? (fun w => w.mb.isSome) with
  | some w => some w
  | none => due.head?
/-- The context that the rounds of the present tick come to next (R239). DEDUCED, log 140. -/
def nextDecider (u : Units) : Option Nat :=
  let a := u.tick.number
  let first := if u.round.1 = a ∧ u.round.2 ≠ 0 then u.round.2 % 63 + 1 else a % 63 + 1
  ((List.range 63).map (fun k => (first - 1 + k) % 63 + 1)).find? (fun c => (headWaiting u c).isSome)
/-- The waiting entry of a given TYPE that is to be decided now for a context; none where its turn has not come, before a
replan that is due, or after MA of the tick, but for one that a tick holding admission refuses (R62). -/
def decides (u : Units) (ctx type : Nat) : Option Waiting :=
  if !roleRuns u 1 ∨ nextDecider u ≠ some ctx then none
  else match headWaiting u ctx with
    | some w =>
      let may := admissionHeld u ctx || (!replanDue u && u.tick.armSample.isNone)
      if le w.desc 0 1 = type ∧ (w.held ∨ may) then some w else none
    | none => none
/-- A waiting entry decided: it waits no more, and the round goes on after its context. DEDUCED, log 66. -/
def decided (ctx : Nat) (w : Waiting) (u : Units) : Units :=
  dieBump 56 0x302 (b2n w.mb.isNone) { u with
    round := (u.tick.number, ctx)
    ctx := tupd u.ctx ctx (fun c => { c with waiting := c.waiting.erase w }) }
/-- First cohort tick whose egress opens after MA of the present tick (R239, R264). -/
def dueTick (u : Units) (cohort : Nat) : Nat :=
  if cohort = 0 ∧ markNs u 4 ≤ markNs u 6 then u.tick.number + 1 else u.tick.number
/-- Cohort tick whose batch carries the outcome of a decision; of one taken in a tick that holds admission, the batch of that
tick (R62). -/
def dueOf (u : Units) (w : Waiting) (cohort : Nat) : Nat := if w.held then u.tick.number else dueTick u cohort

/- Event entries (R370). -/
/-- An event entry of 64 bytes. -/
def eventEntry (type code status tag handle pid pos verdict tick expiry : Nat) : Bytes :=
  let b := leBytes 1 type ++ leBytes 1 code ++ leBytes 2 status ++ leBytes 4 tag ++ leBytes 4 handle ++ leBytes 4 pid
    ++ leBytes 4 pos ++ leBytes 4 verdict ++ leBytes 8 tick ++ leBytes 8 expiry ++ leBytes 20 0
  b ++ leBytes 4 (crc32c b)
/-- An event of a stream, first carried by the batch of a cohort tick. -/
def addEvent (n due : Nat) (e : Bytes) (u : Units) : Units := modStr n (fun s => { s with outEvts := s.outEvts ++ [(due, e)] }) u
/-- An event that names no stream (R370): a refused OPEN or RESUME, or a pause of a handle that is rejected.
DEDUCED, log 66. -/
def addRefused (ctx : Nat) (w : Waiting) (e : Bytes) (u : Units) : Units :=
  let c := tgetD u.ctx ctx {}
  { u with ctx := tset u.ctx ctx { c with evts := c.evts ++ [{ due := dueOf u w c.cohort, body := e }] } }
/-- The refusal of an open or a resume: to its message, or as an event. cause 0 is an invalid argument. -/
def refuseOp (ctx type cause off : Nat) (w : Waiting) (u : Units) : Units :=
  let u := dieBump 56 0x303 1 u
  match w.mb with
  | some n => answerWaiting (some n) (if cause = 0 then invalid off else bad 1 2 0xFFFF cause) u
  | none =>
    let pid := if type = 0x22 then le w.desc 8 4 else 0
    addRefused ctx w (eventEntry type cause (if cause = 0 then 7 else 1) (le w.desc 4 4) 0 pid 0 0 0 0) u

/- Sampling records (R221). -/
/-- The byte offset at fault of a sampling record, taken by itself. DEDUCED, log 178. -/
def sampOffset (r : Bytes) : Option Nat :=
  let temp := le r 8 4
  let nonNeg (w hi : Nat) : Bool := decide (w ≤ hi) || w == 0x80000000
  let bads : List (Bool × Nat) :=
    [(!(temp == 0 || (decide (0x3B800000 ≤ temp) && decide (temp ≤ 0x43800000))), 8),
     (!(decide (0 < le r 12 4) && decide (le r 12 4 ≤ 0x3F800000)), 12), (!nonNeg (le r 16 4) 0x3F7FFFFF, 16),
     (!nonNeg (le r 20 4) 0x42800000, 20), (!nonNeg (le r 24 4) 0x42800000, 24), (decide (1024 < le r 28 2), 28),
     (decide (256 < le r 30 2), 30), (decide (64 < le r 32 1), 32),
     (decide (8 < le r 33 1 % 16) || le r 33 1 / 64 != 0, 33), (le r 34 2 != 0, 34), (decide (2 ^ 20 ≤ le r 36 4), 36),
     (le r 40 8 % 64 != 0, 40), (!allZero (sliceZ r 48 16), 48)]
  (bads.find? (·.1)).map (·.2)
/-- The bias list a record names: token and BF16 value of each entry; none where it breaks R221 or R357. DEDUCED, log 178. -/
def biasList (s : State) (ctx : Nat) (r : Bytes) (vocab : Nat) : Option (List (Nat × Nat)) :=
  let n := le r 32 1
  let a := le r 40 8
  let c := tgetD s.u.ctx ctx {}
  if n = 0 then some []
  else if a < c.areaBase ∨ c.areaBase + 65536 * c.areaUnits < a + 8 * n then none
  else
    let b := mread s.m.t1 a (8 * n)
    let l := (List.range n).map (fun k => (le b (8 * k + 4) 4, le b (8 * k) 4))
    let dup := (List.range n).any (fun k => (l.take k).any (fun e => e.1 == (l.getD k (0, 0)).1))
    if dup ∨ l.any (fun e => decide (vocab ≤ e.1) || decide (2 ^ 16 ≤ e.2) || fnotFin .bf16 e.2) then none else some l
/-- A sampling record judged under a policy and a head: its bias list, or the offset at fault (R221, R235). -/
def sampJudge (s : State) (ctx policy head : Nat) (r : Bytes) : List (Nat × Nat) ⊕ Nat :=
  let vocab := imgVocab (slotImg s.u head)
  let own := sampOffset r
  let lagged := lagOf r != 0 && (ansSlot (polCur s.u policy)).isNone
  match own, lagged with
  | some off, true => .inr (min off 33)
  | some off, false => .inr off
  | none, true => .inr 33
  | none, false =>
    match biasList s ctx r vocab with
    | some l => .inl l
    | none => .inr 40

/- Messages (R355). -/
/-- A stream-operation message joins the decisions of the next tick (R264). -/
def enqueueMsg (ctx n : Nat) (desc : Bytes) (srec : Option Bytes) (u : Units) : Units :=
  { u with ctx := tmod u.ctx ctx {} (fun c => { c with
      waiting := c.waiting ++ [{ desc := sliceZ desc 0 64, srec := srec, tick := nextTick u, mb := some n }] }) }
/-- STREAM_OPEN (R355, R266). DEDUCED, log 141. -/
def streamOpen (n : Nat) : State → State :=
  messageS 0x0401 n (fun p s =>
    let pol := le p 0 2
    let r := sliceZ p 8 64
    if 1023 < pol ∨ (polCur s.u pol).isEmpty then (s, some (invalid 0))
    else match sampJudge s n pol (tgetD s.u.ctx n {}).headSlot r with
      | .inr off => (s, some (invalid (8 + off)))
      | .inl _ =>
        let d := leBytes 1 2 ++ leBytes 1 (le p 2 1) ++ leBytes 2 pol ++ leBytes 4 (le p 4 4)
        (onUnits (enqueueMsg n n d (some r)) s, none))
/-- STREAM_OPEN (R355). -/
def execStreamOpen (mb : Fin 64) (s : State) : Res := .next (streamOpen mb s)
/-- STREAM_SAMPLING (R355, R221): effective at the stream's next boundary. DEDUCED, log 163. -/
def streamSampling (n : Nat) : State → State :=
  messageS 0x0402 n (fun p s =>
    match handleSlotOf s.u n (le p 0 4) with
    | .inr st => (s, some (badHandle st))
    | .inl k =>
      let x := tgetD s.u.str k {}
      let r := sliceZ p 8 64
      match sampJudge s n x.policy x.headSlot r with
      | .inr off => (s, some (invalid (8 + off)))
      | .inl bias =>
        if lagOf r ≠ lagOf x.samp ∧ (!x.hold.isEmpty ∨ !x.outToks.isEmpty) then (s, some (plain 8))
        else
          let t := cohortTick s.u x.cohort + 1
          ({ s with u := { s.u with changes := s.u.changes ++ [(t, .sampling k x.gen r bias)] } }, some (ok (le8 t))))
/-- STREAM_SAMPLING (R355). -/
def execStreamSampling (mb : Fin 64) (s : State) : Res := .next (streamSampling mb s)
/-- Whether an event is the PAUSE_ACK that gives a pause ID (R370). -/
def isAck (id : Nat) (e : Bytes) : Bool := le e 0 1 == 0x21 && le e 2 2 == 0 && le e 12 4 == id
/-- A cancellation in the tick of a pause's decision wins: its PAUSE_ACK, still unwritten, is a refusal (R291). DEDUCED, log 152. -/
def withdrawPause (n : Nat) (u : Units) : Units :=
  let x := tgetD u.str n {}
  match x.pause with
  | none => u
  | some r =>
    if r.at_ = u.tick.number ∧ x.outEvts.any (fun e => isAck r.id e.2) then
      modStr n (fun s => { s with pause := none, outEvts := s.outEvts.map (fun e =>
        if isAck r.id e.2 then (e.1, eventEntry 0x21 8 1 (le e.2 4 4) (handleOf n x) 0 0 0 0 0) else e) }) u
    else u
/-- STREAM_CANCEL (R355, R277). DEDUCED, log 143. -/
def streamCancel (n : Nat) : Units → Units :=
  message 0x0403 n (fun p u =>
    match handleSlotOf u n (le p 0 4) with
    | .inr st => keep u (badHandle st)
    | .inl k =>
      let x := tgetD u.str k {}
      if x.st = .closing then keep u (plain 8)
      else
        let u := withdrawPause k u
        let t := x.cancelAt.getD (if u.tick.st = .coasting ∨ u.tick.st = .halted then coastEnd else cohortTick u x.cohort + 1)
        keep (modStr k (fun s => { s with cancelAt := some t }) u) (ok (le8 t)))
/-- STREAM_CANCEL (R355). -/
def execStreamCancel (mb : Fin 64) (s : State) : Res := onU (streamCancel mb) s
/-- The first argument of a pause at fault, as an offset of the message's payload (R266, R279). DEDUCED, log 150.
DEDUCED, log 153. -/
def pauseFault (u : Units) (ttl target : Nat) : Option Nat :=
  if 86400 < ttl then some 4
  else if target = 0 ∨ target = 255 then none
  else match tget u.tier.imports target with
    | some w => if w.pauseOk then none else some 8
    | none => some 8
/-- STREAM_PAUSE (R355, R279). DEDUCED, log 152. -/
def streamPause (n : Nat) : Units → Units :=
  message 0x0404 n (fun p u =>
    match handleSlotOf u n (le p 0 4) with
    | .inr st => keep u (badHandle st)
    | .inl _ =>
      match pauseFault u (le p 4 4) (le p 8 1) with
      | some off => keep u (invalid off)
      | none =>
        let d := leBytes 1 3 ++ leBytes 1 (le p 8 1) ++ leBytes 6 0 ++ leBytes 4 (le p 0 4) ++ leBytes 4 (le p 4 4)
        (enqueueMsg n n d none u, none))
/-- STREAM_PAUSE (R355). -/
def execStreamPause (mb : Fin 64) (s : State) : Res := onU (streamPause mb) s
/-- The directory entry a pause ID names for a context; one whose expiry time the last edge has reached is named no longer
(R282). DESIGN CHOICE, log 149. DEDUCED, log 156. -/
def savedOf (u : Units) (ctx pid : Nat) : Option (Nat × Saved) :=
  u.tier.saved.find? (fun e => e.2.id == pid && e.2.str.ctx == ctx && (e.2.st == 3 || decide (u.tick.edgeAt < e.2.expiry)))
/-- STREAM_RESUME (R355, R284). -/
def streamResume (n : Nat) : State → State :=
  messageS 0x0405 n (fun p s =>
    let has := le p 4 1
    let r := sliceZ p 8 64
    let d := leBytes 1 4 ++ leBytes 1 has ++ leBytes 6 0 ++ leBytes 4 (le p 0 4)
    let add (srec : Option Bytes) : State × Option Ans := (onUnits (enqueueMsg n n d srec) s, none)
    if 1 < has then (s, some (invalid 4))
    else if has = 0 then add none
    else
      let pol := match savedOf s.u n (le p 0 4) with | some e => e.2.str.policy | none => 0xFFFF
      match sampJudge s n pol (tgetD s.u.ctx n {}).headSlot r with
      | .inr off => if off = 33 ∧ pol = 0xFFFF then add (some r) else (s, some (invalid (8 + off)))
      | .inl _ => add (some r))
/-- STREAM_RESUME (R355). -/
def execStreamResume (mb : Fin 64) (s : State) : Res := .next (streamResume mb s)
/-- Code of a slot state (R262). -/
def strCode : SSt → Nat
  | .free => 0
  | .opening => 1
  | .waiting => 2
  | .active => 3
  | .draining => 4
  | .pauseDrain => 5
  | .pausing => 6
  | .resuming => 7
  | .closing => 8
/-- STREAM_STATUS (R355). DEDUCED, log 159. -/
def streamStatus (n : Nat) : Units → Units :=
  message 0x0406 n (fun p u =>
    match handleSlotOf u n (le p 0 4) with
    | .inr st => keep u (badHandle st)
    | .inl k =>
      let x := tgetD u.str k {}
      let t2 := (x.pages.filter (fun e => e.2.tier2)).length
      keep u (ok (leBytes 1 (strCode x.st) ++ leBytes 1 (bitsOf (le x.samp 33 1) 5 4) ++ leBytes 1 x.rew
        ++ leBytes 1 (min 255 x.hold.length) ++ leBytes 4 x.pos ++ leBytes 2 (x.pages.length - t2) ++ leBytes 2 t2
        ++ leBytes 4 x.skips ++ leBytes 4 x.truncs)))
/-- STREAM_STATUS (R355). -/
def execStreamStatus (mb : Fin 64) (s : State) : Res := onU (streamStatus mb) s
/-- PAUSE_STATUS (R355). DEDUCED, log 157. -/
def pauseStatus (n : Nat) : Units → Units :=
  message 0x0407 n (fun p u =>
    match savedOf u n (le p 0 4) with
    | none => keep u (plain 9)
    | some (_, s) =>
      keep u (ok (leBytes 4 s.st ++ leBytes 4 s.str.pos ++ leBytes 8 s.expiry ++ leBytes 4 s.npages)))
/-- PAUSE_STATUS (R355). -/
def execPauseStatus (mb : Fin 64) (s : State) : Res := onU (pauseStatus mb) s

/- Slots (R261). -/
/-- The slot a new stream of a cohort takes: the die with fewer streams of the cohort, its lowest free slot, else the other
die's. -/
def allocSlot (u : Units) (cohort : Nat) : Option Nat :=
  let own (d : Nat) : Nat := (u.str.filter (fun e => holds e.2 && e.2.cohort == cohort && e.1 % 2 == d)).length
  let d := if own 0 ≤ own 1 then 0 else 1
  let low (d : Nat) : Option Nat :=
    ((List.range (u.str.length + 1)).map (fun k => 2 * k + d)).find? (fun k => decide (k < 4096) && !holds (tgetD u.str k {}))
  match low d with
  | some k => some k
  | none => low (1 - d)
/-- The generation after one (R13). -/
def nextGen (g : Nat) : Nat := if 4095 ≤ g then 1 else g + 1
/-- Answer slot a stream is bound to (R265): that of its policy while its LAG is not 0. DEDUCED, log 188. -/
def boundAns (u : Units) (policy : Nat) (samp : Bytes) : Nat :=
  if lagOf samp = 0 then 255 else (ansSlot (polCur u policy)).getD 255
/-- Chunks whose pages an open takes (R265). -/
def openChunks (samp : Bytes) (maxPos : Nat) : List Nat :=
  if lagOf samp = 0 then [] else (List.range 2).filter (fun c => decide (c < maxPos / 16))
/-- Chunks whose pages a resume takes (R284): those saved and one ahead. -/
def resumeChunks (s : Saved) (samp : Bytes) : List Nat :=
  if lagOf samp = 0 then [] else (List.range (s.npages + 1)).filter (fun c => decide (c < s.str.maxPos / 16))
/-- A page map over chunks and page numbers of tier 1. -/
def pageMap (chunks pages : List Nat) : Tbl Page :=
  (List.range chunks.length).foldl (fun t i => tset t (chunks.getD i 0) { page := pages.getD i 0 }) []

/-- An open decided (R265, R266, R267): slot, then pages, then its place on its bound slots, which cannot fail.
DEDUCED, log 141. -/
def openDecide (ctx : Nat) (w : Waiting) (s : State) : State :=
  let c := tgetD s.u.ctx ctx {}
  let pol := le w.desc 2 2
  let u := decided ctx w s.u
  let refuse (cause off : Nat) : State := { s with u := refuseOp ctx 0x20 cause off w u }
  if 1023 < pol ∨ (polCur u pol).isEmpty then refuse 0 0
  else match w.srec with
    | none => refuse 0 8
    | some r =>
      match sampJudge s ctx pol c.headSlot r with
      | .inr off => refuse 0 (8 + off)
      | .inl bias =>
        if admissionHeld u ctx then refuse 3 0
        else if c.maxStreams ≤ ctxStreams u ctx then refuse 1 0
        else
          let chunks := openChunks r c.maxPos
          match allocSlot u c.cohort, (if chunks.isEmpty then some ([], u) else takeHigh chunks.length u) with
          | some k, some (pages, u) =>
            let g := nextGen (tgetD u.str k {}).gen
            let start := u.tick.number + 1 + le w.desc 1 1
            let m := pinState u (polCur u pol) (freshState u (polProf u (polCur u pol) 12))
            let x : Str := {
              gen := g, st := .opening, ctx := ctx, cohort := c.cohort, policy := pol, samp := r, bias := bias
              hostTag := le w.desc 4 4, start := start, headSlot := c.headSlot, ansSlot := boundAns u pol r
              maxPos := c.maxPos, ms := m, ms0 := m, pages := pageMap chunks pages }
            let u := blkBump 9 1 { u with str := tset u.str k x }
            let u := addEvent k (dueTick u c.cohort) (eventEntry 0x20 0 0 x.hostTag (handleOf k x) 0 0 0 start 0) u
            { s with u := answerWaiting w.mb (ok (leBytes 8 (handleOf k x) ++ le8 start)) u }
          | _, _ => refuse 2 0
/-- STREAM_OPEN_DECISION (R265). -/
def streamOpenDecision (ctx : Nat) (s : State) : State :=
  match decides s.u ctx 2 with
  | none => s
  | some w => openDecide ctx w s
/-- STREAM_OPEN_DECISION (R265). -/
def execStreamOpenDecision (ctx : Fin 64) (s : State) : Res := .next (streamOpenDecision ctx s)

/- Seats (R27, R119, R287). -/
/-- Whether a slot's images serve: in service with a replica that serves. -/
def slotServes (u : Units) (n : Nat) : Bool := slotServing u n && decide (0 < servingReps u n)
/-- Whether every slot a stream is bound to serves (R265). -/
def boundOk (u : Units) (s : Str) : Bool := slotServes u s.headSlot && (lagOf s.samp == 0 || slotServes u s.ansSlot)
/-- Seats of one replica of a head slot in a cohort: the lesser of the bounds of R27 and R119. -/
def seatCap (u : Units) (h : Nat) : Nat :=
  let s := tgetD u.slot h {}
  min (u.tick.period * 500 / headCycles s.img s.imgLen)
    (4128768 / (64 * ceilDiv (64 + imgHidden s.img / 2 + 8 * imgOutMax s.img) 64))
/-- Whether a stream holds a seat on a replica. -/
def seatedOn (h cohort r : Nat) (s : Str) : Bool :=
  (s.st == .active || s.st == .draining) && s.headSlot == h && s.cohort == cohort && s.seat == some r
/-- The lowest serving replica of a head slot with a seat free in a cohort. DEDUCED, log 144. -/
def freeSeat (u : Units) (h cohort : Nat) : Option Nat :=
  let x := tgetD u.slot h {}
  (List.range x.nrep).find? (fun r => !x.out.any (fun o => o.1 == r)
    && decide ((u.str.filter (fun e => seatedOn h cohort r e.2)).length < seatCap u h))
/-- A stream becomes ACTIVE with a seat, or WAITING. -/
def seatOrWait (n : Nat) (u : Units) : Units :=
  let s := tgetD u.str n {}
  let t := boundTick u s.cohort
  match (if boundOk u s then freeSeat u s.headSlot s.cohort else none) with
  | some r => modStr n (fun s => { s with st := .active, seat := some r }) u
  | none => modStr n (fun s => if s.st = .waiting then s else { s with st := .waiting, seat := none, waitSince := t }) u
/-- Whether a seat of a stream is lost: its replica or a bound slot does not serve. -/
def seatLost (u : Units) (s : Str) : Bool :=
  !boundOk u s || (match s.seat with | some r => (tgetD u.slot s.headSlot {}).out.any (fun o => o.1 == r) | none => true)
/-- A displaced stream takes a seat elsewhere or waits; a DRAINING one keeps draining. DEDUCED, log 144. -/
def reseat (n : Nat) (u : Units) : Units :=
  let s := tgetD u.str n {}
  let u := modStr n (fun s => { s with seat := none }) u
  if s.st = .active ∧ !s.ended then seatOrWait n u
  else match freeSeat u s.headSlot s.cohort with
    | some r => modStr n (fun s => { s with seat := some r }) u
    | none => u
/-- SEAT_ASSIGN (R287): streams displaced from a replica leaving service, in slot order, then WAITING streams, oldest wait
first; those that start come after them. DEDUCED, log 144. -/
def seatAssign (cohort : Nat) (u : Units) : Units :=
  if !atBoundary u cohort then u
  else
    let lost := (u.str.filter (fun e => (e.2.st == .active || e.2.st == .draining) && e.2.cohort == cohort && seatLost u e.2)).map (·.1)
    let u := forAll lost reseat u
    let wait := u.str.filter (fun e => e.2.st == .waiting && e.2.cohort == cohort)
    let wait := sortBy (fun (a b : Nat × Str) => a.2.waitSince < b.2.waitSince || (a.2.waitSince == b.2.waitSince && a.1 < b.1)) wait
    forAll (wait.map (·.1)) seatOrWait u
/-- SEAT_ASSIGN (R287). -/
def execSeatAssign (cohort : Fin 2) (s : State) : Res := onU (seatAssign cohort) s
/-- Whether an OPENING stream's start boundary has come (R267, R62, R278). DEDUCED, log 142. -/
def startDue (u : Units) (s : Str) : Bool :=
  s.st == .opening && decide (s.start ≤ boundTick u s.cohort) && u.tick.st == .current && !cancelDue u s
/-- Whether the page-in of a RESUMING stream can be complete at the boundary that has come (R285). -/
def pageInReady (u : Units) (n : Nat) (s : Str) : Bool :=
  s.st == .resuming && decide (s.start ≤ boundTick u s.cohort) && !copying u (.resume n) && moveDone u (.resume n) && !cancelDue u s
/-- Seats of a head slot free in a cohort, over its serving replicas. -/
def seatsFree (u : Units) (h cohort : Nat) : Nat :=
  let x := tgetD u.slot h {}
  (((List.range x.nrep).filter (fun r => !x.out.any (fun o => o.1 == r))).map (fun r =>
    seatCap u h - (u.str.filter (fun e => seatedOn h cohort r e.2)).length)).sum
/-- A stream that starts or ends its page-in takes a seat, once those of the displaced and the waiting are given and, in slot
order, those of the streams below it that start at this boundary; for one below it whose page-in is complete a seat is kept
(R287). DEDUCED, log 144. -/
def seatInOrder (n : Nat) (u : Units) : Units :=
  let s := tgetD u.str n {}
  let u := forAll ((u.str.filter (fun e => decide (e.1 < n) && e.2.cohort == s.cohort && startDue u e.2)).map (·.1)) seatOrWait
    (seatAssign s.cohort u)
  let kept := (u.str.filter (fun e => decide (e.1 < n) && e.2.cohort == s.cohort && e.2.headSlot == s.headSlot
    && pageInReady u e.1 e.2)).length
  if kept ≠ 0 ∧ seatsFree u s.headSlot s.cohort ≤ kept then
    modStr n (fun x => { x with st := .waiting, seat := none, waitSince := boundTick u s.cohort }) u
  else seatOrWait n u
/-- STREAM_START (R267, R62): no new stream enters a step while the tick coasts or is halted. DEDUCED, log 142. -/
def streamStart (n : Nat) (u : Units) : Units :=
  let s := tgetD u.str n {}
  if !startDue u s ∨ !atBoundary u s.cohort then u else seatInOrder n u
/-- STREAM_START (R267). -/
def execStreamStart (n : Fin 4096) (s : State) : Res := onU (streamStart n) s

/- Leaving a slot (R276, R277). -/
/-- A stream leaves its slot at a boundary: its pages are given up, what it released and has not written stays owed to its
context, everything else is discarded. -/
def leaveSlot (n : Nat) (evts : List (Nat × Bytes)) (ind : Bool) (u : Units) : Units :=
  let s := tgetD u.str n {}
  let u := dropMoves (fun i => i == .resume n || i == .pause n) (freePages n (fun _ => true) u)
  let g : Gone := {
    slot := n, handle := handleOf n s, toks := s.outToks, evts := s.outEvts ++ evts, since := s.since
    endInd := if ind then some (s.pos, s.rew) else none }
  let owed := !g.toks.isEmpty || !g.evts.isEmpty || ind
  { u with
    str := tset u.str n { gen := s.gen, ctx := s.ctx, cohort := s.cohort }
    mat := { u.mat with replay := u.mat.replay.filter (fun x => x.1 != n) }
    ctx := if owed then tmod u.ctx s.ctx {} (fun c => { c with gone := c.gone ++ [g] }) else u.ctx }
/-- The END entry of a stream (R258, R370). tick: the cohort tick that begins at the boundary that frees its slot.
DEDUCED, log 175. -/
def endEntry (n : Nat) (s : Str) (verdict reason tick : Nat) : Bytes :=
  eventEntry 0x23 reason 0 0 (handleOf n s) 0 s.pos verdict tick 0
/-- A stream ends in the present egress: it is CLOSING, its held tokens and checks are dropped, its marker is written (R227). -/
def closeStream (n verdict reason : Nat) (u : Units) : Units :=
  let s := tgetD u.str n {}
  let t := cohortTick u s.cohort
  addEvent n t (endEntry n s verdict reason (t + 1)) (modStr n (fun s => { s with
    st := .closing, seat := none, closeAt := t + 1, hold := [], checks := [], fails := [], redo := none, pause := none }) u)
/-- The room in local tier 2 that a stream's pause copy has taken, given up; pages the stream has borrowed are its own. -/
def pauseGiveUp (s : Str) (u : Units) : Units :=
  match s.pause with
  | some r => if r.target = 0 then freeLocal (r.pages.filter (fun p => !s.pages.any (fun e => e.2.tier2 && e.2.page == p))) u else u
  | none => u
/-- STREAM_CANCEL_EFFECT (R277, R278). -/
def streamCancelEffect (n : Nat) (u : Units) : Units :=
  let s := tgetD u.str n {}
  let t := boundTick u s.cohort
  if !holds s ∨ s.st = .closing ∨ !cancelDue u s ∨ !running u then u
    else
      let reason := if s.st = .opening ∧ t ≤ s.start then 0x31 else 0x30
      let u := if s.st = .resuming then
          match u.tier.saved.find? (fun e => e.2.id == s.restoring) with
          | some e => dropSaved e.1 none u
          | none => u
        else u
      leaveSlot n [(t, endEntry n s 5 reason t)] true (pauseGiveUp s u)
/-- STREAM_CANCEL_EFFECT (R277). -/
def execStreamCancelEffect (n : Fin 4096) (s : State) : Res := onU (streamCancelEffect n) s
/-- STREAM_SLOT_FREE (R276). -/
def streamSlotFree (n : Nat) (u : Units) : Units :=
  let s := tgetD u.str n {}
  if s.st ≠ .closing ∨ boundTick u s.cohort < s.closeAt then u else leaveSlot n [] false u
/-- STREAM_SLOT_FREE (R276). -/
def execStreamSlotFree (n : Fin 4096) (s : State) : Res := onU (streamSlotFree n) s

/- Pause (R279 to R283). -/
/-- The lowest free entry of the pause directory. -/
def freeEntry (u : Units) : Option Nat :=
  let used := tkeys u.tier.saved ++ u.str.filterMap (fun e => e.2.pause.map (fun r => r.id % 65536))
  ((List.range (used.length + 1)).filter (fun k => decide (k < 65536) && !used.contains k)).head?
/-- The refusal of a pause: to its message, or as a PAUSE_ACK event of the stream it names. DEDUCED, log 153. -/
def refusePause (ctx cause off : Nat) (w : Waiting) (u : Units) : Units :=
  let h := le w.desc 8 4
  let e := eventEntry 0x21 cause (if cause = 0 then 7 else 1) (le w.desc 4 4) h 0 0 0 0 0
  let u := dieBump 56 0x303 1 u
  match w.mb with
  | some n => answerWaiting (some n) (if cause = 0 then invalid off else bad 1 2 0xFFFF cause) u
  | none =>
    match handleSlotOf u ctx h with
    | .inl k => addEvent k (dueOf u w (tgetD u.ctx ctx {}).cohort) e u
    | .inr _ => addRefused ctx w e u
/-- Room for n pages at a pause target, after forced expiry in local tier 2 of states that expire before t (R283).
DEDUCED, log 150. -/
def pauseRoom (u : Units) (target n t : Nat) : Option Units :=
  if target = 0 then forceRoom n (some t) (forceList u) u
  else match tget u.tier.imports target with
    | some w => if w.depart.isNone && decide (n ≤ roomAt u target) then some u else none
    | none => none
/-- A pause decided (R279, R266). DEDUCED, log 156. -/
def pauseDecide (ctx : Nat) (w : Waiting) (u : Units) : Units :=
  let c := tgetD u.ctx ctx {}
  let u := decided ctx w u
  let target := if le w.desc 1 1 = 255 then c.defTarget else le w.desc 1 1
  let ttl := if le w.desc 12 4 = 0 then c.defTtl else le w.desc 12 4
  match handleSlotOf u ctx (le w.desc 8 4), pauseFault u (le w.desc 12 4) (le w.desc 1 1) with
  | .inr 9, none => match w.mb with
    | some n => answerWaiting (some n) (plain 9) u
    | none => refusePause ctx 0 0 w u
  | .inr _, _ => refusePause ctx 0 0 w u
  | .inl _, some off => refusePause ctx 0 off w u
  | .inl k, none =>
    let s := tgetD u.str k {}
    if heldPlain u ctx then refusePause ctx 3 0 w u
    else match pauseRoom u target (s.pages.length + 1) (u.tick.time + ttl * 1000000000), freeEntry u with
      | some v, some e =>
        if (s.st ≠ .active ∧ s.st ≠ .waiting) ∨ s.pause.isSome ∨ s.cancelAt.isSome then refusePause ctx 8 0 w u
        else
          let cnt := tgetD v.tier.useCount e 0
          let cnt := if 0xFFFF ≤ cnt then 1 else cnt + 1
          let id := cnt * 65536 + e
          let v := { v with tier := { v.tier with useCount := tset v.tier.useCount e cnt } }
          let v := modStr k (fun s => { s with pause := some {
            id := id, ttl := ttl, target := target, room := s.pages.length + 1, at_ := u.tick.number } }) v
          match w.mb with
          | some n => answerWaiting (some n) (ok (leBytes 4 id)) v
          | none => addEvent k (dueTick v c.cohort) (eventEntry 0x21 0 0 (le w.desc 4 4) (handleOf k s) id 0 0 0 0) v
      | _, _ => refusePause ctx 4 0 w u
/-- PAUSE_DECISION (R279). -/
def pauseDecision (ctx : Nat) (u : Units) : Units :=
  match decides u ctx 3 with
  | none => u
  | some w => pauseDecide ctx w u
/-- PAUSE_DECISION (R279). -/
def execPauseDecision (ctx : Fin 64) (s : State) : Res := onU (pauseDecision ctx) s
/-- Whether nothing of a stream is held and nothing is pending (R281). -/
def drained (s : Str) : Bool := s.hold.isEmpty && s.checks.isEmpty && s.fails.isEmpty && s.redo.isNone
/-- Bytes of one page of a stream, where it stands. DESIGN CHOICE, log 149. -/
def pageBytes (s : State) (p : Page) : Bytes :=
  if p.tier2 then mread s.m.t2 (pageAddr2 s.u p.page) 65536 else mread s.m.t1 (pageAddr1 p.page) 65536
/-- The page of a pause record, whose bytes have no layout (R281). DESIGN CHOICE, log 149. -/
def pauseRecord (id : Nat) : Bytes := (List.range 65536).map (Config.pauseRecord id)
/-- The answer image a stream under a policy is bound to: that of its own answer slot, at LAG 0 that of its policy's (R284). -/
def ansImage (u : Units) (policy own : Nat) : Nat :=
  match (if own = 255 then ansSlot (polCur u policy) else some own) with
  | some k => (slotAt u k).imageId
  | none => 0
/-- PAUSING_ENTER (R281): unwritten pages are freed, pages at the target are given, and the copy begins; to a window by
writes, each of which must be acknowledged (R289). DESIGN CHOICE, log 149. -/
def pausingEnter (n : Nat) (s : State) : State :=
  let x := tgetD s.u.str n {}
  match x.pause with
  | none => s
  | some r =>
    if x.st ≠ .pauseDrain ∨ !drained x ∨ !atBoundary s.u x.cohort then s
    else
      let target := if r.target = 0 ∨ (tget s.u.tier.imports r.target).isSome then r.target else (tgetD s.u.ctx x.ctx {}).defTarget
      let moving := x.pages.filterMap (fun e => e.2.to_)
      let mine (i : MoveId) : Bool := match i with | .back k _ => k == n | _ => false
      let u := modStr n (fun s => { s with pages := s.pages.map (fun e => (e.1, { e.2 with to_ := none })) })
        (dropMoves mine { s.u with tier := { s.u.tier with freed := s.u.tier.freed ++ moving } })
      let u := freePages n (fun c => (tgetD x.pages c {}).pstate == 0) u
      let pages := (tgetD u.str n {}).pages
      let fresh := lowestFree (usedAt u target) (pages.length + 1)
      let at_ := fresh.headD 0 :: (List.range pages.length).map (fun i =>
        let p := (pages.getD i (0, {})).2
        if target = 0 ∧ p.tier2 then p.page else fresh.getD (i + 1) 0)
      let new := at_.filter (fun p => !u.tier.t2.contains p)
      let u := if target = 0 then { u with tier := { u.tier with t2 := u.tier.t2 ++ new } } else u
      let u := modStr n (fun s => { s with
        st := .pausing, copyFail := false
        pause := some { r with target := target, pages := at_, entered := boundTick u x.cohort } }) u
      let stay := if target = 0 then (pages.filter (fun e => e.2.tier2)).length else 0
      let u := addMove (.pause n) (pages.length + 1 - stay) u.tick.number u
      if target = 0 then { s with u := u }
      else
        let rec_ := sendWr target (65536 * at_.headD 0) (pauseRecord r.id) none (some (.pause n)) u
        { s with u := forAll (List.range pages.length) (fun i u =>
            sendWr target (65536 * at_.getD (i + 1) 0) (pageBytes s (pages.getD i (0, {})).2) none (some (.pause n)) u) rec_ }
/-- PAUSING_ENTER (R281). -/
def execPausingEnter (n : Fin 4096) (s : State) : Res := .next (pausingEnter n s)
/-- Time of a cohort's last boundary (R281). DEDUCED, log 155. -/
def boundTime (u : Units) (cohort : Nat) : Nat :=
  if cohort = 0 then u.tick.edgeAt
  else if 2 ≤ u.tick.lastMark ∧ u.tick.lastMark ≤ 5 then u.tick.edgeAt + markNs u 3
  else u.tick.edgeAt - periodNs u + markNs u 3
/-- Bytes written to local tier 2, unit by unit. -/
def localWrite (addr : Nat) (b : Bytes) (s : State) : State :=
  (List.range (b.length / 64)).foldl (fun s i => unitWrite 3 0 (addr + 64 * i) ((b.drop (64 * i)).take 64) false s) s
/-- PAUSE_COPY_DONE (R281, R289): the state is PAUSED and the slot FREE; or the copy failed, and the stream drains again. -/
def pauseCopyDone (n : Nat) (ok_ : Bool) (s : State) : State :=
  let x := tgetD s.u.str n {}
  let t := boundTick s.u x.cohort
  match x.pause with
  | none => s
  | some r =>
    if x.st ≠ .pausing ∨ !atBoundary s.u x.cohort ∨ t ≤ r.entered ∨ cancelDue s.u x then s
    else if ok_ ∧ !x.copyFail then
      if copying s.u (.pause n) ∨ !moveDone s.u (.pause n) then s
      else
        let chunks := tkeys x.pages
        let s := if r.target ≠ 0 then s else
          localWrite (pageAddr2 s.u (r.pages.headD 0)) (pauseRecord r.id) ((List.range chunks.length).foldl (fun s i =>
            let p := tgetD x.pages (chunks.getD i 0) {}
            if p.tier2 then s
            else unitCopy (2, 0, pageAddr1 p.page) (3, 0, pageAddr2 s.u (r.pages.getD (i + 1) 0)) 65536 s) s)
        let leaving := (tget s.u.tier.imports r.target).any (fun w => w.depart.isSome)
        let expiry := boundTime s.u x.cohort + r.ttl * 1000000000
        let kept := { x with pages := x.pages.map (fun e => (e.1, { e.2 with to_ := none })), seat := none, pause := none, outToks := []
                             outEvts := [], snaps := [], passed := [], cancelAt := none }
        let sv : Saved := {
          id := r.id, st := if leaving then 2 else 1, target := r.target, npages := chunks.length, t2 := r.pages, expiry := expiry
          imageId := ansImage s.u x.policy x.ansSlot, str := kept }
        let u := s.u
        let keep2 := if r.target = 0 then x.pages.filter (fun e => !e.2.tier2) else x.pages
        let u := modStr n (fun s => { s with pages := keep2 }) u
        let e := eventEntry 0x24 0 0 0 (handleOf n x) r.id x.pos 0 t expiry
        { s with u := leaveSlot n [(t, e)] false { u with tier := { u.tier with saved := tset u.tier.saved (r.id % 65536) sv } } }
    else
      let u := modStr n (fun s => { s with st := .pauseDrain, copyFail := false, pause := some { r with pages := [] } }) (pauseGiveUp x s.u)
      { s with u := dropMoves (fun i => i == .pause n) u }
/-- PAUSE_COPY_DONE (R281). -/
def execPauseCopyDone (n : Fin 4096) (ok_ : Bool) (s : State) : Res := .next (pauseCopyDone n ok_ s)

/- Resume (R284, R285). -/
/-- The pages of a resume, all from one source (R270). DEDUCED, log 155. -/
def resumePages (a : Asm) (n : Nat) (u : Units) : Option (List Nat × Units) :=
  if n = 0 then some ([], u)
  else match takeHigh n u with
    | some r => some r
    | none => takeEscape a n u
/-- Cause that refuses a resume beyond QUOTA and PAGES (R266): UNKNOWN, MIGRATING, IMAGE. -/
def resumeCause (u : Units) (sv : Option (Nat × Saved)) (samp : Bytes) : Nat :=
  match sv with
  | none => 5
  | some (_, s) =>
    if s.st = 2 then 6
    else if s.st ≠ 1 then 5
    else if s.imageId ≠ ansImage u s.str.policy (boundAns u s.str.policy samp) then 7
    else 0
/-- A resume decided (R284, R266). DEDUCED, log 155. -/
def resumeDecide (ctx : Nat) (w : Waiting) (s : State) : State :=
  let c := tgetD s.u.ctx ctx {}
  let u := decided ctx w s.u
  let sv := savedOf u ctx (le w.desc 8 4)
  let old : Str := match sv with | some e => e.2.str | none => {}
  let refuse (cause off : Nat) : State := { s with u := refuseOp ctx 0x22 cause off w u }
  let judged : List (Nat × Nat) ⊕ Nat :=
    if 1 < le w.desc 1 1 then .inr 4
    else if le w.desc 1 1 = 0 then .inl old.bias
    else match w.srec with
      | none => .inr 8
      | some r =>
        if sv.isNone then (match sampOffset r with | some off => .inr (8 + off) | none => .inl [])
        else match sampJudge s ctx old.policy c.headSlot r with
          | .inr off => .inr (8 + off)
          | .inl l => .inl l
  match judged with
  | .inr off => refuse 0 off
  | .inl bias =>
    let samp := if le w.desc 1 1 = 0 then old.samp else w.srec.getD []
    if admissionHeld u ctx then refuse 3 0
    else if c.maxStreams ≤ ctxStreams u ctx then refuse 1 0
    else
      let chunks := match sv with | some e => resumeChunks e.2 samp | none => []
      match resumePages s.asm chunks.length u with
      | none => refuse 2 0
      | some (pages, v) =>
        match resumeCause u sv samp, sv, allocSlot u c.cohort with
        | 0, some (e, x), some k =>
          let g := nextGen (tgetD u.str k {}).gen
          let first := u.tick.number + 2
          let y : Str := { old with
            gen := g, st := .resuming, cohort := c.cohort, samp := samp, bias := bias, hostTag := le w.desc 4 4
            start := first, headSlot := c.headSlot, ansSlot := boundAns u old.policy samp
            stepped := old.stepped.filter (fun n => n == c.headSlot || n == boundAns u old.policy samp), restoring := x.id, pages := pageMap chunks pages, copyFail := false }
          let v := modSaved e (fun s => { s with st := 3 }) (blkBump 9 1 { v with str := tset v.str k y })
          let v := addMove (.resume k) (min x.npages chunks.length) (u.tick.number + 1) v
          let v := addEvent k (dueTick v c.cohort) (eventEntry 0x22 0 0 y.hostTag (handleOf k y) x.id y.pos 0 first 0) v
          { s with u := answerWaiting w.mb (ok (leBytes 4 (handleOf k y) ++ leBytes 4 y.pos ++ le8 first)) v }
        | cause, _, _ => refuse (if cause = 0 then 1 else cause) 0
/-- RESUME_DECISION (R284). -/
def resumeDecision (ctx : Nat) (s : State) : State :=
  match decides s.u ctx 4 with
  | none => s
  | some w => resumeDecide ctx w s
/-- RESUME_DECISION (R284). -/
def execResumeDecision (ctx : Fin 64) (s : State) : Res := .next (resumeDecision ctx s)
/-- RESUME_PAGE_IN (R285): pages and states are in place, and the stream is ACTIVE or WAITING; or the copy failed, and the
stream ends with ERROR. -/
def resumePageIn (n : Nat) (ok_ : Bool) (s : State) : State :=
  let x := tgetD s.u.str n {}
  match s.u.tier.saved.find? (fun e => e.2.id == x.restoring && e.2.st == 3) with
  | none => s
  | some (e, sv) =>
    let down := sv.target = 0 ∧ (sv.t2.drop 1).any (fun p => tier2Down s.u (pageAddr2 s.u p) 65536)
    if x.st ≠ .resuming then s
    else if !ok_ ∨ x.copyFail ∨ down then { s with u := dropMoves (fun i => i == .resume n) (dropSaved e none (closeStream n 4 0x15 s.u)) }
    else if !pageInReady s.u n x ∨ !atBoundary s.u x.cohort then s
    else
      let chunks := (tkeys x.pages).take sv.npages
      let s := if sv.target ≠ 0 then s else
        (List.range chunks.length).foldl (fun s i =>
          unitCopy (3, 0, pageAddr2 s.u (sv.t2.getD (i + 1) 0)) (2, 0, pageAddr1 (tgetD x.pages (chunks.getD i 0) {}).page) 65536 s) s
      let u := modStr n (fun y => { y with
        pages := tmap y.pages (fun c p => { p with pstate := (tgetD sv.str.pages c {}).pstate })
        snaps := if y.pos = 0 then [] else tset [] ((y.pos - 1) % 128) (msBytes y.ms), restoring := 0 }) (dropSaved e none s.u)
      let u := regroup n (x.ms.autos.map (·.1)) u
      { s with u := seatInOrder n u }
/-- RESUME_PAGE_IN (R285). -/
def execResumePageIn (n : Fin 4096) (ok_ : Bool) (s : State) : Res := .next (resumePageIn n ok_ s)

end Sys2Proof.Machine
end

