-- ==== Sys2Proof/Machine/Head.lean ====
section
/-! DEFINITION. The terminal head, sampling and the post-sample sweep (07, R203 to R219; 06, R189): slice summaries, the
generator, the merge, the sampling controls, the choice of a token, its match summary. -/
namespace Sys2Proof.Machine

/- The generator (R212). -/
/-- The mixing function of the generator. -/
def gmix (x : Nat) : Nat :=
  let x := Nat.xor x (x / 2 ^ 32) * 0xB5A37C19E46D02F3 % 2 ^ 64
  let x := Nat.xor x (x / 2 ^ 29) * 0x8F1DC64B35A9E77B % 2 ^ 64
  Nat.xor x (x / 2 ^ 32)
/-- Step key of a seed, a position and a rewind epoch. -/
def stepKey (seed pos rew : Nat) : Nat := gmix (Nat.xor seed (gmix ((pos * 2 ^ 32 + rew * 2 ^ 24) % 2 ^ 64)))
/-- An FP32 pattern with its sign changed. -/
def fneg32 (a : Nat) : Nat := Nat.xor a (2 ^ 31)
/-- Noise of a vocabulary index under a step key, FP32. -/
def gumbel (skey v : Nat) : Nat :=
  let x := gmix ((skey + 0xD1B54A329F076C8D * (v + 1)) % 2 ^ 64)
  let a := flog .fp32 (fround .fp32 false (2 * (x / 2 ^ 41) + 1) 1 (-24))
  fneg32 (flog .fp32 (fneg32 a))

/- The slice (R203 to R211). -/
/-- Offset of a cohort area in a head core's working store (R204). -/
def cohortArea (cohort : Nat) : Nat := 0x8000 + 0x4000 * cohort
/-- Offset of a cohort area's list region (R204). -/
def listRegion (cohort : Nat) : Nat := cohortArea cohort + 0x1900
/-- Entries of a list region (R204). -/
def listRoom : Nat := 2496
/-- A result whose operands are finite, with an overflow replaced by the largest finite value of its sign, and whether it was
(R209). -/
def headSat (a b r : Nat) : Nat × Bool :=
  if fnotFin .fp32 r && !fnotFin .fp32 a && !fnotFin .fp32 b then (fmaxFin .fp32 (bitAt r 31), true) else (r, false)
/-- FP32 minus infinity: a banned index. -/
def banned32 : Nat := finf .fp32 true
/-- l' and z of an unbanned element, and how many of its results were replaced (R208): adj, the adjustment if it carries one;
rt, the reciprocal temperature; g, its noise. DEDUCED, log 174. -/
def headElem (l : Nat) (adj : Option Nat) (rt g : Nat) : Nat × Nat × Nat :=
  let a := match adj with
    | some d => headSat l (bf2fp d) (fadd .fp32 l (bf2fp d))
    | none => (l, false)
  if rt = 0 then (a.1, a.1, b2n a.2)
  else
    let p := headSat a.1 rt (fmul .fp32 a.1 rt)
    let z := headSat p.1 g (fadd .fp32 p.1 g)
    (p.1, z.1, b2n a.2 + b2n p.2 + b2n z.2)
/-- What a list entry does to its index: banned, or an adjustment. -/
def listEntryAt (entries : List Nat) (i : Nat) : Option (Bool × Nat) :=
  (entries.find? (fun e => bitsOf e 27 16 == i)).map (fun e => (bitsOf e 31 30 == 0, e % 65536))
/-- The registers of a slice held as 4,096 values (R203). -/
def sliceRegs (l : List Nat) : List (List W32) :=
  (List.range 16).map (fun r => ((l.drop (256 * r)).take 256).map (BitVec.ofNat 32))
/-- A slice's summary (R210, R211) and the values replaced on the way: replica core, logits, step key, reciprocal temperature,
list entries. -/
def sliceSummaryOf (core : Nat) (poison : Bool) (logits : List Nat) (skey rt : Nat) (entries : List Nat) : Summary × Nat :=
  let el := (List.range 4096).map (fun i =>
    let l := logits.getD i 0
    match listEntryAt entries i with
    | some (true, _) => (banned32, banned32, 0)
    | some (false, d) => headElem l (some d) rt (if rt = 0 then 0 else gumbel skey (4096 * core + i))
    | none => headElem l none rt (if rt = 0 then 0 else gumbel skey (4096 * core + i)))
  let ban (i : Nat) : Bool := match listEntryAt entries i with | some (b, _) => b | none => false
  let unmasked := 4096 - ((List.range 4096).filter ban).length
  let lp := el.map (·.1)
  let top := (topK .fp32 64 lp).take (min 64 unmasked)
  let z := maxReduce .fp32 (el.map (·.2.1))
  let lse :=
    if unmasked = 0 then banned32
    else
      let m := (top.headD (banned32, 0)).1
      let e := (lp.zip (List.range 4096)).map (fun p => if ban p.2 then 0 else fexp .fp32 (fsub .fp32 p.1 m))
      fadd .fp32 m (flog .fp32 (sumReduce .fp32 (sliceRegs e)))
  ({ core := core, poison := poison, lse := lse, zmax := if unmasked = 0 then banned32 else z.1
     zidx := if unmasked = 0 then 0 else z.2, unmasked := unmasked, cand := top },
   (el.map (·.2.2)).sum)

/-- The stream a work-list entry of a head replica belongs to in a cohort's present tick. -/
def streamAt (u : Units) (slot rep cohort entry : Nat) : Option Nat :=
  (u.str.find? (fun e => e.2.st == .active && e.2.headSlot == slot && e.2.cohort == cohort && e.2.seat == some rep
    && e.2.entry == some entry)).map (·.1)
/-- SLICE_SUMMARY (R210): a head core finishes a stream's slice, held in a logit buffer, and its summary arrives. -/
def sliceSummary (k buf cohort entry : Nat) (poison : Bool) (s : State) : State :=
  let c := coreAt s.u k
  match c.slot with
  | none => s
  | some slot =>
    match streamAt s.u slot c.rep cohort entry with
    | none => s
    | some n =>
      let x := tgetD s.u.str n {}
      if imgKind (slotImg s.u slot) ≠ 1 ∨ x.sums.any (fun y => y.core == c.lidx) ∨ x.noSample ∨ x.chosen.isSome then s
      else
        let e := sramRead s k (cohortArea cohort + 16 * entry) 16
        let w := le e 12 4
        let listAt := listRegion cohort + 4 * bitsOf w 31 20
        let n4 := 4 * bitsOf w 19 8
        let lb := sramRead s k listAt n4
        let entries := (List.range (bitsOf w 19 8)).map (fun i => le lb (4 * i) 4)
        let ab := sramRead s k (0x4000 * buf) 16384
        let logits := (List.range 4096).map (fun i => le ab (4 * i) 4)
        let bad := poison || sramPois s k (0x4000 * buf) 16384 || sramPois s k (cohortArea cohort + 16 * entry) 16
          || (n4 != 0 && sramPois s k listAt n4)
        let r := sliceSummaryOf c.lidx bad logits (le e 0 8) (le e 8 4) entries
        onUnits (fun u => modStr n (fun y => { y with sums := y.sums ++ [r.1] })
          (dieBump (dieKey 1 (slotDie n)) 0x13B 1 (dieBump (dieKey 0 (k / 16)) 0x34 r.2 u))) s
/-- SLICE_SUMMARY (R210). -/
def execSliceSummary (c : CoreId) (buf cohort : Fin 2) (entry : Nat) (poison : Bool) (s : State) : Res :=
  .next (if coreLive s.asm s.u c then sliceSummary (coreKey c) buf cohort entry poison s else s)

/- Merge and controls (R214 to R217). -/
/-- A candidate of the merged list: l', global index, and whether it is the 64th of a cut core. -/
structure Cand where
  l : Nat
  v : Nat
  last : Bool
/-- The candidates of every summary in the merge order. -/
def mergeAll (sums : List Summary) : List Cand :=
  sortBy (fun (a b : Cand) => fgt .fp32 a.l b.l || (!fgt .fp32 b.l a.l && a.v < b.v))
    (sums.flatMap (fun s => (s.cand.zip (List.range s.cand.length)).map (fun p =>
      ({ l := p.1.1, v := 4096 * s.core + p.1.2, last := decide (64 < s.unmasked) && p.2 == 63 } : Cand))))
/-- Whether the merged list is complete. -/
def mergeComplete (sums : List Summary) : Bool :=
  sums.all (fun s => decide (s.unmasked ≤ 64)) && decide ((sums.map (fun s => s.cand.length)).sum ≤ 1024)
/-- The exact length E. -/
def exactLen (sums : List Summary) (all : List Cand) : Nat :=
  if mergeComplete sums then all.length
  else
    let kept := min 1024 all.length
    match (all.zip (List.range all.length)).find? (fun p => p.1.last) with
    | some p => min kept (p.2 + 1)
    | none => kept
/-- The global log-sum-exp L. -/
def globalLse (sums : List Summary) : Nat :=
  let l := (sortBy (fun (a b : Summary) => a.core < b.core) sums).map (·.lse)
  let m := (maxReduce .fp32 l).1
  let s := l.foldl (fun acc x => fadd .fp32 acc (if x = banned32 then 0 else fexp .fp32 (fsub .fp32 x m))) 0
  fadd .fp32 m (flog .fp32 s)
/-- Least count of leading candidates whose probabilities sum to p or more; none where no prefix does. -/
def topPCut (lse p : Nat) : List Cand → Nat → Nat → Option Nat
  | [], _, _ => none
  | c :: r, j, acc =>
    let pj := fexp .fp32 (fsub .fp32 c.l lse)
    let acc := if j = 0 then pj else fadd .fp32 acc pj
    if flt .fp32 acc p then topPCut lse p r (j + 1) acc else some (j + 1)
/-- The cuts of the active controls of a sampling record, over the first E candidates: length and whether decided (R215). -/
def controlCuts (samp : Bytes) (complete : Bool) (lse : Nat) (cs : List Cand) : List (Nat × Bool) :=
  let e := cs.length
  let topk := le samp 28 2
  let topp := le samp 12 4
  let minp := le samp 16 4
  let k := if topk = 0 then [] else [(if topk ≤ e then topk else e, decide (topk ≤ e) || complete)]
  let p := if flt .fp32 topp 0x3F800000 then
      (match topPCut lse topp cs 0 0 with
        | some j => [(j, true)]
        | none => [(e, complete)])
    else []
  let m := if flt .fp32 0 minp then
      let theta := fadd .fp32 ((cs.map (·.l)).headD 0) (flog .fp32 minp)
      let n := (cs.takeWhile (fun c => !flt .fp32 c.l theta)).length
      [(n, decide (n < e) || complete)]
    else []
  k ++ p ++ m
/-- The greater of two perturbed candidates, ties to the lower index (R217). -/
def better (a b : Nat × Nat) : Nat × Nat :=
  if fgt .fp32 b.1 a.1 || (!fgt .fp32 a.1 b.1 && decide (b.2 < a.2)) then b else a
/-- The greatest of a list of values and indices. -/
def bestOf : List (Nat × Nat) → Nat
  | [] => 0
  | x :: r => (r.foldl better x).2
/-- The token chosen, and TRUNC (R216, R217). -/
def chooseToken (samp : Bytes) (skey : Nat) (sums : List Summary) : Nat × Bool :=
  let all := mergeAll sums
  let cs := all.take (exactLen sums all)
  let cuts := controlCuts samp (mergeComplete sums) (globalLse sums) cs
  if le samp 8 4 = 0 then ((cs.map (·.v)).headD 0, false)
  else if cuts.isEmpty then
    (bestOf ((sums.filter (fun s => s.unmasked != 0)).map (fun s => (s.zmax, 4096 * s.core + s.zidx))), false)
  else
    let n := cuts.foldl (fun n c => min n (if c.2 then c.1 else cs.length)) cs.length
    let z (c : Cand) : Nat × Nat :=
      let g := gumbel skey c.v
      ((headSat c.l g (fadd .fp32 c.l g)).1, c.v)
    (bestOf ((cs.take n).map z), cuts.all (fun c => !c.2))

/- A token enters the hold queue (R218, R222, R224). -/
/-- Positions a check covers (R222). -/
def checkSpan (s : Str) : Nat := if lagOf s.samp = 8 then 8 else 16
/-- The check that the sampling of position p completes, if one is: p + 1 closes its span, or the answer ends (R224).
DEDUCED, log 165. -/
def checkFor (u : Units) (s : Str) (p : Nat) (ended : Bool) : List Check :=
  let w := checkSpan s
  if lagOf s.samp = 0 ∨ ((p + 1) % w ≠ 0 ∧ !ended) then []
  else [{ lo := p / w * w, hi := p, epoch := s.rew, pol := polCur u s.policy, queued := cohortTick u s.cohort, short := ended }]
/-- Whether a token at a position ends its answer (R224, R274). -/
def endsAnswer (s : Str) (tok pos : Nat) : Bool :=
  (tok == le s.samp 36 4 && tok != padTok) || decide (s.maxPos ≤ pos + 1)
/-- Tokens kept for the penalty counts: 256 before the position, and what a rewind may drop. -/
def penKeep : Nat := 512
/-- A sampled token joins its stream (R217, R222, R224, R60). -/
def tokenIn (n tok : Nat) (trunc : Bool) (u : Units) : Units :=
  let s := tgetD u.str n {}
  let g := dieKey 1 (slotDie n)
  let done := endsAnswer s tok s.pos
  let u := modStr n (fun s => { s with
    hold := s.hold ++ [{ pos := s.pos, tok := tok, trunc := trunc }], pos := s.pos + 1, chosen := some (s.pos, tok)
    pen := (tok :: s.pen).take penKeep, priorMisses := (s.misses, s.missNoted), misses := 0, missNoted := false, ended := done
    checks := s.checks ++ checkFor u s s.pos done, truncs := s.truncs + b2n trunc }) u
  let u := { u with ctx := tmod u.ctx s.ctx {} (fun c => { c with truncs := c.truncs + b2n trunc }) }
  blkBump 1 1 (dieBump g 0x130 1 (blkBump 12 (b2n trunc) (dieBump g 0x131 (b2n trunc) u)))
/-- A poisoned value ends a stream's step: it skips as a missed record (R219). -/
def poisonStep (n : Nat) (u : Units) : Units :=
  poisonSink (tgetD u.str n {}).ctx (modStr n (fun s => { s with recIn := false, entry := none }) u)
/-- TOKEN_SAMPLE (R217, R219), of a stream that a sampling pass lists (R48), in a tick that steps (R64). DEDUCED, log 174. -/
def tokenSample (n : Nat) (u : Units) : Units :=
  let s := tgetD u.str n {}
  if !s.listed ∨ u.tick.st = .halted ∨ s.entry.isNone ∨ s.chosen.isSome ∨ s.noSample ∨ s.st ≠ .active
      ∨ s.sums.length < imgNcore (slotImg u s.headSlot) then u
  else if s.cont.isNone ∨ s.sums.any (·.poison) then poisonStep n u
  else if s.sums.all (fun x => x.unmasked == 0) then
    modStr n (fun s => { s with
      entry := none, fails := s.fails ++ [{ start := s.pos, act := 0, verdict := 2, reason := 0x42 }] }) u
  else
    let t := chooseToken s.samp (stepKey (le s.samp 0 8) s.pos s.rew) s.sums
    tokenIn n t.1 t.2 u
/-- TOKEN_SAMPLE (R217). -/
def execTokenSample (slot : Fin 4096) (s : State) : Res := onU (tokenSample slot) s

/- The match summary (R189, R225, R231, R236, R256). -/
/-- Final score F of a base score and a weight sum (R236). -/
def finalScore (b : Nat) (w : Int) : Nat := faddV .fp32 (fdec .fp32 b) (.fin (decide (w < 0)) w.natAbs (-8))
/-- Whether a final score fails its category. -/
def scoreFails (c : Cat) (f : Nat) : Bool := !flt .fp32 f c.thresh
/-- WEIGHT of an action record, as signed. -/
def actWeight (a : Nat) : Int := signed 16 (bitsOf a 47 32)
/-- CATEGORY of an action record. -/
def actCat (a : Nat) : Nat := bitsOf a 59 48
/-- W of a category over SCORE hits. -/
def weightSum (u : Units) (cat : Nat) (hits : List Hit) : Int :=
  (hits.map (fun h => let a := actionAt u h.action; if actKind a = 4 ∧ actCat a = cat then actWeight a else 0)).sum
/-- Whether a category judges answers. -/
def onAnswer (c : Cat) : Bool := c.side == 2 || c.side == 3
/-- Whether a category judges requests. -/
def onRequest (c : Cat) : Bool := c.side == 1 || c.side == 3
/-- A replacement entry: its tokens and its SPAN (R231). -/
def replEntry (u : Units) (k : Nat) : List Nat × Nat :=
  let e := tgetD u.mat.repl k []
  ((List.range (le e 0 1)).map (fun i => le e (4 + 4 * i) 4 % 2 ^ 20), le e 1 1)
/-- Failure of a match: the policy's match action from a position on (R225). -/
def matchFail (u : Units) (pol : Bytes) (start verdict reason : Nat) : Fail :=
  let act := le pol 20 1 % 16
  { start := start, act := act, verdict := verdict, reason := reason, repl := (replEntry u (le pol 24 2 % 4096)).1, why := if act = 2 then 3 else 2 }
/-- Failure of a check: the policy's check action from a position on. -/
def checkFail (u : Units) (pol : Bytes) (start verdict reason : Nat) : Fail :=
  let act := le pol 20 1 / 16
  { start := start, act := act, verdict := verdict, reason := reason, repl := (replEntry u (le pol 24 2 % 4096)).1, why := if act = 2 then 3 else 1 }
/-- The failures that one hit on a token makes. first: the first position not released. -/
def hitFail (u : Units) (pol : Bytes) (first : Nat) (h : Hit) : List Fail :=
  let a := actionAt u h.action
  match actKind a with
  | 2 => [matchFail u pol h.pos 2 0x40]
  | 3 =>
    let e := replEntry u (a % 4096)
    [{ start := max first (h.pos - (max 1 e.2 - 1)), act := 2, verdict := 2, reason := 0x40
       repl := if e.2 = 0 then [] else e.1, why := 3 }]
  | _ => []
/-- The hits of a sweep that weigh in scores, and those among them that no category of the answer side takes (R236). -/
def scoreHits (u : Units) (hits : List Hit) : List Hit := hits.filter (fun h => actKind (actionAt u h.action) == 4)
/-- How many score hits no category of a side takes. -/
def uncategorised (u : Units) (cats : List Cat) (hits : List Hit) : Nat :=
  (hits.filter (fun h => !cats.any (fun c => c.cat == actCat (actionAt u h.action)))).length
/-- MATCH_SUMMARY_DONE (R189, R190): the sweep of a stream's oldest token not yet swept ends. -/
def matchSummaryDone (n : Nat) (u : Units) : Units :=
  match (tgetD u.str n {}).hold.find? (fun h => !h.swept) with
  | none => u
  | some h =>
    let u := automatonReplay n u
    let s := tgetD u.str n {}
    let pol := polCur u s.policy
    let r := sweepToken (streamSweep u n s h.pos) h.tok ({ ms := s.ms }, u)
    let u := r.2
    let first := match s.hold with | x :: _ => x.pos | [] => h.pos
    let sc := scoreHits u r.1.hits
    let cats := (polCats pol).filter onAnswer
    let byCat := if lagOf s.samp = 0 ∧ cats.any (fun c => c.src == 3 && scoreFails c (finalScore 0 (weightSum u c.cat sc))) then
        [matchFail u pol h.pos 2 0x40] else []
    let byPoison := if r.1.poison then [matchFail u pol h.pos 4 0x15] else []
    let fails := (r.1.hits.flatMap (hitFail u pol first) ++ byCat ++ byPoison).map (fun f => { f with found := some h.pos })
    let flag := r.1.hits.any (fun x => actKind (actionAt u x.action) == 1)
    let u := { u with mat := { u.mat with uncat := u.mat.uncat + uncategorised u cats sc } }
    let u := if r.1.poison then poisonSink s.ctx u else u
    let m := pinState u pol r.1.ms
    modStr n (fun s => { s with
      ms := m, snaps := tset s.snaps (h.pos % 128) (msBytes m), fails := s.fails ++ fails
      score := if sc.isEmpty then s.score else tset s.score h.pos sc
      hold := s.hold.map (fun x => if x.pos = h.pos then { x with swept := true, flag := flag, clear := fails.isEmpty } else x) }) u

end Sys2Proof.Machine
end

