-- ==== Sys2Proof/Machine/Release.lean ====
section
/-! DEFINITION. Release (07, R222 to R232; 08, R255 to R257): answer checks, failures and their actions, the effects of a
rewind and a redaction, skips, and what an egress does to one stream. -/
namespace Sys2Proof.Machine

/- Checks (R222, R255 to R257, R275). -/
/-- Borrowed pages of the classifier state that a check reads (R275). -/
def checkPages (s : Str) (c : Check) : Nat := (s.pages.filter (fun p => p.2.tier2 && decide (p.1 ≤ c.hi / 16))).length
/-- Checks launched and not yet decided on an answer slot. -/
def checksOn (u : Units) (slot : Nat) : Nat :=
  (u.str.map (fun e => if e.2.ansSlot = slot then (e.2.checks.filter (·.launched)).length else 0)).sum
/-- A stream's checks with one of them changed. DEDUCED, log 164. -/
def modCheck (lo : Nat) (f : Check → Check) (s : Str) : Str :=
  { s with checks := s.checks.map (fun c => if c.lo = lo then f c else c) }
/-- The check a stream would launch now: its first not launched, while the stream does not wait and its answer slot has a
replica free. -/
def checkNext (u : Units) (s : Str) : Option Check :=
  if s.st = .waiting ∨ !slotServing u s.ansSlot ∨ servingReps u s.ansSlot ≤ checksOn u s.ansSlot then none
  else s.checks.find? (fun c => !c.launched)
/-- Whether the check that another stream would launch comes before one in the reads of borrowed pages: it was queued earlier,
in the same tick for a lower slot (R274, R275). -/
def checkAhead (u : Units) (n : Nat) (c : Check) : Bool :=
  u.str.any (fun e => match checkNext u e.2 with
    | some d => checkPages e.2 d != 0 && (decide (d.queued < c.queued) || (d.queued == c.queued && decide (e.1 < n)))
    | none => false)
/-- CHECK_LAUNCH (R275, R222, R61): a stream's next check, on a free replica; one that reads borrowed pages within the budget,
and after those queued before it. DEDUCED, log 172. -/
def checkLaunch (n : Nat) (u : Units) : Units :=
  let s := tgetD u.str n {}
  match checkNext u s with
  | none => u
  | some c =>
    let b := checkPages s c
    if u.tick.st ≠ .current ∨ (b ≠ 0 ∧ (checkBudget u < u.tier.checkRead + b ∨ checkAhead u n c)) then u
    else modStr n (modCheck c.lo (fun c => { c with launched := true }))
      { u with tier := { u.tier with checkRead := u.tier.checkRead + b } }
/-- CHECK_LAUNCH (R275). -/
def execCheckLaunch (slot : Fin 4096) (s : State) : Res := onU (checkLaunch slot) s
/-- The first position of a stream not released. -/
def firstHeld (s : Str) : Nat := match s.hold with | h :: _ => h.pos | [] => s.pos
/-- A category of a check: its final score; none where its base score poisons the unit (R236). -/
def checkScore (u : Units) (hits : List Hit) (scores : List W32) (c : Cat) : Option Nat :=
  let b := if c.src = 2 then (scores[c.out]?).map (·.toNat) else some 0
  match b with
  | none => none
  | some b => if fnotFin .fp32 b then none else some (finalScore b (weightSum u c.cat hits))
/-- Whether a check passes, fails or is poisoned: some true, some false, none (R255). -/
def checkJudge (u : Units) (s : Str) (c : Check) (scores : List W32) (poison : Bool) : Option Bool :=
  let hits := (s.score.filter (fun e => decide (c.lo ≤ e.1) && decide (e.1 ≤ c.hi))).flatMap (·.2)
  let fs := ((polCats c.pol).filter onAnswer).map (fun k => (k, checkScore u hits scores k))
  if poison || fs.any (fun f => f.2.isNone) then none
  else some (fs.all (fun f => !scoreFails f.1 (f.2.getD 0)))
/-- A check has passed (R222, R224, R273). -/
def checkPassed (c : Check) (s : Str) : Str :=
  let k := c.lo / 16
  let half := lagOf s.samp = 8 ∧ c.lo % 16 = 0
  { s with
    checks := s.checks.filter (fun x => x.lo != c.lo)
    passed := s.passed ++ [(c.lo, if c.short then c.lo + checkSpan s - 1 + (if lagOf s.samp = 32 then 16 else 0) else c.hi)]
    score := s.score.filter (fun e => decide (16 * ((c.hi + 1) / 16) ≤ e.1))
    pages := tmap s.pages (fun i p => if i < k then { p with pstate := 1 }
                                      else if i = k then { p with pstate := if half then 2 else 1 } else p) }
/-- A check is decided (R255). DEDUCED, log 171. -/
def decideCheck (n : Nat) (c : Check) (scores : List W32) (poison : Bool) (u : Units) : Units :=
  let s := tgetD u.str n {}
  match checkJudge u s c scores poison with
  | some true => modStr n (checkPassed c) u
  | r =>
    let start := max (firstHeld s) (if lagOf s.samp = 32 then c.lo - 16 else c.lo)
    let f := if r.isNone then checkFail u c.pol start 4 0x15 else checkFail u c.pol start 2 0x41
    let u := if r.isNone then poisonSink s.ctx u else u
    modStr n (fun s => { s with checks := s.checks.filter (fun x => x.lo != c.lo), fails := s.fails ++ [f] }) u
/-- Whether a token that a check covers still waits for its sweep, whose hits the check weighs (R255). -/
def unsweptIn (s : Str) (c : Check) : Bool := s.hold.any (fun h => !h.swept && decide (c.lo ≤ h.pos) && decide (h.pos ≤ c.hi))
/-- The checks of a stream whose scores have come and whose tokens are all swept are decided (R255). -/
def decideReady (n : Nat) (u : Units) : Units :=
  forAll (tgetD u.str n {}).checks (fun c u =>
    match c.scores with
    | some (l, p) => if unsweptIn (tgetD u.str n {}) c then u else decideCheck n c l p u
    | none => u) u
/-- CHECK_VERDICT (R255, R222): a verdict whose epoch is not the stream's is discarded; another one decides its check as soon
as every token it covers is swept. DEDUCED, log 171. -/
def checkVerdict (n lo epoch : Nat) (scores : List W32) (poison : Bool) (u : Units) : Units :=
  let s := tgetD u.str n {}
  match s.checks.find? (fun c => c.lo == lo && c.launched && c.epoch == epoch) with
  | none => u
  | some c =>
    if epoch ≠ s.rew then u
    else if unsweptIn s c then modStr n (modCheck lo (fun c => { c with scores := some (scores, poison) })) u
    else decideCheck n c scores poison u
/-- CHECK_VERDICT (R255). -/
def execCheckVerdict (slot : Fin 4096) (lo : Nat) (epoch : Byte) (scores : List W32) (poison : Bool) (s : State) : Res :=
  onU (checkVerdict slot lo epoch.toNat scores poison) s
/-- MATCH_SUMMARY_DONE (R189), and the checks that waited for it. -/
def execMatchSummaryDone (slot : Fin 4096) (upsets : List Upset) (s : State) : Res :=
  onU (fun u => decideReady slot (matchSummaryDone slot (upset upsets u))) s
/-- One check found late (R257, R390). DEDUCED, log 173. -/
def lateOne (n : Nat) (c : Check) (u : Units) : Units :=
  let s := tgetD u.str n {}
  let u := breach 2 s.ctx (notice (dieKey 1 (slotDie n)) 0x0502 s.ctx [handleOf n s] u)
  let f : Fail := { start := max (firstHeld s) c.lo, act := 0, verdict := 3, reason := 0x23 }
  modStr n (fun s => modCheck c.lo (fun c => { c with late := true })
    (if le c.pol 21 1 / 16 = 0 then { s with fails := s.fails ++ [f] } else s)) u
/-- The checks of a stream that are late at the egress mark of its present cohort tick (R257). -/
def lateChecks (n : Nat) (u : Units) : Units :=
  let s := tgetD u.str n {}
  let t := cohortTick u s.cohort
  forAll (s.checks.filter (fun c => !c.late && decide (c.queued + le c.pol 22 2 ≤ t))) (lateOne n) u
/-- Whether the egress mark of a cohort's tick is next or has come. -/
def egressMark (u : Units) (cohort : Nat) : Bool :=
  running u && (if cohort = 0 then decide (3 ≤ u.tick.lastMark) && decide (u.tick.lastMark ≤ 5) else decide (u.tick.lastMark ≤ 2))
/-- CHECK_TIMEOUT (R257). DEDUCED, log 164. DEDUCED, log 173. -/
def checkTimeout (n : Nat) (u : Units) : Units :=
  if egressMark u (tgetD u.str n {}).cohort then lateChecks n u else u
/-- CHECK_TIMEOUT (R257). -/
def execCheckTimeout (slot : Fin 4096) (s : State) : Res := onU (checkTimeout slot) s

/- Boundaries (R263, R269, R271, R280, R188). -/
/-- Whether a passed check covers a position. -/
def clearedTo (s : Str) (p : Nat) : Bool := s.passed.any (fun x => decide (x.1 ≤ p) && decide (p ≤ x.2))
/-- The last partial span of a stream that samples no more: a short check covers it, or the last whole chunk's check stands
for the chunk that follows (R224, R280). DEDUCED, log 165. -/
def shortCheck (u : Units) (s : Str) : Str :=
  let w := checkSpan s
  if lagOf s.samp = 0 ∨ s.pos = 0 then s
  else
    let hi := s.pos - 1
    let lo := hi / w * w
    if s.checks.any (fun c => c.hi == hi) then modCheck lo (fun c => { c with short := true }) s
    else if clearedTo s hi ∧ s.pos % w = 0 then
      if lagOf s.samp = 32 then { s with passed := s.passed ++ [(lo + 16, lo + 31)] } else s
    else if s.hold.isEmpty then s
    else { s with checks := s.checks ++
      [{ lo := lo, hi := hi, epoch := s.rew, pol := polCur u s.policy, queued := boundTick u s.cohort, short := true }] }
/-- Transitions of a stream at its boundary that need no command of their own: draining, pause drain, waits (R263, R280,
R287). DEDUCED, log 151. DEDUCED, log 171. -/
def boundaryState (n : Nat) (u : Units) : Units :=
  let s := tgetD u.str n {}
  match s.st with
  | .active =>
    if s.ended then modStr n (fun s => { s with st := .draining, pause := none }) u
    else if s.pause.isSome then modStr n (fun s => shortCheck u { s with st := .pauseDrain, seat := none }) u
    else u
  | .waiting =>
    if s.pause.isSome then modStr n (fun s => shortCheck u { s with st := .pauseDrain }) u
    else if lagOf s.samp ≠ 0 ∧ !slotServes u s.ansSlot then
      modStr n (fun s => { s with checks := s.checks.map (fun c => { c with queued := c.queued + 1 }) }) u
    else u
  | _ => u
/-- What the ingress open of a cohort tick does for a stream: growth, page-wait, hold-full, the continuation search (R269,
R271, R223, R188). A halted tick searches nothing (R64). -/
def openStep (n : Nat) (u : Units) : Units :=
  let t := cohortTick u (tgetD u.str n {}).cohort
  let u := modStr n (fun s => { s with
    opened := true, skipIn := s.skipIn || s.skipAt.contains t, skipAt := s.skipAt.filter (fun x => decide (t < x)) })
    (boundaryState n u)
  let s := tgetD u.str n {}
  let u := if s.st = .active then grow n u else u
  if s.st ≠ .active ∨ u.tick.st = .halted then u
  else
    let u := modStr n (fun s => { s with
      pageWait := lacksPage s, holdFull := decide (64 ≤ s.hold.length + s.outToks.length) }) u
    let r := contSearch n u
    modStr n (fun s => { s with cont := r.1 }) r.2

/- Rewind and redaction at the boundary (R191, R222, R228, R231, R263, R273). -/
/-- One replacement token enters a stream: match state, hits recorded, token history (R231). DEDUCED, log 167. -/
def replToken (n : Nat) (u : Units) (t : Nat) : Units :=
  let s := tgetD u.str n {}
  let r := sweepToken (streamSweep u n s s.pos) t ({ ms := s.ms }, u)
  let sc := scoreHits r.2 r.1.hits
  let cats := (polCats (polCur r.2 s.policy)).filter onAnswer
  let u := { r.2 with mat := { r.2.mat with uncat := r.2.mat.uncat + uncategorised r.2 cats sc } }
  let done := decide (s.maxPos ≤ s.pos + 1)
  let m := pinState u (polCur u s.policy) r.1.ms
  modStr n (fun s => { s with
    ms := m, snaps := tset s.snaps (s.pos % 128) (msBytes m), pos := s.pos + 1, pen := (t :: s.pen).take penKeep
    score := if sc.isEmpty then s.score else tset s.score s.pos sc
    ended := done
    checks := s.checks ++ (checkFor u s s.pos done).map (fun c => { c with queued := boundTick u s.cohort }) }) u
/-- The stream stands at position r in a new epoch, its match state restored, and its checks as R222 has them; scores from r on
are dropped. DEDUCED, log 166. -/
def restoreAt (n r : Nat) (u : Units) : Units :=
  let s := tgetD u.str n {}
  let m := if r = 0 then s.ms0 else ((tget s.snaps ((r - 1) % 128)).map msOf).getD s.ms
  let x := replayTo (slotDie n) (ansTrans u s) m u
  let rew := (s.rew + 1) % 256
  let u := modStr n (fun s => { s with
    rew := rew, pos := r, ms := x.1, pen := s.pen.drop (s.pos - r), redo := none, opened := false, ended := false
    fails := s.fails.filter (fun f => decide (f.start < r)), score := s.score.filter (fun e => decide (e.1 < r))
    passed := s.passed.filter (fun x => decide (x.2 < r))
    checks := (s.checks.filter (fun c => decide (c.hi < r))).map (fun c =>
      { c with epoch := rew, launched := false, scores := none }) }) x.2
  freePages n (fun c => decide (r / 16 + 1 < c)) { u with mat := { u.mat with replay := u.mat.replay.filter (fun y => y.1 != n) } }
/-- The effect of a pending rewind or redaction at a boundary. redact: which of the two the command is for. A cancellation
that takes effect at the boundary wins (R232). DEDUCED, log 166. -/
def redoApply (redact : Bool) (n : Nat) (u : Units) : Units :=
  let s := tgetD u.str n {}
  match s.redo with
  | none => u
  | some (r, forced, why) =>
    if (why == 3) != redact ∨ !atBoundary u s.cohort ∨ cancelDue u s then u
    else
      let u := forced.foldl (replToken n) (restoreAt n r u)
      let s := tgetD u.str n {}
      if s.st = .draining ∧ !s.ended then
        (if s.seat.isSome then modStr n (fun s => { s with st := .active }) u else seatOrWait n u)
      else if s.st = .pauseDrain then modStr n (shortCheck u) u
      else u
/-- REWIND_APPLY (R228). -/
def execRewindApply (slot : Fin 4096) (s : State) : Res := onU (redoApply false slot) s
/-- REDACT_APPLY (R231). -/
def execRedactApply (slot : Fin 4096) (s : State) : Res := onU (redoApply true slot) s
/-- SKIP_RUN (R60): one notice for a run of three missed ticks. -/
def skipRun (n : Nat) (u : Units) : Units :=
  let s := tgetD u.str n {}
  if s.misses < 3 ∨ s.missNoted then u
  else notice (dieKey 1 (slotDie n)) 0x0108 s.ctx [handleOf n s] (modStr n (fun s => { s with missNoted := true }) u)
/-- SKIP_RUN (R60). -/
def execSkipRun (slot : Fin 4096) (s : State) : Res := onU (skipRun slot) s

/- One stream's egress (R222 to R231, R380). -/
/-- A token word (R369). -/
def tokenWord (h : Held) : Nat :=
  b2n (h.flag && !h.repl) * 2 ^ 22 + b2n h.repl * 2 ^ 21 + b2n h.trunc * 2 ^ 20 + h.tok % 2 ^ 20
/-- Whether chunk c has passed: passed checks cover all of it. -/
def chunkPassed (s : Str) (c : Nat) : Bool := (List.range 16).all (fun i => clearedTo s (16 * c + i))
/-- Whether the lag's checks let position p go (R222). -/
def lagClear (s : Str) (p : Nat) : Bool :=
  match lagOf s.samp with
  | 0 => true
  | 8 => clearedTo s p
  | 16 => chunkPassed s (p / 16)
  | _ => chunkPassed s (p / 16) && chunkPassed s (p / 16 + 1)
/-- Whether a held token is releasable, those before it gone. -/
def releasable (s : Str) (h : Held) : Bool := h.repl || (h.swept && h.clear && lagClear s h.pos)
/-- The tokens that leave in position order; bans and attempts of positions 16 behind them are cleared (R222, R230).
DEDUCED, log 169. -/
def releaseRun (s : Str) : Str :=
  let out := s.hold.takeWhile (releasable s)
  let gone (r : Nat) : Bool := out.any (fun h => decide (r + 16 ≤ h.pos))
  { s with
    hold := s.hold.drop out.length, outToks := s.outToks ++ out.map (fun h => (h.pos, tokenWord h))
    bans := s.bans.filter (fun e => !gone e.1), tries := s.tries.filter (fun e => !gone e.1) }
/-- The failure acted on in an egress (R226). DEDUCED, log 169. -/
def failBefore (a b : Fail) : Bool :=
  let rank (f : Fail) : Nat := if f.act = 0 then 0 else if f.act = 2 then 1 else 2
  a.start < b.start || (a.start == b.start && rank a < rank b)
/-- The failure acted on, with a rewind beyond its attempts turned to a quench (R226, R230). DEDUCED, log 169. -/
def failChosen (s : Str) : Option Fail :=
  match (sortBy failBefore s.fails).head? with
  | none => none
  | some f =>
    if f.act = 1 ∧ le s.samp 33 1 % 16 < tgetD s.tries f.start 0 + 1 then
      some { f with act := 0, reason := if f.verdict = 4 then f.reason else 0x43 }
    else some f
/-- A stream's held tokens from r on dropped, in the egress (R225, R228); its checks follow at the boundary (R222). -/
def dropFrom (r : Nat) (s : Str) : Str := { s with hold := s.hold.filter (fun h => decide (h.pos < r)), ended := false }
/-- Content of the rewind command (R229). DEDUCED, log 179. -/
def rewindContent (handle r rew reason : Nat) (forced : List Nat) : Bytes :=
  leBytes 4 handle ++ leBytes 4 r ++ leBytes 1 rew ++ leBytes 1 forced.length ++ leBytes 1 reason ++ leBytes 5 0
    ++ sliceZ (forced.flatMap (fun t => leBytes 4 (t % 2 ^ 20))) 0 128
/-- The rewind at a failure (R228, R230). -/
def rewindOf (f : Fail) (s : Str) : Str :=
  let r := f.start
  let bad := (s.hold.find? (fun h => h.pos == r && !h.repl)).map (·.tok)
  let old := tgetD s.bans r []
  let bans := match bad with
    | some t => if old.contains t ∨ 8 ≤ old.length then old else old ++ [t]
    | none => old
  { dropFrom r s with bans := tset s.bans r bans, tries := tset s.tries r (tgetD s.tries r 0 + 1), redo := some (r, [], f.why) }
/-- The redaction at a failure (R231): the replacement tokens stand behind what is held. DEDUCED, log 167. DEDUCED, log 168. -/
def redactOf (f : Fail) (s : Str) : Str :=
  let r := f.start
  let x := dropFrom r s
  let repl := (List.range f.repl.length).map (fun i =>
    ({ pos := r + i, tok := f.repl.getD i 0, repl := true, swept := true, clear := true } : Held))
  { x with hold := x.hold ++ repl, redacted := true, redo := some (r, f.repl, 3) }
/-- What a stream sends in an egress: the entry of its token packet (KIND, TOKEN, POS), and its rewind command. -/
structure StrOut where
  entry : Option (Nat × Nat × Nat) := none
  rewind : Option Bytes := none
/-- A skip counted (R58, R507); missed: it counts towards the run (R60). DEDUCED, log 160. -/
def skipCount (n : Nat) (missed : Bool) (u : Units) : Units :=
  blkBump 11 1 (modStr n (fun s => { s with skips := s.skips + 1, misses := s.misses + b2n missed }) u)
/-- An overrun counted, apart from skips, as a missed tick of the run (R56, R60). -/
def overrun (n : Nat) (u : Units) : Units := modStr n (fun s => { s with overruns := s.overruns + 1, misses := s.misses + 1 }) u
/-- KIND of an ACTIVE stream's entry in a tick without a token, and the skip counted (R58, R60, R206, R223, R271, R56). -/
def skipKind (n : Nat) (u : Units) : Nat × Units :=
  let s := tgetD u.str n {}
  let g := dieKey 1 (slotDie n)
  if s.holdFull then (2, skipCount n false (dieBump g 0x133 1 u))
  else if s.pageWait then
    (3, skipCount n false (breach 3 s.ctx
      (noticeLimited (ctlProd (tgetD u.fw.roles 7 {}).core) 0x0601 s.ctx s.ctx [handleOf n s] u)))
  else if s.deferred ∨ s.skipIn then (1, skipCount n false u)
  else if s.entry.isSome then
    (1, overrun n (breach 2 s.ctx (notice g 0x0107 s.ctx [handleOf n s] u)))
  else (1, skipCount n true (condBroken 2 s.ctx u))
/-- What the tick itself means for a stream's entry, before any failure is acted on. -/
def tickEntry (n : Nat) (u : Units) : Option (Nat × Nat × Nat) × Units :=
  let s := tgetD u.str n {}
  match s.st with
  | .active =>
    match s.chosen with
    | some (p, t) => (some (0, t, p), u)
    | none =>
      if s.fails.any (fun f => f.reason == 0x42) then (some (1, 0, s.pos), u)
      else let r := skipKind n u; (some (r.1, 0, s.pos), r.2)
  | .waiting => (some (4, 0, s.pos), skipCount n false u)
  | .pauseDrain => (some (5, 0, s.pos), u)
  | .draining => (some (6, 0, s.pos), u)
  | .closing => (some (6, 0, s.pos), u)
  | _ => (none, u)
/-- The marks of a tick on a stream are cleared once its egress is over. DEDUCED, log 175. -/
def endTick (s : Str) : Str :=
  { s with opened := false, recIn := false, skipIn := false, holdFull := false, pageWait := false, deferred := false
           noSample := false, listed := false, cont := some [], entry := none, sums := [], chosen := none }
/-- The egress of one stream (R226, R222, R224, R227). DEDUCED, log 170. -/
def egressStream (n : Nat) (u : Units) : StrOut × Units :=
  let u := lateChecks n u
  let r := tickEntry n u
  let u := r.2
  let s := tgetD u.str n {}
  let g := dieKey 1 (slotDie n)
  let live := s.st = .active ∨ s.st = .waiting ∨ s.st = .draining ∨ s.st = .pauseDrain
  let act := if live then failChosen s else none
  let rel (s : Str) : Str := if s.st = .waiting then s else releaseRun s
  let fin (u : Units) : Units := modStr n endTick u
  match act with
  | some f =>
    if f.act = 0 then
      let u := modStr n (fun s => rel { s with hold := s.hold.filter (fun h => decide (h.pos < f.start)) }) u
      ({ entry := some (6, 0, s.pos) }, fin (closeStream n f.verdict f.reason (dieBump g 0x137 1 u)))
    else
      let forced := if f.act = 2 then f.repl else []
      let cmd := rewindContent (handleOf n s) f.start ((s.rew + 1) % 256) (if f.act = 2 then 3 else f.why) forced
      let u := modStr n (fun s => rel { (if f.act = 2 then redactOf f s else rewindOf f s) with fails := [] }) u
      ({ entry := r.1, rewind := some cmd }, fin (dieBump g (if f.act = 2 then 0x136 else 0x135) 1 u))
  | none =>
    let u := if live then modStr n rel u else u
    let x := tgetD u.str n {}
    if x.st = .draining ∧ x.hold.isEmpty ∧ x.redo.isNone then
      ({ entry := r.1 }, fin (closeStream n (if x.redacted then 1 else 0) 0 u))
    else ({ entry := r.1 }, fin u)

end Sys2Proof.Machine
end

