-- ==== Sys2Proof/Machine/Changes.lean ====
section
/-! DEFINITION. The changes that take effect at an edge (08, R234; 02, R46; 06, R511; 07, R221; 12, R352 to R360). -/
namespace Sys2Proof.Machine

/-- Chunks whose pages a stream takes as its LAG becomes nonzero (R269). -/
def lagChunks (s : Str) : List Nat := (List.range (s.pos / 16 + 2)).filter (fun c => decide (c < s.maxPos / 16))
/-- A sampling record takes effect (R221, R265, R269). DEDUCED, log 163. -/
def samplingEffect (n gen : Nat) (rec : Bytes) (bias : List (Nat × Nat)) (u : Units) : Units :=
  let s := tgetD u.str n {}
  if !holds s ∨ s.gen ≠ gen then u
  else
    let u := modStr n (fun s => { s with samp := rec, bias := bias, ansSlot := boundAns u s.policy rec }) u
    if lagOf s.samp = 0 ∧ lagOf rec ≠ 0 then forAll (lagChunks s) (growOne n) u
    else if lagOf s.samp ≠ 0 ∧ lagOf rec = 0 then freePages n (fun _ => true) (modStr n (fun s => { s with checks := [] }) u)
    else u
/-- A context is enabled (R352, R363): its ring indexes are 0. -/
def enableEffect (c : Ctx) : Ctx :=
  { c with
    state := 2, enableAt := none, holdFrom := none, subProd := 0, subCons := 0, subOut := 0, cplProd := 0, cplCons := 0
    batProd := 0, batCons := 0, bseq := 0, cplWait := [], unread := [], fetchLeft := 0, batBad := false, badRings := [], ringWait := [], ringBad := [], shortFrom := none
    checkFailed := false }
/-- One change takes effect. -/
def changeEffect (c : Change) (u : Units) : Units :=
  match c with
  | .policy id rec ver => { u with pol := tmod u.pol id {} (fun p => { p with cur := some (rec, ver) }) }
  | .profile id rec =>
    { u with mat := { u.mat with profiles := match rec with
        | some r => tset u.mat.profiles id r
        | none => tdel u.mat.profiles id } }
  | .desc set id d =>
    let put (t : Tbl Desc) : Tbl Desc := tset t id { d with gen := (tgetD t id {}).gen }
    { u with mat := if set then { u.mat with sets := put u.mat.sets } else { u.mat with groups := put u.mat.groups } }
  | .bank b mode steal budget =>
    let free := !bankHolds u b && !u.mat.profiles.any (fun p => bitAt (profBanks p.2) b)
    modBank b (fun x => { x with mode := if free then mode else x.mode, steal := steal, budget := budget }) u
  | .shares k sh => { u with ctx := tmod u.ctx k {} (fun c => { c with shares := sh }) }
  | .classes k cl ttl target head =>
    let h (c : Ctx) : Nat := if ctxStreams u k = 0 then head else c.headSlot
    { u with ctx := tmod u.ctx k {} (fun c => { c with classes := cl, defTtl := ttl, defTarget := target, headSlot := h c }) }
  | .config main high low pool scrub =>
    { u with tier := { u.tier with pageMain := main, highWm := high, lowWm := low, jobPool := pool, scrubS := scrub } }
  | .sampling n gen rec bias => samplingEffect n gen rec bias u
  | .slot k enter =>
    modSlot k (fun x => { x with move := none, st := if enter || steppedUnder u k then .inService else .resident }) u
  | .enable k => { u with ctx := tmod u.ctx k {} enableEffect }
  | .winImport w d => { u with tier := { u.tier with imports := tset u.tier.imports w d } }
  | .winExport w d => { u with tier := { u.tier with exports := tset u.tier.exports w d } }
  | .recheck => u
  | .cntSel i source => { u with cnt := { u.cnt with die := tset u.cnt.die i { source := source } } }
/-- Whether the edge or boundary of an accepted change has come. A sampling record waits for its stream's own boundary; a
change accepted while the tick is stopped waits for none (DEDUCED, log 9). DEDUCED, log 185. -/
def changeDue (u : Units) (c : Nat × Change) : Bool :=
  !running u || (match c.2 with
    | .sampling n _ _ _ => decide (c.1 ≤ boundTick u (tgetD u.str n {}).cohort)
    | _ => decide (c.1 ≤ u.tick.number))
/-- Whether a change is one that the context checks read (R417). DEDUCED, log 186. -/
def changeRead : Change → Bool
  | .sampling _ _ _ _ => false
  | .enable _ => false
  | .winExport _ _ => false
  | .cntSel _ _ => false
  | _ => true
/-- CONFIG_CHANGE_EFFECT (R234): every change that is due, in the order of acceptance; then automata (R511) and re-checks
(R417). DEDUCED, log 110. DEDUCED, log 162. -/
def configChangeEffect (a : Asm) (u : Units) : Units :=
  let due := u.changes.filter (changeDue u)
  if due.isEmpty then u
  else
    let before := (u.str.filter (fun e => holds e.2)).map (fun e => (e.1, strGroups u e.2))
    let u := forAll (due.map (·.2)) changeEffect { u with changes := u.changes.filter (fun c => !changeDue u c) }
    let u := forAll before (fun (b : Nat × List Nat) u =>
      if strGroups u (tgetD u.str b.1 {}) = b.2 then u else regroup b.1 b.2 u) u
    if due.any (fun c => changeRead c.2) then recheck a u else u
/-- The bias lists of the sampling records that take effect, copied from tier 1 as they stand now (R221). DEDUCED, log 178. -/
def biasNow (s : State) : Units :=
  { s.u with changes := s.u.changes.map (fun c =>
    match c.2 with
    | .sampling n g rec bias =>
      let x := tgetD s.u.str n {}
      if changeDue s.u c then (c.1, .sampling n g rec ((biasList s x.ctx rec (imgVocab (slotImg s.u x.headSlot))).getD bias)) else c
    | _ => c) }
/-- CONFIG_CHANGE_EFFECT (R234). -/
def execConfigChangeEffect (s : State) : Res := onU (configChangeEffect s.asm) { s with u := biasNow s }

end Sys2Proof.Machine
end

