-- ==== Sys2Proof/Machine/Firmware.lean ====
section
/-! DEFINITION. Control complex and firmware (11): images, boot, watchdogs and roles, live update, visibility, and the
firmware and queue messages (12, R358, R359). -/
namespace Sys2Proof.Machine

/-- Tick Q of an update accepted and not yet ended (R330). -/
def updateQ (u : Units) : Option Nat := u.fw.upd.map (·.q)
/-- The bank that is not active. -/
def otherBank (f : Fw) : FwImg := if f.bank = 0 then f.bankB else f.bankA
/-- The firmware with the inactive bank replaced (R322: only that one is written). -/
def setOther (f : Fw) (b : FwImg) : Fw := if f.bank = 0 then { f with bankB := b } else { f with bankA := b }

/- Images (R323, R324). -/
/-- The header's fields. -/
def imgParse (x : Bytes) : FwImg :=
  { valid := true, ver := le x 8 4, svn := le x 12 2, ifMin := le x 14 2, ifMax := le x 16 2, hoMin := le x 18 2
    hoOut := le x 20 2, keyIdx := le x 6 1, digest := sliceZ x 256 48, data := some x }
/-- Condition 1 of R324, for an image in n bytes. -/
def imgHeaderOk (x : Bytes) (n : Nat) : Bool :=
  le x 0 4 == 0x57464B53 && le x 4 2 == 1 && le x 6 1 ≤ 3 && le x 7 1 == 0 && le x 22 2 == 0
    && allZero (sliceZ x 40 24) && allZero (sliceZ x 304 208)
    && 512 ≤ le x 24 8 && le x 24 8 ≤ 33554432 && le x 24 8 ≤ n
/-- SHA-384 over IMG_LEN bytes with bytes 160 to 303 taken as 0. -/
def fwDigest (x : Bytes) : Bytes := sha384 (patch (sliceZ x 0 (le x 24 8)) 160 (List.replicate 144 0))
/-- Whether a public key's hash is the one fused in an unrevoked slot (R324). -/
def keyOk (f : Fw) (slot : Nat) (pub : Bytes) : Bool :=
  (match tget f.keys slot with | some h => h == sha384 pub | none => false) && !f.revoked.contains slot
/-- The first condition of R324 that fails, from 1; 0 if all hold. want: the digest expected, if one was named. -/
def imgFail (f : Fw) (x : Bytes) (n : Nat) (want : Option Bytes) : Nat :=
  if !imgHeaderOk x n then 1
  else if fwDigest x != sliceZ x 256 48 || (match want with | some d => d != fwDigest x | none => false) then 2
  else if !keyOk f (le x 6 1) (sliceZ x 64 96) then 3
  else if !ecdsaVerify (sliceZ x 64 96) (sliceZ x 160 96) (sliceZ x 256 48) then 4
  else if le x 12 2 < f.minSvn then 5
  else 0
/-- UPD_RESULT and STATUS of a load (R329, R358): R324, then the checks against the running image. -/
def loadResult (f : Fw) (x : Bytes) (n : Nat) (want : Bytes) : Nat × Nat :=
  let i := imgParse x
  match imgFail f x n (some want) with
  | 1 => (3, 0xA)
  | 2 => (2, 0xA)
  | 3 => (3, 0xD)
  | 4 => (3, 0xD)
  | 5 => (4, 0xA)
  | _ =>
    if f.stage = 5 then (0, 0)
    else if !(i.hoMin ≤ f.run.hoOut && f.run.hoOut ≤ i.hoOut) then (5, 0xA)
    else if !(i.ifMin ≤ f.run.ifMax && f.run.ifMax ≤ i.ifMax) then (6, 0xA)
    else (0, 0)

/-- FW_LOAD (R329, R450): the bank write begins, and its end is UPD_STATE_STAGED's. -/
def fwLoad (n : Nat) (d : Dma) (s : State) : State :=
  messageS 0x0701 n (fun p s =>
    let b := bufOf p 16
    let f := s.u.fw
    if f.updState = 1 ∨ f.updState = 3 ∨ f.loading.isSome then (s, some (plain 8))
    else if f.stage = 5 ∧ b.space ≠ 0 then (s, some busy0)
    else if !bufOk s.u 0 b then (s, some (invalid 16))
    else match bufRead s 0 b d with
      | none => (s, some (faultAt 16))
      | some x =>
        let r := loadResult f x b.len (sliceZ p 32 48)
        let f := setOther { f with
          updState := 1, staged := none, bankTorn := true, loading := some (n, imgParse x, r.1, r.2)
          updResult := if f.bankTorn then 0 else f.updResult } { otherBank f with valid := false, data := some x }
        let svc := journalAdd 6 (leBytes 1 (1 - f.bank)) true true s.u.svc
        ({ s with u := { s.u with fw := f, svc := svc } }, none)) s
/-- FW_LOAD (R329). -/
def execFwLoad (mb : Fin 64) (d : Dma) (s : State) : Res := .next (fwLoad mb d s)

/-- The boot word as it is read (R326): reserved codes read as 0. -/
def bootNorm (w : Nat) : Nat :=
  let w := w % 128
  let w := if bitsOf w 5 4 = 3 then setBits w 5 4 0 else w
  if bitsOf w 1 0 = 3 then setBits w 1 0 0 else w
/-- An image begins to boot (R325 step 5). -/
def bootImage (bank : Nat) (img : FwImg) (u : Units) : Units :=
  { u with fw := { u.fw with stage := 3, bank := bank, run := img, vis := bitsOf u.fw.bootCfg 1 0 } }
/-- The end of a failed bank write. -/
def loadFail (n result status : Nat) (u : Units) : Units :=
  answerWaiting (some n) (bad status 4 0xFFFF result)
    { u with fw := { u.fw with updState := 0, updResult := result } }
/-- UPD_STATE_STAGED (R329, R446, R328): the bank is written and checked. -/
def updStateStaged (a : Asm) (store : StoreOut) (u : Units) : Units :=
  match u.fw.loading with
  | none => u
  | some (n, img, result, status) =>
    let die := 1 - u.fw.bank
    let u := dieBump (dieKey 3 die) 0x309 128 (eraseRetire a die { u with fw := { u.fw with loading := none } })
    let r := match store with
      | .ok => (u, true)
      | .fail b => storeRetire a die b 9 false u
    let u := dieBump (dieKey 3 die) 0x308 1 r.1
    if !r.2 then loadFail n 0x0A 0xA u
    else if result ≠ 0 then loadFail n result status u
    else
      let f := setOther { u.fw with bankTorn := false } img
      let u := { u with fw := f, svc := journalAdd 7 (leBytes 1 die) true true u.svc }
      let u := answerWaiting (some n) (ok (leBytes 4 img.ver ++ leBytes 2 img.svn)) u
      if f.stage = 5 then
        bootImage die img { u with fw := { u.fw with updState := 0 }, svc := journalAdd 8 (leBytes 1 die) true true u.svc }
      else { u with fw := { u.fw with updState := 2, staged := some img } }
/-- UPD_STATE_STAGED (R329). -/
def execUpdStateStaged (store : StoreOut) (s : State) : Res := onU (updStateStaged s.asm store) s

/-- FW_ACTIVATE (R330); BOOT then copies the new image into the idle instruction halves (R331 step 1). -/
def fwActivate (n : Nat) : Units → Units :=
  message 0x0702 n (fun p u =>
    if u.fw.updState ≠ 2 then keep u (plain 8)
    else
      let q := max (le p 0 8) (u.tick.number + 1024)
      keep { u with fw := { u.fw with
          updState := 3, updTick := q, idle := u.fw.staged, hand := none, upd := some { q := q, old := u.fw.run } } }
        (ok (le8 q)))
/-- FW_ACTIVATE (R330). -/
def execFwActivate (mb : Fin 64) (s : State) : Res := onU (fwActivate mb) s
/-- FW_BOOT_CFG (R326). -/
def fwBootCfg (n : Nat) : Units → Units :=
  message 0x0703 n (fun p u =>
    if 128 ≤ le p 0 4 then keep u (invalid 0)
    else keep { u with fw := { u.fw with bootCfgNext := le p 0 4 }, svc := journalAdd 5 (leBytes 4 (le p 0 4)) true true u.svc }
      (ok []))
/-- FW_BOOT_CFG (R326). -/
def execFwBootCfg (mb : Fin 64) (s : State) : Res := onU (fwBootCfg mb) s
/-- FW_WATCHDOG (R315). -/
def fwWatchdog (n : Nat) : Units → Units :=
  message 0x0704 n (fun p u =>
    let t := le p 2 2
    if 9 < le p 0 1 then keep u (invalid 0)
    else if t = 0 ∨ 1000 < t then keep u (invalid 2)
    else keep { u with fw := { u.fw with roles := tupd u.fw.roles (le p 0 1) (fun r => { r with periodNext := some t }) } }
      (ok []))
/-- FW_WATCHDOG (R315). -/
def execFwWatchdog (mb : Fin 64) (s : State) : Res := onU (fwWatchdog mb) s

/-- Packets popped in read order while they fit in room bytes, each checked (R297, R300, R336): bytes, how many, the instance.
Fuel bounds their number. DEDUCED, log 34. -/
def popMany : Nat → Nat → List (BitVec 8 × BitVec 8) → QInst → Bytes × Nat × QInst
  | 0, _, _, q => ([], 0, q)
  | f + 1, room, ecc, q =>
    match qPop q with
    | none => ([], 0, q)
    | some (c, q') =>
      let m := 2 ^ c.words.length
      let single := (ecc.headD (0, 0)).1.toNat % m
      let double := (ecc.headD (0, 0)).2.toNat % m
      let head := withSeq (c.words.headD 0) c.seq (Nat.lor c.poison double != 0)
      let b := (head :: c.words.drop 1).flatMap (fun w => leBytes 8 w.toNat)
      if room < b.length then ([], 0, q)
      else
        let r := popMany f (room - b.length) (ecc.drop 1) (qEcc q' (ones8 single) (ones8 double))
        (b ++ r.1, r.2.1 + 1, r.2.2)
/-- A pop of packets of an instance into a buffer: the state, whether the write went well, and the packets written.
DEDUCED, log 34. -/
def popInto (inst : Fin 3) (max : Nat) (mb : Nat) (b : Buf) (i : PopIn) (s : State) : State × Bool × Nat :=
  let q := qGet s.q inst
  let r := popMany max b.len i.ecc q
  if r.1.isEmpty then (s, true, 0)
  else
    let w := bufWrite s mb b r.1 i.flt
    if w.2 then
      let u := urgentDone 8 none w.1.u
      ({ w.1 with q := qPut w.1.q inst r.2.2, u := if r.2.2.eccCorr = q.eccCorr then u else setCorr u }, true, r.2.1)
    else (w.1, false, 0)
/-- FW_LOG_READ (R335, R336). -/
def execFwLogRead (mb : Fin 64) (pops : PopIn) (s : State) : Res :=
  .next (messageS 0x0705 mb (fun p s =>
    let b := bufOf p 16
    let k := le p 0 2
    if s.u.fw.vis = 0 then (s, some (plain 0xE))
    else if k = 0 ∨ 512 < k then (s, some (invalid 0))
    else if !bufOk s.u mb b then (s, some (invalid 16))
    else
      let r := popInto 1 k mb b pops s
      (r.1, some (if r.2.1 then ok (leBytes 2 r.2.2) else faultAt 16))) s)
/-- QUEUE_READ (R359, R335). -/
def execQueueRead (mb : Fin 64) (pops : PopIn) (s : State) : Res :=
  .next (messageS 0x0806 mb (fun p s =>
    let b := bufOf p 16
    let k := le p 0 1
    if k ≠ 1 ∧ k ≠ 2 then (s, some (invalid 0))
    else if k = 1 ∧ s.u.fw.vis = 0 then (s, some (plain 0xE))
    else if !bufOk s.u mb b then (s, some (invalid 16))
    else
      let inst : Fin 3 := if k = 1 then 1 else 2
      let q := qGet s.q inst
      let counters := [(pGet s.u inst).lost, q.flushed, q.rewound, q.parErr, q.eccCorr, q.eccUnc].flatMap le8
      let r := popInto inst (le p 1 1) mb b pops s
      (r.1, some (if r.2.1 then ok (counters ++ leBytes 2 r.2.2) else faultAt 16))) s)

/-- A list of ranges without the numbers lo to hi. -/
def rangesWithout (l : List (Nat × Nat)) (lo hi : Nat) : List (Nat × Nat) :=
  l.flatMap (fun r => [(r.1, min r.2 (lo - 1)), (max r.1 (hi + 1), r.2)].filter (fun x => x.1 ≤ x.2))
/-- FW_TRACE (R335, R336). -/
def fwTrace (n : Nat) : Units → Units :=
  message 0x0706 n (fun p u =>
    let lo := le p 0 2
    let hi := le p 2 2
    let tp (v : Nat) : Bool := 0x2000 ≤ v && v ≤ 0x2FFF
    if u.fw.vis < 2 then keep u (plain 0xE)
    else if !tp lo then keep u (invalid 0)
    else if !tp hi ∨ hi < lo then keep u (invalid 2)
    else if 1 < le p 4 1 then keep u (invalid 4)
    else
      let rest := rangesWithout u.fw.traces lo hi
      keep { u with fw := { u.fw with traces := if le p 4 1 = 1 then rest ++ [(lo, hi)] else rest } } (ok []))
/-- FW_TRACE (R336). -/
def execFwTrace (mb : Fin 64) (s : State) : Res := onU (fwTrace mb) s
/-- FW_FUSE (R358, R324). VALUE is the new minimum, or the slot to revoke. DEDUCED, log 58. -/
def fwFuse (serial : Nat) (n : Nat) : Units → Units :=
  message 0x0707 n (fun p u =>
    let op := le p 0 1
    let v := le p 2 2
    let f := u.fw
    if op ≠ 1 ∧ op ≠ 2 then keep u (invalid 0)
    else if 3 < le p 1 1 then keep u (invalid 1)
    else if op = 2 ∧ 3 < v then keep u (invalid 2)
    else if le p 8 8 ≠ serial ∨ !keyOk f (le p 1 1) (sliceZ p 16 96)
        ∨ !ecdsaVerify (sliceZ p 16 96) (sliceZ p 112 96) (sha384 (sliceZ p 0 16)) then keep u (plain 0xD)
    else if op = 2 ∧ v = f.run.keyIdx ∨ op = 1 ∧ f.run.svn < v then keep u (plain 8)
    else if op = 1 then keep { u with fw := { f with minSvn := max f.minSvn v } } (ok [])
    else keep { u with fw := { f with revoked := if f.revoked.contains v then f.revoked else f.revoked ++ [v] } } (ok []))
/-- FW_FUSE (R358). -/
def execFwFuse (mb : Fin 64) (s : State) : Res := onU (fwFuse s.asm.serial mb) s

/- Watchdogs and roles (R315 to R321). -/
/-- The spare cores free to take a role: in no role and not retired; a die's own first (R317). -/
def freeSpare (f : Fw) (die : Nat) : Option Nat :=
  let free (c : Nat) : Bool := !f.badCores.contains c && !f.roles.any (fun r => r.2.core == c && r.2.state != 2)
  (if die = 0 then [5, 11] else [11, 5]).find? free
/-- A role's core has failed or expired twice: the role moves to a spare, or stays if there is none (R317, R321, R440). -/
def roleMove (a : Asm) (r reason : Nat) (failed : Bool) (u : Units) : Units :=
  let x := tgetD u.fw.roles r {}
  let old := x.core
  let unit : RUnit := .control (Fin.ofNat 12 old)
  let put (x : Role) (u : Units) : Units := { u with fw := { u.fw with roles := tset u.fw.roles r x } }
  let retire (u : Units) : Units := { u with fw := { u.fw with badCores := u.fw.badCores ++ [old] } }
  match freeSpare u.fw (old / 6) with
  | some c =>
    let u := repairAdd (repairEnt a u unit 0 reason (r * 256 + physCtl c)) (spareUse unit u)
    let u := put { x with core := c, moves := satN 8 (x.moves + 1), lastExpiry := none } (retire u)
    notice (dieKey 3 (c / 6)) 0x0B02 0 [r, physCtl old, physCtl c] u
  | none =>
    if failed then
      let u := repairAdd (repairEnt a u unit 2 reason 0) (retire u)
      trayService 1 (notice (dieKey 3 (old / 6)) 0x0004 0 [r, physCtl old] (put { x with state := 2 } u))
    else u
/-- The half of a role that no commit named is lost with its core (R312, R337). -/
def voidHalf (r : Role) : Role := if r.word = 0 then { r with half1 := {} } else { r with half0 := {} }
/-- Whether a role's core has missed kicks for its whole period (R315). Without ticks there are no kicks. -/
def kicksMissed (u : Units) (x : Role) : Bool := !running u || decide (x.kickAt + 1000000 * x.period ≤ u.tick.time)
/-- MBX stops (R319): MBX_UP falls and HEALTH holds admission. Commands it has begun it will read again (R313). -/
def mbxStops (u : Units) : Units :=
  if !u.fw.mbxUp then u
  else { u with
    fw := { u.fw with mbxUp := false }
    tick := { u.tick with admitHold := true }
    mbx := tmap u.mbx (fun _ m => if m.phase = .begun then { m with phase := .rung } else m) }
/-- The expiry of one role's core (R316, R317, R319, R321, R332). -/
def expire (a : Asm) (r : Nat) (selfTestOk : Bool) (u : Units) : Units :=
  let x := tgetD u.fw.roles r {}
  if !isUp u ∨ (u.fw.stage ≠ 3 ∧ u.fw.stage ≠ 4) ∨ x.state = 2 ∨ !kicksMissed u x then u
  else
    let again : Bool := match x.lastExpiry with
      | some t => decide (u.tick.time ≤ t + 86400000000000)
      | none => false
    let n := satN 16 (x.restarts + 1)
    let y := { voidHalf x with state := 1, restarts := n, lastExpiry := some u.tick.time }
    let u := dieBump (dieKey 3 (x.core / 6)) 0x304 1 { u with fw := { u.fw with
      roles := tset u.fw.roles r y
      upd := u.fw.upd.map (fun w => if w.stage = 0 then w else { w with expired := true }) } }
    let u := notice (dieKey 3 (x.core / 6)) 0x0B01 0 [r, physCtl x.core, n] u
    let u := if r = 9 then mbxStops u else u
    if !selfTestOk then roleMove a r 6 true u else if again then roleMove a r 7 false u else u
/-- WATCHDOG_EXPIRY (R316): cores that expire in one cycle restart, and take spares, in ascending role number (R337). -/
def watchdogExpiry (a : Asm) (r : Nat) (e : Expiry) (u : Units) : Units :=
  let l := (r, e.selfTestOk) :: e.also.map (fun x => (x.1.val, x.2))
  forAll (List.range 10) (fun k u => match l.find? (fun x => x.1 == k) with
    | some x => expire a k x.2 u
    | none => u) u
/-- WATCHDOG_EXPIRY (R316). -/
def execWatchdogExpiry (role : Fin 10) (e : Expiry) (s : State) : Res := onU (watchdogExpiry s.asm role e) s
/-- ROLE_RESTORED (R316): the role has read its committed checkpoint and rebuilt what it derives from it. -/
def roleRestored (r us : Nat) (u : Units) : Units :=
  let x := tgetD u.fw.roles r {}
  if x.state = 1 then
    notice (ctlProd x.core) 0x0B03 0 [r, us] { u with fw := { u.fw with
      roles := tset u.fw.roles r { x with state := 0, kickAt := u.tick.time } } }
  else u
/-- ROLE_RESTORED (R316). -/
def execRoleRestored (role : Fin 10) (us : Nat) (s : State) : Res := onU (roleRestored role us) s
/-- MBX_UP_RESTORE (R319, R332): at the first edge after MBX runs and, after a rollback, every unit is armed. -/
def mbxUpRestore (u : Units) : Units :=
  let switching : Bool := match u.fw.upd with
    | some w => w.stage != 0
    | none => false
  if u.fw.stage ≠ 4 ∨ u.fw.mbxUp ∨ (tgetD u.fw.roles 9 {}).state ≠ 0 ∨ switching
      ∨ (u.fw.rolled ∧ u.tick.st ≠ .current ∧ running u) ∨ !atEdge u then u
  else { u with fw := { u.fw with mbxUp := true, rolled := false }, tick := { u.tick with admitHold := false } }
/-- MBX_UP_RESTORE (R319). -/
def execMbxUpRestore (s : State) : Res := onU mbxUpRestore s

/- Boot (R325 to R328, R444, R448, R449). -/
/-- Bytes of a bank that read back other than they were written: bank, offset, byte. -/
abbrev BankDamage := List (Fin 2 × Nat × Byte)
/-- The check of bank k under R324, over the bytes it reads back: the first condition that fails, 0 if all hold. The image the
block left the factory with passed as it was written, and reads back whole or has another digest. DEDUCED, log 61. -/
def bankFail (f : Fw) (d : BankDamage) (k : Nat) (b : FwImg) : Nat :=
  let d := d.filter (fun x => x.1.val == k)
  if !b.valid then 1
  else match b.data with
    | some x => imgFail f (d.foldl (fun x e => patch x e.2.1 [e.2.2]) x) 33554432 none
    | none =>
      if !d.isEmpty then 2 else if f.revoked.contains b.keyIdx then 3 else if b.svn < f.minSvn then 5 else 0
/-- The effect of a committed record at boot (R448 rule 4): CAL_USER, BOOT_CFG, BANK_BEGIN, BANK_DONE and BANK_ACTIVE. A bank
begun and not done is invalid (R450). -/
def journalApply (r : JRec) (u : Units) : Units :=
  let k := le r.payload 0 1 % 2
  match r.type with
  | 4 => { u with svc := { u.svc with user := (List.range (r.payload.length / 8)).map (fun i =>
      { item := le r.payload (8 * i) 2, scope := le r.payload (8 * i + 2) 2, user := signed 32 (le r.payload (8 * i + 4) 4) }) } }
  | 5 => { u with fw := { u.fw with bootCfgNext := le r.payload 0 4 } }
  | 6 => { u with fw := { u.fw with bankTorn := true } }
  | 7 => { u with fw := { u.fw with bankTorn := false } }
  | 8 => { u with fw := { u.fw with bank := k } }
  | _ => u
/-- The banks that a BANK_BEGIN without a later BANK_DONE leaves invalid (R450). -/
def tornBanks (l : List JRec) : List Nat :=
  l.foldl (fun t r =>
    let k := le r.payload 0 1 % 2
    if r.type = 6 then t.filter (· != k) ++ [k] else if r.type = 7 then t.filter (· != k) else t) []
/-- The journal as the boot ROM reads it: bad: records whose CRC fails, by copy and SEQ. -/
def journalRead (bad : List (Fin 2 × Nat)) (j : List JRec) : List JRec :=
  j.map (fun r => { r with
    c0 := r.c0 && !bad.any (fun b => b.1.val == 0 && b.2 == r.seq)
    c1 := r.c1 && !bad.any (fun b => b.1.val == 1 && b.2 == r.seq) })
/-- The journal resolved (R448): records kept and applied, and the notices of copies lost and records rolled back. -/
def journalResolve (bad : List (Fin 2 × Nat)) (u : Units) : Units :=
  let j := journalRead bad (u.svc.journal.filter (fun r => r.type != 0x0A))
  let top := (j.filter (fun r => r.c0 && r.c1)).foldl (fun m r => max m (r.seq + 1)) 0
  let good := j.filter (fun r => (r.c0 || r.c1) && r.seq < top)
  let lost := good.filter (fun r => !(r.c0 && r.c1))
  let back := j.filter (fun r => (r.c0 || r.c1) && top ≤ r.seq)
  let torn := tornBanks good
  let u := forAll good journalApply { u with svc := { u.svc with journal := good.map (fun r => { r with c0 := true, c1 := true }) } }
  let u := { u with fw := { u.fw with
    bankA := { u.fw.bankA with valid := u.fw.bankA.valid && !torn.contains 0 }
    bankB := { u.fw.bankB with valid := u.fw.bankB.valid && !torn.contains 1 } } }
  let u := forAll lost (fun r u => fwNotice 0 0x0A08 0 [b2n r.c0, r.seq] u) u
  let u := forAll back (fun r u => fwNotice 0 0x0A07 0 [r.seq, r.type] u) u
  match u.svc.tripRecord with
  | none => u
  | some b =>
    fwNotice 0 0x0A0A 0 [le b 0 8, le b 8 2, unsigned 64 (signed 16 (le b 10 2))]
      { u with svc := { u.svc with tripRecord := none, tripReported := true }
               pins := { u.pins with alert := setBit u.pins.alert 4 true } }
/-- Whether no snapshot can be resolved (R449): a copy without blocks holds nothing, and of the snapshots that were written none
is committed as it reads back. DESIGN CHOICE, log 3. -/
def journalGone (bad : List (Fin 2 × Nat)) (u : Units) : Bool :=
  let ends (l : List JRec) : List JRec := l.filter (fun r => r.type == 2 && r.c0 && r.c1)
  (journalBlocks u.svc 0 == 0 && journalBlocks u.svc 1 == 0)
    || (!(ends u.svc.journal).isEmpty && (ends (journalRead bad u.svc.journal)).isEmpty)
/-- The store is lost: both copies are unusable (R449). -/
def storeLost (bad : List (Fin 2 × Nat)) (u : Units) : Units :=
  if journalGone bad u then
    trayService 3 (notice (dieKey 3 0) 0x0005 0 [0] { u with
      fw := { u.fw with bootCfgNext := 0x44, bank := if bankFail u.fw [] 0 u.fw.bankA = 0 then 0 else 1 }
      svc := { u.svc with user := [], userEdge := [], repair := [], journal := [] } })
  else u
/-- Control cores that fail self-test at boot (R325), and the roles placed off retired cores (R440, R317). -/
def bootCores (a : Asm) (bad : List Nat) (u : Units) : Units :=
  let new := (bad.filter (fun c => !u.fw.badCores.contains c)).eraseDups
  let hasRole (c : Nat) : Bool := u.fw.roles.any (fun r => r.2.core == c)
  let u := forAll (new.filter (fun c => !hasRole c)) (fun c u => repairAdd
    (repairEnt a u (.control (Fin.ofNat 12 c)) 2 6 0) { u with fw := { u.fw with badCores := u.fw.badCores ++ [c] } }) u
  forAll (List.range 10) (fun r u =>
    let c := (tgetD u.fw.roles r {}).core
    if new.contains c then roleMove a r 6 true { u with fw := { u.fw with badCores := u.fw.badCores.filter (· != c) } }
    else if u.fw.badCores.contains c then
      match freeSpare u.fw (c / 6) with
      | some k => { u with fw := { u.fw with roles := tupd u.fw.roles r (fun x => { x with core := k }) } }
      | none => trayService 1 (notice (dieKey 3 (c / 6)) 0x0004 0 [r, physCtl c]
          { u with fw := { u.fw with roles := tupd u.fw.roles r (fun x => { x with state := 2 }) } })
    else u) u
/-- The repair map applied before the dies are brought up (R440). -/
def applyRepair (u : Units) : Units :=
  forAll u.svc.repair (fun r u =>
    let key := r.die * 16 + r.pos % 16
    match r.kind with
    | 1 =>
      if r.state ≠ 0 then u else
      let k := r.die * 16 + bitsOf r.pos 11 8
      { u with core := tmod u.core k {} (fun c => { c with
        eng := tmod c.eng (bitsOf r.pos 7 4) {} (fun e => { e with spareFor := some (r.pos % 16) }) }) }
    | 2 => { u with core := tmod u.core key {} (fun c =>
        if r.state = 0 then { c with phys := some r.aux } else { c with retired := true }) }
    | 3 =>
      let b := r.die * 32 + r.pos % 32
      { u with mat := { u.mat with banks := tmod u.mat.banks b {} (fun x =>
        if r.state = 0 then { x with phys := some r.aux } else { x with outOfService := true }) } }
    | _ => u) u
/-- Factory calibration chosen (R444). -/
def calBoot (cal0 cal1 : Bool) (u : Units) : Units :=
  let u := { u with fw := { u.fw with calOk := cal0 || cal1 } }
  let u := if !cal0 && cal1 then fwNotice 8 0x0A09 0 [1] u else u
  if cal0 != cal1 then trayService 8 u else u
/-- DHCP on a management port (R327): at most four attempts, with timeouts of 1, 2, 4 and 8 s. -/
def dhcpTry (serial die : Nat) (i : NetIn) (u : Units) : Units :=
  forAll (List.range (min 4 (i.silent + 1))) (fun k u => emit (.dhcp die (leBytes 8 serial) (2 ^ k)) u) u
/-- TFTP fetches a file block by block, each asked for at most 6 times and of at most 8,192 bytes: what came, and whether all of
it did (R327). -/
def tftpFetch (die : Nat) (server file : Bytes) : Nat → List (Bytes × Nat) → Units → Units × Bytes × Bool
  | _, [], u => (u, [], true)
  | k, (x, retries) :: r, u =>
    let u := forAll (List.range (min 6 (retries + 1))) (fun _ u => emit (.tftp die server file k 8192) u) u
    if 5 < retries ∨ 8192 < x.length then (u, [], false)
    else
      let t := tftpFetch die server file (k + 1) r u
      (t.1, x ++ t.2.1, t.2.2)
/-- A network boot through one port (R327): the file goes into the inactive bank as it arrives, and is checked under R324 after
it has arrived; true where that bank became active. DEDUCED, log 61. -/
def netPort (serial : Nat) (x : Nat × NetIn) (u : Units) : Units × Bool :=
  let u := dhcpTry serial x.1 x.2 u
  if 4 ≤ x.2.silent then (u, false)
  else
    let t := tftpFetch x.1 x.2.server x.2.file 1 x.2.blocks u
    let k := 1 - t.1.fw.bank
    let f := setOther { t.1.fw with bankTorn := true } { otherBank t.1.fw with valid := false, data := some t.2.1 }
    let u := { t.1 with fw := f, svc := journalAdd 6 (leBytes 1 k) true true t.1.svc }
    if t.2.2 && x.2.ended && imgFail f t.2.1 t.2.1.length none == 0 then
      let v := journalAdd 8 (leBytes 1 k) true true (journalAdd 7 (leBytes 1 k) true true u.svc)
      (bootImage k (imgParse t.2.1) { u with fw := { setOther f (imgParse t.2.1) with bankTorn := false }, svc := v }, true)
    else (u, false)
/-- The ports in order until one gives an image (R327). -/
def netBoot (serial : Nat) : List (Nat × NetIn) → Units → Units × Bool
  | [], u => (u, false)
  | x :: r, u =>
    let t := netPort serial x u
    if t.2 then t else netBoot serial r t.1
/-- The management ports of a network boot in the order of MGMT_PORT, with what each meets (R326). -/
def netPorts (u : Units) (net : List NetIn) : List (Nat × NetIn) :=
  (match bitsOf u.fw.bootCfg 5 4 with | 1 => [0] | 2 => [1] | _ => [0, 1]).zip net
/-- A boot from the banks (R325 step 3). -/
def bankBoot (d : BankDamage) (u : Units) : Units × Bool :=
  let f := u.fw
  let k := f.bank
  let act := if k = 0 then f.bankA else f.bankB
  if bankFail f d k act = 0 then (bootImage k act u, true)
  else if bankFail f d (1 - k) (otherBank f) = 0 then
    (fwNotice 0 0x0B04 0 [1 - k, bankFail f d k act]
      (bootImage (1 - k) (otherBank f) { u with svc := journalAdd 8 (leBytes 1 (1 - k)) true true u.svc }), true)
  else (u, false)
/-- The choice of an image (R325 steps 3 and 4, R326 NETFIRST). DEDUCED, log 61. -/
def chooseBoot (serial : Nat) (net : List NetIn) (d : BankDamage) (u : Units) : Units :=
  let may := bitAt u.fw.bootCfg 2
  let first := may && bitAt u.fw.bootCfg 3
  let fetch (u : Units) : Units × Bool := netBoot serial (netPorts u net) u
  let t := if first then fetch u else bankBoot d u
  if t.2 then t.1
  else
    let t := if first then bankBoot d t.1 else if may then fetch t.1 else t
    if t.2 then t.1 else { t.1 with fw := { t.1.fw with stage := 5 } }
/-- RESET_RELEASE (R325): on power-on, or on the release of RESET_N; every GPIO is parked and the strap sampled (R469). -/
def execResetRelease (b : BootIn) (s : State) : Res :=
  let low := s.u.blk.powerLow && !b.powerOn
  if low ∨ !(b.powerOn || s.u.blk.resetLow || s.u.blk.shutdown || s.u.fw.stage == 0) then .next s
  else
    let t := resetState s
    let gpio := (List.range 16).map (fun n => (n, ({ next := some 0 } : Gpio)))
    let u := { t.u with pins := { t.u.pins with pwrGood := true, strap := b.strap, gpio := gpio } }
    let u := bootCores s.asm (b.badCores.map (·.val)) (journalResolve b.journalBad (storeLost b.journalBad u))
    let u := { u with fw := { u.fw with bootCfg := bootNorm u.fw.bootCfgNext
                                        updResult := if u.fw.bankTorn then 0x0A else 0 } }
    let u := chooseBoot s.asm.serial b.net b.bankRead u
    let u := if u.fw.stage = 5 then u else calBoot b.cal0 b.cal1 (applyRepair u)
    .next { t with u := u }
/-- BOOT_READY (R325, R444). While MBX does not run, admission is held (R319, R321). -/
def bootReady (u : Units) : Units :=
  let mbx := (tgetD u.fw.roles 9 {}).state
  if u.fw.stage = 3 ∧ u.fw.calOk then
    { u with fw := { u.fw with stage := 4, mbxUp := mbx == 0 }, tick := { u.tick with admitHold := u.tick.admitHold || mbx != 0 } }
  else u
/-- BOOT_READY (R325). -/
def execBootReady (s : State) : Res := onU bootReady s

/- Live update (R330 to R334). -/
/-- UPDATE_QUIET_TICK (R331, R332): at the edge of Q. A lost role restarts no more, and cannot change image. DEDUCED, log 60. -/
def updateQuietTick (u : Units) : Units :=
  match u.fw.upd with
  | none => u
  | some w =>
    if w.stage ≠ 0 ∨ u.tick.number ≠ w.q ∨ !running u then u
    else if u.fw.roles.any (fun r => r.2.state != 0) then
      { u with fw := { u.fw with upd := none, updState := 0, updResult := 7, staged := none } }
    else { u with fw := { u.fw with mbxUp := false, upd := some { w with stage := 1 } }
                  tick := { u.tick with admitHold := true } }
/-- UPDATE_QUIET_TICK (R331). -/
def execUpdateQuietTick (s : State) : Res := onU updateQuietTick s
/-- The entry of a section: TYPE, SVER, REQUIRED, CRC (R333). -/
def handEntries (head : Bytes) : List (Nat × Nat × Bool × Nat) :=
  (List.range (le head 6 2)).map (fun k =>
    let o := 128 + 32 * k
    (le head o 2, le head (o + 2) 2, bitAt (le head (o + 4) 4) 0, le head (o + 24) 4))
/-- Whether an image adopts sections of a type and SVER. adopts: the highest SVER it knows, by type. -/
def sectionAdopted (adopts : List (Nat × Nat)) (type sver : Nat) : Bool := adopts.any (fun a => a.1 == type && decide (sver ≤ a.2))
/-- Whether an image adopts a record (R334). -/
def handAdopted (i : FwImg) (h : Hand) (adopts : List (Nat × Nat)) : Bool :=
  let l := handEntries h.head
  le h.head 0 4 == 0x4F464448
    && crc32c (patch (sliceZ h.head 0 (128 + 32 * le h.head 6 2)) 24 (leBytes 4 0)) == le h.head 24 4
    && l.all (fun e => crc32c (tgetD h.secs e.1 []) == e.2.2.2)
    && decide (i.hoMin ≤ le h.head 4 2) && decide (le h.head 4 2 ≤ i.hoOut)
    && l.all (fun e => !e.2.2.1 || sectionAdopted adopts e.1 e.2.1)
/-- The record as it reads back from control SRAM. -/
def handRead (h : Hand) (head : List (Nat × Byte)) (secs : List (Nat × Nat × Byte)) : Hand :=
  { head := head.foldl (fun x e => patch x e.1 [e.2]) h.head
    secs := secs.foldl (fun t e => tupd t e.1 (fun x => patch x e.2.1 [e.2.2])) h.secs }
/-- UPDATE_SWITCH (R331, R334): at the edge of Q + 1 every role core goes over to the idle half, and the image there checks and
adopts the record. Without a record there is nothing to adopt. DESIGN CHOICE, log 62. -/
def updateSwitch (head : List (Nat × Byte)) (secs : List (Nat × Nat × Byte)) (adopts : List (Nat × Nat)) (u : Units) : Units :=
  match u.fw.upd with
  | none => u
  | some w =>
    if w.stage ≠ 1 ∨ u.tick.number ≠ w.q + 1 then u
    else
      let new := u.fw.idle.getD u.fw.run
      let h := handRead (u.fw.hand.getD {}) head secs
      let w := { w with
        stage := 2, coasted := u.tick.coastTotal, refused := !handAdopted new h adopts
        ignored := ((handEntries h.head).filter (fun e => !sectionAdopted adopts e.1 e.2.1)).map (·.1) }
      { u with fw := { u.fw with run := new, idle := some u.fw.run, upd := some w } }
/-- UPDATE_SWITCH (R331). -/
def execUpdateSwitch (head : List (Nat × BitVec 8)) (secs : List (Nat × Nat × BitVec 8)) (adopts : List (Nat × Nat)) (s : State) : Res :=
  onU (updateSwitch head secs adopts) s
/-- The state of a section that the new image did not adopt returns to its reset value (R334); the runs are aborted with
cause 6 (R494). DESIGN CHOICE, log 62. -/
def sectionsLost (w : Update) (u : Units) : Units :=
  let u := if w.ignored.contains 0xC then { u with fw := { u.fw with traces := [] } } else u
  if w.ignored.contains 0xB then
    forAll (tkeys u.temper) (fun run u => if (tgetD u.temper run {}).state = 0 then u else temperAborted run 6 u) u
  else u
/-- UPDATE_DONE (R331): at the first edge at which every unit is armed under the new image. DEDUCED, log 60.
DEDUCED, log 64. -/
def updateDone (u : Units) : Units :=
  match u.fw.upd with
  | none => u
  | some w =>
    if w.stage ≠ 2 ∨ w.refused ∨ w.expired ∨ u.tick.st ≠ .current ∨ u.tick.number < w.q + 2 ∨ w.q + 4 < u.tick.number then u
    else
      let bank := 1 - u.fw.bank
      let mbx := (tgetD u.fw.roles 9 {}).state
      fwNotice 0 0x0B05 0 [w.old.ver, u.fw.run.ver, w.q, u.tick.coastTotal - w.coasted] <| sectionsLost w <|
        { u with
          fw := { u.fw with
            bank := bank, upd := none, updState := 0, updResult := 1, staged := none, rolled := false
            mbxUp := mbx == 0 }
          tick := { u.tick with admitHold := mbx != 0 }
          svc := journalAdd 8 (leBytes 1 bank) true true u.svc }
/-- UPDATE_DONE (R331). -/
def execUpdateDone (s : State) : Res := onU updateDone s
/-- UPDATE_ROLLBACK (R332). MBX_UP_RESTORE ends the declared coast. DEDUCED, log 59. DEDUCED, log 60. -/
def updateRollback (cause : RollCause) (u : Units) : Units :=
  match u.fw.upd with
  | none => u
  | some w =>
    let due := match cause with
      | .refused => w.stage == 2 && w.refused
      | .notArmed => w.stage == 2 && u.tick.number == w.q + 3 && u.tick.armSample == some false
      | .expiry => w.stage != 0 && w.expired
    if !due then u
    else
      let r := if cause = .refused then 8 else 9
      fwNotice 0 0x0B06 0 [r, w.q]
        { u with fw := { u.fw with
          run := w.old, idle := some u.fw.run, upd := none, updState := 0, updResult := r, staged := none, rolled := true } }
/-- UPDATE_ROLLBACK (R332). -/
def execUpdateRollback (cause : RollCause) (s : State) : Res := onU (updateRollback cause) s

end Sys2Proof.Machine
end

