-- ==== Sys2Proof/Machine/Jobs.lean ====
section
/-! DEFINITION. Screen jobs (08, R237 to R254; 12, R356): the calendar, decisions, the token copy, sweeps, replans,
composition, LATE, cancellation. -/
namespace Sys2Proof.Machine

/- The calendar (R242 to R244, R330, R497). -/
/-- Cell slot of a job's bytes (R244). -/
def byteCell : Nat := 257
/-- Units used in a cell: of every job, or of one context's jobs. DEDUCED, log 14. -/
def cellUsed (u : Units) (ctx : Option Nat) (slot rep tick : Nat) : Nat :=
  (u.job.map (fun j => if ctx.all (fun c => decide (c = j.ctx)) then
      (j.cells.map (fun x => if x.slot = slot ∧ x.rep = rep ∧ x.tick = tick then x.units else 0)).sum
    else 0)).sum
/-- Whether cells of a tick have no units: the two ticks of a pending update (R330). -/
def tickShut (u : Units) (t : Nat) : Bool :=
  match u.fw.upd with
  | some w => t == w.q + 2 || t == w.q + 3
  | none => false
/-- Whether cells of a slot have no units in a tick: from a tempering commit's edge on (R497). -/
def slotShut (u : Units) (slot t : Nat) : Bool :=
  u.temper.any (fun e => e.2.state == 3 && e.2.slot == slot && decide (e.2.edge ≤ t))
/-- U of a slot. -/
def slotU (u : Units) (slot : Nat) : Nat := (slotAt u slot).u
/-- Contexts other than c whose reserved share of a cell is unspent, with the units that protects (R242). -/
def protected_ (u : Units) (slot rep t c : Nat) : List (Nat × Nat) :=
  u.ctx.filterMap (fun e =>
    let x := tgetD e.2.shares slot 0 * slotU u slot / 1024 - cellUsed u (some e.1) slot rep t
    if e.1 = c ∨ e.1 = 0 ∨ x = 0 then none else some (e.1, x))
/-- Units available in a cell for a job of context c (R242); prot: with the protection term (R246). -/
def avail (u : Units) (slot rep t c : Nat) (prot : Bool) : Nat :=
  if tickShut u t || slotShut u slot t then 0
  else
    let p := if prot then ((protected_ u slot rep t c).map (·.2)).sum else 0
    slotU u slot - cellUsed u none slot rep t - p
/-- The greedy fill of n units on one replica over rising ticks: the cells taken; none where it does not fit (R243).
DEDUCED, log 14. -/
def fillCells (u : Units) (slot rep c : Nat) (prot : Bool) : List Nat → Nat → Option (List Cell)
  | _, 0 => some []
  | [], _ => none
  | t :: r, n =>
    let k := min (avail u slot rep t c prot) n
    (fillCells u slot rep c prot r (n - k)).map (fun l =>
      if k = 0 then l else { slot := slot, rep := rep, tick := t, units := k } :: l)
/-- Tick of the last cell of a fill. -/
def cellsEnd (l : List Cell) : Nat := l.foldl (fun m c => max m c.tick) 0
/-- Place n units on a slot in ticks from to last (R243): the replica whose fill ends earliest, ties to the lowest; only: the
one replica it may take. DEDUCED, log 14. -/
def place (u : Units) (slot c n start last : Nat) (prot : Bool) (only : Option Nat) : Option (List Cell) :=
  let x := slotAt u slot
  let ticks := fromN start (last + 1 - x.l - start)
  (List.range x.nrep).foldl (fun best r =>
    if x.out.any (fun o => o.1 == r) || only.any (· != r) then best
    else match fillCells u slot r c prot ticks n, best with
      | some l, some b => if cellsEnd l < cellsEnd b then some l else some b
      | some l, none => some l
      | none, b => b) none
/-- Keys that one unit of a cell kind charges to a bank, for a job's policy (R244). DEDUCED, log 118. -/
def bankKeys (u : Units) (pol : Bytes) (kind bank : Nat) : Nat :=
  let on (off : Nat) : Bool := bitAt (profBanks (polProf u pol off)) bank
  if kind = tokCell then b2n (on 0) else b2n (on 2) + (if on 4 then (profGroups (polProf u pol 4)).length else 0)
/-- Request keys charged to a bank in a tick. -/
def bankUsed (u : Units) (bank tick : Nat) : Nat :=
  (u.job.map (fun j => (j.cells.map (fun x =>
    if x.tick = tick ∧ tokCell ≤ x.slot then x.units * bankKeys u j.pol x.slot bank else 0)).sum)).sum
/-- Units of a kind of match work that a tick has room for. -/
def matchRoom (u : Units) (pol : Bytes) (kind tick : Nat) : Nat :=
  if tickShut u tick then 0
  else
    let banks := (List.range 64).filter (fun b => bankKeys u pol kind b != 0)
    let top := if kind = byteCell then 10 * u.tick.period else mcap u
    banks.foldl (fun m b => min m ((mcap u - bankUsed u b tick) / bankKeys u pol kind b)) top
/-- The greedy placement of bytes over rising ticks (R244). -/
def fillBytes (u : Units) (pol : Bytes) : List Nat → Nat → Option (List Cell)
  | _, 0 => some []
  | [], _ => none
  | t :: r, n =>
    let k := min (matchRoom u pol byteCell t) n
    (fillBytes u pol r (n - k)).map (fun l => if k = 0 then l else { slot := byteCell, tick := t, units := k } :: l)
/-- Place token keys in the first tick and bytes from it on (R244). -/
def placeMatch (u : Units) (pol : Bytes) (ntok nbytes start last : Nat) : Option (List Cell) :=
  let toks := if ntok = 0 then some [] else
    if start ≤ last ∧ ntok ≤ matchRoom u pol tokCell start then some [{ slot := tokCell, tick := start, units := ntok }] else none
  match toks, fillBytes u pol (fromN start (last + 1 - start)) nbytes with
  | some a, some b => some (a ++ b)
  | _, _ => none
/-- Place an amount on each of several slots (on one replica, where one is named), and match work. -/
def placeAll (u : Units) (pol : Bytes) (c start last : Nat) (prot : Bool) (work : List (Nat × Nat × Option Nat)) :
    Option (List Cell) :=
  let amount (k : Nat) : Nat := ((work.filter (fun w => w.1 == k)).map (·.2.1)).sum
  let cls := (work.filter (fun w => decide (w.1 < tokCell) && w.2.1 != 0)).foldl (fun acc w =>
    match acc, (if slotServing u w.1 then place u w.1 c w.2.1 start last prot w.2.2 else none) with
    | some l, some x => some (l ++ x)
    | _, _ => none) (some [])
  match cls, placeMatch u pol (amount tokCell) (amount byteCell) start last with
  | some a, some b => some (a ++ b)
  | _, _ => none

/- Records (R251). -/
/-- The fields of a verdict record, DELIVER and CRC left 0. -/
structure JRecF where
  tag : Nat
  verdict : Nat
  reason : Nat
  policy : Nat := 0
  cls : Nat := 0
  ntok : Nat := 0
  admitAt : Nat := 0
  nspan : Nat := 0
  nhit : Nat := 0
  failcat : Nat := 0xFFFF
  flags : Nat := 0
  failscore : Nat := 0
  polVer : Nat := 0
  image0 : Nat := 0
  image1 : Nat := 0
/-- The 64 bytes of a record. -/
def jobRecord (f : JRecF) : Bytes :=
  leBytes 2 f.tag ++ leBytes 1 f.verdict ++ leBytes 1 f.reason ++ leBytes 2 (f.policy % 1024 + f.cls % 4 * 2 ^ 14)
    ++ leBytes 2 (min 0xFFFF f.ntok) ++ leBytes 8 f.admitAt ++ leBytes 8 0 ++ leBytes 2 f.nspan ++ leBytes 2 f.nhit
    ++ leBytes 2 f.failcat ++ leBytes 1 f.flags ++ leBytes 1 0 ++ leBytes 4 f.failscore ++ leBytes 4 f.polVer
    ++ leBytes 4 f.image0 ++ leBytes 4 f.image1 ++ leBytes 16 0
/-- A record with its DELIVER and its CRC. -/
def recordOut (body : Bytes) (deliver : Nat) : Bytes :=
  let b := (patch body 16 (leBytes 8 deliver)).take 60
  b ++ leBytes 4 (crc32c b)
/-- A record that waits for a batch of its context. -/
def addRecord (ctx due : Nat) (body : Bytes) (u : Units) : Units :=
  { u with ctx := tmod u.ctx ctx {} (fun c => { c with recs := c.recs ++ [{ tag := le body 0 2, due := due, body := body }] }) }

/- Decision (R239 to R245). -/
/-- Whether a buffer of a descriptor lies in a space it may use, within it, and aligned (R365, R350). -/
def descBufOk (u : Units) (ctx : Nat) (b : Buf) : Bool := b.space != 3 && bufOk u ctx b
/-- The segment table of a job (R238): KIND and count of each entry. -/
def segTable (b : Bytes) (nseg : Nat) : List (Nat × Nat) := (List.range nseg).map (fun k => (le b (8 * k) 1 % 16, le b (8 * k + 2) 2))
/-- Whether a segment table breaks R238. -/
def segsBad (b : Bytes) (nseg : Nat) : Bool :=
  (List.range nseg).any (fun k =>
    let w := le b (8 * k) 8
    decide (4 < w % 16) || bitsOf w 15 4 != 0 || bitsOf w 63 32 != 0 || bitsOf w 31 16 == 0 || decide (32768 < bitsOf w 31 16))
/-- Whether a policy screens requests (R235). -/
def screens (pol : Bytes) : Bool :=
  !pol.isEmpty && (le pol 0 2 != 0xFFFF || le pol 2 2 != 0xFFFF || le pol 4 2 != 0xFFFF || !(reqSlots pol).isEmpty)
/-- A job refused, or failed before admission: its record leaves in the first batch after the decision (R239).
DEDUCED, log 66. DEDUCED, log 112. -/
def jobRefused (ctx : Nat) (w : Waiting) (verdict reason ntok : Nat) (u : Units) : Units :=
  let f : JRecF := {
    tag := le w.desc 2 2, verdict := verdict, reason := reason, policy := le w.desc 4 4, cls := le w.desc 1 1, ntok := ntok
    admitAt := u.tick.number }
  addRecord ctx (dueOf u w (tgetD u.ctx ctx {}).cohort) (jobRecord f) (dieBump 56 0x303 1 u)
/-- The lowest of a list of reason codes; 0 for none. -/
def lowest (l : List Nat) : Nat := match l with | [] => 0 | x :: r => r.foldl min x
/-- A job decided (R239 to R245): the first cause that applies, in R240's order, or admission. DEDUCED, log 114. -/
def jobDecide (ctx : Nat) (w : Waiting) (segs : Dma) (s : State) : State :=
  let u0 := loseDead s.u
  let held := admissionHeld u0 ctx
  let c := tgetD u0.ctx ctx {}
  let u := decided ctx w u0
  let a := u.tick.number
  let tokbuf := bufOf w.desc 8
  let nseg := le w.desc 44 1
  let nOk := 1 ≤ nseg ∧ nseg ≤ 64 ∧ 8 * nseg ≤ tokbuf.len ∧ descBufOk u ctx tokbuf
  let tab := if nOk then bufRead s ctx { tokbuf with len := 8 * nseg } segs else none
  let b := tab.getD []
  let sg := segTable b nseg
  let n := if tab.isSome then (sg.map (·.2)).sum else 0
  let refuse (v r : Nat) : State := { s with u := jobRefused ctx w v r n u }
  let cls := c.classes[le w.desc 1 1]?
  let pid := le w.desc 4 4 % 1024
  let pol := polCur u pid
  let tabBad := !nOk || (tab.isSome && (segsBad b nseg || decide (tokbuf.len < 8 * nseg + 4 * n)
    || (match cls with | some k => decide (k.1 < n) | none => false)))
  let errs := (if cls.isNone then [0x10] else []) ++ (if !screens pol then [0x11] else [])
    ++ (if tabBad then [0x12] else []) ++ (if nOk ∧ tab.isNone then [0x18] else [])
  let req := reqSlots pol
  let d := match cls with | some k => k.2 | none => 0
  let pool := poolUnits u req n nseg
  let toks := if profBanks (polProf u pol 0) = 0 then 0 else n
  if held then refuse 6 0x04
  else if !errs.isEmpty then refuse 4 (lowest errs)
  else if req.any (fun k => !slotServing u k) then refuse 6 0x05
  else if 8192 ≤ u.job.length ∨ c.jobQuota ≤ ctxJobs u ctx then refuse 6 0x02
  else if u.tier.jobPool < u.tier.poolUse + pool then refuse 6 0x03
  else match placeAll u pol ctx (a + 2) (a + d - 2) true
      (req.map (fun k => (k, n, none)) ++ [(tokCell, toks, none), (byteCell, le w.desc 40 4, none)]) with
    | none => refuse 6 0x01
    | some cells =>
      let j : Job := {
        ctx := ctx, tag := le w.desc 2 2, cls := le w.desc 1 1, policy := pid, pol := pol, copyAt := a + 1
        polVer := match (tgetD u.pol pid {}).cur with | some p => p.2 | none => 0
        admitAt := a, delay := d, segs := sg, nbytes := le w.desc 40 4, tokbuf := tokbuf, detbuf := bufOf w.desc 24
        ntok := n, pool := pool, cells := cells }
      { s with u := { u with job := u.job ++ [j], tier := { u.tier with poolUse := u.tier.poolUse + pool } } }
/-- JOB_DECISION (R239). -/
def jobDecision (ctx : Nat) (segs : Dma) (s : State) : State :=
  match decides s.u ctx 1 with
  | none => s
  | some w => jobDecide ctx w segs s
/-- JOB_DECISION (R240). -/
def execJobDecision (ctx : Fin 64) (segs : Dma) (s : State) : Res := .next (jobDecision ctx segs s)

/- Work of a job (R239, R181, R192). -/
/-- The job of a context and a TAG. -/
def jobAt (u : Units) (ctx tag : Nat) : Option Job := u.job.find? (fun j => j.ctx == ctx && j.tag == tag)
/-- A job changed. -/
def modJob (ctx tag : Nat) (f : Job → Job) (u : Units) : Units :=
  { u with job := u.job.map (fun j => if j.ctx = ctx ∧ j.tag = tag then f j else j) }
/-- The faults found in a job's tokens: 0x13, 0x14 (R181, R238, R240). -/
def tokenFaults (m : Match) (toks : List Nat) (nbytes : Nat) : List Nat :=
  let known (t : Nat) : Bool := decide (t < m.ntok)
  (if toks.all known then [] else [0x13])
    ++ (if nbytes < ((toks.filter known).map (fun t => (detok m t).length)).sum then [0x14] else [])
/-- JOB_TOKEN_COPY (R239, R246): in tick A + 1, or in the tick of the replan of a copy that a coast dropped, the token words
are copied to tier 1; once-class DMA. -/
def jobTokenCopy (ctx tag : Nat) (d : Dma) (s : State) : State :=
  match jobAt s.u ctx tag with
  | none => s
  | some j =>
    if !jobLive j ∨ j.tokens.isSome ∨ j.faults.contains 0x18 ∨ s.u.tick.number ≠ j.copyAt ∨ s.u.tick.st ≠ .current
        ∨ j.copyLost then s
    else
      let off := 8 * j.segs.length
      match bufRead s ctx { j.tokbuf with addr := j.tokbuf.addr + off, len := 4 * j.ntok } d with
      | none => { s with u := modJob ctx tag (fun j => { j with faults := j.faults ++ [0x18], copyLost := false }) s.u }
      | some b =>
        let toks := (List.range j.ntok).map (fun i => le b (4 * i) 4)
        let fs := tokenFaults s.u.mat toks j.nbytes
        { s with u := modJob ctx tag (fun j => { j with tokens := some toks, faults := j.faults ++ fs, copyLost := false }) s.u }
/-- JOB_TOKEN_COPY (R239). -/
def execJobTokenCopy (ctx : Fin 64) (tag : BitVec 16) (d : Dma) (s : State) : Res :=
  .next (jobTokenCopy ctx tag.toNat d s)
/-- First token of a segment. -/
def segFirst (segs : List (Nat × Nat)) (k : Nat) : Nat := ((segs.take k).map (·.2)).sum
/-- Whether the launch tables of the match sequencers sweep the request profiles of a policy in this tick (R48).
DEDUCED, log 228. -/
def sweepListed (u : Units) (pol : Bytes) : Bool :=
  ([0, 2, 4] : List Nat).all (fun off => le pol off 2 == 0xFFFF || u.tick.sweeps.contains (le pol off 2))
/-- REQUEST_SWEEP (R48, R192): one segment through its profiles; once-class work within the reserved ticks. DEDUCED, log 118.
DESIGN CHOICE, log 120. -/
def requestSweep (ctx tag seg : Nat) (u : Units) : Units :=
  match jobAt u ctx tag with
  | none => u
  | some j =>
    match j.tokens with
    | none => u
    | some toks =>
      if !jobLive j ∨ j.segs.length ≤ seg ∨ j.swept.contains seg ∨ u.tick.st ≠ .current ∨ !sweepListed u j.pol ∨ j.lost.isSome
          ∨ j.undone.any (fun x => decide (tokCell ≤ x.slot)) ∨ u.tick.number < j.admitAt + 2
          ∨ j.admitAt + j.delay - 2 < u.tick.number then u
      else
        let first := segFirst j.segs seg
        let x := j.segs.getD seg (0, 0)
        let trans := polProf u j.pol 4
        let f (i : Nat) : SweepFor := {
          tok := polProf u j.pol 0, byte := polProf u j.pol 2, trans := trans, source := x.1, seg := seg, pos := first + i }
        let r := (((toks.drop first).take x.2).zip (List.range x.2)).foldl
          (fun acc t => sweepToken (f t.2) (t.1 % 2 ^ 20) acc) (({ ms := freshState u trans } : Sweep), u)
        let sc := scoreHits r.2 r.1.hits
        let u := { r.2 with mat := { r.2.mat with
          uncat := r.2.mat.uncat + uncategorised r.2 ((polCats j.pol).filter onRequest) sc } }
        modJob ctx tag (fun j => { j with
          hits := j.hits ++ r.1.hits, poison := j.poison || r.1.poison, swept := j.swept ++ [seg] }) u
/-- REQUEST_SWEEP (R192). -/
def execRequestSweep (ctx : Fin 64) (tag : BitVec 16) (seg : Nat) (upsets : List Upset) (s : State) : Res :=
  onU (fun u => requestSweep ctx tag.toNat seg (upset upsets u)) s

/- Replan (R246). -/
/-- The contexts whose protected units a set of new cells takes. DEDUCED, log 117. -/
def takenFrom (u : Units) (c : Nat) (cells : List Cell) : List Nat :=
  (cells.flatMap (fun x =>
    if x.slot < tokCell ∧ avail u x.slot x.rep x.tick c true < x.units then (protected_ u x.slot x.rep x.tick c).map (·.1)
    else [])).eraseDups
/-- The units of a cell kind in a list of cells. -/
def cellUnits (slot : Nat) (l : List Cell) : Nat := ((l.filter (fun x => x.slot == slot)).map (·.units)).sum
/-- What a replan from tick t on places anew for one kind of cell (R243, R246): all that is not done, on the replica that has
done the rest; the whole of it, on any replica, where that one is gone or nothing is done. DEDUCED, log 117. -/
def replanKind (u : Units) (j : Job) (t slot : Nat) : Nat × Nat × Option Nat :=
  let old := j.cells.filter (fun x => x.slot == slot && decide (x.tick < t))
  let gone (x : Cell) : Bool := decide (slot < tokCell) && (slotAt u slot).out.any (fun o => o.1 == x.rep)
  let keep := if old.any gone then [] else old
  (slot, cellUnits slot j.cells + cellUnits slot j.undone - cellUnits slot keep,
    if slot < tokCell then (keep.head?).map (·.rep) else none)
/-- One job replanned into spare capacity, or left to be LATE. A dropped copy is made in this tick, and all cells come after
it. DEDUCED, log 117. -/
def replanOne (j : Job) (u : Units) : Units :=
  let now := u.tick.number
  let start := max (j.admitAt + 2) (if j.copyLost then now + 1 else now)
  let last := j.admitAt + j.delay - 2
  let hit := ((if j.copyLost then j.cells ++ j.undone else j.undone).map (·.slot)).eraseDups
  let kinds := if hit.any (fun k => decide (tokCell ≤ k)) then (hit.filter (· < tokCell)) ++ [tokCell, byteCell] else hit
  let work := kinds.map (replanKind u j now)
  let keep := j.cells.filter (fun x => !kinds.contains x.slot
    || (decide (x.tick < now) && !(decide (x.slot < tokCell) && (slotAt u x.slot).out.any (fun o => o.1 == x.rep))))
  let freed := modJob j.ctx j.tag (fun j => { j with cells := keep, undone := [] }) u
  match (if !j.copyLost || decide (now < last) then placeAll freed j.pol j.ctx start last false work else none) with
  | none => modJob j.ctx j.tag (fun j => { j with lost := some j.why, undone := [], copyLost := false }) u
  | some cells =>
    let from_ := takenFrom freed j.ctx cells
    let u := modJob j.ctx j.tag (fun x => { x with
      cells := keep ++ cells, undone := [], copyLost := false, copyAt := if j.copyLost then now else x.copyAt }) u
    if from_.isEmpty then u
    else
      notice (ctlProd (tgetD u.fw.roles 1 {}).core) 0x0503 j.ctx [bitWord 64 (fun k => from_.contains k)]
        (forAll from_ (fun c u => breach 3 c u) u)
/-- REPLAN (R246): in ascending delivery tick, then admission order, from the first armed tick; a job whose cancel is
accepted takes none (R259). -/
def replan (u : Units) : Units :=
  if u.tick.st ≠ .current ∨ !roleRuns u 1 then u
  else
    let u := loseDead u
    let l := sortBy (fun (a b : Job) => a.admitAt + a.delay < b.admitAt + b.delay)
      (u.job.filter (fun j => wantsReplan j && j.cancelAt.isNone))
    forAll l replanOne u
/-- REPLAN (R246). -/
def execReplan (s : State) : Res := onU replan s
/-- What a tick that launches no once-class work costs the jobs: the cells of the tick and a token copy due in it (R61,
R246). -/
def loseTick (u : Units) : Units :=
  let t := u.tick.number
  { u with job := u.job.map (fun j =>
    let j := loseCells (fun x => x.tick == t) 0x22 j
    if jobLive j && j.tokens.isNone && j.faults.isEmpty && decide (j.copyAt = t) then { j with copyLost := true, why := 0x22 } else j) }

/- Composition (R236, R247 to R252). -/
/-- A detail entry (R252). -/
def detailEntry (type seg pos len aux v0 v1 : Nat) : Bytes :=
  leBytes 1 type ++ leBytes 1 seg ++ leBytes 2 pos ++ leBytes 2 len ++ leBytes 2 aux ++ leBytes 4 v0 ++ leBytes 4 v1
/-- The score vector of a segment from a request slot. -/
def vecOf (scores : List ScoreVec) (seg which : Nat) : Option ScoreVec :=
  scores.find? (fun v => v.seg == seg && v.which.val == which)
/-- Request slots of a policy by their place: 0 and 1. -/
def reqPlaces (pol : Bytes) : List Nat := [0, 1].filter (fun k => le pol (16 + k) 1 != 0xFF)
/-- Whether every classifier score of a job has been produced. DESIGN CHOICE, log 111. -/
def clsDone (j : Job) (scores : List ScoreVec) : Bool :=
  (List.range j.segs.length).all (fun k => (reqPlaces j.pol).all (fun p => (vecOf scores k p).isSome))
/-- Whether a segment's sweep has completed; a job with no request profile needs none. -/
def segSwept (j : Job) (seg : Nat) : Bool :=
  (le j.pol 0 2 == 0xFFFF && le j.pol 2 2 == 0xFFFF && le j.pol 4 2 == 0xFFFF) || j.swept.contains seg
/-- Whether every match sweep of a job has completed; trivially so with no request profile. -/
def matchDone (j : Job) : Bool := (List.range j.segs.length).all (segSwept j)
/-- Score of a category in a segment: B and F; none where its vector is missing or poisons the unit (R236). -/
def segScore (u : Units) (hits : List Hit) (scores : List ScoreVec) (seg : Nat) (c : Cat) : Option (Nat × Nat) :=
  let b := if c.src < 2 then
      (match vecOf scores seg c.src with
        | some v => if v.poison then none else (v.scores[c.out]?).map (·.toNat)
        | none => none)
    else some 0
  match b with
  | none => none
  | some b => if fnotFin .fp32 b then none else some (b, finalScore b (weightSum u c.cat hits))
/-- A span: first token, tokens, replacement index, segment. -/
structure Span where
  first : Nat
  len : Nat
  idx : Nat
  seg : Nat
/-- Spans in first-token order, each cut to begin after those before it (R248). stop: one past the last span's end. -/
def cutSpans : Nat → List Span → List Span
  | _, [] => []
  | stop, x :: r =>
    let f := max x.first stop
    if f < x.first + x.len then { x with first := f, len := x.first + x.len - f } :: cutSpans (x.first + x.len) r
    else cutSpans stop r
/-- What a job's composition finds in one segment. -/
structure SegOut where
  block : Bool
  /-- failing categories with F, in entry order -/
  fails : List (Nat × Nat)
  spans : List Span
  scores : List Bytes
  hits : List Bytes
  flag : Bool
  multi : Bool
/-- One segment judged (R247, R248). Its scores count once its sweep has completed, since W sums its hits (R236, R250). -/
def judgeSeg (u : Units) (j : Job) (scores : List ScoreVec) (seg : Nat) : SegOut :=
  let first := segFirst j.segs seg
  let act (h : Hit) : Nat := actionAt u h.action
  let hs := j.hits.filter (fun h => h.seg == seg && actKind (act h) != 0)
  let cats := (polCats j.pol).filter onRequest
  let fs := if segSwept j seg then cats.filterMap (fun c => (segScore u hs scores seg c).map (fun x => (c, x))) else []
  let span (h : Hit) : Span :=
    let n := max 1 (replEntry u (act h % 4096)).2
    let f := max first (h.pos + 1 - n)
    { first := f, len := h.pos + 1 - f, idx := act h % 4096, seg := seg }
  { block := hs.any (fun h => actKind (act h) == 2)
    fails := (fs.filter (fun x => scoreFails x.1 x.2.2)).map (fun x => (x.1.cat, x.2.2))
    spans := (hs.filter (fun h => actKind (act h) == 3)).map span
    scores := fs.map (fun x => detailEntry 2 seg 0 x.1.cat (b2n (scoreFails x.1 x.2.2)) x.2.2 x.2.1)
    hits := hs.map (fun h => detailEntry 3 seg h.pos (actKind (act h)) h.count (h.action % 2 ^ 19) (h.addr % 2 ^ 20))
    flag := hs.any (fun h => actKind (act h) == 1)
    multi := hs.any (fun h => decide (2 ≤ h.count)) }
/-- Whether a unit of a job is poisoned: a sweep, a vector, or a base score that is no finite number (R236, R249).
DESIGN CHOICE, log 111. -/
def jobPoison (j : Job) (scores : List ScoreVec) : Bool :=
  j.poison || scores.any (·.poison)
    || (List.range j.segs.length).any (fun k => ((polCats j.pol).filter onRequest).any (fun c =>
      decide (c.src < 2) && (match vecOf scores k c.src with
        | some v => (match v.scores[c.out]? with | some b => fnotFin .fp32 b.toNat | none => true)
        | none => false)))
/-- Fields every record of an admitted job has. -/
def baseRecord (u : Units) (j : Job) (verdict reason : Nat) : JRecF :=
  let img (off : Nat) : Nat := if le j.pol off 1 = 0xFF then 0 else (slotAt u (le j.pol off 1)).imageId % 2 ^ 32
  { tag := j.tag, verdict := verdict, reason := reason, policy := j.policy, cls := j.cls, ntok := j.ntok, admitAt := j.admitAt
    polVer := j.polVer, image0 := img 16, image1 := img 17 }
/-- The detail of a job written: spans, scores, then the hits that fit; the record's fields with it. late: the record is
LATE and keeps its verdict (R252, R457); a record that is ERROR already carries the lowest reason (R240). flt: the write faults outside the block. DEDUCED, log 114. DEDUCED, log 115.
DEDUCED, log 116. -/
def withDetail (j : Job) (f : JRecF) (spans scores hits : List Bytes) (late flt : Bool) (s : State) : JRecF × State :=
  let room := j.detbuf.len / 16
  let need := spans.length + scores.length
  let fail (reason : Nat) : JRecF :=
    if late then { f with flags := f.flags + 4 }
    else { f with verdict := 4, reason := if f.verdict = 4 then min f.reason reason else reason }
  if room < need then (fail 0x16, s)
  else
    let nhit := min hits.length (room - need)
    let data := (spans ++ scores ++ hits.take nhit).flatten
    let g := { f with nspan := spans.length, nhit := nhit, flags := f.flags + (if nhit < hits.length then 4 else 0) }
    if data.isEmpty then (g, s)
    else if !descBufOk s.u j.ctx j.detbuf then (fail 0x18, s)
    else
      let r := bufWrite s j.ctx j.detbuf data flt
      if r.2 then (g, r.1) else (fail 0x18, r.1)
/-- A job's record from the work done (R249 to R252). late: the reason of a LATE under REQ_LATE PARTIAL. A poisoned unit lets
no detail and no score out (R422). DEDUCED, log 115. -/
def composeJob (j : Job) (scores : List ScoreVec) (late : Option Nat) (flt : Bool) (s : State) : Bytes × State :=
  let u := s.u
  let pois := jobPoison j scores
  let bits := 16 * b2n (matchDone j) + 32 * b2n (clsDone j scores) + 8 * b2n late.isSome
  let faults := j.faults ++ (if pois then [0x15] else [])
  let outs := (List.range j.segs.length).map (judgeSeg u j scores)
  let failed (o : SegOut) : Bool := o.block || !o.fails.isEmpty
  let dropSeg (k : Nat) : Bool := (j.segs.getD k (0, 0)).1 == 3 && bitsOf (le j.pol 24 2) 15 12 == 1
  let both := outs.zip (List.range outs.length)
  let dropped := (both.filter (fun p => failed p.1 && dropSeg p.2)).map (·.2)
  let jobFail := both.find? (fun p => failed p.1 && !dropSeg p.2)
  let raw := (both.filter (fun p => !dropped.contains p.2)).flatMap (fun p => p.1.spans)
  let whole := dropped.map (fun k =>
    ({ first := segFirst j.segs k, len := (j.segs.getD k (0, 0)).2, idx := 0xFFFF, seg := k } : Span))
  let spans := sortBy (fun (a b : Span) => a.first < b.first)
    (cutSpans 0 (sortBy (fun (a b : Span) => a.first < b.first) raw) ++ whole)
  let (verdict, reason) : Nat × Nat := match late, faults, jobFail with
    | some r, _, _ => (3, r)
    | none, _ :: _, _ => (4, lowest faults)
    | none, [], some p => (2, if p.1.block then 0x40 else 0x41)
    | none, [], none => (if spans.isEmpty then 0 else 1, 0)
  let base := { baseRecord u j verdict reason with flags := bits }
  if pois then (jobRecord base, onUnits (poisonSink j.ctx) s)
  else
    let fc := (outs.flatMap (·.fails)).head?
    let f := { base with
      failcat := match fc with | some x => x.1 | none => 0xFFFF
      failscore := match fc with | some x => x.2 | none => 0
      flags := bits + b2n (outs.any (·.flag)) + 2 * b2n (outs.any (·.multi)) }
    let r := withDetail j f (spans.map (fun x => detailEntry 1 x.seg x.first x.len x.idx 0 0)) (outs.flatMap (·.scores))
      (outs.flatMap (·.hits)) late.isSome flt s
    (jobRecord r.1, r.2)
/-- JOB_COMPOSE (R239, R249): in tick A + D - 1, in every tick state (R63). Work not complete leaves no record, unless a fault
or a poisoned unit makes the verdict ERROR (R240).
DESIGN CHOICE, log 111. -/
def jobCompose (ctx tag : Nat) (scores : List ScoreVec) (flt : Bool) (s : State) : State :=
  match jobAt s.u ctx tag with
  | none => s
  | some j =>
    if !jobLive j ∨ !running s.u ∨ s.u.tick.number ≠ j.admitAt + j.delay - 1
        ∨ j.cancelAt.any (fun t => decide (t ≤ s.u.tick.number)) then s
    else
      let whole := j.tokens.isSome && matchDone j && clsDone j scores && !wantsReplan j && j.lost.isNone
      if !whole && j.faults.isEmpty && !jobPoison j scores then { s with u := modJob ctx tag (fun j => { j with scores := scores }) s.u }
      else
        let r := composeJob j scores none flt s
        { r.2 with u := dieBump (dieKey 1 0) 0x138 1 (modJob ctx tag (fun j => { j with scores := scores, done := some r.1 }) r.2.u) }
/-- JOB_COMPOSE (R249). -/
def execJobCompose (ctx : Fin 64) (tag : BitVec 16) (scores : List ScoreVec) (flt : Bool) (s : State) : Res :=
  .next (jobCompose ctx tag.toNat scores flt s)

/- LATE and delivery (R63, R250, R31). -/
/-- Reason of a job's LATE (R253). -/
def lateReason (j : Job) : Nat :=
  match j.lost with
  | some r => r
  | none => if wantsReplan j then j.why else if matchDone j then 0x22 else 0x21
/-- A job with no record at its deadline is LATE (R63, R250, R390). DEDUCED, log 113. -/
def jobLate (j : Job) (flt : Bool) (s : State) : State :=
  let why := lateReason j
  let r := if le j.pol 21 1 % 16 = 0 then
      (jobRecord { tag := j.tag, verdict := 3, reason := why, admitAt := j.admitAt }, s)
    else composeJob j j.scores (some why) flt s
  let u := modJob j.ctx j.tag (fun j => { j with done := some r.1 }) r.2.u
  { r.2 with u := dieBump (dieKey 1 0) 0x139 1 (breach 2 j.ctx (notice (dieKey 1 0) 0x0109 j.ctx [j.tag, why] u)) }
/-- JOB_DEADLINE (R63): the egress of A + D. -/
def jobDeadline (ctx tag : Nat) (flt : Bool) (s : State) : State :=
  match jobAt s.u ctx tag with
  | none => s
  | some j =>
    let c := (tgetD s.u.ctx ctx {}).cohort
    if !jobLive j ∨ !egressMark s.u c ∨ cohortTick s.u c < j.admitAt + j.delay
        ∨ j.cancelAt.any (fun t => decide (t ≤ s.u.tick.number)) then s
    else jobLate j flt s
/-- JOB_DEADLINE (R63). -/
def execJobDeadline (ctx : Fin 64) (tag : BitVec 16) (flt : Bool) (s : State) : Res :=
  .next (jobDeadline ctx tag.toNat flt s)
/-- A job's record joins its context's records for the batch of its delivery tick; its pool is free (R241).
DEDUCED, log 119. -/
def jobEmit (t : Nat) (j : Job) (u : Units) : Units :=
  let u := modJob j.ctx j.tag (fun j => { j with emitted := true }) u
  addRecord j.ctx t (j.done.getD []) { u with tier := { u.tier with poolUse := u.tier.poolUse - j.pool } }

/- Cancellation (R254). -/
/-- JOB_CANCEL (R356, R254). -/
def jobCancel (n : Nat) : Units → Units :=
  message 0x0501 n (fun p u =>
    match jobAt u n (le p 0 2) with
    | none => keep u (plain 9)
    | some j =>
      match j.cancelAt with
      | some t => keep u (ok (le8 t))
      | none =>
        let t := u.tick.number + 1
        if !jobLive j ∨ j.emitted ∨ j.admitAt + j.delay - 1 ≤ t then keep u (plain 0xB)
        else keep (modJob n j.tag (fun j => { j with cancelAt := some t }) u) (ok (le8 t)))
/-- JOB_CANCEL (R254). -/
def execJobCancel (mb : Fin 64) (s : State) : Res := onU (jobCancel mb) s
/-- JOB_STATUS (R356). -/
def jobStatus (n : Nat) : Units → Units :=
  message 0x0502 n (fun p u =>
    match jobAt u n (le p 0 2) with
    | none => keep u (plain 9)
    | some j =>
      let st := if j.cancelAt.isSome then 3 else if j.done.isSome then 2 else 1
      keep u (ok (leBytes 1 st ++ leBytes 1 j.cls ++ leBytes 6 0 ++ le8 j.admitAt ++ le8 (j.admitAt + j.delay))))
/-- JOB_STATUS (R356). -/
def execJobStatus (mb : Fin 64) (s : State) : Res := onU (jobStatus mb) s
/-- A cancelled job stops: its cells are free, its record says CANCELLED. -/
def stopJob (j : Job) (u : Units) : Units :=
  let body := jobRecord (baseRecord u j 5 0x30)
  modJob j.ctx j.tag (fun j => { j with
    stopped := true, cells := j.cells.filter (fun x => decide (x.tick < u.tick.number)), undone := [], copyLost := false
    done := some body }) u
/-- JOB_CANCEL_EFFECT (R254): at the edge after the cancel. -/
def jobCancelEffect (ctx tag : Nat) (u : Units) : Units :=
  match jobAt u ctx tag with
  | none => u
  | some j => if jobLive j ∧ running u ∧ j.cancelAt.any (fun t => decide (t ≤ u.tick.number)) then stopJob j u else u
/-- JOB_CANCEL_EFFECT (R254). -/
def execJobCancelEffect (ctx : Fin 64) (tag : BitVec 16) (s : State) : Res := onU (jobCancelEffect ctx tag.toNat) s

end Sys2Proof.Machine
end

