-- ==== Sys2Proof/Machine/Rings.lean ====
section
/-! DEFINITION. The data rings (13, R362 to R372, R513): reads of the host's control words, fetched descriptors and their
completion entries, step batches. -/
namespace Sys2Proof.Machine

/- Access to a ring. -/
/-- Index arithmetic of a ring (R363). -/
def idxSub (a b : Nat) : Nat := (a + 2 ^ 32 - b % 2 ^ 32) % 2 ^ 32
/-- Whether accesses to a ring can succeed (R457). -/
def ringUp (u : Units) (b : Buf) : Bool := if b.space = 4 then !ringGone u b else dmaUp u b.space
/-- The host's word of a ring as this mark read it: none where the read faulted; the word last read where the mark gives
none. DESIGN CHOICE, log 121. -/
def ringWord (u : Units) (io : MarkIo) (ctx ring : Nat) (b : Buf) (old : Nat) : Option Nat :=
  if !ringUp u b then none
  else match io.reads.find? (fun r => r.ctx.val == ctx && r.ring.val == ring) with
    | some r => r.val.map (·.toNat)
    | none => some old
/-- Bytes written to a ring at an offset. DESIGN CHOICE, log 128. -/
def ringPut (b : Buf) (off : Nat) (data : Bytes) (s : State) : State :=
  (bufWrite s 0 { b with addr := b.addr + off, len := max 64 data.length } data false).1
/-- A context changed. -/
def modCtx (n : Nat) (f : Ctx → Ctx) (u : Units) : Units := { u with ctx := tupd u.ctx n f }
/-- Entries written from an index on. -/
def ringEntries (b : Buf) (index : Nat) (l : List Bytes) (s : State) : State :=
  (List.range l.length).foldl (fun s i => ringPut b (64 * (1 + (index + i) % ringN b)) (l.getD i []) s) s
/-- A control line. DESIGN CHOICE, log 128. -/
def ringLine (prod cons : Nat) : Bytes := leBytes 4 prod ++ leBytes 28 0 ++ leBytes 4 cons ++ leBytes 28 0
/-- The block's CONS of a submission ring written. A window takes the whole line, the host's half as it was last read. -/
def ringCons (b : Buf) (prod cons : Nat) (s : State) : State :=
  if b.space = 4 then ringPut b 0 (ringLine prod cons) s else ringPut b 32 (leBytes 4 cons) s
/-- Entries written to a ring the block produces into, then PROD, then the ring vector; in a window PROD waits for the WACK of
every entry (R363, R365, R368). -/
def ringWrite (ctx ring : Nat) (b : Buf) (index : Nat) (ents : List Bytes) (cons : Nat) (s : State) : State :=
  let prod := (index + ents.length) % 2 ^ 32
  if b.space = 4 then
    let w : RingWait := { ring := ring, buf := b, index := index, ents := ents, line := ringLine prod cons }
    onUnits (fun u => ringAcked ctx ring (ringSend ctx w (modCtx ctx (fun c => { c with ringWait := c.ringWait ++ [w] }) u))) s
  else
    onUnits (fun u => msix (tgetD u.ctx ctx {}).vec u) (ringPut b 0 (leBytes 4 prod) (ringEntries b index ents s))
/-- Contexts in service of a cohort. -/
def cohortCtxs (u : Units) (cohort : Nat) : List Nat := (inService u).filter (fun k => (tgetD u.ctx k {}).cohort == cohort)

/- Submission and completion rings (R364, R365). -/
/-- Whether completion entries or the submission CONS wait to be written. DEDUCED, log 122. -/
def fetchOwed (c : Ctx) : Bool := !c.cplWait.isEmpty || c.subOut != c.subCons
/-- The end of a fetch: completion entries, then PROD, then the submission CONS, then the ring vector (R363, R365). What a
fault keeps from the ring is retried at the next read. -/
def fetchEnd (ctx : Nat) (s : State) : State :=
  let c := tgetD s.u.ctx ctx {}
  let s := if c.cplWait.isEmpty then s
    else if !ringUp s.u c.cpl ∨ c.badRings.contains 1 then { s with u := ringFault ctx 1 c.cplProd c.cpl true s.u }
    else
      onUnits (modCtx ctx (fun c => { c with cplProd := (c.cplProd + c.cplWait.length) % 2 ^ 32, cplWait := [] }))
        (ringWrite ctx 1 c.cpl c.cplProd c.cplWait c.cplCons s)
  if c.subOut = c.subCons then s
  else if !ringUp s.u c.sub ∨ c.badRings.contains 0 then { s with u := ringFault ctx 0 c.subCons c.sub true s.u }
  else
    let s := ringCons c.sub c.subProd c.subCons s
    { s with u := modCtx ctx (fun c => { c with subOut := c.subCons }) s.u }
/-- Free completion slots (R364, R513). -/
def cplRoom (c : Ctx) : Nat := ringN c.cpl - (idxSub c.cplProd c.cplCons + c.cplWait.length)
/-- One context's control lines read; how many descriptors it would fetch. -/
def readSub (io : MarkIo) (ctx : Nat) (u : Units) : Nat × Units :=
  let c := tgetD u.ctx ctx {}
  let u := modCtx ctx (fun c => { c with fetchLeft := 0 }) u
  match ringWord u io ctx 0 c.sub c.subProd with
  | none => (0, ringFault ctx 0 c.subCons c.sub true u)
  | some prod =>
    let r := match ringWord u io ctx 1 c.cpl c.cplCons with
      | some cons => (cons, u)
      | none => (c.cplCons, ringFault ctx 1 c.cplProd c.cpl true u)
    let u := modCtx ctx (fun c => { c with subProd := prod, cplCons := r.1 }) r.2
    let c := tgetD u.ctx ctx {}
    let n := idxSub prod c.subCons
    let full := decide (ringN c.cpl < idxSub c.cplProd c.cplCons)
    let u := if full then ringFault ctx 1 c.cplProd c.cpl false u else u
    if ringN c.sub < n then (0, ringFault ctx 0 c.subCons c.sub false u)
    else (if full then 0 else min 32 (min n (cplRoom c)), u)
/-- Contexts in the rotation of R239 for the tick that decides what is fetched now. DEDUCED, log 123. -/
def rotation (u : Units) (l : List Nat) : List Nat :=
  let first := nextTick u % 63 + 1
  sortBy (fun a b => decide ((a + 63 - first) % 63 < (b + 63 - first) % 63)) l
/-- The submission reads of M0 and M3 (R364): at most 32 descriptors a context and 1,024 a tick, in rounds.
DESIGN CHOICE, log 121. -/
def submissionReads (io : MarkIo) (s : State) : State :=
  let l := rotation s.u (inService s.u)
  let bad (k : Nat) : List Nat := (io.badWrites.filter (fun x => x.1.val == k)).map (·.2.val)
  let s := { s with u := forAll l (fun k u => ringRetry k 1 (modCtx k (fun c => { c with badRings := bad k }) u)) s.u }
  let s := l.foldl (fun s k => if fetchOwed (tgetD s.u.ctx k {}) then fetchEnd k s else s) s
  let r := l.foldl (fun (acc : List (Nat × Nat) × Units) k =>
    let x := readSub io k acc.2
    (acc.1 ++ [(k, x.1)], x.2)) (([] : List (Nat × Nat)), s.u)
  let turns := ((List.range 32).flatMap (fun i => (r.1.filter (fun w => decide (i < w.2))).map (·.1))).take (1024 - r.2.tick.fetched)
  { s with u := forAll l (fun k u => modCtx k (fun c => { c with fetchLeft := (turns.filter (fun x => x == k)).length }) u) r.2 }
/-- Whether a descriptor's reserved fields are not all 0 (R365, R367). -/
def descReserved (b : Bytes) : Bool :=
  let nz (off n : Nat) : Bool := !allZero (sliceZ b off n)
  match le b 0 1 with
  | 1 => le b 1 1 / 4 != 0 || le b 4 4 / 1024 != 0 || nz 10 2 || nz 26 2 || nz 45 15
  | 2 => nz 8 8 || nz 18 2 || nz 32 28
  | 3 => nz 2 2 || nz 16 44
  | _ => nz 2 2 || nz 12 4 || nz 18 2 || nz 32 28 || (le b 1 1 == 0 && nz 16 16)
/-- The sampling record a descriptor brings: some none where its BUF is not one to read; none where the read faulted
(R367). DEDUCED, log 125. -/
def descSampling (s : State) (ctx : Nat) (b : Bytes) (rec_ : Dma) : Option (Option Bytes) :=
  let buf := bufOf b 16
  if (le b 0 1 = 2 ∨ (le b 0 1 = 4 ∧ le b 1 1 = 1)) ∧ buf.len = 64 ∧ descBufOk s.u ctx buf then
    (bufRead s ctx buf rec_).map some
  else some none
/-- The REJECT code of a descriptor that was read: 0 accepts it (R365). DEDUCED, log 125. DEDUCED, log 132. -/
def descReject (c : Ctx) (b : Bytes) : Nat :=
  if le b 0 1 = 0 ∨ 4 < le b 0 1 then 1
  else if crc32c (b.take 60) ≠ le b 60 4 then 2
  else if descReserved b then 3
  else if le b 0 1 = 1 ∧ c.tags.contains (le b 2 2) then 4
  else 0
/-- A completion entry (R365). DEDUCED, log 126. DEDUCED, log 127. -/
def completion (type reject idx decide_ id : Nat) : Bytes :=
  let b := leBytes 1 type ++ leBytes 1 (b2n (reject != 0)) ++ leBytes 2 reject ++ leBytes 4 idx ++ leBytes 8 decide_
    ++ leBytes 4 id ++ leBytes 40 0
  b ++ leBytes 4 (crc32c b)
/-- Whether the tick itself holds admission, so that what arrives is refused in it (R53, R62, R66). DEDUCED, log 129. -/
def tickHolds (u : Units) : Bool := u.tick.st != .current || u.tick.admitHold
/-- DESCRIPTOR_FETCHED (R365): judged, answered by a completion entry, waiting for its decision in the next tick; refused in
this tick where the tick holds admission (R62). DEDUCED, log 129. -/
def descriptorFetched (ctx : Nat) (d rec_ : Dma) (s : State) : State :=
  let c := tgetD s.u.ctx ctx {}
  if c.fetchLeft = 0 ∨ !running s.u then s
  else
    let raw := match d with | .data b => if ringUp s.u c.sub then some (sliceZ b 0 64) else none | .fault => none
    let b := raw.getD []
    let srec := if raw.isSome then descSampling s ctx b rec_ else none
    let rej := if srec.isNone then 5 else descReject c b
    let held := tickHolds s.u
    let a := if held then s.u.tick.number else nextTick s.u
    let type := if raw.isSome then le b 0 1 else 0xFF
    let id := if raw.isNone then 0 else if type = 1 then le b 2 2 else le b 4 4
    let w : Waiting := { desc := b, srec := srec.getD none, tick := a, held := held }
    let die := dieKey 2 (ringDie s.u c.sub)
    let u := modCtx ctx (fun c => { c with
      fetchLeft := c.fetchLeft - 1, subCons := (c.subCons + 1) % 2 ^ 32
      cplWait := c.cplWait ++ [completion type rej c.subCons (if rej = 0 then a else 0) id]
      tags := if rej = 0 ∧ type = 1 then c.tags ++ [le b 2 2] else c.tags
      waiting := if rej = 0 then c.waiting ++ [w] else c.waiting }) s.u
    let u := dieBump die 0x206 1 { u with tick := { u.tick with fetched := u.tick.fetched + 1 } }
    let u := if rej = 0 then u
      else noticeLimited die 0x0D03 ctx ctx [c.subCons, rej] (setIface (dieBump die 0x207 1 u))
    let s := { s with u := u }
    let s := if rej ≠ 0 ∨ !held then s
      else match type with
        | 1 => jobDecide ctx w rec_ s
        | 2 => openDecide ctx w s
        | 3 => { s with u := pauseDecide ctx w s.u }
        | _ => resumeDecide ctx w s
    if c.fetchLeft = 1 then fetchEnd ctx s else s
/-- DESCRIPTOR_FETCHED (R365). -/
def execDescriptorFetched (ctx : Fin 64) (d rec_ : Dma) (s : State) : Res := .next (descriptorFetched ctx d rec_ s)

/- Step batches (R368 to R372). -/
/-- The host's step-batch CONS read at a cohort's ingress close (R371, R513). DESIGN CHOICE, log 121. -/
def readBatchCons (io : MarkIo) (ctx : Nat) (u : Units) : Units :=
  let c := tgetD u.ctx ctx {}
  match ringWord u io ctx 2 c.bat c.batCons with
  | none => ringFault ctx 2 c.batProd c.bat true u
  | some cons =>
    let bad := decide (ringN c.bat < idxSub c.batProd cons)
    let u := modCtx ctx (fun c => { c with
      batCons := cons, batBad := bad
      unread := c.unread.filter (fun x => decide (idxSub c.batProd x.1 < idxSub c.batProd cons)) }) u
    if bad then ringFault ctx 2 c.batProd c.bat false u else u
/-- Where a unit of a batch comes from: a job record by TAG, a stream by slot, a stream that has left its slot by handle, a
refused event by its place. -/
inductive BSrc where
  | job (tag : Nat)
  | live (slot : Nat)
  | left (handle : Nat)
  | refused (place : Nat)
deriving DecidableEq, Repr
/-- A unit of R371: its entries; token words and END events in them, for the counters. -/
structure BUnit where
  src : BSrc
  since : Option Nat
  key : Nat
  toke : List Bytes := []
  evts : List Bytes := []
  recs : List Bytes := []
  toks : Nat := 0
deriving DecidableEq, Repr
/-- Entries of a unit, in order. -/
def unitEntries (x : BUnit) : List Bytes := x.recs ++ x.toke ++ x.evts
/-- Token entries of released positions (R369). -/
def tokenEntries (handle : Nat) (toks : List (Nat × Nat)) : List Bytes :=
  (List.range (ceilDiv toks.length 12)).map (fun i =>
    let l := (toks.drop (12 * i)).take 12
    let b := leBytes 1 0x10 ++ leBytes 1 l.length ++ leBytes 2 0 ++ leBytes 4 handle ++ leBytes 4 (l.headD (0, 0)).1
      ++ sliceZ (l.flatMap (fun t => leBytes 4 t.2)) 0 48
    b ++ leBytes 4 (crc32c b))
/-- A stream unit. -/
def streamUnit (src : BSrc) (slot handle t : Nat) (since : Option Nat) (toks : List (Nat × Nat)) (evts : List (Nat × Bytes)) : BUnit :=
  { src := src, since := since, key := slot, toke := tokenEntries handle toks, toks := toks.length
    evts := (evts.filter (fun e => decide (e.1 ≤ t))).map (·.2) }
/-- Carried units in their original order, then new ones by key. -/
def unitOrder (l : List BUnit) : List BUnit :=
  sortBy (fun (a b : BUnit) => match a.since, b.since with
    | some x, some y => decide (x < y) || (x == y && decide (a.key < b.key))
    | some _, none => true
    | none, some _ => false
    | none, none => decide (a.key < b.key)) l
/-- The units of a context for the batch of cohort tick t, in R371's order. -/
def batchUnits (ctx t : Nat) (u : Units) : List BUnit :=
  let c := tgetD u.ctx ctx {}
  let jobs := (c.recs.filter (fun r => decide (r.due ≤ t))).map (fun r =>
    ({ src := .job r.tag, since := r.since, key := r.tag, recs := [recordOut r.body t] } : BUnit))
  let live := (u.str.filter (fun e => e.2.ctx == ctx && holds e.2)).map (fun e =>
    streamUnit (.live e.1) e.1 (handleOf e.1 e.2) t e.2.since e.2.outToks e.2.outEvts)
  let gone := c.gone.map (fun g => streamUnit (.left g.handle) g.slot g.handle t g.since g.toks g.evts)
  let refused := (c.evts.zip (List.range c.evts.length)).filter (fun e => decide (e.1.due ≤ t))
  let refused := refused.map (fun e => ({ src := .refused e.2, since := e.1.since, key := e.2, evts := [e.1.body] } : BUnit))
  unitOrder jobs ++ unitOrder ((live ++ gone).filter (fun x => !(unitEntries x).isEmpty)) ++ unitOrder refused
/-- How many leading units fit in a room. -/
def unitsFit : Nat → List BUnit → Nat
  | _, [] => 0
  | room, x :: r =>
    let n := (unitEntries x).length
    if room < n then 0 else unitsFit (room - n) r + 1
/-- A batch header (R368). DEDUCED, log 130. -/
def batchHeader (tstate cohort bseq t njob ntoke nevt held time : Nat) (carry short : Bool) : Bytes :=
  let b := leBytes 1 0x80 ++ leBytes 1 (tstate * 8 + b2n carry * 4 + b2n short * 2 + cohort) ++ leBytes 2 (1 + njob + ntoke + nevt)
    ++ leBytes 4 bseq ++ leBytes 8 t ++ leBytes 2 njob ++ leBytes 2 ntoke ++ leBytes 2 nevt ++ leBytes 2 (min 0xFFFF held)
    ++ leBytes 8 time ++ leBytes 28 0
  b ++ leBytes 4 (crc32c b)
/-- Units left held by the batch of tick t; drop: discarded instead (R54). DEDUCED, log 131. -/
def holdUnits (ctx t : Nat) (l : List BUnit) (u : Units) : Units :=
  let held (x : BSrc) : Bool := l.any (fun b => b.src == x)
  let mark (since : Option Nat) (x : BSrc) : Option Nat := if since.isNone ∧ held x then some t else since
  let u := { u with str := tmap u.str (fun k s => if s.ctx = ctx ∧ holds s then { s with since := mark s.since (.live k) } else s) }
  modCtx ctx (fun c => { c with
    recs := c.recs.map (fun r => { r with since := mark r.since (.job r.tag) })
    gone := c.gone.map (fun g => { g with since := mark g.since (.left g.handle) })
    evts := (c.evts.zip (List.range c.evts.length)).map (fun e => { e.1 with since := mark e.1.since (.refused e.2) }) }) u
/-- Units written to, or discarded at, the batch of tick t: they are owed no longer, a job's table entry and TAG are free
(R356, R371). -/
def clearUnits (ctx t : Nat) (l : List BUnit) (u : Units) : Units :=
  let out (x : BSrc) : Bool := l.any (fun b => b.src == x)
  let later (e : List (Nat × Bytes)) : List (Nat × Bytes) := e.filter (fun x => decide (t < x.1))
  let tags := l.filterMap (fun b => match b.src with | .job tag => some tag | _ => none)
  let u := { u with
    str := tmap u.str (fun k s => if s.ctx = ctx ∧ holds s ∧ out (.live k) then
      { s with outToks := [], outEvts := later s.outEvts, since := none } else s)
    job := u.job.filter (fun j => !(j.ctx == ctx && j.emitted && tags.contains j.tag)) }
  modCtx ctx (fun c => { c with
    recs := c.recs.filter (fun r => !out (.job r.tag))
    tags := c.tags.filter (fun k => !tags.contains k)
    gone := (c.gone.map (fun g => if out (.left g.handle) then { g with toks := [], evts := later g.evts, since := none } else g)).filter
      (fun g => !g.toks.isEmpty || !g.evts.isEmpty || g.endInd.isSome)
    evts := ((c.evts.zip (List.range c.evts.length)).filter (fun e => !out (.refused e.2))).map (·.1) }) u
/-- The counters that written units advance (R507, R508). -/
def countUnits (l : List BUnit) (u : Units) : Units :=
  forAll l (fun x u =>
    let u := match x.src with
      | .job _ =>
        let v := le (x.recs.headD []) 2 1
        blkBump (if v ≤ 1 then 3 else v + 2) 1 u
      | .live n => dieBump (dieKey 1 (slotDie n)) 0x134 x.toks u
      | .left h => dieBump (dieKey 1 (slotDie (h % 4096))) 0x134 x.toks u
      | .refused _ => u
    blkBump 10 (x.evts.filter (fun e => le e 0 1 == 0x23)).length (blkBump 2 x.toks u)) u
/-- TSTATE of a batch (R368): start-up counts as current. DEDUCED, log 130. -/
def tstateOf : TickSt → Nat
  | .coasting => 1
  | .halted => 2
  | .stopped => 3
  | _ => 0
/-- What a short batch costs (R371, R390): RING_SHORT, and a breach for each job record first held now. DEDUCED, log 131. -/
def shortBatch (ctx t : Nat) (final : Bool) (held : List BUnit) (u : Units) : Units :=
  let c := tgetD u.ctx ctx {}
  let late := (held.filter (fun x => x.since.isNone && (match x.src with
    | .job tag => u.job.any (fun j => j.ctx == ctx && j.tag == tag && j.emitted)
    | _ => false))).length
  let first := c.shortFrom.getD t
  let u := forAll (List.range late) (fun _ u => breach 2 ctx u) (modCtx ctx (fun c => { c with shortFrom := some first }) u)
  let die := dieKey 2 (ringDie u c.bat)
  if final then notice die 0x0D01 ctx [held.length, first] u else noticeLimited die 0x0D01 ctx ctx [held.length, first] u
/-- A context's step batch of cohort tick t. bad: its write faults; quiet: the header alone leaves (R425, R451); final: at the
stopping edge, where what does not fit is discarded (R54). DEDUCED, log 122. DEDUCED, log 127. DEDUCED, log 182. -/
def stepBatch (ctx t : Nat) (bad final : Bool) (s : State) : State :=
  let s := onUnits (ringRetry ctx 2) s
  let c := tgetD s.u.ctx ctx {}
  let quiet := s.u.blk.fatal || s.u.blk.tripped
  let all := if quiet then [] else batchUnits ctx t s.u
  let room := if c.batBad then 0 else ringN c.bat - idxSub c.batProd c.batCons
  let k := if room = 0 then 0 else unitsFit (room - 1) all
  let written := all.take k
  let held := all.drop k
  let ok := room ≠ 0 ∧ !bad ∧ ringUp s.u c.bat
  if room ≠ 0 ∧ !ok then
    let u := ringFault ctx 2 c.batProd c.bat true s.u
    { s with u := if final then clearUnits ctx t all u else holdUnits ctx t all u }
  else
    let u := if held.isEmpty then modCtx ctx (fun c => { c with shortFrom := none }) s.u else shortBatch ctx t final held s.u
    let u := if final then u else holdUnits ctx t held u
    if room = 0 then { s with u := if final then clearUnits ctx t all u else u }
    else
      let toke := (written.map (fun x => x.toke.length)).sum
      let evts := (written.map (fun x => x.evts.length)).sum
      let recs := (written.map (fun x => x.recs.length)).sum
      let ts := if quiet then 2 else if final then 3 else tstateOf s.u.tick.st
      let hdr := batchHeader ts c.cohort c.bseq t recs toke evts held.length s.u.tick.time
        (written.any (fun x => x.since.isSome)) (!held.isEmpty)
      let ents := hdr :: written.flatMap unitEntries
      let prod := (c.batProd + ents.length) % 2 ^ 32
      let s := ringWrite ctx 2 c.bat c.batProd ents c.batCons { s with u := u }
      let die := dieKey 2 (ringDie s.u c.bat)
      let u := dieBump die 0x209 (b2n (!held.isEmpty)) (dieBump die 0x208 1 (countUnits written s.u))
      let u := clearUnits ctx t (if final then all else written) u
      { s with u := modCtx ctx (fun c => { c with
          batProd := prod, bseq := (c.bseq + 1) % 2 ^ 32, unread := c.unread ++ [(prod, s.u.tick.number)] }) u }

end Sys2Proof.Machine
end

