-- ==== Sys2Proof/Machine/Ingress.lean ====
section
/-! DEFINITION. Step traffic into the block (13, R377 to R379; 03, R82, R92 to R94; 04, R118; 02, R28, R58, R59): HSTATE
fragments, transport records, skip markers. -/
namespace Sys2Proof.Machine

/-- Whether the ingress window of a cohort's present tick is open: its close has not come, neither as a mark nor by the time
that TICK_TIME reads (R28, R36). -/
def ingressOpen (u : Units) (cohort : Nat) : Bool :=
  running u && decide (u.tick.time < u.tick.edgeAt + markNs u (if cohort = 0 then 1 else 4))
    && (if cohort = 0 then u.tick.lastMark == 6 || u.tick.lastMark == 0 else u.tick.lastMark == 3)
/-- The slot of the stream a handle names, if it is in service (R13). -/
def streamOf (u : Units) (h : Nat) : Option Nat :=
  match tget u.str (h % 4096) with
  | some s => if holds s ∧ handleOf (h % 4096) s = h then some (h % 4096) else none
  | none => none
/-- A record, skip or fragment that comes to nothing under R59. -/
def stale (u : Units) : Units := { u with fab := { u.fab with stale := u.fab.stale + 1 } }

/- Transport records (R92 to R94). -/
/-- Outlier entries of a record: channel and BF16 value. -/
def recOutliers (b : Bytes) : List (Nat × Nat) :=
  let at_ := 64 + 128 * le b 2 2
  (List.range (le b 24 2)).map (fun k => (le b (at_ + 4 * k + 2) 2, le b (at_ + 4 * k) 2))
/-- Whether channels are strictly ascending. DEDUCED, log 138. -/
def ascending : List Nat → Bool
  | a :: b :: r => decide (a < b) && ascending (b :: r)
  | _ => true
/-- Which of the conditions of R94 a record breaks for a stream, in the order of that rule, from 0; 11: its header names
another handle or tick than its fragments (R378). The caps are those of R84 and R119. DEDUCED, log 134. DEDUCED, log 138. -/
def recordFaults (u : Units) (b : Bytes) (handle tick : Nat) (s : Str) : List Nat :=
  let img := slotImg u s.headSlot
  let n := 256 * le b 2 2
  let nout := le b 24 2
  let out := recOutliers b
  let idx := out.map (·.1)
  let used := 64 + n / 2 + 4 * nout
  let m := le b 20 2
  let e := signed 8 (le b 22 1)
  let holds : List Bool :=
    [le b 0 1 == 1 && le b 1 1 == 1 && le b 23 1 / 16 == 0 && allZero (sliceZ b 28 32),
     allZero (b.drop used),
     n == imgHidden img,
     le b 26 2 == 1 + 2 * le b 2 2 + ceilDiv nout 16 && b.length == 64 * le b 26 2,
     decide (nout ≤ n / 50) && decide (nout ≤ imgOutMax img)
       && (List.range (ceilDiv n 16384)).all (fun k => decide ((idx.filter (fun i => i / 16384 == k)).length ≤ 327)),
     idx.all (fun i => decide (i < n)) && ascending idx,
     !out.any (fun o => fnotFin .bf16 o.2),
     scaleLegal m e,
     !(m == 0 && nout != 0),
     crc32c (b.take 60 ++ leBytes 4 0 ++ b.drop 64) == le b 60 4,
     le b 16 4 == s.pos,
     le b 4 4 == handle && le b 8 8 == tick]
  ((List.range 12).zip holds).filterMap (fun p => if p.2 then none else some p.1)
/-- Whether a record is valid for a stream (R94). -/
def recordOk (u : Units) (b : Bytes) (handle tick : Nat) (s : Str) : Bool := (recordFaults u b handle tick s).isEmpty
/-- The row a valid record carries, its outliers converted (R82), and the channels whose conversion saturated. -/
def recordRow (b : Bytes) : Row × List Nat :=
  let n := 256 * le b 2 2
  let m := le b 20 2
  let e := signed 8 (le b 22 1)
  let conv := (recOutliers b).map (fun o => (o.1, outlierU (bfInt o.2) (scaleInt m e)))
  ({ fmt := .uint4, codes := unpackRow .uint4 ((b.drop 64).take (n / 2)) n, z := (le b 23 1 : Nat), sMant := m, sExp := e
     lanes := conv.map (fun c => (c.1, c.2.1)) }, (conv.filter (fun c => c.2.2)).map (·.1))
/-- Size of a head core's record ring, and where it begins (R118). -/
def ringBytes : Nat := 4128768
/-- A record enters the ring of one head core (R118), and its saturated conversions the clipping counters (R95).
DESIGN CHOICE, log 70. DEDUCED, log 137. -/
def ringIn (k handle tick : Nat) (data : Bytes) (sat : List Nat) (s : State) : State :=
  let c := coreAt s.u k
  let p := if ringBytes < c.ringPtr + data.length then 0 else c.ringPtr
  let eng := (List.range 16).foldl (fun t e => tmod t e {} (fun x => { x with
    clip := sat.foldl (fun t ch => clipBump t (ch / 1024) 1) x.clip
    span := sat.foldl (fun t ch => spanBump t (ch / 1024) 0 1) x.span })) c.eng
  let c := { c with
    ring := c.ring ++ [{ handle := handle, tick := tick, addr := 65536 + p, len := data.length }], ringPtr := p + data.length
    eng := if sat.isEmpty then c.eng else eng }
  sramWrite k (65536 + p) data false { s with u := setCore k c s.u }
/-- A record that is whole: validated, judged under R28 and R59, written to every core of the stream's replica.
DEDUCED, log 133. DEDUCED, log 134. DEDUCED, log 137. DEDUCED, log 139. -/
def recordIn (die handle tick : Nat) (b : Bytes) (s : State) : State :=
  let bump (src : Nat) : Units → Units := dieBump (dieKey 2 die) src 1
  let invalid_ (why : Nat) (u : Units) : Units := bump 0x201 { u with fab := { u.fab with
    invalid := u.fab.invalid + 1, invalidBy := tset u.fab.invalidBy why (tgetD u.fab.invalidBy why 0 + 1) } }
  match streamOf s.u handle with
  | none => onUnits stale s
  | some n =>
    let x := tgetD s.u.str n {}
    if tick ≠ cohortTick s.u x.cohort then onUnits stale s
    else if !recordOk s.u b handle tick x then onUnits (invalid_ ((recordFaults s.u b handle tick x).headD 0)) s
    else if !ingressOpen s.u x.cohort then onUnits (fun u => bump 0x202 (stale u)) s
    else
      match x.seat with
      | none => onUnits stale s
      | some r =>
        if x.st ≠ .active ∨ x.recIn ∨ x.skipIn then onUnits stale s
        else
          let row := recordRow b
          let data := rowRecord row.1 handle tick x.pos
          let cores := ((slotAt s.u x.headSlot).bind.filter (fun y => y.rep == r)).map bindKey
          let s := cores.foldl (fun s k => ringIn k handle tick data row.2 s) s
          onUnits (fun u => bump 0x200 (modStr n (fun y => { y with recIn := true }) u)) s

/- Fragments (R377, R378). -/
/-- Reassembly space of an I/O die. DEDUCED, log 135. -/
def reasmBytes : Nat := 6 * 2 ^ 20
/-- Bytes of fragments. -/
def fragBytes (l : List (Nat × Bytes)) : Nat := (l.map (fun f => f.2.length)).sum
/-- Whether a fragment is dropped with FAB_FRAG. -/
def fragBad (u : Units) (die handle tick foff rlen : Nat) (data : Bytes) : Bool :=
  let mine := u.fab.reasm.find? (fun r => r.die == die && r.handle == handle && r.tick == tick)
  let used := ((u.fab.reasm.filter (fun r => r.die == die)).map (fun r => fragBytes r.frags)).sum
  foff % 4096 != 0 || decide (rlen < foff + data.length) || decide (reasmBytes < used + data.length)
    || (match mine with | some r => r.rlen != rlen || r.frags.any (fun f => f.1 == foff) | none => false)
/-- HSTATE (R378). -/
def hstate (rx : Rx) (p : Bytes) (at_ : Nat) (s : State) : State :=
  fabReceiveS 0x10 rx p (fun s =>
    let port := rx.port.val
    let die := port / 2
    let handle := le p 32 4
    let foff := le p 36 4
    let rlen := le p 40 4
    let tick := le p 24 8
    let data := p.drop 64
    let same (r : Reasm) : Bool := r.die == die && r.handle == handle && r.tick == tick
    if s.u.fab.reasm.any (fun r => same r && r.dead) then onUnits stale s
    else if fragBad s.u die handle tick foff rlen data then
      onUnits (fun u => fabError port 0x0D24 [handle, foff] (dieBump (dieKey 2 die) 0x205 1 u)) s
    else
      let r := (s.u.fab.reasm.find? same).getD { handle := handle, tick := tick, die := die, rlen := rlen }
      let r := { r with frags := r.frags ++ [(foff, data)] }
      let rest := s.u.fab.reasm.filter (fun x => !same x)
      let put (l : List Reasm) (u : Units) : Units := { u with fab := { u.fab with reasm := l } }
      if fragBytes r.frags < rlen then onUnits (put (rest ++ [r])) s
      else
        let b := (sortBy (fun (a b : Nat × Bytes) => a.1 < b.1) r.frags).flatMap (·.2)
        recordIn die handle tick b (onUnits (put rest) s)) (onUnits (advTo at_) s)
/-- HSTATE (R378). -/
def execHstate (rx : Rx) (p : Bytes) (at_ : Nat) (s : State) : Res := .next (hstate rx p at_ s)
/-- Cohort of the context a handle names. -/
def handleCohort (u : Units) (h : Nat) : Nat := (tgetD u.ctx (h / 2 ^ 24) {}).cohort
/-- The ingress close of cohort tick t: records not whole are discarded (R59, R378). DEDUCED, log 135. -/
def closeReasm (cohort t : Nat) (u : Units) : Units :=
  let mine (r : Reasm) : Bool := handleCohort u r.handle == cohort && decide (r.tick ≤ t)
  let lost := u.fab.reasm.filter (fun r => mine r && !r.dead)
  let kept := (u.fab.reasm.filter (fun r => !(mine r && r.dead))).map (fun r => if mine r then { r with dead := true, frags := [] } else r)
  forAll lost (fun _ u => stale u) { u with fab := { u.fab with reasm := kept } }

/- Skip markers (R379). -/
/-- One handle of a SKIP packet for a cohort tick. DEDUCED, log 136. -/
def skipOne (die tick h : Nat) (u : Units) : Units :=
  let lose (u : Units) : Units := dieBump (dieKey 2 die) 0x204 1 { u with fab := { u.fab with skipsLost := u.fab.skipsLost + 1 } }
  match streamOf u h with
  | none => lose u
  | some n =>
    let s := tgetD u.str n {}
    let now := cohortTick u s.cohort
    if tick = now ∧ ingressOpen u s.cohort ∧ !s.recIn then
      dieBump (dieKey 2 die) 0x203 1 (modStr n (fun s => { s with skipIn := true }) u)
    else if now < tick ∧ !s.skipAt.contains tick then
      dieBump (dieKey 2 die) 0x203 1 (modStr n (fun s => { s with skipAt := s.skipAt ++ [tick] }) u)
    else lose u
/-- SKIP (R379). DEDUCED, log 136. -/
def skipPacket (rx : Rx) (p : Bytes) (at_ : Nat) (u : Units) : Units :=
  fabReceive 0x11 rx p (fun u =>
    let port := rx.port.val
    let n := le p 32 2
    let b := p.drop 64
    if n = 0 ∨ 1024 < n ∨ b.length ≠ 64 * ceilDiv (4 * n) 64 ∨ !allZero (b.drop (4 * n)) then
      fabError port 0x0D21 [port, 0x11, 1] u
    else forAll (List.range n) (fun k u => skipOne (port / 2) (le p 24 8) (le b (4 * k) 4) u) u) (advTo at_ u)
/-- SKIP (R379). -/
def execSkipPacket (rx : Rx) (p : Bytes) (at_ : Nat) (s : State) : Res := onU (skipPacket rx p at_) s

end Sys2Proof.Machine
end

