-- ==== Sys2Proof/Machine/Marks.lean ====
section
/-! DEFINITION. The phase marks (02, R36, R48 to R64; 05, R116, R151 to R154; 07, R204 to R207; 13, R380, R381) and the edge at
which the tick stops (02, R54; 15, R413). -/
namespace Sys2Proof.Machine

/- Launches (R48, R61, R64, R116, R151 to R154). -/
/-- The entries of the current tables that run at a mark of the present tick. -/
def dueEntries (u : Units) (m : Nat) : List (UnitId × LaunchEntry) :=
  let at_ := u.tick.cur.flatMap (fun t => (t.2.filter (fun e => e.mark.val == m)).map (fun e => (t.1, e)))
  match u.tick.st with
  | .current => at_
  | .coasting => at_.filter (fun e => !e.2.once)
  | _ => []
/-- The parameter block as the present tick loads it: s0 is the tick, s3 moves with it. DESIGN CHOICE, log 76. -/
def launchParams (t : Nat) (p : List W64) : List W64 :=
  let now := BitVec.ofNat 64 t
  (List.range 8).map (fun i => if i = 0 then now else if i = 3 then p.getD 3 0 + (now - p.getD 0 0) else p.getD i 0)
/-- A step program is launched on a core: what still runs there is aborted, and a slot that is not in service, or a replica
that is out of service (R123), launches nothing. s0 to s7 hold the parameters, s8 to s15 are 0 (R129).
DESIGN CHOICE, log 76. -/
def launchOn (k m slot entry : Nat) (params : List W64) (streams : List Nat) (u : Units) : Units :=
  let u := if (coreAt u k).launch.isSome then dieBump (dieKey 0 (k / 16)) (0x20 + k % 16) 1 (abortLaunch k u) else u
  let x := slotAt u slot
  let c := coreAt u k
  if !slotServing u slot ∨ c.slot ≠ some slot ∨ c.retired ∨ (!c.loading && x.out.any (fun o => o.1 == c.rep)) then u
  else match imgEntry x.img x.imgLen c.lidx entry with
    | none => u
    | some (start, _, _) =>
      let s := (List.range 8).map (fun i => (i, (launchParams u.tick.number params).getD i 0))
      setCore k { c with
        launch := some { slot := slot, entry := entry, mark := m, streams := streams }, pc := start, loops := [], stalled := none
        flags := [], s := s, spois := [] } u
/-- The contexts that the ingress or the egress passes started at a mark list (R48). -/
def passCtxs (ingress : Bool) (m : Nat) (u : Units) : List Nat :=
  (dueEntries u m).flatMap (fun e => match e.1, e.2.act with
    | .ingress _, .ioPass l => if ingress then l else []
    | .egress _, .ioPass l => if ingress then [] else l
    | _, _ => [])
/-- The sampling passes and profile sweeps that a mark starts on the gate dies (R48): a stream slot that its gate die's pass
lists may be sampled, and a profile swept. -/
def gatePasses (l : List (UnitId × LaunchEntry)) (u : Units) : Units :=
  forAll l (fun e u => match e.1, e.2.act with
    | .sampling g, .samplePass slots => forAll (slots.filter (fun n => slotDie n == g.val)) (fun n u => modStr n (fun s => { s with listed := true }) u) u
    | .matchSeq _, .sweep p => { u with tick := { u.tick with sweeps := u.tick.sweeps ++ [p.val] } }
    | _, _ => u) u
/-- The descriptor lists that a mark starts on the cores' DMA (R48, R143). -/
def launchDma (m : Nat) (s : State) : State :=
  (dueEntries s.u m).foldl (fun s e => match e.1, e.2.act with
    | .core c, .dma list count =>
      let k := coreKey c
      startD k (onUnits (modCore k (fun c => { c with qd := c.qd ++ [.dm list count none] })) s)
    | _, _ => s) s
/-- The step programs and gate-die passes of a mark: one program on each core. DESIGN CHOICE, log 76. DEDUCED, log 77. -/
def launchMark (m : Nat) (u : Units) : Units :=
  let l := dueEntries u m
  let u := gatePasses l u
  let progs := l.filterMap (fun e => match e.1, e.2.act with
    | .core c, .program slot entry params streams => some (coreKey c, slot.val, entry, params, streams)
    | _, _ => none)
  ((progs.map (·.1)).eraseDups).foldl (fun u k =>
    match progs.find? (fun p => p.1 == k) with
    | some (_, slot, entry, params, streams) => launchOn k m slot entry params streams u
    | none => u) u
/-- Step programs that wait for a mark go on. -/
def retryAll (s : State) : State := (tkeys s.u.core).foldl (fun s k => retry k s) s

/- Firmware at the mark M5 (R297, R312, R315). -/
/-- A role's changes of the tick in the half that its commit word does not name, with the CRC computed as it is written, and
the commit by one write of that word; with a CRC that fails when read back there is no commit (R312). -/
def roleCommit (bad : Bool) (tick n : Nat) (x : Bytes) (r : Role) : Role :=
  let h : Half := { tick := tick, bytes := x, crc := crc32c x }
  let r := if r.word = 0 then { r with half1 := h } else { r with half0 := h }
  if bad then r else { r with word := 1 - r.word, commitAt := n }
/-- A role commits its checkpoint and kicks its watchdog, which takes up a new period (R312, R315). What a role keeps in its
area is a free value. DESIGN CHOICE, log 180. -/
def checkpoint (bad : Bool) (k : Nat) (u : Units) : Units :=
  let r := tgetD u.fw.roles k {}
  if r.state ≠ 0 then u
  else
    let u := if bad then dieBump (dieKey 3 (r.core / 6)) 0x305 1 u else u
    let r := roleCommit bad u.tick.number u.fw.commits (Config.roleState k u.freeIx) r
    { u with
      freeIx := u.freeIx + 1
      fw := { u.fw with roles := tset u.fw.roles k { r with
        kickAt := u.tick.time, period := r.periodNext.getD r.period, periodNext := none } } }
/- The hand-off record (R331, R333). -/
/-- The sections: type, the role that writes it, REQUIRED (R333). -/
def sectionTypes : List (Nat × Nat × Nat) :=
  [(0x1, 9, 1), (0x2, 9, 1), (0x3, 1, 1), (0x4, 5, 1), (0x5, 6, 1), (0x6, 7, 1), (0x7, 7, 1), (0x8, 2, 1), (0x9, 9, 1),
   (0xA, 8, 1), (0xB, 3, 0), (0xC, 0, 0), (0xD, 0, 1)]
/-- The committed half of a role. -/
def committed (r : Role) : Half := if r.word = 0 then r.half0 else r.half1
/-- A section: its place in its writer's committed half, whose layout the manual does not give. DESIGN CHOICE, log 62. -/
def handSection (f : Fw) (type role : Nat) : Bytes := Config.sectionOf type (committed (tgetD f.roles role {})).bytes
/-- Its entry of the section table. DESIGN CHOICE, log 62. -/
def handEntry (f : Fw) (e : Nat × Nat × Nat) : Bytes :=
  let r := tgetD f.roles e.2.1 {}
  let x := handSection f e.1 e.2.1
  let half := if r.core / 6 = 0 then 0 else 0x800000
  leBytes 2 e.1 ++ leBytes 2 (Config.sectionVer f.run.ver e.1) ++ leBytes 4 e.2.2
    ++ leBytes 8 (half + Config.sectionAt e.1 r.word % 131072 * 64) ++ leBytes 8 x.length ++ leBytes 4 (crc32c x) ++ leBytes 4 0
/-- The record that BOOT writes over the committed halves. -/
def handRecord (f : Fw) (q : Nat) : Hand :=
  let head := leBytes 4 0x4F464448 ++ leBytes 2 f.run.hoOut ++ leBytes 2 13 ++ leBytes 4 f.run.ver ++ leBytes 4 0 ++ leBytes 8 q
    ++ leBytes 104 0 ++ sectionTypes.flatMap (handEntry f)
  { head := patch head 24 (leBytes 4 (crc32c head)), secs := sectionTypes.map (fun e => (e.1, handSection f e.1 e.2.1)) }
/-- The record is written after the final checkpoints of tick Q (R331 step 4). -/
def handOff (u : Units) : Units :=
  match u.fw.upd with
  | none => u
  | some w =>
    if w.stage = 1 ∧ u.tick.number = w.q then { u with fw := { u.fw with hand := some (handRecord u.fw w.q) } } else u
/-- Spill words of an instance scrubbed. DESIGN CHOICE, log 180. -/
def spillScrub (x : Fin 3 × Fin 5 × Fin 5) (s : State) : State :=
  let s := { s with q := qPut s.q x.1 (qEcc (qGet s.q x.1) x.2.1.val x.2.2.val) }
  if x.2.1.val = 0 then s else { s with u := setCorr s.u }
/-- The checkpoints of a guard phase: every role that does not hang commits (R312, R315). -/
def checkpoints (io : MarkIo) (u : Units) : Units :=
  let live := (tkeys u.fw.roles).filter (fun k => !io.hung.any (fun r => r.val == k))
  forAll live (fun k u => checkpoint (io.ckptBad.any (fun r => r.val == k)) k u)
    { u with fw := { u.fw with commits := u.fw.commits + 1 } }
/-- What the guard phase of the block tick does. DESIGN CHOICE, log 180. -/
def guardMark (io : MarkIo) (s : State) : State :=
  let s := io.spill.foldl (fun s x => spillScrub x s) s
  { s with u := handOff (checkpoints io s.u) }

/- Ingress opens (R28, R118, R188, R269, R259, R291). -/
/-- Records of earlier cohort ticks that no pass consumed leave the rings of a cohort. DEDUCED, log 77. -/
def dropStale (cohort : Nat) (u : Units) : Units :=
  let t := cohortTick u cohort
  { u with core := tmap u.core (fun _ c =>
      if c.ring.isEmpty then c
      else { c with ring := c.ring.filter (fun r => handleCohort u r.handle != cohort || decide (t ≤ r.tick)) }) }
/-- Whether nothing of a context is left in service. -/
def ctxEmpty (u : Units) (k : Nat) : Bool :=
  let c := tgetD u.ctx k {}
  ctxStreams u k == 0 && ctxJobs u k == 0 && c.waiting.isEmpty && c.recs.isEmpty && c.evts.isEmpty && c.gone.isEmpty
    && !fetchOwed c && c.fetchLeft == 0 && c.ringWait.isEmpty
/-- A disabled context leaves service at the edge after its last delivery (R259, R291). -/
def ctxLeave (k : Nat) (u : Units) : Units :=
  let c := tgetD u.ctx k {}
  if c.state = 3 ∧ c.holdFrom.all (fun t => decide (t ≤ u.tick.number)) ∧ ctxEmpty u k then
    fwNotice 1 0x0C01 k [u.tick.number] { u with ctx := tset u.ctx k { c with state := 1, holdFrom := none } }
  else u
/-- Slots of the streams of a cohort that hold them. -/
def cohortStrs (u : Units) (cohort : Nat) : List Nat := (u.str.filter (fun e => holds e.2 && e.2.cohort == cohort)).map (·.1)
/-- The mark at which a cohort's ingress opens, and that at which its egress opens (R36). -/
def ingressMark (cohort : Nat) : Nat := 3 * cohort
/-- The streams of a cohort that its ingress takes in: in a tick that launches, those of the contexts an ingress pass lists. -/
def ingressStrs (u : Units) (cohort : Nat) : List Nat :=
  let l := passCtxs true (ingressMark cohort) u
  if u.tick.st = .current ∨ u.tick.st = .coasting then (cohortStrs u cohort).filter (fun n => l.contains (tgetD u.str n {}).ctx)
  else cohortStrs u cohort
/-- A cohort's ingress opens; that of cohort 0 does at the tick edge, at which disabled contexts leave. -/
def ingressOpens (cohort : Nat) (s : State) : State :=
  let s := { s with u := dropStale cohort (if cohort = 0 then forAll (tkeys s.u.ctx) ctxLeave s.u else s.u) }
  (ingressStrs s.u cohort).foldl (fun s n => onUnits (openStep n) (arrivePages n s)) s

/- Lists (R204 to R207). -/
/-- A finite value in units of 2^-149. -/
def units149 (f : FF) (w : Nat) : Int :=
  match fdec f w with
  | .fin neg m e =>
    let v : Int := m * 2 ^ (e + 149).toNat
    if neg then -v else v
  | _ => 0
/-- The adjustment of a token (R207): bias less penalties, rounded once to BF16, no larger than its largest finite value.
DEDUCED, log 177. -/
def adjustment (samp : Bytes) (bias : Option Nat) (cnt : Nat) : Nat :=
  let b := match bias with | some w => units149 .bf16 w | none => 0
  let pres := if cnt = 0 then 0 else units149 .fp32 (le samp 20 4)
  let d := b - pres - units149 .fp32 (le samp 24 4) * cnt
  let r := fround .bf16 (decide (d < 0)) d.natAbs 1 (-149)
  if fnotFin .bf16 r then fmaxFin .bf16 (bitAt r 15) else r
/-- The list of a stream for its next step: token, and its adjustment unless it is banned. -/
def strList (s : Str) : List (Nat × Option Nat) :=
  let bans := (s.cont.getD [] ++ tgetD s.bans s.pos []).eraseDups
  let win := s.pen.take (le s.samp 30 2)
  let toks := (s.bias.map (·.1) ++ win).eraseDups.filter (fun t => !bans.contains t)
  let adj := toks.map (fun t => (t, some (adjustment s.samp ((s.bias.find? (fun b => b.1 == t)).map (·.2)) (win.filter (· == t)).length)))
  sortBy (fun (a b : Nat × Option Nat) => a.1 < b.1) (bans.map (fun t => (t, none)) ++ adj)
/-- A list entry of 4 bytes. -/
def listEntry (e : Nat × Option Nat) : Bytes :=
  leBytes 4 ((match e.2 with | none => 0 | some d => 2 ^ 30 + d) + e.1 % 4096 * 2 ^ 16)
/-- The entries of a list that fall in a head core's slice. -/
def sliceList (core : Nat) (l : List (Nat × Option Nat)) : List (Nat × Option Nat) := l.filter (fun e => e.1 / 4096 == core)
/-- Stream entries of a cohort area. -/
def areaRoom : Nat := 400
/-- What a work list has placed: entries used on each logical core, and the streams placed, in order, with the offset of
each one's list on each core. -/
structure Placed where
  used : List Nat
  strs : List (Nat × List (Nat × Option Nat) × List Nat) := []
  left : List Nat := []
/-- One stream placed if its entries fit on every core (R206). -/
def placeStr (u : Units) (p : Placed) (n : Nat) : Placed :=
  let l := strList (tgetD u.str n {})
  let need := (List.range p.used.length).map (fun c => (sliceList c l).length)
  let sum := (p.used.zip need).map (fun x => x.1 + x.2)
  if p.strs.length < areaRoom ∧ sum.all (fun x => decide (x ≤ listRoom)) then
    { p with used := sum, strs := p.strs ++ [(n, l, p.used)] }
  else { p with left := p.left ++ [n] }
/-- The cohort area of one core of a replica written. DEDUCED, log 176. -/
def writeArea (u : Units) (cohort k core : Nat) (p : Placed) (s : State) : State :=
  let ents := p.strs.flatMap (fun x =>
    let y := tgetD u.str x.1 {}
    let rt := if le y.samp 8 4 = 0 then 0 else frecip .fp32 (le y.samp 8 4)
    leBytes 8 (stepKey (le y.samp 0 8) y.pos y.rew) ++ leBytes 4 rt
      ++ leBytes 4 (x.2.2.getD core 0 * 2 ^ 20 + (sliceList core x.2.1).length * 2 ^ 8))
  let lists := p.strs.flatMap (fun x => (sliceList core x.2.1).flatMap listEntry)
  let s := if ents.isEmpty then s else sramWrite k (cohortArea cohort) ents false s
  if lists.isEmpty then s else sramWrite k (listRegion cohort) lists false s
/-- A stream deferred for list room: a breach of rank 3, counted and reported (R206). DEDUCED, log 176. -/
def deferStr (n : Nat) (u : Units) : Units :=
  let x := (tgetD u.str n {}).ctx
  let g := dieKey 1 (slotDie n)
  let u := modStr n (fun s => { s with deferred := true }) (modCtx x (fun c => { c with deferrals := c.deferrals + 1 }) u)
  let u := dieBump g 0x132 1 (breach 3 x u)
  let c := tgetD u.ctx x {}
  let shut := limitShut 0x0501 x u
  let u := noticeLimited g 0x0501 x x [c.deferrals - c.defNoted] u
  if shut then u else modCtx x (fun c => { c with defNoted := c.deferrals }) u
/-- One replica of a head slot: its work list of a cohort tick, those deferred before first, built and written to its
cores. -/
def buildReplica (cohort slot rep : Nat) (s : State) : State :=
  let u := s.u
  let mine (n : Nat) : Bool :=
    let x := tgetD u.str n {}
    x.st == .active && x.opened && x.cohort == cohort && x.headSlot == slot && x.seat == some rep && !x.holdFull && !x.pageWait
  let first := u.tick.deferred.filter mine
  let work := first ++ (tkeys u.str).filter (fun n => mine n && !first.contains n)
  if work.isEmpty then s
  else
    let p := work.foldl (placeStr u) { used := List.replicate (imgNcore (slotImg u slot)) 0 }
    let cores := (slotAt u slot).bind.filter (fun b => b.rep == rep)
    let s := cores.foldl (fun s b => writeArea u cohort (bindKey b) b.lidx p s) s
    let u := forAll (p.strs.zip (List.range p.strs.length)) (fun (x : (Nat × List (Nat × Option Nat) × List Nat) × Nat) u =>
      let n := x.1.1
      dieBump (dieKey 1 (slotDie n)) 0x13A x.1.2.1.length (modStr n (fun y =>
        if y.recIn && !y.skipIn then
          { y with entry := some x.2, stepped := (y.stepped ++ [y.headSlot] ++ (if y.ansSlot = 255 then [] else [y.ansSlot])).eraseDups }
        else y) u)) s.u
    let u := { u with tick := { u.tick with deferred := u.tick.deferred ++ p.left.filter (fun n => !u.tick.deferred.contains n) } }
    { s with u := forAll p.left deferStr u }
/-- The lists of a cohort's streams (R204 to R206). A halted tick builds none. DEDUCED, log 176. -/
def buildLists (cohort : Nat) (s : State) : State :=
  if s.u.tick.st ≠ .current ∧ s.u.tick.st ≠ .coasting then s
  else
    let s := (tkeys s.u.slot).foldl (fun s k =>
      (List.range (slotAt s.u k).nrep).foldl (fun s r => buildReplica cohort k r s) s) s
    { s with u := { s.u with tick := { s.u.tick with deferred := s.u.tick.deferred.filter (fun n =>
        (tgetD s.u.str n {}).cohort != cohort || (tgetD s.u.str n {}).deferred) } } }
/-- A cohort's ingress closes (R28, R59, R371, R378). -/
def ingressCloses (io : MarkIo) (cohort : Nat) (s : State) : State :=
  let s := (ingressStrs s.u cohort).foldl (fun s n =>
    if (tgetD s.u.str n {}).opened then s else onUnits (openStep n) (arrivePages n s)) s
  let u := forAll (cohortCtxs s.u cohort) (readBatchCons io) s.u
  buildLists cohort { s with u := closeReasm cohort (cohortTick u cohort) u }

/- Egress (R56, R63, R64, R224, R371, R380, R381, R425, R451). -/
/-- A token packet entry (R380). -/
def packetEntry (handle kind tok pos rew : Nat) : Bytes :=
  leBytes 4 handle ++ leBytes 4 pos ++ leBytes 4 (kind * 2 ^ 20 + tok % 2 ^ 20) ++ leBytes 1 rew ++ leBytes 3 0
/-- The token packets of a gate die. -/
def tokenPackets (cohort die t : Nat) (l : List Bytes) (u : Units) : Units :=
  let parts := max 1 (ceilDiv l.length 256)
  forAll (List.range parts) (fun k u =>
    let e := (l.drop (256 * k)).take 256
    let b := e.flatten
    sendAll (fun n => n.kind == 0) 0x12 1 t (leBytes 1 cohort ++ leBytes 1 die ++ leBytes 1 k ++ leBytes 1 (b2n (k + 1 == parts))
      ++ leBytes 2 e.length) (padTo 64 b) u) u
/-- What a stream's egress sends. -/
structure Sent where
  slot : Nat
  entry : Option Bytes
  rewind : Option (Nat × Bytes)
/-- One stream's egress, its packet entry and rewind command formed. -/
def egressOne (n : Nat) (u : Units) : Sent × Units :=
  let h := handleOf n (tgetD u.str n {})
  let rew := (tgetD u.str n {}).rew
  let r := egressStream n u
  ({ slot := n, entry := r.1.entry.map (fun e => packetEntry h e.1 e.2.1 e.2.2 rew), rewind := r.1.rewind.map (fun b => (h, b)) }, r.2)
/-- The end indications that streams which have left their slots still owe (R277). -/
def owedEnds (u : Units) (cohort : Nat) : List Sent :=
  (u.ctx.filter (fun c => c.2.cohort == cohort)).flatMap (fun c => c.2.gone.filterMap (fun g => g.endInd.map (fun e =>
    { slot := g.slot, entry := some (packetEntry g.handle 6 0 e.1 e.2), rewind := none })))
/-- The end indications sent are owed no longer. -/
def clearEnds (cohort : Nat) (u : Units) : Units :=
  { u with ctx := tmap u.ctx (fun _ c => if c.cohort ≠ cohort then c else { c with
      gone := (c.gone.map (fun g => { g with endInd := none })).filter (fun g => !g.toks.isEmpty || !g.evts.isEmpty) }) }
/-- A token chosen in a tick whose egress does not come is undone (R58): the stream stands as it stood before its sampling.
DEDUCED, log 161. -/
def unsample (n : Nat) (u : Units) : Units :=
  let s := tgetD u.str n {}
  match s.chosen with
  | none => u
  | some (p, _) =>
    let h := s.hold.filter (fun x => x.pos == p)
    let swept := h.any (·.swept)
    let trunc := b2n (h.any (·.trunc))
    let m := if p = 0 then s.ms0 else ((tget s.snaps ((p - 1) % 128)).map msOf).getD s.ms0
    let x := if swept then replayTo (slotDie n) (ansTrans u s) m u else (s.ms, u)
    modCtx s.ctx (fun c => { c with truncs := c.truncs - trunc }) (modStr n (fun s => { s with
      pos := p, hold := s.hold.filter (fun x => x.pos != p), pen := s.pen.drop 1, ms := x.1, ended := false, chosen := none
      misses := s.priorMisses.1, missNoted := s.priorMisses.2, truncs := s.truncs - trunc
      checks := s.checks.filter (fun c => c.hi != p), score := s.score.filter (fun e => e.1 != p)
      fails := s.fails.filter (fun f => f.found != some p) }) x.2)
/-- A stream that a tick launches no egress for: it skips, and a token chosen for it before the halt stands no longer (R58,
R64). DEDUCED, log 160. DEDUCED, log 161. DEDUCED, log 181. -/
def haltedSkip (n : Nat) (u : Units) : Units :=
  let u := unsample n u
  let s := tgetD u.str n {}
  let u := if s.st = .active then breach 2 s.ctx (skipCount n true u) else if s.st = .waiting then skipCount n false u else u
  modStr n endTick u
/-- The streams of a cohort in the egress of a tick that steps (R380, R381): those of the contexts its egress passes list
(R48). DEDUCED, log 179. -/
def egressSteps (cohort t : Nat) (ctxs : List Nat) (u : Units) : Units :=
  let strs := cohortStrs u cohort
  let mine (n : Nat) : Bool := ctxs.contains (tgetD u.str n {}).ctx
  let u := forAll (strs.filter (fun n => !mine n)) haltedSkip u
  let r := (strs.filter mine).foldl (fun (acc : List Sent × Units) n =>
    let x := egressOne n acc.2
    (acc.1 ++ [x.1], x.2)) (([] : List Sent), u)
  let all := sortBy (fun (a b : Sent) => a.slot < b.slot) (owedEnds u cohort ++ r.1)
  let u := forAll [0, 1] (fun d u => tokenPackets cohort d t ((all.filter (fun x => slotDie x.slot == d)).filterMap (·.entry)) u) r.2
  let u := forAll (all.filterMap (·.rewind)) (fun (x : Nat × Bytes) u =>
    sendAll (fun n => n.kind == 0) 0x13 1 t (leBytes 4 x.1) (padTo 64 x.2) u) u
  clearEnds cohort u
/-- The jobs of a cohort's contexts that are due: those with no record are LATE (R63), each one's record joins its batch. -/
def jobsDue (io : MarkIo) (cohort t : Nat) (s : State) : State :=
  let due := s.u.job.filter (fun j => (tgetD s.u.ctx j.ctx {}).cohort == cohort && !j.emitted && decide (j.admitAt + j.delay ≤ t))
  (due.map (fun j => (j.ctx, j.tag))).foldl (fun s k =>
    let stopped (j : Job) (s : State) : State :=
      if jobLive j ∧ j.cancelAt.any (fun x => decide (x ≤ s.u.tick.number)) then { s with u := stopJob j s.u } else s
    let s := match jobAt s.u k.1 k.2 with | some j => stopped j s | none => s
    let s := match jobAt s.u k.1 k.2 with | some j => if j.done.isNone then jobLate j (io.badDetails.any (fun x => x.1.val == k.1 && x.2.toNat == k.2)) s else s | none => s
    match jobAt s.u k.1 k.2 with | some j => { s with u := jobEmit t j s.u } | none => s) s
/-- A cohort's egress opens. DEDUCED, log 161. DEDUCED, log 182. -/
def egressOpens (io : MarkIo) (cohort m : Nat) (s : State) : State :=
  let t := cohortTick s.u cohort
  let s := match io.relFault with | some g => { s with u := enterFatal g.val s.u } | none => s
  let strs := cohortStrs s.u cohort
  let quiet := s.u.blk.fatal || s.u.blk.tripped
  let s :=
    if quiet then { s with u := forAll strs (fun n u => modStr n endTick u) s.u }
    else
      let s := match s.u.tick.st with
        | .halted => { s with u := forAll strs haltedSkip s.u }
        | .starting => s
        | _ => { s with u := egressSteps cohort t (passCtxs false m s.u) s.u }
      jobsDue io cohort t s
  (cohortCtxs s.u cohort).foldl (fun s c => stepBatch c t (io.badWrites.any (fun x => x.1.val == c && x.2.val == 2)) false s) s

/-- Whether a mark can be next. -/
def markNext (u : Units) (m : Nat) : Bool :=
  running u && u.tick.anchor.isSome && (if m = 0 then u.tick.lastMark == 6 else u.tick.lastMark == 6 || decide (u.tick.lastMark < m))
/-- PHASE_MARK (R36). -/
def phaseMark (m : Nat) (io : MarkIo) (s : State) : State :=
  if !markNext s.u m then s
  else
    let u := advTo (s.u.tick.edgeAt + markNs s.u m) s.u
    let u := forAll io.credits (fun x u => creditsBack x.1 [x.2] u) u
    let u := launchMark m { u with tick := { u.tick with lastMark := m } }
    let s := launchDma m { s with u := u }
    let u := s.u
    let s := match m with
      | 0 =>
        let u := { u with tick := { u.tick with fetched := 0 } }
        let u := if u.tick.st = .coasting ∨ u.tick.st = .halted then loseTick u else u
        ingressOpens 0 (submissionReads io { s with u := u })
      | 1 => ingressCloses io 0 (egressOpens io 1 1 s)
      | 3 => ingressOpens 1 (submissionReads io s)
      | 4 => ingressCloses io 1 (egressOpens io 0 4 s)
      | 5 => guardMark io s
      | _ => s
    retryAll s
/-- PHASE_MARK (R36). -/
def execPhaseMark (m : Fin 6) (io : MarkIo) (s : State) : Res := .next (phaseMark m io s)

/- The stopping edge (R54, R413). -/
/-- A descriptor or message still undecided is refused: admission is held. DEDUCED, log 183. -/
def refuseWaiting (ctx : Nat) (w : Waiting) (s : State) : State :=
  let w' := { w with held := true }
  let s := { s with u := modCtx ctx (fun c => { c with waiting := c.waiting.map (fun x => if x == w then w' else x) }) s.u }
  match le w.desc 0 1 with
  | 1 => jobDecide ctx w' .fault s
  | 2 => openDecide ctx w' s
  | 3 => { s with u := pauseDecide ctx w' s.u }
  | _ => resumeDecide ctx w' s
/-- A job not delivered completes with ERROR. -/
def stopOneJob (t : Nat) (j : Job) (u : Units) : Units :=
  let body := jobRecord (baseRecord u j 4 0x17)
  let j := { j with done := some body, stopped := true }
  jobEmit t j (modJob j.ctx j.tag (fun _ => j) u)
/-- A stream that holds its slot ends with ERROR; one that is CLOSING has its marker. DEDUCED, log 183. -/
def stopOneStr (t n : Nat) (u : Units) : Units :=
  let s := tgetD u.str n {}
  let u := if s.st = .resuming then
      (match u.tier.saved.find? (fun e => e.2.id == s.restoring) with
        | some e => dropSaved e.1 none u
        | none => u)
    else u
  let u := pauseGiveUp s u
  leaveSlot n (if s.st = .closing then [] else [(t, endEntry n s 4 0x17 t)]) false u
/-- A context's work at the stopping edge: what was taken from its rings is answered, jobs and streams end, the final step
batch is written. -/
def stopCtx (ctx : Nat) (s : State) : State :=
  let t := cohortTick s.u (tgetD s.u.ctx ctx {}).cohort
  let s := if fetchOwed (tgetD s.u.ctx ctx {}) then fetchEnd ctx s else s
  let u := forAll (s.u.job.filter (fun j => j.ctx == ctx && !j.emitted)) (stopOneJob t) s.u
  let u := forAll ((u.str.filter (fun e => holds e.2 && e.2.ctx == ctx)).map (·.1)) (stopOneStr t) u
  stepBatch ctx t false true { s with u := u }
/-- The tick stopped: nothing is armed, no edge is fixed. DEDUCED, log 183. -/
def tickStopped (t : Tick) : Tick :=
  { t with
    st := .stopped, stopReq := false, forced := false, anchor := none, groupEdge := none, groupNum := none, armed := [], next := []
    cur := [], armSample := none, haltNext := false, coastRun := 0, lastMark := 5, deferred := [] }
/-- TICK_STOP_EDGE (R54, R413): the edge due, which under sources 1 and 2 the block makes itself where no group edge comes
(R44). DEDUCED, log 184. -/
def tickStopEdge (s : State) : State :=
  match edgeDue s.u <|> holdoverDue s.u with
  | none => s
  | some (t, k) =>
    if !s.u.tick.stopReq ∧ !s.u.tick.forced then s
    else
      let forced := s.u.tick.forced
      let ctxs := inService s.u
      let s := { s with u := { s.u with tick := { s.u.tick with st := .starting, armSample := none } } }
      let s := ctxs.foldl (fun s c => (tgetD s.u.ctx c {}).waiting.foldl (fun s w => refuseWaiting c w s) s) s
      let s := edge t k s
      let s := ctxs.foldl (fun s c => stopCtx c s) s
      let u := { s.u with tick := tickStopped s.u.tick }
      { s with u := if forced then forcedOut { u with tick := { u.tick with en := false } } else u }
/-- TICK_STOP_EDGE (R54). -/
def execTickStopEdge (s : State) : Res := .next (tickStopEdge s)

end Sys2Proof.Machine
end

