-- ==== Sys2Proof/Machine/Retire.lean ====
section
/-! DEFINITION. Retirement of arrays and cores, spares that take over, re-placement (04, R123; 16, R433 to R435), and of
match banks (06, R201). -/
namespace Sys2Proof.Machine

/- Shadow copies (R120, R423). -/
/-- The first poisoned 64-byte unit of tier 1 in a range. -/
def poisonedUnit (a : Asm) (t : Tiers) (addr len : Nat) : Option Nat :=
  let inside (k : Nat) : Bool := decide (addr / 64 ≤ k) && decide (64 * k < addr + len)
  match t.pois1.find? inside with
  | some k => some k
  | none => if t.lostChan.isEmpty then none else (fromN (addr / 64) (ceilDiv len 64)).find? (t1Pois a t)
/-- The ranges of tier 1 that a load of a core, or of one array of it, reads. DEDUCED, log 91. -/
def loadRanges (u : Units) (k : Nat) (arr : Option (Nat × Nat)) : List (Nat × Nat) :=
  let c := coreAt u k
  match c.slot with
  | none => []
  | some n =>
    let x := slotAt u n
    let secs := (imgSecs x.img x.imgLen).filter (fun y => y.core == c.lidx)
    match arr with
    | none => secs.map (fun y => (x.base + y.off, y.len))
    | some (e, r) =>
      (secs.filter (fun y => y.type == 2 && y.engine == e)).map (fun y => (x.base + y.off + 64 + r * 131072, 131072))
/-- The address of a poisoned unit that a load needs. DEDUCED, log 91. -/
def loadPoisoned (a : Asm) (u : Units) (k : Nat) (arr : Option (Nat × Nat)) : Option Nat :=
  (loadRanges u k arr).findSome? (fun r => (poisonedUnit a u.tier r.1 r.2).map (64 * ·))

/- Replicas (R123, R434). -/
/-- A core of a replica leaves service, and the replica with it, until the core is loaded again. -/
def replicaOut (k : Nat) (u : Units) : Units :=
  let c := coreAt u k
  match c.slot with
  | none => modCore k (fun c => { c with loading := true }) u
  | some n =>
    let x := slotAt u n
    let out := match x.out.find? (fun o => o.1 == c.rep) with
      | some _ => x.out.map (fun o => if o.1 = c.rep ∧ !o.2.contains k then (o.1, o.2 ++ [k]) else o)
      | none => x.out ++ [(c.rep, [k])]
    recheckSoon (modSlot n (fun x => { x with out := out }) (modCore k (fun c => { c with loading := true }) u))
/-- A core of a replica serves again; the replica returns when none of its cores is waited for (R434). -/
def replicaBack (n k : Nat) (u : Units) : Units :=
  let x := slotAt u n
  let out := x.out.map (fun o => (o.1, o.2.filter (· != k)))
  let left := out.filter (fun o => !o.2.isEmpty || x.wanting.any (fun w => w.1 == o.1))
  let u := modSlot n (fun x => { x with out := left }) u
  if left.length < x.out.length then recheckSoon u else u

/-- What the loss of a core does to the tempering runs (R494, R497): a work core, or a head core that leaves its place. -/
def temperCoreGone (k : Nat) (slot : Option Nat) (lidx : Nat) (u : Units) : Units :=
  forAll (tkeys u.temper) (fun n u =>
    let r := tgetD u.temper n {}
    let work := r.cores.any (fun c => c.1 * 16 + c.2 == k) || r.loads.any (fun l => l.2.2.1 * 16 + l.2.2.2 == k)
    let head := slot == some r.slot && decide (le r.decl 12 2 ≤ lidx) && decide (lidx < le r.decl 12 2 + le r.decl 14 2)
    if r.state = 0 then u
    else if work || head then
      if r.state = 3 then commitFailed n u else temperAborted n (if head then 3 else 4) u
    else u) u

/-- A replica's logical core is bound to a free core, or waits for one (R433, R434). old: the core it leaves. -/
def replaceCore (a : Asm) (slot rep lidx old reason : Nat) (u : Units) : Units :=
  let x := slotAt u slot
  let old' : RUnit := .core ⟨Fin.ofNat 26 (old / 16), Fin.ofNat 16 old⟩
  match (freeOrder a u x.dieMask).head? with
  | none =>
    let u := modSlot slot (fun x => { x with
      wanting := if x.wanting.contains (rep, lidx) then x.wanting else x.wanting ++ [(rep, lidx)] }) u
    trayService 5 (fwNotice 8 0x0A04 0 [slot, rep] u)
  | some k =>
    let ent := repairEnt a u old' 1 reason (k / 16 * 256 + (coreAt u k).phys.getD (k % 16))
    let u := bindCore slot rep lidx k u
    let u := modSlot slot (fun x => { x with
      bind := x.bind.map (fun b => if b.rep = rep ∧ b.lidx = lidx then { b with die := k / 16, core := k % 16 } else b)
      out := x.out.map (fun o => if o.1 = rep then (o.1, o.2.filter (· != old) ++ [k]) else o)
      wanting := x.wanting.filter (· != (rep, lidx)) }) u
    fwNotice 8 0x0A03 0 ([slot, rep] ++ repairArgs ent) (repairAdd ent u)
/-- A core leaves service for want of a spare (R433). -/
def coreGone (a : Asm) (id : CoreId) (reason : Nat) (u : Units) : Units :=
  let k := coreKey id
  let c := coreAt u k
  let u := noSpare a (.core id) reason true (replicaOut k u)
  let u := temperCoreGone k c.slot c.lidx u
  let u := modCore k (fun c => { c with retired := true }) (unbindCore k u)
  match c.slot with
  | none => u
  | some n => replaceCore a n c.rep c.lidx k reason u

/-- A unit whose spare loads: reason 1 is a planned retirement. -/
def planUnit (x : RUnit) (reason : Nat) (u : Units) : Units :=
  { u with svc := { u.svc with planned := u.svc.planned.filter (fun p => p.1 != x) ++ [(x, reason)] } }
/-- A fault retirement of a core (R123, R433, R435). -/
def coreFault (a : Asm) (id : CoreId) (reason : Nat) (u : Units) : Units :=
  let x : RUnit := .core id
  if u.svc.planned.any (fun p => p.1 == x) ∨ 0 < spareFree u.svc x then replicaOut (coreKey id) (planUnit x reason u)
  else coreGone a id reason u
/-- A fault retirement of an array (R123, R433, R435). -/
def arrayFault (a : Asm) (id : CoreId) (e r : Fin 16) (reason : Nat) (u : Units) : Units :=
  let x : RUnit := .array id e r
  if u.svc.planned.any (fun p => p.1 == x) ∨ 0 < spareFree u.svc x then replicaOut (coreKey id) (planUnit x reason u)
  else coreFault a id reason (noSpare a x 0x0B true u)
/-- UNIT_RETIRE (R123, R433): an array or a core, by plan at once, by fault at a tick edge; between edges the fault
retirement is only decided. -/
def unitRetire (a : Asm) (x : RUnit) (flt : Bool) (reason : Nat) (u : Units) : Units :=
  let go (id : CoreId) (f : Units → Units) : Units :=
    if engineDies a ≤ id.die ∨ (coreAt u (coreKey id)).retired then u
    else if !flt then
      if u.svc.planned.any (fun p => p.1 == x) ∨ spareFree u.svc x = 0 then u else planUnit x 1 u
    else if !atEdge u then decideFault x u
    else f (setUnit { u with svc := { u.svc with decided := u.svc.decided.filter (· != x) } })
  match x with
  | .array id e r => go id (arrayFault a id e r reason)
  | .core id => go id (coreFault a id reason)
  | _ => u
/-- UNIT_RETIRE (R123). -/
def execUnitRetire (x : RUnit) (flt : Bool) (reason : Nat) (s : State) : Res := onU (unitRetire s.asm x flt reason) s

/- Takeover (R123, R429). -/
/-- Whether a core still waits for a spare of its own. -/
def stillLoading (u : Units) (k : Nat) : Bool :=
  u.svc.planned.any (fun p => p.2 != 1 && (match p.1 with
    | .array c _ _ => coreKey c == k
    | .core c => coreKey c == k
    | _ => false))
/-- A core serves again once no load of it is left. -/
def coreBack (k : Nat) (u : Units) : Units :=
  if stillLoading u k then u
  else
    let u := modCore k (fun c => { c with loading := false }) u
    match (coreAt u k).slot with
    | some n => replicaBack n k u
    | none => u
/-- A load found a poisoned unit in the shadow copy (R423): it fails. -/
def loadFailed (a : Asm) (k addr : Nat) (u : Units) : Units :=
  match (coreAt u k).slot with
  | some n => notice (dieKey 0 (stackDie a (addr / 4096 % nStacks a))) 0x0F06 0 [n, addr] u
  | none => u
/-- The cells of an engine with the rows of one array as the shadow copy of its slot gives them (R123). -/
def shadowArray (u : Units) (k e r : Nat) (cells : Tbl Nat) : Tbl Nat :=
  let c := coreAt u k
  let new : Tbl Nat := match c.slot with
    | none => []
    | some n => let x := slotAt u n; (imgWeights x.img x.imgLen c.lidx e).cells.filter (fun p => p.1 / 1024 == r)
  new.foldl (fun t p => tset t p.1 p.2) (cells.filter (fun p => p.1 / 1024 != r))
/-- A spare array, loaded from the shadow copy, takes the array's place. -/
def arrayTakeover (a : Asm) (id : CoreId) (e r : Fin 16) (reason : Nat) (u : Units) : Units :=
  let k := coreKey id
  let cells := shadowArray u k e r (engOf u k e).w.cells
  let u := setUnit (spareTaken a (.array id e r) reason 16 u)
  let u := onEng k e (fun g => { g with
    w := { g.w with cells := cells }, check := tmap cells (fun _ v => Config.rowCheck v), swept := g.swept.filter (fun x => x / 1024 != r.val)
    spareFor := some r.val, marked := g.marked.filter (· != r.val)
    scrubbed := g.scrubbed.filter (fun s => s.1 / 1024 != r.val) }) u
  if reason = 1 then u else coreBack k u
/-- A spare core, loaded, takes the core's place: its arrays and its SRAM hold what the image gives. DEDUCED, log 100. -/
def coreTakeover (a : Asm) (id : CoreId) (reason : Nat) (s : State) : State :=
  let k := coreKey id
  let u := setUnit (spareTaken a (.core id) reason 16 s.u)
  let u := { u with svc := { u.svc with spares := u.svc.spares.filter (fun g => !(g.1 == 1 && g.2 / 16 == k)) } }
  let u := modCore k (fun c => { c with
    phys := some 16, pois := []
    eng := tmap c.eng (fun _ g => { g with spareFor := none, marked := [], scrubbed := [], swept := [] }) }) u
  let s := coreLoaded k { s with u := u, m := { s.m with sram := tset s.m.sram k [] } }
  if reason = 1 then s else { s with u := coreBack k s.u }
/-- SPARE_TAKEOVER (R123, R433, R435): the load of a spare, or of the free core of a re-placement, has ended and the block
stands at a tick edge. -/
def spareTakeover (a : Asm) (x : RUnit) (s : State) : State :=
  let drop (u : Units) : Units := { u with svc := { u.svc with planned := u.svc.planned.filter (fun p => p.1 != x) } }
  let found := s.u.svc.planned.find? (fun p => p.1 == x)
  match x with
  | .array id e r =>
    (match found with
     | none => s
     | some p =>
       match loadPoisoned a s.u (coreKey id) (some (e.val, r.val)) with
       | some addr => { s with u := loadFailed a (coreKey id) addr (drop s.u) }
       | none => { s with u := arrayTakeover a id e r p.2 (drop s.u) })
  | .core id =>
    let k := coreKey id
    let waits : Bool := match (coreAt s.u k).slot with
      | some n => (coreAt s.u k).loading && (slotAt s.u n).out.any (fun o => o.2.contains k)
      | none => false
    (match found, loadPoisoned a s.u k none with
     | some _, some addr => { s with u := loadFailed a k addr (drop s.u) }
     | some p, none => coreTakeover a id p.2 { s with u := drop s.u }
     | none, some addr => if waits then { s with u := loadFailed a k addr s.u } else s
     | none, none =>
       if waits ∧ !stillLoading s.u k then
         let s := coreLoaded k s
         { s with u := coreBack k s.u }
       else s)
  | _ => s
/-- SPARE_TAKEOVER (R123). -/
def execSpareTakeover (x : RUnit) (s : State) : Res := .next (if atEdge s.u then spareTakeover s.asm x s else s)
/-- REPLACE_RETRY (R434). -/
def replaceRetry (a : Asm) (n : Nat) (u : Units) : Units :=
  forAll (slotAt u n).wanting (fun w u =>
    let x := slotAt u n
    match x.bind.find? (fun b => b.rep == w.1 && b.lidx == w.2) with
    | none => u
    | some b =>
      let ent := u.svc.repair.reverse.find? (fun r => r.kind == 2 && r.state == 2 && r.die == b.die && r.pos == b.core)
      if (freeOrder a u x.dieMask).isEmpty then u else replaceCore a n w.1 w.2 (bindKey b) (ent.map (·.reason) |>.getD 6) u) u
/-- REPLACE_RETRY (R434). -/
def execReplaceRetry (slot : Fin 32) (s : State) : Res := onU (replaceRetry s.asm slot) s

/- Match banks (R201). -/
/-- BANK_RETIRE (R201): the spare, loaded from the shadow, takes the number; with none left the bank is out of service.
DEDUCED, log 104. -/
def bankRetire (a : Asm) (b : Fin 64) (u : Units) : Units :=
  let x : RUnit := .bank b
  if !u.svc.decided.contains x ∨ (bankAt u b).outOfService then u
  else
    let mine (addr : Nat) : Bool := addr / bankSize == b.val
    let reason := if u.mat.scrubFail.any mine then 5 else 6
    let u := setUnit { u with svc := { u.svc with decided := u.svc.decided.filter (· != x) } }
    let left := spareFree u.svc x
    if left = 0 then
      let u := repairAdd (repairEnt a u x 2 reason 0) u
      recheckSoon (notice (dieKey 1 (b / 32)) 0x0404 0 [b.val / 32, b.val % 32] (modBank b (fun k => { k with outOfService := true }) u))
    else
      let phys := 32 + (2 - left)
      let u := spareTaken a x reason phys u
      modBank b (fun k => { k with phys := some phys }) { u with mat := { u.mat with
        entries := u.mat.shadow.filter (fun e => mine e.1) |>.foldl (fun t e => tset t e.1 (shadowEntry u e.1 e.2)) (u.mat.entries.filter (fun e => !mine e.1))
        scrubFail := u.mat.scrubFail.filter (fun k => !mine k) } }
/-- BANK_RETIRE (R201). -/
def execBankRetire (bank : Fin 64) (s : State) : Res := onU (bankRetire s.asm bank) s

end Sys2Proof.Machine
end

