-- ==== Sys2Proof/Machine/Temper.lean ====
section
/-! DEFINITION. Tempering (18; 12, R360): the declaration, the run's messages, one training step, requantisation, the
rebinding. Master weights are held as BF16 patterns, every other number as an FP32 pattern. -/
namespace Sys2Proof.Machine

/- The declaration (R482 to R484). -/
/-- The fields of a declaration. -/
structure TDecl where
  nmat : Nat
  hact : Nat
  outs : Nat
  k : Nat
  h : Nat
  core0 : Nat
  nhc : Nat
/-- A declaration's bytes read. -/
def tdecl (b : Bytes) : TDecl :=
  { nmat := le b 0 1, hact := le b 1 1, outs := le b 3 1, k := le b 4 4, h := le b 8 4, core0 := le b 12 2, nhc := le b 14 2 }
/-- Weights of the first matrix, and of all (R483). -/
def tparam1 (d : TDecl) : Nat := if d.nmat = 1 then d.k * d.outs else d.k * d.h
def tparams (d : TDecl) : Nat := if d.nmat = 1 then d.k * d.outs else d.k * d.h + d.h * d.outs
/-- The declaration of an image (R157). DESIGN CHOICE, log 29. -/
def imgTemper (m : Memory) (len : Nat) : Bytes :=
  match secFind (imgSecs m len) 9 0xFFFF 0xFF with
  | some x => mread m x.off x.len
  | none => []
/-- Whether a declaration is valid for an image of ncore cores (R482, R483). -/
def tdeclOk (b : Bytes) (ncore : Nat) : Bool :=
  let d := tdecl b
  let wide (n : Nat) : Bool := n % 256 == 0 && decide (256 ≤ n) && decide (n ≤ 65536)
  b.length == 64 && (d.nmat == 1 || d.nmat == 2) && decide (d.hact ≤ 1) && decide (le b 2 1 ≤ 1) && decide (1 ≤ d.outs)
    && decide (d.outs ≤ 64) && wide d.k && (if d.nmat = 1 then d.h == 0 && d.hact == 0 else wide d.h)
    && decide (1 ≤ d.nhc) && decide (d.core0 + d.nhc ≤ ncore) && allZero (b.drop 16) && decide (tparams d ≤ 67108864)
/-- The matrix, row and column of a master index (R484). -/
def tindex (d : TDecl) (i : Nat) : Nat × Nat × Nat :=
  let c1 := if d.nmat = 1 then d.outs else d.h
  if i < tparam1 d then (0, i / c1, i % c1) else (1, (i - tparam1 d) / d.outs, (i - tparam1 d) % d.outs)

/- The served weights (R488, R89). -/
/-- The rescale entry of an engine's column in an image: RM, RS. -/
def imgScale (m : Memory) (len core engine col : Nat) : Nat × Nat :=
  match secFind (imgSecs m len) 3 core engine with
  | some x => (mle m (x.off + 8 * col) 2, mle m (x.off + 8 * col + 2) 1 % 64)
  | none => (0, 0)
/-- The weight format and tile exponent of an engine in an image. -/
def imgTile (m : Memory) (len core engine : Nat) : WFmt × Int :=
  match secFind (imgSecs m len) 2 core engine with
  | some x => ((WFmt.ofCode (mle m x.off 1)).getD .int4, signed 8 (mle m (x.off + 3) 1))
  | none => (.int4, 0)
/-- A master weight as a run begins: the served weight rounded to BF16. -/
def masterInit (m : Memory) (len core0 i : Nat) : Nat :=
  let p := Config.headPlace (mle m 40 8) i
  let core := core0 + p.1
  let t := imgTile m len core p.2.1
  let q := weightOf t.1 (imgRow m len core p.2.1 p.2.2.1) p.2.2.2.1
  let sc := imgScale m len core p.2.2.2.2 p.2.2.2.1
  let rx := (imgTile m len core p.2.2.2.2).2
  froundI .bf16 (q * sc.1) (rx - sc.2)

/- Messages (R360, R486, R487). -/
/-- The feedback buffer of a run: SPACE 2 names its context in byte 1 (R486). -/
def feedbackCtx (b : Buf) : Nat := if b.space = 2 then b.win else 0
/-- n bytes of a feedback buffer: none on a fault; with whether any is poisoned. -/
def feedbackRead (s : State) (b : Buf) (off n : Nat) : Option (Bytes × Bool) :=
  if !bufOk s.u (feedbackCtx b) b ∨ b.len < off + n then none
  else
    let a := bufBase s.u (feedbackCtx b) b + off
    if b.space = 3 ∧ tier2Down s.u a n then none
    else
      let r := (List.range (n / 64)).map (fun i => unitRead s b.space 0 (a + 64 * i))
      some (r.flatMap (·.1), r.any (·.2))
/-- Whether a feedback header is valid for a declaration and a buffer (R485, R487). -/
def feedbackOk (h : Bytes) (d : TDecl) (len : Nat) : Bool :=
  le h 0 4 == 0x50464254 && le h 4 1 == 1 && le h 5 1 == 0 && decide (1 ≤ le h 6 2) && decide (le h 6 2 ≤ 256)
    && decide (1 ≤ le h 8 4) && decide (le h 8 4 ≤ 1048576) && le h 12 4 == d.k && le h 16 1 == d.outs
    && allZero (sliceZ h 17 47) && decide (64 + le h 8 4 * (64 + 2 * d.k) ≤ len)
/-- Work cores of a number of weights (R487). -/
def workCores (p : Nat) : Nat := ceilDiv p 1572864
/-- Bytes of moments (R487). -/
def momentBytes (p : Nat) : Nat := 2 * p + 8 * ceilDiv p 256
/-- TEMPER_START (R360, R487, R488). DEDUCED, log 201. -/
def temperStart (n : Nat) : State → State :=
  messageS 0x0901 n (fun p s =>
    let slot := le p 0 1
    let run := le p 1 1
    let lr := le p 8 4
    let b := bufOf p 16
    let x := slotAt s.u slot
    let decl := imgTemper x.img x.imgLen
    let d := tdecl decl
    let served := x.st == .resident || x.st == .inService
    if 31 < slot then (s, some (invalid 0))
    else if 3 < run then (s, some (invalid 1))
    else if le p 2 2 = 0 ∨ 1024 < le p 2 2 then (s, some (invalid 2))
    else if le p 4 4 = 0 ∨ 1048576 < le p 4 4 then (s, some (invalid 4))
    else if lr = 0 ∨ 0x3F800000 < lr then (s, some (invalid 8))
    else if (b.space ≠ 2 ∧ b.space ≠ 3) ∨ !bufOk s.u (feedbackCtx b) b ∨ b.len < 64 then (s, some (invalid 16))
    else if s.u.pins.throt then (s, some busy0)
    else if !served then (s, some (plain 8))
    else if !tdeclOk decl (imgNcore x.img) then (s, some (invalid 0))
    else if (tgetD s.u.temper run {}).state ≠ 0 ∨ s.u.temper.any (fun r => r.2.state != 0 && r.2.slot == slot) then (s, some (plain 8))
    else match feedbackRead s b 0 64 with
      | none => (s, some (faultAt 16))
      | some h =>
        if !feedbackOk h.1 d b.len then (s, some (invalid 16))
        else
          let np := tparams d
          let cores := (freeOrder s.asm s.u x.dieMask).take (workCores np)
          if cores.length < workCores np then (s, some busy0)
          else match t1Fit s.asm s.u (momentBytes np) with
            | none => (s, some (bad 0xA 1 0xFFFF 0x010A))
            | some base =>
              let first := nextTick s.u + 1
              let idx := List.range np
              let blocks := List.range (ceilDiv np 256)
              let r : Temper := {
                state := 1, slot := slot, share := le p 2 2, steps := le p 4 4, rate := lr, buf := b, decl := decl
                seed := gmix (Nat.xor x.imageId (run * 2 ^ 56)), first := first, cores := cores.map (fun k => (k / 16, k % 16))
                master := idx.map (fun i => (i, masterInit x.img x.imgLen d.core0 i))
                qm := idx.map (fun i => (i, 0)), qv := idx.map (fun i => (i, 0)), sm := blocks.map (fun k => (k, 0))
                sv := blocks.map (fun k => (k, 0)), base := base, moments := momentBytes np }
              ({ s with u := { s.u with temper := tset s.u.temper run r } }, some (ok (le8 first))))
/-- TEMPER_START (R360). -/
def execTemperStart (mb : Fin 64) (s : State) : Res := .next (temperStart mb s)
/-- TEMPER_STATUS (R360). -/
def temperStatus (n : Nat) : Units → Units :=
  message 0x0902 n (fun p u =>
    let r := tgetD u.temper (le p 0 1) {}
    if 3 < le p 0 1 then keep u (invalid 0)
    else keep u (ok (leBytes 1 r.state ++ leBytes 3 0 ++ leBytes 4 r.done ++ leBytes 4 r.loss ++ leBytes 4 0)))
/-- TEMPER_STATUS (R360). -/
def execTemperStatus (mb : Fin 64) (s : State) : Res := onU (temperStatus mb) s
/-- TEMPER_COMMIT (R360, R495). -/
def temperCommit (n : Nat) : Units → Units :=
  message 0x0903 n (fun p u =>
    let run := le p 0 1
    let r := tgetD u.temper run {}
    let e := max (le p 8 8) (u.tick.number + 3 + ceilDiv 524288 (periodNs u))
    if 3 < run then keep u (invalid 0)
    else if r.state ≠ 2 then keep u (plain 8)
    else if (match u.fw.upd with | some w => decide (w.q ≤ e) && decide (e ≤ w.q + 3) | none => false) then keep u busy0
    else keep { u with temper := tset u.temper run { r with state := 3, edge := e, accepted := u.tick.number } } (ok (le8 e)))
/-- TEMPER_COMMIT (R360). -/
def execTemperCommit (mb : Fin 64) (s : State) : Res := onU (temperCommit mb) s
/-- TEMPER_ABORT (R360, R494, R499). -/
def temperAbort (n : Nat) : Units → Units :=
  message 0x0904 n (fun p u =>
    let run := le p 0 1
    let st := (tgetD u.temper run {}).state
    if 3 < run then keep u (invalid 0)
    else if st = 0 ∨ st = 3 then keep u (plain 8)
    else keep (temperAborted run 0 u) (ok []))
/-- TEMPER_ABORT (R360). -/
def execTemperAbort (mb : Fin 64) (s : State) : Res := onU (temperAbort mb) s

/- Arithmetic (R489 to R492). -/
/-- An FP32 constant 1. -/
def one32 : Nat := 0x3F800000
/-- A fused multiply-add chain from +0. -/
def fmaChain (l : List (Nat × Nat)) : Nat := l.foldl (fun a p => ffma .fp32 p.1 p.2 a) 0
/-- A sum of products in the order of R489: a chain below 256 terms, else 256 lanes and the tree. -/
def sumProducts (l : List (Nat × Nat)) : Nat :=
  if l.length < 256 then fmaChain l
  else treeSum .fp32 8 ((List.range 256).map (fun j => fmaChain ((List.range (ceilDiv l.length 256)).filterMap (fun k => l[256 * k + j]?))))
/-- A number as FP32. -/
def fnum (n : Int) : Nat := froundI .fp32 n 0
/-- The largest magnitude of a list of patterns. -/
def amax32 (l : List Nat) : Nat := l.foldl (fun a x => if a < x % 2 ^ 31 then x % 2 ^ 31 else a) 0
/-- The scale rne(a / n) of a magnitude a. -/
def scale32 (a n : Nat) : Nat :=
  match fdec .fp32 a with
  | .fin _ m e => fround .fp32 false m n e
  | _ => a
/-- A quantised code: rne of the exact quotient g / s, clamped (R490). Where the quotient is none (s is 0, or a value is no
finite number), a free value, draw k (DESIGN CHOICE, log 30). -/
def qcode (g s : Nat) (lo hi : Int) (k : Nat) : Int :=
  match fdec .fp32 g, fdec .fp32 s with
  | .fin ng mg eg, .fin _ ms es =>
    if ms = 0 then lo + (Config.freeNat k % (hi - lo + 1).toNat : Nat)
    else
      let e := min eg es
      let q := rneDiv ((if ng then -1 else 1) * ((mg * 2 ^ (eg - e).toNat : Nat) : Int)) (ms * 2 ^ (es - e).toNat)
      clampI lo hi q
  | _, _ => lo + (Config.freeNat k % (hi - lo + 1).toNat : Nat)
/-- GELU of a pre-activation (R489). -/
def gelu (y : Nat) : Nat :=
  fmul .fp32 (fmul .fp32 0x3F000000 y) (fadd .fp32 one32 (ferf .fp32 (fmul .fp32 y 0x3F3504F3)))
/-- Its derivative (R489). -/
def geluD (y : Nat) : Nat :=
  fadd .fp32 (fmul .fp32 0x3F000000 (fadd .fp32 one32 (ferf .fp32 (fmul .fp32 y 0x3F3504F3))))
    (fmul .fp32 y (fmul .fp32 0x3ECC422A (fexp .fp32 (fmul .fp32 0xBF000000 (fmul .fp32 y y)))))
/-- The stochastic rounding of R492. -/
def sround (w seed n idx : Nat) : Nat :=
  let x := gmix ((seed + 0xD1B54A329F076C8D * (n * 2 ^ 32 + idx + 1)) % 2 ^ 64)
  let b := (w % 2 ^ 31 + x % 65536) / 65536 * 65536
  let b := if 0x7F800000 ≤ b then 0x7F7F0000 else b
  w / 2 ^ 31 * 2 ^ 15 + b / 65536
/-- One example: its features, and target bytes; each target's value as FP32, none where it is not counted. A byte that is
none of the three values stands for a free value (DESIGN CHOICE, log 30). -/
structure TEx where
  x : List Nat
  t : List (Option Nat)
/-- A record read. k: the draw of its first target. DESIGN CHOICE, log 30. -/
def texample (d : TDecl) (b : Bytes) (k : Nat) : TEx :=
  { x := (List.range d.k).map (fun i => bf2fp (le b (64 + 2 * i) 2))
    t := (List.range d.outs).map (fun j => match le b j 1 with
      | 0 => some 0
      | 1 => some one32
      | 0xFF => none
      | _ => some (Config.freeWord (k + j)).toNat) }
/-- What the forward pass gives an example: hidden pre-activations, the last matrix's inputs, outputs. -/
structure TFwd where
  y : List Nat
  h : List Nat
  z : List Nat
/-- Forward (R489). w: a master weight as FP32. -/
def tforward (d : TDecl) (w : Nat → Nat) (x : List Nat) : TFwd :=
  let col (base rows cols j : Nat) (v : List Nat) : Nat :=
    sumProducts (((List.range rows).map (fun k => w (base + k * cols + j))).zip v)
  if d.nmat = 1 then { y := [], h := x, z := (List.range d.outs).map (fun j => col 0 d.k d.outs j x) }
  else
    let y := (List.range d.h).map (fun j => col 0 d.k d.h j x)
    let h := if d.hact = 1 then y.map gelu else y
    { y := y, h := h, z := (List.range d.outs).map (fun j => col (tparam1 d) d.h d.outs j h) }
/-- The loss of one counted target (R489). DEDUCED, log 202. -/
def tloss (z t : Nat) : Nat :=
  fadd .fp32 (fsub .fp32 (fmax2 .fp32 z 0) (fmul .fp32 t z))
    (flog .fp32 (fadd .fp32 one32 (fexp .fp32 (z % 2 ^ 31 + 2 ^ 31))))
/-- What one example adds: inputs and output gradients of each matrix. -/
structure TBack where
  x : List Nat
  dy : List Nat
  h : List Nat
  dz : List Nat
/-- Backward (R489). DEDUCED, log 203. -/
def tbackward (d : TDecl) (w : Nat → Nat) (rn : Nat) (e : TEx) (f : TFwd) : TBack :=
  let dz := (e.t.zip f.z).map (fun p => match p.1 with
    | some t => fmul .fp32 (fsub .fp32 (fsigmoid .fp32 p.2) t) rn
    | none => 0)
  if d.nmat = 1 then { x := e.x, dy := dz, h := [], dz := [] }
  else
    let dy := (f.y.zip (List.range d.h)).map (fun p =>
      let dh := sumProducts (((List.range d.outs).map (fun j => w (tparam1 d + p.2 * d.outs + j))).zip dz)
      if d.hact = 1 then fmul .fp32 dh (geluD p.1) else dh)
    { x := e.x, dy := dy, h := f.h, dz := dz }
/-- The gradient of a master index: a chain over the examples. -/
def tgrad (d : TDecl) (l : List TBack) (i : Nat) : Nat :=
  let p := tindex d i
  fmaChain (l.map (fun b => if p.1 = 0 then (b.x.getD p.2.1 0, b.dy.getD p.2.2 0) else (b.h.getD p.2.1 0, b.dz.getD p.2.2 0)))
/-- Rows of a gradient row, and the master index of its row k (R484). -/
def growOf (d : TDecl) (i : Nat) : List Nat :=
  let p := tindex d i
  if p.1 = 0 then (List.range d.k).map (fun k => k * (if d.nmat = 1 then d.outs else d.h) + p.2.2)
  else (List.range d.h).map (fun k => tparam1 d + k * d.outs + p.2.2)
/-- The optimiser's new first and second moment, and what it takes from the weight (R491). n: step number from 1. -/
def tadam (n lr : Nat) (m v g : Nat) : Nat × Nat × Nat :=
  let f := FF.fp32
  let bc (b : Nat) : Nat := fsub f one32 (fexp f (fmul f (fnum n) (flog f b)))
  let m' := fadd f (fmul f 0x3F666666 m) (fmul f 0x3DCCCCCD g)
  let v' := fadd f (fmul f 0x3F7FBE77 v) (fmul f 0x3A83126F (fmul f g g))
  let a := fmul f m' (frecip f (bc 0x3F666666))
  let b := fadd f (fmul f v' (frecip f (bc 0x3F7FBE77))) 0x2B800000
  (m', v', fmul f lr (fmul f a (frsqrt f b)))
/-- The whole of one step with n > 0 counted targets: the run after it. ix: first draw of the step. DESIGN CHOICE, log 30.
DEDUCED, log 202. -/
def trainStep (d : TDecl) (batch : List TEx) (r : Temper) (ix : Nat) : Temper :=
  let np := tparams d
  let w (i : Nat) : Nat := bf2fp (tgetD r.master i 0)
  let n := r.done + 1
  let cnt := (batch.map (fun e => (e.t.filter (·.isSome)).length)).sum
  let rn := frecip .fp32 (fnum cnt)
  let fwd := batch.map (fun e => (e, tforward d w e.x))
  let back := fwd.map (fun p => tbackward d w rn p.1 p.2)
  let loss := (fwd.flatMap (fun p => (p.1.t.zip p.2.z).filterMap (fun q => q.1.map (tloss q.2)))).foldl (fadd .fp32) 0
  let g := (List.range np).map (fun i => (i, tgrad d back i))
  let ghat := (List.range np).map (fun i =>
    let s := scale32 (amax32 ((growOf d i).map (fun k => tgetD g k 0))) 127
    if s = 0 ∧ amax32 ((growOf d i).map (fun k => tgetD g k 0)) = 0 then (i, 0)
    else (i, fmul .fp32 (fnum (qcode (tgetD g i 0) s (-127) 127 (ix + i))) s))
  let opt := (List.range np).map (fun i =>
    let m := fmul .fp32 (fnum (tgetD r.qm i 0)) (tgetD r.sm (i / 256) 0)
    let v := fmul .fp32 (fnum (tgetD r.qv i 0 : Nat)) (tgetD r.sv (i / 256) 0)
    (i, tadam n r.rate m v (tgetD ghat i 0)))
  let block (i : Nat) : List Nat := (fromN (256 * i) 256).filter (fun k => decide (k < np))
  let sm := (List.range (ceilDiv np 256)).map (fun i => (i, scale32 (amax32 ((block i).map (fun k => (tgetD opt k (0, 0, 0)).1))) 127))
  let sv := (List.range (ceilDiv np 256)).map (fun i => (i, scale32 (amax32 ((block i).map (fun k => (tgetD opt k (0, 0, 0)).2.1))) 255))
  let flat (f : Nat × Nat × Nat → Nat) (i : Nat) : Bool := amax32 ((block (i / 256)).map (fun k => f (tgetD opt k (0, 0, 0)))) == 0
  { r with
    done := n, loss := fmul .fp32 loss rn, sm := sm, sv := sv
    master := opt.map (fun o => (o.1, sround (fsub .fp32 (w o.1) o.2.2.2) r.seed n o.1))
    qm := opt.map (fun o => (o.1, if flat (·.1) o.1 then 0 else qcode o.2.1 (tgetD sm (o.1 / 256) 0) (-127) 127 (ix + np + o.1)))
    qv := opt.map (fun o => (o.1, if flat (·.2.1) o.1 then 0 else
      (qcode o.2.2.1 (tgetD sv (o.1 / 256) 0) 0 255 (ix + 2 * np + o.1)).toNat)) }

/- A step (R493, R494). -/
/-- Whether the tick lets a run's launches go (R493). DESIGN CHOICE, log 206. -/
def temperMay (u : Units) (r : Temper) : Bool :=
  let scrub := u.svc.urgent.any (fun e => e.1 == 1 && r.cores.any (fun c => e.2 / 2 ^ 56 == c.1 && e.2 / 2 ^ 52 % 16 == c.2))
  running u && u.tick.st == .current && !u.pins.throt && !scrub && decide (r.first ≤ u.tick.number)
    && (match u.fw.upd with | some w => !(decide (w.q ≤ u.tick.number) && decide (u.tick.number ≤ w.q + 3)) | none => true)
/-- TEMPER_STEP (R489 to R492): the run's next step. cut: a launch of it was aborted at a mark. DESIGN CHOICE, log 206. -/
def temperStep (run : Nat) (cut : Bool) (s : State) : State :=
  let r := tgetD s.u.temper run {}
  let d := tdecl r.decl
  if r.state ≠ 1 ∨ r.steps ≤ r.done ∨ !temperMay s.u r then s
  else if cut then onUnits (temperAborted run 2) s
  else match feedbackRead s r.buf 0 64 with
    | none => onUnits (temperAborted run 5) s
    | some h =>
      let nex := le h.1 8 4
      let size := 64 + 2 * d.k
      let recs := (List.range (le h.1 6 2)).map (fun e => feedbackRead s r.buf (64 + size * ((r.done * le h.1 6 2 + e) % max nex 1)) size)
      if recs.any (·.isNone) then onUnits (temperAborted run 5) s
      else if h.2 || recs.any (fun x => match x with | some y => y.2 | none => false) then onUnits (temperAborted run 1) s
      else
        let ix := s.u.freeIx
        let batch := (recs.zip (List.range recs.length)).map (fun x =>
          texample d (match x.1 with | some y => y.1 | none => []) (ix + 64 * x.2))
        let used := 64 * recs.length
        let r' := if batch.all (fun e => e.t.all (·.isNone)) then { r with done := r.done + 1 } else trainStep d batch r (ix + used)
        { s with u := { s.u with temper := tset s.u.temper run r', freeIx := ix + used + 3 * tparams d } }
/-- TEMPER_STEP (R489). -/
def execTemperStep (x : StepRun) (s : State) : Res := .next (temperStep x.run x.cut s)
/-- TEMPER_DONE (R494). -/
def temperDone (run : Nat) (u : Units) : Units :=
  let r := tgetD u.temper run {}
  if r.state ≠ 1 ∨ r.done < r.steps then u
  else fwNotice 8 0x0981 0 [run, r.done, r.loss] { u with temper := tset u.temper run { r with state := 2 } }
/-- TEMPER_DONE (R494). -/
def execTemperDone (run : Fin 4) (s : State) : Res := onU (temperDone run) s

/- Commit (R495 to R497). -/
/-- The largest code magnitude a scale targets, and the range of codes. -/
def wRange : WFmt → Nat × Int × Int
  | .int4 => (7, -8, 7)
  | .int3 => (3, -4, 3)
  | .int2 => (1, -2, 1)
  | .tern => (1, -1, 1)
/-- RM and RS of a scale target max |w| / QM: the RS that normalises RM, rounded upward (R495). top: max |w| in units of
2^-133. DEDUCED, log 204. -/
def newScale (top qm : Nat) (rx : Int) : Option (Nat × Nat) :=
  ((List.range 64).map (fun (rs : Nat) =>
    let e : Int := rs - rx - 133
    (if 0 ≤ e then upNat (top * 2 ^ e.toNat) qm else upNat top (qm * 2 ^ (-e).toNat), rs))).find?
      (fun p => decide (0x8000 ≤ p.1) && decide (p.1 ≤ 0xFFFF))
/-- The code of a weight under a stored scale (R495). -/
def newCode (w rm rs : Nat) (rx lo hi : Int) : Int :=
  clampI lo hi (rneDiv (bfInt w * 2 ^ 70) (rm * 2 ^ (rx - rs + 203).toNat))
/-- A weight's field put into an image's cells (R72, R73, R159). -/
def putCell (m : Memory) (len core engine row col : Nat) (f : WFmt) (q : Int) : Memory :=
  match secFind (imgSecs m len) 2 core engine with
  | none => m
  | some x =>
    let a := x.off + 64 + 128 * row + col % 256 / 2
    let old := (mget m a).toNat
    let sh := 4 * (col % 2) + (if f.twoBit && decide (256 ≤ col) then 2 else 0)
    let bits := if f.twoBit then 2 else 4
    let keep_ := old - old / 2 ^ sh % 2 ^ bits * 2 ^ sh
    mput m a (BitVec.ofNat 8 (keep_ + unsigned bits q * 2 ^ sh))
/-- A rescale entry put into an image (R160). -/
def putScale (m : Memory) (len core engine col rm rs : Nat) : Memory :=
  match secFind (imgSecs m len) 3 core engine with
  | none => m
  | some x => mwrite m (x.off + 8 * col) (leBytes 2 rm ++ leBytes 1 rs)
/-- The image of a slot with its head requantised; none where a scale cannot be represented (R495). DESIGN CHOICE, log 29.
DEDUCED, log 204. -/
def requantise (m : Memory) (len : Nat) (r : Temper) : Option Memory :=
  let d := tdecl r.decl
  let at_ := (List.range (tparams d)).map (fun i => (i, Config.headPlace (mle m 40 8) i))
  let key (p : Nat × Nat × Nat × Nat × Nat) : Nat × Nat × Nat := (p.1, p.2.2.2.2, p.2.2.2.1)
  let cols := (at_.map (fun x => key x.2)).eraseDups
  let scales := cols.map (fun (c : Nat × Nat × Nat) =>
    let t := imgTile m len (d.core0 + c.1) c.2.1
    let mine := (at_.filter (fun x => key x.2 == c)).map (fun x => tgetD r.master x.1 0)
    ((c, t, if mine.any (fnotFin .bf16) then none
      else newScale ((mine.map (fun w => (bfInt w).natAbs)).foldl max 0) (wRange t.1).1 t.2) :
      (Nat × Nat × Nat) × (WFmt × Int) × Option (Nat × Nat)))
  if scales.any (fun x => x.2.2.isNone) then none
  else
    let m := scales.foldl (fun m x => match x.2.2 with
      | some s => putScale m len (d.core0 + x.1.1) x.1.2.1 x.1.2.2 s.1 s.2
      | none => m) m
    some (at_.foldl (fun m x =>
      let core := d.core0 + x.2.1
      let f := (imgTile m len core x.2.2.1).1
      let sc := imgScale m len core x.2.2.2.2.2 x.2.2.2.2.1
      let rx := (imgTile m len core x.2.2.2.2.2).2
      putCell m len core x.2.2.1 x.2.2.2.1 x.2.2.2.2.1 f
        (newCode (tgetD r.master x.1 0) sc.1 sc.2 rx (wRange f).2.1 (wRange f).2.2)) m)
/-- TEMPER_REQUANTISE (R495): in the ticks after the acceptance, the new shadow copy and the cores to load; or the commit fails
(R497). DEDUCED, log 205. -/
def temperRequantise (a : Asm) (run : Nat) (u : Units) : Units :=
  let r := tgetD u.temper run {}
  let x := slotAt u r.slot
  let d := tdecl r.decl
  if r.state ≠ 3 ∨ r.ready.isSome ∨ u.tick.number ≤ r.accepted ∨ !onceRuns u then u
  else
    let cores := (r.cores.map (fun (c : Nat × Nat) => c.1 * 16 + c.2) ++ freeOrder a u x.dieMask).take (d.nhc * x.nrep)
    match requantise x.img x.imgLen r, t1Fit a u x.imgLen with
    | some m, some base =>
      if cores.length < d.nhc * x.nrep then commitFailed run u
      else
        let loads := (cores.zip (List.range cores.length)).map (fun (c : Nat × Nat) => (d.core0 + c.2 % d.nhc, c.2 / d.nhc, c.1 / 16, c.1 % 16))
        { u with temper := tset u.temper run { r with ready := some m, shadow := base, loads := loads } }
    | _, _ => commitFailed run u
/-- TEMPER_REQUANTISE (R495). -/
def execTemperRequantise (run : Fin 4) (s : State) : Res := onU (temperRequantise s.asm run) s
/-- One head core rebound to a loaded core. -/
def rebindOne (slot : Nat) (l : Nat × Nat × Nat × Nat) (s : State) : State :=
  let x := slotAt s.u slot
  let new := l.2.2.1 * 16 + l.2.2.2
  match x.bind.find? (fun b => b.rep == l.2.1 && b.lidx == l.1) with
  | none => s
  | some b =>
    let u := bindCore slot l.2.1 l.1 new (unbindCore (bindKey b) s.u)
    let u := modSlot slot (fun x => { x with
      bind := x.bind.map (fun y => if y.rep = l.2.1 ∧ y.lidx = l.1 then { y with die := l.2.2.1, core := l.2.2.2 } else y) }) u
    coreLoaded new { s with u := u }
/-- TEMPER_REBIND (R496): at edge E or the first edge after it with every load complete. DEDUCED, log 205. -/
def temperRebind (run : Nat) (s : State) : State :=
  let r := tgetD s.u.temper run {}
  match r.ready with
  | none => s
  | some m =>
    if r.state ≠ 3 ∨ !running s.u ∨ s.u.tick.number < r.edge ∨ s.u.tick.lastMark ≠ 6 then s
    else
      let x := slotAt s.u r.slot
      let c := if 0xFFFF ≤ x.commits then 1 else x.commits + 1
      let id := x.imageId / 65536 * 65536 + c
      let u := modSlot r.slot (fun x => { x with img := m, base := r.shadow, imageId := id, commits := c })
        { s.u with temper := tset s.u.temper run {} }
      let s := r.loads.foldl (fun s l => rebindOne r.slot l s) { s with u := u }
      onUnits (fun u => recheckSoon (fwNotice 8 0x0983 0 [r.slot, id % 2 ^ 32, u.tick.number] u)) s
/-- TEMPER_REBIND (R496). -/
def execTemperRebind (run : Fin 4) (s : State) : Res := .next (temperRebind run s)

end Sys2Proof.Machine
end

