-- ==== Sys2Proof/Machine/Dispatch.lean ====
section
/-! DEFINITION. One arm for each command: a direct call of its meaning. -/
namespace Sys2Proof.Machine

def exec (i : Instr) (s : State) : Host.Outcome State Fault Refusal :=
  match i with
  | .regWrite port off width val bad => Sys2Proof.Machine.execRegWrite port off width val bad s
  | .regAccess port off width val => Sys2Proof.Machine.execRegAccess port off width val s
  | .rcRead port off events => Sys2Proof.Machine.execRcRead port off events s
  | .mbxDoorbell mb => Sys2Proof.Machine.execMbxDoorbell mb s
  | .mbxCommandBegin => Sys2Proof.Machine.execMbxCommandBegin s
  | .mbxResponse mb => Sys2Proof.Machine.execMbxResponse mb s
  | .blkInfo mb => Sys2Proof.Machine.execBlkInfo mb s
  | .blkTopology mb => Sys2Proof.Machine.execBlkTopology mb s
  | .blkConfig mb => Sys2Proof.Machine.execBlkConfig mb s
  | .blkVocab mb idx pool => Sys2Proof.Machine.execBlkVocab mb idx pool s
  | .blkCheck mb => Sys2Proof.Machine.execBlkCheck mb s
  | .blkStatus mb => Sys2Proof.Machine.execBlkStatus mb s
  | .ctxConfig mb => Sys2Proof.Machine.execCtxConfig mb s
  | .ctxRings mb => Sys2Proof.Machine.execCtxRings mb s
  | .ctxShares mb => Sys2Proof.Machine.execCtxShares mb s
  | .ctxEnable mb lines => Sys2Proof.Machine.execCtxEnable mb lines s
  | .ctxDisable mb => Sys2Proof.Machine.execCtxDisable mb s
  | .ctxStatus mb => Sys2Proof.Machine.execCtxStatus mb s
  | .policyWrite mb => Sys2Proof.Machine.execPolicyWrite mb s
  | .policyRead mb => Sys2Proof.Machine.execPolicyRead mb s
  | .profileWrite mb => Sys2Proof.Machine.execProfileWrite mb s
  | .descWrite mb => Sys2Proof.Machine.execDescWrite mb s
  | .actionWrite mb => Sys2Proof.Machine.execActionWrite mb s
  | .banlistWrite mb d => Sys2Proof.Machine.execBanlistWrite mb d s
  | .replseqWrite mb => Sys2Proof.Machine.execReplseqWrite mb s
  | .bankConfig mb => Sys2Proof.Machine.execBankConfig mb s
  | .matchUpdate mb d => Sys2Proof.Machine.execMatchUpdate mb d s
  | .matchRead mb flt => Sys2Proof.Machine.execMatchRead mb flt s
  | .slotLoad mb d => Sys2Proof.Machine.execSlotLoad mb d s
  | .slotPlace mb => Sys2Proof.Machine.execSlotPlace mb s
  | .slotService mb => Sys2Proof.Machine.execSlotService mb s
  | .slotUnload mb => Sys2Proof.Machine.execSlotUnload mb s
  | .slotStatus mb flt => Sys2Proof.Machine.execSlotStatus mb flt s
  | .streamOpen mb => Sys2Proof.Machine.execStreamOpen mb s
  | .streamSampling mb => Sys2Proof.Machine.execStreamSampling mb s
  | .streamCancel mb => Sys2Proof.Machine.execStreamCancel mb s
  | .streamPause mb => Sys2Proof.Machine.execStreamPause mb s
  | .streamResume mb => Sys2Proof.Machine.execStreamResume mb s
  | .streamStatus mb => Sys2Proof.Machine.execStreamStatus mb s
  | .pauseStatus mb => Sys2Proof.Machine.execPauseStatus mb s
  | .jobCancel mb => Sys2Proof.Machine.execJobCancel mb s
  | .jobStatus mb => Sys2Proof.Machine.execJobStatus mb s
  | .windowImport mb => Sys2Proof.Machine.execWindowImport mb s
  | .windowExport mb => Sys2Proof.Machine.execWindowExport mb s
  | .windowDepart mb => Sys2Proof.Machine.execWindowDepart mb s
  | .tier2Config mb => Sys2Proof.Machine.execTier2Config mb s
  | .tier1Area mb => Sys2Proof.Machine.execTier1Area mb s
  | .tierCopy mb d => Sys2Proof.Machine.execTierCopy mb d s
  | .tierStatus mb => Sys2Proof.Machine.execTierStatus mb s
  | .fwLoad mb d => Sys2Proof.Machine.execFwLoad mb d s
  | .fwActivate mb => Sys2Proof.Machine.execFwActivate mb s
  | .fwBootCfg mb => Sys2Proof.Machine.execFwBootCfg mb s
  | .fwWatchdog mb => Sys2Proof.Machine.execFwWatchdog mb s
  | .fwLogRead mb pops => Sys2Proof.Machine.execFwLogRead mb pops s
  | .fwTrace mb => Sys2Proof.Machine.execFwTrace mb s
  | .fwFuse mb => Sys2Proof.Machine.execFwFuse mb s
  | .cntSelect mb => Sys2Proof.Machine.execCntSelect mb s
  | .cntRead mb flt => Sys2Proof.Machine.execCntRead mb flt s
  | .clipRead mb flt => Sys2Proof.Machine.execClipRead mb flt s
  | .refStart mb => Sys2Proof.Machine.execRefStart mb s
  | .refReport mb flt => Sys2Proof.Machine.execRefReport mb flt s
  | .queueRead mb pops => Sys2Proof.Machine.execQueueRead mb pops s
  | .pagemapRead mb flt => Sys2Proof.Machine.execPagemapRead mb flt s
  | .repairRead mb flt => Sys2Proof.Machine.execRepairRead mb flt s
  | .temperStart mb => Sys2Proof.Machine.execTemperStart mb s
  | .temperStatus mb => Sys2Proof.Machine.execTemperStatus mb s
  | .temperCommit mb => Sys2Proof.Machine.execTemperCommit mb s
  | .temperAbort mb => Sys2Proof.Machine.execTemperAbort mb s
  | .blkEnableRequest => Sys2Proof.Machine.execBlkEnableRequest s
  | .blockCheckDone => Sys2Proof.Machine.execBlockCheckDone s
  | .blkDisable => Sys2Proof.Machine.execBlkDisable s
  | .blkStop => Sys2Proof.Machine.execBlkStop s
  | .arbPlainWrite v => Sys2Proof.Machine.execArbPlainWrite v s
  | .tickStart val => Sys2Proof.Machine.execTickStart val s
  | .tickStopRequest val => Sys2Proof.Machine.execTickStopRequest val s
  | .tickPeriodWrite val => Sys2Proof.Machine.execTickPeriodWrite val s
  | .tickTimeWrite val => Sys2Proof.Machine.execTickTimeWrite val s
  | .tickSlewWrite val => Sys2Proof.Machine.execTickSlewWrite val s
  | .tickOffsetWrite val => Sys2Proof.Machine.execTickOffsetWrite val s
  | .nqPop port single double => Sys2Proof.Machine.execNqPop port single double s
  | .nqFlush => Sys2Proof.Machine.execNqFlush s
  | .nqCritClear mask => Sys2Proof.Machine.execNqCritClear mask s
  | .cntSnap => Sys2Proof.Machine.execCntSnap s
  | .cntClr => Sys2Proof.Machine.execCntClr s
  | .pinFuncWrite n val => Sys2Proof.Machine.execPinFuncWrite n val s
  | .pinParkEnd n level => Sys2Proof.Machine.execPinParkEnd n level s
  | .tickEdge => Sys2Proof.Machine.execTickEdge s
  | .tickStopEdge => Sys2Proof.Machine.execTickStopEdge s
  | .tickInEdge t => Sys2Proof.Machine.execTickInEdge t s
  | .tickPacket rx pkt t => Sys2Proof.Machine.execTickPacket rx pkt t s
  | .holdoverEdge => Sys2Proof.Machine.execHoldoverEdge s
  | .srcFault => Sys2Proof.Machine.execSrcFault s
  | .phaseMark m io => Sys2Proof.Machine.execPhaseMark m io s
  | .armDeadline => Sys2Proof.Machine.execArmDeadline s
  | .unitArm u table => Sys2Proof.Machine.execUnitArm u table s
  | .tickHalt => Sys2Proof.Machine.execTickHalt s
  | .syncSend => Sys2Proof.Machine.execSyncSend s
  | .syncReceive rx pkt t => Sys2Proof.Machine.execSyncReceive rx pkt t s
  | .dreqReceive rx pkt t => Sys2Proof.Machine.execDreqReceive rx pkt t s
  | .drespReceive rx pkt t => Sys2Proof.Machine.execDrespReceive rx pkt t s
  | .timeLost => Sys2Proof.Machine.execTimeLost s
  | .qz c op => Sys2Proof.Machine.execQz c op s
  | .cf c op => Sys2Proof.Machine.execCf c op s
  | .bufferReady c isQ => Sys2Proof.Machine.execBufferReady c isQ s
  | .mx c op => Sys2Proof.Machine.execMx c op s
  | .mxPassDone c => Sys2Proof.Machine.execMxPassDone c s
  | .vectorLoad c vd addr => Sys2Proof.Machine.execVectorLoad c vd addr s
  | .vectorStore c vs addr lanes flag => Sys2Proof.Machine.execVectorStore c vs addr lanes flag s
  | .vectorArith c op fmt vd va vb vc => Sys2Proof.Machine.execVectorArith c op fmt vd va vb vc s
  | .vectorTranscendental c f fmt vd va => Sys2Proof.Machine.execVectorTranscendental c f fmt vd va s
  | .vectorSumReduce c fmt vd va n => Sys2Proof.Machine.execVectorSumReduce c fmt vd va n s
  | .vectorMaxReduce c fmt isMin vd va n => Sys2Proof.Machine.execVectorMaxReduce c fmt isMin vd va n s
  | .vtop c fmt vd va n k => Sys2Proof.Machine.execVtop c fmt vd va n k s
  | .vdot8 c vd va vb => Sys2Proof.Machine.execVdot8 c vd va vb s
  | .vwide c vd va => Sys2Proof.Machine.execVwide c vd va s
  | .vectorConvert c src dst vd va => Sys2Proof.Machine.execVectorConvert c src dst vd va s
  | .scalarOp c op rd ra rb => Sys2Proof.Machine.execScalarOp c op rd ra rb s
  | .scalarLoad c rd ra off => Sys2Proof.Machine.execScalarLoad c rd ra off s
  | .loop c rs bound len => Sys2Proof.Machine.execLoop c rs bound len s
  | .br c cond rs off => Sys2Proof.Machine.execBr c cond rs off s
  | .wait c f n => Sys2Proof.Machine.execWait c f n s
  | .mark c m => Sys2Proof.Machine.execMark c m s
  | .ticknum c rd => Sys2Proof.Machine.execTicknum c rd s
  | .sig c die idx n => Sys2Proof.Machine.execSig c die idx n s
  | .sigLand c => Sys2Proof.Machine.execSigLand c s
  | .swait c idx n => Sys2Proof.Machine.execSwait c idx n s
  | .endLaunch c => Sys2Proof.Machine.execEndLaunch c s
  | .dm c list count flag => Sys2Proof.Machine.execDm c list count flag s
  | .dmaDone c => Sys2Proof.Machine.execDmaDone c s
  | .dmFence c => Sys2Proof.Machine.execDmFence c s
  | .mq c op => Sys2Proof.Machine.execMq c op s
  | .mqResult c => Sys2Proof.Machine.execMqResult c s
  | .arrayScrubRead c engine array row out => Sys2Proof.Machine.execArrayScrubRead c engine array row out s
  | .weightRowWrite c engine array row v1 v2 => Sys2Proof.Machine.execWeightRowWrite c engine array row v1 v2 s
  | .imageStaged slot => Sys2Proof.Machine.execImageStaged slot s
  | .placeLoadDone slot => Sys2Proof.Machine.execPlaceLoadDone slot s
  | .unitRetire u flt reason => Sys2Proof.Machine.execUnitRetire u flt reason s
  | .spareTakeover u => Sys2Proof.Machine.execSpareTakeover u s
  | .replaceRetry slot => Sys2Proof.Machine.execReplaceRetry slot s
  | .refCompare c engine spareTime bad => Sys2Proof.Machine.execRefCompare c engine spareTime bad s
  | .refDone c engine => Sys2Proof.Machine.execRefDone c engine s
  | .clipCheck => Sys2Proof.Machine.execClipCheck s
  | .matchSearch profile key upsets => Sys2Proof.Machine.execMatchSearch profile key upsets s
  | .sliceSummary c buf cohort entry poison => Sys2Proof.Machine.execSliceSummary c buf cohort entry poison s
  | .tokenSample slot => Sys2Proof.Machine.execTokenSample slot s
  | .matchSummaryDone slot upsets => Sys2Proof.Machine.execMatchSummaryDone slot upsets s
  | .checkLaunch slot => Sys2Proof.Machine.execCheckLaunch slot s
  | .checkVerdict slot lo epoch scores poison => Sys2Proof.Machine.execCheckVerdict slot lo epoch scores poison s
  | .checkTimeout slot => Sys2Proof.Machine.execCheckTimeout slot s
  | .rewindApply slot => Sys2Proof.Machine.execRewindApply slot s
  | .redactApply slot => Sys2Proof.Machine.execRedactApply slot s
  | .skipRun slot => Sys2Proof.Machine.execSkipRun slot s
  | .descriptorFetched ctx d r => Sys2Proof.Machine.execDescriptorFetched ctx d r s
  | .jobDecision ctx segs => Sys2Proof.Machine.execJobDecision ctx segs s
  | .streamOpenDecision ctx => Sys2Proof.Machine.execStreamOpenDecision ctx s
  | .pauseDecision ctx => Sys2Proof.Machine.execPauseDecision ctx s
  | .resumeDecision ctx => Sys2Proof.Machine.execResumeDecision ctx s
  | .jobTokenCopy ctx tag d => Sys2Proof.Machine.execJobTokenCopy ctx tag d s
  | .requestSweep ctx tag seg upsets => Sys2Proof.Machine.execRequestSweep ctx tag seg upsets s
  | .jobCompose ctx tag scores flt => Sys2Proof.Machine.execJobCompose ctx tag scores flt s
  | .jobDeadline ctx tag flt => Sys2Proof.Machine.execJobDeadline ctx tag flt s
  | .replan => Sys2Proof.Machine.execReplan s
  | .jobCancelEffect ctx tag => Sys2Proof.Machine.execJobCancelEffect ctx tag s
  | .configChangeEffect => Sys2Proof.Machine.execConfigChangeEffect s
  | .oneSlotUpdate bank => Sys2Proof.Machine.execOneSlotUpdate bank s
  | .threeStepUpdate bank => Sys2Proof.Machine.execThreeStepUpdate bank s
  | .commitEffect => Sys2Proof.Machine.execCommitEffect s
  | .automatonReplay slot => Sys2Proof.Machine.execAutomatonReplay slot s
  | .matchScrubRead addr flips => Sys2Proof.Machine.execMatchScrubRead addr flips s
  | .bankRetire bank => Sys2Proof.Machine.execBankRetire bank s
  | .streamStart slot => Sys2Proof.Machine.execStreamStart slot s
  | .seatAssign cohort => Sys2Proof.Machine.execSeatAssign cohort s
  | .pageMigrate => Sys2Proof.Machine.execPageMigrate s
  | .pageEviction => Sys2Proof.Machine.execPageEviction s
  | .pausingEnter slot => Sys2Proof.Machine.execPausingEnter slot s
  | .pauseCopyDone slot ok => Sys2Proof.Machine.execPauseCopyDone slot ok s
  | .pauseExpiry => Sys2Proof.Machine.execPauseExpiry s
  | .resumePageIn slot ok => Sys2Proof.Machine.execResumePageIn slot ok s
  | .streamCancelEffect slot => Sys2Proof.Machine.execStreamCancelEffect slot s
  | .streamSlotFree slot => Sys2Proof.Machine.execStreamSlotFree slot s
  | .windowDepartEdge win => Sys2Proof.Machine.execWindowDepartEdge win s
  | .pauseMigrate entry ok => Sys2Proof.Machine.execPauseMigrate entry ok s
  | .noticePacket q prod words => Sys2Proof.Machine.execNoticePacket q prod words s
  | .packetRewind q cause => Sys2Proof.Machine.execPacketRewind q cause s
  | .noticeCommit q spill single double => Sys2Proof.Machine.execNoticeCommit q spill single double s
  | .watchdogExpiry role e => Sys2Proof.Machine.execWatchdogExpiry role e s
  | .roleRestored role us => Sys2Proof.Machine.execRoleRestored role us s
  | .mbxUpRestore => Sys2Proof.Machine.execMbxUpRestore s
  | .resetRelease b => Sys2Proof.Machine.execResetRelease b s
  | .bootReady => Sys2Proof.Machine.execBootReady s
  | .updateQuietTick => Sys2Proof.Machine.execUpdateQuietTick s
  | .updateSwitch head secs adopts => Sys2Proof.Machine.execUpdateSwitch head secs adopts s
  | .updateDone => Sys2Proof.Machine.execUpdateDone s
  | .updateRollback cause => Sys2Proof.Machine.execUpdateRollback cause s
  | .hstate rx pkt t => Sys2Proof.Machine.execHstate rx pkt t s
  | .skipPacket rx pkt t => Sys2Proof.Machine.execSkipPacket rx pkt t s
  | .rdRequest rx pkt => Sys2Proof.Machine.execRdRequest rx pkt s
  | .wrRequest rx pkt => Sys2Proof.Machine.execWrRequest rx pkt s
  | .rdata rx pkt => Sys2Proof.Machine.execRdata rx pkt s
  | .wack rx pkt => Sys2Proof.Machine.execWack rx pkt s
  | .nack rx pkt => Sys2Proof.Machine.execNack rx pkt s
  | .windowTimeout tag => Sys2Proof.Machine.execWindowTimeout tag s
  | .bgUrgent kind loc => Sys2Proof.Machine.execBgUrgent kind loc s
  | .bgMissed kind loc => Sys2Proof.Machine.execBgMissed kind loc s
  | .wearCheck u signal x failed => Sys2Proof.Machine.execWearCheck u signal x failed s
  | .channelCopyDone stack ch => Sys2Proof.Machine.execChannelCopyDone stack ch s
  | .channelRetire stack ch => Sys2Proof.Machine.execChannelRetire stack ch s
  | .rowRepair stack ch dramBank row uncorr => Sys2Proof.Machine.execRowRepair stack ch dramBank row uncorr s
  | .laneRetrain io groupC lane => Sys2Proof.Machine.execLaneRetrain io groupC lane s
  | .journalWrite type payload c0 c1 => Sys2Proof.Machine.execJournalWrite type payload c0 c1 s
  | .thermTrip kind die temp => Sys2Proof.Machine.execThermTrip kind die temp s
  | .thermalShutdown => Sys2Proof.Machine.execThermalShutdown s
  | .thermCritical kind die => Sys2Proof.Machine.execThermCritical kind die s
  | .resetAssert => Sys2Proof.Machine.execResetAssert s
  | .pwrGoodFall => Sys2Proof.Machine.execPwrGoodFall s
  | .hostPortReset port => Sys2Proof.Machine.execHostPortReset port s
  | .pcieErr port aer => Sys2Proof.Machine.execPcieErr port aer s
  | .cxlLinkDown link timeout => Sys2Proof.Machine.execCxlLinkDown link timeout s
  | .mgmtPacket die pkt => Sys2Proof.Machine.execMgmtPacket die pkt s
  | .throttleOn x group => Sys2Proof.Machine.execThrottleOn x group s
  | .throttleOff => Sys2Proof.Machine.execThrottleOff s
  | .ident => Sys2Proof.Machine.execIdent s
  | .smbStatus => Sys2Proof.Machine.execSmbStatus s
  | .temps x => Sys2Proof.Machine.execTemps x s
  | .limits => Sys2Proof.Machine.execLimits s
  | .senseFwd vals pec => Sys2Proof.Machine.execSenseFwd vals pec s
  | .senseStale => Sys2Proof.Machine.execSenseStale s
  | .sensePark word pec => Sys2Proof.Machine.execSensePark word pec s
  | .senseParkEnd out => Sys2Proof.Machine.execSenseParkEnd out s
  | .calBegin pec => Sys2Proof.Machine.execCalBegin pec s
  | .calPart data pec => Sys2Proof.Machine.execCalPart data pec s
  | .calCommit pec store => Sys2Proof.Machine.execCalCommit pec store s
  | .calClear pec store => Sys2Proof.Machine.execCalClear pec store s
  | .alertCause => Sys2Proof.Machine.execAlertCause s
  | .alertResponse => Sys2Proof.Machine.execAlertResponse s
  | .jtagBypass tdi => Sys2Proof.Machine.execJtagBypass tdi s
  | .jtagIdcode tdi => Sys2Proof.Machine.execJtagIdcode tdi s
  | .jtagSamplePreload tdi pins => Sys2Proof.Machine.execJtagSamplePreload tdi pins s
  | .jtagExtest tdi pins => Sys2Proof.Machine.execJtagExtest tdi pins s
  | .jtagClamp tdi => Sys2Proof.Machine.execJtagClamp tdi s
  | .jtagHighz tdi => Sys2Proof.Machine.execJtagHighz tdi s
  | .jtagTapReset => Sys2Proof.Machine.execJtagTapReset s
  | .temperStep x => Sys2Proof.Machine.execTemperStep x s
  | .temperDone run => Sys2Proof.Machine.execTemperDone run s
  | .temperRequantise run => Sys2Proof.Machine.execTemperRequantise run s
  | .temperRebind run => Sys2Proof.Machine.execTemperRebind run s
  | .updStateStaged store => Sys2Proof.Machine.execUpdStateStaged store s
  | .patrolScrub unit corr uncorr => Sys2Proof.Machine.execPatrolScrub unit corr uncorr s
  | .configurationRequest port req => Sys2Proof.Machine.execConfigurationRequest port req s
  | .fabCrc rx pkt => Sys2Proof.Machine.execFabCrc rx pkt s

end Sys2Proof.Machine
end

