-- ==== Sys2Proof/Safety.lean ====
section
/-! DEFINITION. The terms in which statements about the block are made: a message heard and its answer, memories and
queues in their proper form, registers that hold a legal value, a run without a stop. -/
namespace Sys2Proof.Machine

/- Messages (12). -/
/-- Mailbox n has begun a command of opcode op with payload p, and no reserved byte of p is set (R341, R343). -/
def heard (u : Units) (n op : Nat) (p : Bytes) : Prop :=
  begunWith u n op = some p ∧
    (match layoutOf op p with
     | some (_, bytes, named) => reservedAt p bytes named = none
     | none => False)
/-- Mailbox n holds a prepared answer for MBX_RESPONSE. -/
def answered (s : State) (n : Nat) (a : Ans) : Prop :=
  (tgetD s.u.mbx n {}).phase = .ready ∧ (tgetD s.u.mbx n {}).ans = some a
/-- Mailbox n's command has been accepted and its answer is still to come. -/
def awaits (s : State) (n : Nat) : Prop := (tgetD s.u.mbx n {}).phase = .waiting

/- What reaches the block. -/
/-- The control BAR takes a host's writes: power, no reset, and not the recovery state (R328, R464). -/
def barOpen (u : Units) : Prop := isUp u = true ∧ u.fw.stage ≠ 5
/-- A packet of class cls on a port is within its credits and passes the checks of R374, so that its command takes it. -/
def arrives (u : Units) (cls : Nat) (rx : Rx) (p : Bytes) : Prop :=
  isUp u = true ∧ rxBeyond (rxFlits rx u) rx p = false ∧ fabFault u rx.port p = none ∧ le p 0 1 = cls
/-- A port can send a packet of n units of 64 bytes at once: nothing waits and the far end's buffer has room (R375). -/
def portFree (u : Units) (port vc n : Nat) : Prop :=
  (tgetD u.fab.ports port {}).wait = [] ∧ tgetD (tgetD u.fab.ports port {}).spent vc 0 + n ≤ vcCredits vc

/- Cores (05). -/
/-- t is s but for core k, which holds x. -/
def onlyCore (s t : State) (k : Nat) (x : CoreSt) : Prop :=
  t = { s with u := { s.u with core := t.u.core } } ∧ coreAt t.u k = x ∧ ∀ j, j ≠ k → coreAt t.u j = coreAt s.u j
/-- The queues of a core are empty, so that nothing else starts with an instruction. -/
def quietCore (x : CoreSt) : Prop := x.qq = [] ∧ x.qf = [] ∧ x.qm = [] ∧ x.qv = [] ∧ x.qd = [] ∧ x.qh = []
/-- The core an instruction names. -/
abbrev coreOf (s : State) (c : CoreId) : CoreSt := coreAt s.u (coreKey c)
/-- A core with nothing waiting has dispatched an instruction to queue V: the program is past it, and the vector unit has
executed it already or not, by one draw of the free choice that no rule fixes (R127). -/
def vIssued (k : Nat) (i : Instr) (s : State) : State :=
  vRun k (Config.freeNat s.u.freeIx % 2)
    { s with u := { setCore k (advPc 0 { coreAt s.u k with qv := [i] }) s.u with freeIx := s.u.freeIx + 1 } }

/- The form of the state. -/
/-- Every byte memory is in its canonical form. -/
def memsWf (m : Mems) : Bool := m.t1.wf && m.t2.wf && Tsorted m.sram && m.sram.all (fun e => e.2.wf)
/-- Only the front packet of the chain has words in the spill SRAM, and there is room for the rest of it (R296, R298). -/
def openFits (q : QInst) : Bool :=
  match q.chain with
  | x :: r => (x.out == 0 || qfill q + 8 ≤ 4096) && r.all (fun y => y.out == 0)
  | [] => true
/-- What 10 fixes for an instance of the queue primitive: packets of at most 8 words, 64 words in the chain (R296), 4,096
committed and the packet in progress always room (R298), counters that saturate at 48 bits, SEQ of 32 bits. -/
def queueWf (q : QInst) : Bool :=
  openFits q && q.chain.all (fun x => x.words.length ≤ 8) && chainWords q ≤ 64 && qfill q ≤ 4096 && q.commits < 2 ^ 32 && q.seqLast < 2 ^ 32
    && q.thresh < 2 ^ 13 && q.flushed < 2 ^ 48 && q.rewound < 2 ^ 48 && q.parErr < 2 ^ 48 && q.eccCorr < 2 ^ 48
    && q.eccUnc < 2 ^ 48
/-- All three instances. -/
def queuesWf (q : Queues) : Bool := queueWf q.notice && queueWf q.log && queueWf q.fab

/- Runs. -/
/-- n steps from s all answer a next state, the last of them t. -/
def runsTo : Nat → State → State → Prop
  | 0, s, t => s = t
  | n + 1, s, t => ∃ r, step s = .next r ∧ runsTo n r t
/-- A safe run: no step of the first n from s faults or is refused. -/
def safeRun (n : Nat) (s : State) : Prop := ∃ t, runsTo n s t

end Sys2Proof.Machine
end

