-- ==== Sys2Proof/Certificates/Slice0/Obligations.lean ====
section
/-! DEFINITION. The statements about the block, one definition each: registers and mailboxes, queues, the tick, messages,
engines and step programs, matching, streams, jobs, firmware, service life, pins, and what every step keeps. -/
open Sys2Proof Sys2Proof.Machine

/- Registers, mailboxes, the tick (00, 02, 10, 12, 15, 17, 19). -/
/-- A step takes the command at the front of the queue and runs it on the state with the queue's rest. -/
def Obligations.StepRunsFrontCommand : Prop :=
  ∀ (s : State) (c : Instr) (r : List Instr), s.pending = c :: r → step s = exec c { s with pending := r }

/-- With no command waiting one engine cycle passes: TICK_TIME advances by 1 (R38) unless the parts of a nanosecond that
the slew has gathered make it 0 or 2 (DESIGN CHOICE, log 2); nothing but time, what counts it, and the fraction changes. -/
def Obligations.IdleCyclePassesOneEngineCycle : Prop :=
  ∀ s : State, s.pending = [] → ∃ t, step s = .next t ∧
    t = { s with u := { s.u with
      tick := { s.u.tick with time := t.u.tick.time, slewFrac := t.u.tick.slewFrac }
      svc := { s.u.svc with poweredNs := t.u.svc.poweredNs }, cnt := { s.u.cnt with die := t.u.cnt.die } } } ∧
    (-1000000000 < s.u.tick.slewFrac + s.u.tick.slew → s.u.tick.slewFrac + s.u.tick.slew < 1000000000 →
      s.u.tick.time < 2 ^ 64 → t.u.tick.time = (s.u.tick.time + 1) % 2 ^ 64 ∧ t.u.svc.poweredNs = s.u.svc.poweredNs + 1)

/-- What reset leaves: P, I and E at 100, 35 and 7 microseconds, the tick stopped (R503), the block disabled and no class
of error set (R500 to R502), MBX_LAST_SEQ of every mailbox all ones with no response stored (R347), the boot ROM running
(R328), every counter and queue empty (R305, R507), nothing pending. -/
def Obligations.ResetLeavesTheSpecsValues : Prop :=
  State.reset.u.tick.period = 100 ∧ State.reset.u.tick.ingress = 35 ∧ State.reset.u.tick.egress = 7 ∧
  State.reset.u.tick.st = .stopped ∧ State.reset.u.tick.en = false ∧ State.reset.u.blk = {} ∧
  (∀ n, (tgetD State.reset.u.mbx n {}).lastSeq = 0xFFFFFFFF ∧ (tgetD State.reset.u.mbx n {}).stored = none ∧
    (tgetD State.reset.u.mbx n {}).busy = false) ∧
  State.reset.u.fw.stage = 0 ∧ State.reset.u.fw.mbxUp = false ∧ State.reset.u.fw.bootCfg = 0x44 ∧
  State.reset.q = {} ∧ State.reset.u.prodN = {} ∧ State.reset.u.cnt = {} ∧ State.reset.m = {} ∧ State.reset.pending = [] ∧
  (∀ c, (coreAt State.reset.u c).launch = none) ∧ (∀ k, (tgetD State.reset.u.str k {}).st = .free) ∧
  (∀ k, (tgetD State.reset.u.slot k {}).st = .empty) ∧ (∀ k, (tgetD State.reset.u.ctx k {}).state = 0)

/-- An access of a wrong width or alignment writes nothing and reads 0, and raises REG_ACCESS with offset, width and port
(R12). A well-formed host access reaches its register: a write of TICK_INLAT, PIN_OUT or a mailbox's MBX_INT_EN leaves exactly
that field at the value, of the register's width; a read of TICK_NUMBER, TICK_PERIOD or FW_BOOTCFG returns the field and
changes nothing else (R10, R12, R17, R503, R506, R338). A read of an RC register returns the value before the events of its
cycle, and those events remain after the clear (R11): the six counters of the notice queue. -/
def Obligations.RegisterAccessReachesItsRegister : Prop :=
  (
  ∀ (s : State) (port : Fin 2) (off w : Nat) (v : W64), off < 2 ^ 24 → accessOk off w = false →
    (∀ bad, exec (.regWrite port off w v bad) s =
      .next (onUnits (notice (dieKey 3 0) 0x0801 0 [off, w, port]) s)) ∧
    exec (.regAccess port off w (some v)) s = .next (onUnits (notice (dieKey 3 0) 0x0801 0 [off, w, port]) s) ∧
    exec (.regAccess port off w none) s =
      .next (onUnits (fun u => emit (.read port 0) (notice (dieKey 3 0) 0x0801 0 [off, w, port] u)) s)) ∧
  (
  ∀ (s : State) (port : Fin 2) (v : W64), isUp s.u = true → s.u.fw.stage ≠ 5 →
    exec (.regWrite port 0x10048 4 v false) s =
      .next (onUnits (fun u => { u with tick := { u.tick with inlat := v.toNat % 2 ^ 16 } }) s) ∧
    exec (.regWrite port 0x30040 4 v false) s =
      .next (onUnits (fun u => { u with pins := { u.pins with out := v.toNat % 2 ^ 16 } }) s) ∧
    (∀ n : Fin 64, exec (.regAccess port (0x100000 + 0x2000 * n + 0xFC8) 4 (some v)) s =
      .next (onUnits (fun u => { u with
        mbx := tset u.mbx n { tgetD u.mbx n {} with intEn := bitAt v.toNat 0 } }) s)) ∧
    exec (.regAccess port 0x10030 8 none) s = .next (onUnits (emit (.read port s.u.tick.number)) s) ∧
    exec (.regAccess port 0x10008 4 none) s = .next (onUnits (emit (.read port s.u.tick.period)) s) ∧
    exec (.regAccess port 0x10C 4 none) s = .next (onUnits (emit (.read port s.u.fw.bootCfg)) s)) ∧
  (
  ∀ (s : State) (port : Fin 2) (events : Nat), isUp s.u = true → s.u.fw.stage ≠ 5 →
    (∃ t, exec (.rcRead port 0x20080 events) s = .next t ∧ t.u.out = s.u.out ++ [.read port s.u.prodN.lost] ∧
      t.u.prodN = { s.u.prodN with lost := satN 48 events } ∧
      t = { s with u := { s.u with prodN := t.u.prodN, out := t.u.out } }) ∧
    (∀ off get, (off, get) ∈ [(0x20090, QInst.flushed), (0x20098, QInst.rewound), (0x200A0, QInst.parErr),
        (0x200A8, QInst.eccCorr), (0x200B0, QInst.eccUnc)] →
      ∃ t, exec (.rcRead port off events) s = .next t ∧ t.u.out = s.u.out ++ [.read port (get s.q.notice)] ∧
        get t.q.notice = satN 48 events ∧
        t = { s with u := { s.u with out := t.u.out }, q := { s.q with notice := t.q.notice } } ∧
        t.q.notice.committed = s.q.notice.committed ∧ t.q.notice.chain = s.q.notice.chain))

/-- Tick registers written while the tick does not run: P sets I and E to their defaults (R35), TICK_TIME takes the value
(R38), a slew is clamped to 200 ppm and takes effect at once (R39), an offset below P is taken (R40). While the tick runs, a
write to TICK_PERIOD, TICK_TIME or TICK_OFFSET has no effect and raises TICK_REG_LOCKED with the register's offset and the
value (R38, R42); a slew waits for the next edge (R39). In reset, shut down or in the recovery state none of them acts (R328). -/
def Obligations.TickRegistersAreWrittenOnlyWhileStopped : Prop :=
  (
  (∀ (s : State) (v : W32), barOpen s.u → s.u.tick.st = .stopped → s.u.blk.en = false →
    exec (.tickPeriodWrite v) s = .next (onUnits (fun u => { u with tick := { u.tick with
      period := v.toNat % 2048, ingress := 35 * (v.toNat % 2048) / 100
      egress := max 4 (7 * (v.toNat % 2048) / 100) } }) s)) ∧
  (∀ (s : State) (v : W64), barOpen s.u → s.u.tick.st = .stopped →
    exec (.tickTimeWrite v) s = .next (onUnits (fun u => { u with tick := { u.tick with time := v.toNat } }) s)) ∧
  (∀ (s : State) (v : W32), barOpen s.u → s.u.tick.st = .stopped → disciplined s.u = false →
    exec (.tickSlewWrite v) s = .next (onUnits (fun u => { u with tick := { u.tick with
      slew := max (-200000) (min 200000 v.toInt), slewNext := none } }) s)) ∧
  (∀ (s : State) (v : W32), barOpen s.u → s.u.tick.st = .stopped → v.toNat < s.u.tick.period * 1000 →
    exec (.tickOffsetWrite v) s = .next (onUnits (fun u => { u with tick := { u.tick with offset := v.toNat } }) s))) ∧
  (
  ∀ (s : State) (v : W32) (w : W64), barOpen s.u → s.u.tick.st ≠ .stopped →
    exec (.tickPeriodWrite v) s = .next (onUnits (notice (dieKey 3 0) 0x0105 0 [0x10008, v.toNat]) s) ∧
    exec (.tickTimeWrite w) s = .next (onUnits (notice (dieKey 3 0) 0x0105 0 [0x10028, w.toNat]) s) ∧
    exec (.tickOffsetWrite v) s = .next (onUnits (notice (dieKey 3 0) 0x0105 0 [0x10020, v.toNat]) s) ∧
    (disciplined s.u = false → exec (.tickSlewWrite v) s = .next (onUnits (fun u => { u with
      tick := { u.tick with slewNext := some (max (-200000) (min 200000 v.toInt)) } }) s))) ∧
  (
  ∀ (s : State) (v : W32) (w : W64), ¬ barOpen s.u →
    exec (.tickPeriodWrite v) s = .next s ∧ exec (.tickTimeWrite w) s = .next s ∧ exec (.tickSlewWrite v) s = .next s ∧
    exec (.tickOffsetWrite v) s = .next s)

/-- TICK_START: EN set while BLK_ENABLE = 1 and the tick stands starts it: STATE is STARTING, and under source 0 the first
edge is the first of the epoch's grid at least 2 P away (R53). TICK_STOP_REQUEST while BLK_ENABLE = 0: EN reads 0 from the
write and the next edge stops the tick (R54); while BLK_ENABLE = 1 it has no effect and raises TICK_REG_LOCKED. Block control:
EN written 1 starts the check (R412), a 0 disables a block with no context in service, and a forced stop waits for the next
edge while the tick runs (R413); plain mode is selected only while EN = 0, with its notice (R399, R501). SNAP and CLR wait for
the next edge (R507). A write that changes FUNC begins a switch of the pin (R468). -/
def Obligations.TickStartStopAndBlockControl : Prop :=
  (
  (∀ (s : State) (v : W32), barOpen s.u → bitAt v.toNat 0 = true → s.u.blk.en = true → s.u.tick.en = false → s.u.tick.stopReq = false →
    s.u.tick.st = .stopped → 0 < s.u.tick.period →
    ∃ t, exec (.tickStart v) s = .next t ∧ t.u.tick.en = true ∧ t.u.tick.st = .starting ∧
      t.u.tick.outEn = bitAt v.toNat 3 ∧ t.u.tick.anchor = none ∧ t.u.tick.armed = [] ∧
      (∃ k, t.u.tick.startAt = s.u.tick.epoch + s.u.tick.offset + k * (s.u.tick.period * 1000) ∧
        s.u.tick.time + 2 * (s.u.tick.period * 1000) ≤ t.u.tick.startAt ∧
        (0 < k → s.u.tick.epoch + s.u.tick.offset + (k - 1) * (s.u.tick.period * 1000)
          < s.u.tick.time + 2 * (s.u.tick.period * 1000))) ∧
      t = { s with u := { s.u with tick := t.u.tick } }) ∧
  (∀ (s : State) (v : W32), barOpen s.u → bitAt v.toNat 0 = false → s.u.blk.en = false → s.u.tick.en = true →
    bitsOf v.toNat 2 1 = s.u.tick.src → s.u.tick.src ≠ 3 →
    exec (.tickStopRequest v) s = .next (onUnits (fun u => { u with tick := { u.tick with
      outEn := bitAt v.toNat 3, en := false, stopReq := true } }) s)) ∧
  (∀ (s : State) (v : W32), barOpen s.u → bitAt v.toNat 0 = false → s.u.blk.en = true → s.u.tick.en = true →
    bitsOf v.toNat 2 1 = s.u.tick.src → s.u.tick.src ≠ 3 →
    exec (.tickStopRequest v) s = .next (onUnits (fun u => notice (dieKey 3 0) 0x0105 0 [0x10000, v.toNat]
      { u with tick := { u.tick with outEn := bitAt v.toNat 3 } }) s))) ∧
  (
  (∀ s : State, barOpen s.u → s.u.blk.en = false → s.u.blk.checking = false → exec .blkEnableRequest s =
    .next (onUnits (fun u => { u with blk := { u.blk with checking := true } }) s)) ∧
  (∀ s : State, barOpen s.u → anyInService s.u = false → exec .blkDisable s =
    .next (onUnits (fun u => { u with blk := { u.blk with en := false } }) s)) ∧
  (∀ s : State, barOpen s.u → s.u.blk.en = true → s.u.tick.st ≠ .stopped → exec .blkStop s =
    .next (onUnits (fun u => { u with blk := { u.blk with stopping := true }, tick := { u.tick with forced := true } }) s)) ∧
  (∀ s : State, barOpen s.u → s.u.blk.en = false → exec (.arbPlainWrite false) s =
    .next (onUnits (fun u => { u with blk := { u.blk with arbPlain := false } }) s)) ∧
  (∀ s : State, barOpen s.u → s.u.blk.en = false → exec (.arbPlainWrite true) s = .next (onUnits (fun u =>
    notice (dieKey 3 0) 0x0E04 0 [] { u with blk := { u.blk with arbPlain := true } }) s)) ∧
  (∀ s : State, barOpen s.u → s.u.blk.en = false → exec .blkStop s = .next s) ∧
  (∀ s : State, barOpen s.u → anyInService s.u = true →
    exec .blkDisable s = .next (onUnits (notice (dieKey 3 0) 0x0F04 0 [0]) s)) ∧
  (∀ (s : State) (v : Bool), s.u.blk.en = true → exec (.arbPlainWrite v) s = .next s) ∧
  (∀ s : State, barOpen s.u → exec .cntSnap s = .next (onUnits (fun u => { u with cnt := { u.cnt with snapReq := true } }) s)) ∧
  (∀ s : State, barOpen s.u → exec .cntClr s = .next (onUnits (fun u => { u with cnt := { u.cnt with clrReq := true } }) s)) ∧
  (∀ (s : State) (n : Fin 16) (v : W32), barOpen s.u → bitsOf v.toNat 3 0 ≤ 5 → (tgetD s.u.pins.gpio n {}).func ≠ bitsOf v.toNat 3 0 →
    exec (.pinFuncWrite n v) s = .next (onUnits (fun u => { u with pins := { u.pins with
      gpio := tset u.pins.gpio n { func := bitsOf v.toNat 3 0, park := bitsOf v.toNat 15 8,
                                   next := some (bitsOf v.toNat 3 0), level := false } } }) s)) ∧
  (∀ (s : State) (n : Fin 16) (v : W32), barOpen s.u → 5 < bitsOf v.toNat 3 0 →
    exec (.pinFuncWrite n v) s = .next (onUnits (notice (dieKey 3 0) 0x0965 0 [n, v.toNat]) s)))

/-- A pop of a non-empty queue returns the header of the oldest packet of the most severe severity, removes that packet alone
and puts it in the port's read buffer; a pop of an empty queue returns 0 and clears the buffer (R300, R301). A flush discards
every packet committed or in the chain and counts each once; read buffers, sticky mirror, SEQ and the other counters stand
(R303). Writing 1 to bit k of NQ_CRIT_VALID clears slot k and no other (R305). -/
def Obligations.PopFlushAndClear : Prop :=
  (
  (∀ (s : State) (port : Fin 2) (c : CPkt), barOpen s.u → s.q.notice.eccCorr < 2 ^ 48 →
    qFront s.q.notice.committed = some c →
    ∃ t, exec (.nqPop port 0 0) s = .next t ∧ t.u = emit (.read port (c.words.headD 0).toNat) s.u ∧
      t.q.notice.committed = s.q.notice.committed.erase c ∧ t.q.notice.chain = s.q.notice.chain ∧
      (if port = 0 then t.q.notice.rbuf0 else t.q.notice.rbuf1) =
        { valid := true, sev := c.sev, words := c.words, poison := c.poison } ∧
      (if port = 0 then t.q.notice.rbuf1 = s.q.notice.rbuf1 else t.q.notice.rbuf0 = s.q.notice.rbuf0) ∧
      t = { s with u := t.u, q := { s.q with notice := t.q.notice } }) ∧
  (∀ (s : State) (port : Fin 2), barOpen s.u → s.q.notice.committed = [] →
    ∃ t, exec (.nqPop port 0 0) s = .next t ∧ t.u = emit (.read port 0) s.u ∧
      (if port = 0 then t.q.notice.rbuf0 else t.q.notice.rbuf1) = {} ∧ t.q.notice.committed = [] ∧
      t = { s with u := t.u, q := { s.q with notice := t.q.notice } }) ∧
  (∀ (l : List CPkt) (c : CPkt), (∀ d ∈ l, d.sev ≤ 3) → qFront l = some c →
    c ∈ l ∧ (∀ d ∈ l, c.sev ≤ d.sev) ∧ (∀ x y, l = x ++ c :: y → c ∉ x → ∀ d ∈ x, c.sev < d.sev))) ∧
  (
  (∀ s : State, barOpen s.u → exec .nqFlush s = .next { s with q := { s.q with notice := { s.q.notice with
      committed := [], chain := []
      flushed := min (s.q.notice.flushed + s.q.notice.committed.length + s.q.notice.chain.length) (2 ^ 48 - 1) } } }) ∧
  (∀ (s : State) (mask : BitVec 16), barOpen s.u → ∃ t, exec (.nqCritClear mask) s = .next t ∧
    t = { s with u := { s.u with prodN := { s.u.prodN with mirror := t.u.prodN.mirror } } } ∧
    (∀ k, bitAt mask.toNat k = true → tget t.u.prodN.mirror k = none) ∧
    (∀ k, bitAt mask.toNat k = false → tget t.u.prodN.mirror k = tget s.u.prodN.mirror k)))

/-- NOTICE_PACKET: with no packet of any producer waiting, a packet of 1 to 8 words presented on an instance is granted whole
and goes to the end of the chain, if the chain has room for it (R293, R296); the log queue takes a log event in modes 1 and 2,
a trace point only in mode 2, enabled, within the 64 of its tick, with TICK_TIME as its word 1, and nothing in mode 0 (R335,
R336). PACKET_REWIND: the open packet vanishes from the chain and NQ_REWOUND counts it; nothing committed changes, no interrupt
and no mirror (R294). With a tag parity failure the packet at stage 0 goes and NQ_PAR_ERR counts it too (R296). A notice joins
the packets that wait at its producer while fewer than three wait, one of severity 0 while fewer than four do; with four
waiting, or with three of lower severity for one that is not of severity 0, it is lost: NQ_LOST and the bit of its severity say
so, and a severity-0 notice still reaches slot CODE[3:0] of the sticky mirror (R295, R305, R306). -/
def Obligations.PacketsAreGrantedOrVanish : Prop :=
  (
  (∀ (s : State) (n : Fin 3) (prod : Nat) (words : List W64), n ≠ 1 → (pGet s.u n).wait = [] → words ≠ [] →
    words.length ≤ 8 → chainWords (qGet s.q n) + words.length ≤ 64 →
    ∃ t, exec (.noticePacket n prod words) s = .next t ∧
      (qGet t.q n).chain = (qGet s.q n).chain ++ [{ prod := prod, words := words }] ∧
      (qGet t.q n).committed = (qGet s.q n).committed ∧ (qGet t.q n).grantLast = prod ∧
      (∀ k, tgetD (pGet t.u n).wait k [] = []) ∧ (pGet t.u n).lost = (pGet s.u n).lost ∧
      t = { s with u := pPut s.u n (pGet t.u n), q := qPut s.q n (qGet t.q n) }) ∧
  (∀ (s : State) (prod : Nat) (w0 w1 : W64) (rest : List W64), s.u.prodL.wait = [] → rest.length ≤ 6 →
    chainWords s.q.log + (rest.length + 2) ≤ 64 → s.u.fw.vis ≠ 0 → 0x1000 ≤ bitsOf w0.toNat 63 48 →
    bitsOf w0.toNat 63 48 ≤ 0x2FFF →
    (0x2000 ≤ bitsOf w0.toNat 63 48 → s.u.fw.vis = 2 ∧
      (∃ r ∈ s.u.fw.traces, r.1 ≤ bitsOf w0.toNat 63 48 ∧ bitsOf w0.toNat 63 48 ≤ r.2) ∧
      (s.u.fw.traceTick = s.u.tick.number → s.u.fw.traceCount < 64)) →
    ∃ t, exec (.noticePacket 1 prod (w0 :: w1 :: rest)) s = .next t ∧
      t.q.log.chain = s.q.log.chain ++ [{ prod := prod, words := w0 :: BitVec.ofNat 64 s.u.tick.time :: rest }] ∧
      t.q.log.committed = s.q.log.committed ∧ (∀ k, tgetD t.u.prodL.wait k [] = []) ∧
      t = { s with
        u := { s.u with prodL := t.u.prodL
                        fw := { s.u.fw with traceTick := t.u.fw.traceTick, traceCount := t.u.fw.traceCount } }
        q := { s.q with log := t.q.log } }) ∧
  (∀ (s : State) (prod : Nat) (words : List W64), s.u.prodL.wait = [] → s.u.fw.vis = 0 →
    exec (.noticePacket 1 prod words) s = .next s)) ∧
  (
  (∀ (s : State) (n : Fin 3) (cause : RewindCause) (l : List Pkt) (x : Pkt), (qGet s.q n).chain = l ++ [x] → cause ≠ .tagParity →
    exec (.packetRewind n cause) s = .next { s with q := qPut s.q n { qGet s.q n with
      chain := l, rewound := satN 48 ((qGet s.q n).rewound + 1), parErr := satN 48 (qGet s.q n).parErr } }) ∧
  (∀ (s : State) (n : Fin 3) (l : List Pkt) (x : Pkt), (qGet s.q n).chain = x :: l →
    exec (.packetRewind n .tagParity) s = .next { s with q := qPut s.q n { qGet s.q n with
      chain := l, rewound := satN 48 ((qGet s.q n).rewound + 1), parErr := satN 48 ((qGet s.q n).parErr + 1) } })) ∧
  (
  (∀ (prod code ctx : Nat) (args : List Nat) (u : Units), (tgetD u.prodN.wait prod []).length < 3 →
    notice prod code ctx args u =
      { u with prodN := { u.prodN with
          wait := tset u.prodN.wait prod (tgetD u.prodN.wait prod [] ++
            [{ prod := prod, words := noticeWords code ctx u.tick.number args }]) } }) ∧
  (∀ (prod code ctx : Nat) (args : List Nat) (u : Units), sevOf code = 0 → code < 2 ^ 16 → ctx < 64 → args.length ≤ 6 →
    (tgetD u.prodN.wait prod []).length < 4 →
    notice prod code ctx args u =
      { u with prodN := { u.prodN with
          wait := tset u.prodN.wait prod (tgetD u.prodN.wait prod [] ++
            [{ prod := prod, words := noticeWords code ctx u.tick.number args }]) } }) ∧
  (∀ (prod code ctx : Nat) (args : List Nat) (u : Units), sevOf code ≠ 0 → code < 2 ^ 16 → ctx < 64 → args.length ≤ 6 →
    (tgetD u.prodN.wait prod []).length = 3 → (∀ x ∈ tgetD u.prodN.wait prod [], sevField x.words ≠ 0) →
    notice prod code ctx args u = dieBump 56 0x0307 1 { u with prodN := prodLost u.prodN (sevOf code) }) ∧
  (∀ (prod code ctx : Nat) (args : List Nat) (u : Units), 4 ≤ (tgetD u.prodN.wait prod []).length →
    (notice prod code ctx args u).prodN.wait = u.prodN.wait ∧
    (notice prod code ctx args u).prodN.lost = satN 48 (u.prodN.lost + 1) ∧
    (notice prod code ctx args u).prodN.lostSev = setBit u.prodN.lostSev (sevOf code) true ∧
    (sevOf code = 0 → ∃ m, tget (notice prod code ctx args u).prodN.mirror (code % 16) = some m ∧
      m.lastTick = u.tick.number)) ∧
  (∀ (code ctx tick : Nat) (args : List Nat), (noticeWords code ctx tick args).length = args.length + 2))

/-- NOTICE_COMMIT: words of the packet at the front of the chain leave stage 0 (R296), and it commits with its last word: SEQ
the count of commits, at the end of the commit order, at the severity of its header; its words beyond the header stand; SEQ
advances (R299). Room is made at its first word by removing whole packets from the oldest on, so that 8 words are free, and each
removed counts in NQ_LOST (R298). Before its last word nothing commits. -/
def Obligations.CommitTakesTheFrontOfTheChain : Prop :=
  (∀ (s : State) (n : Fin 3) (x : Pkt) (r : List Pkt), (qGet s.q n).chain = x :: r → x.poison = 0 → x.hdrBad = false →
    x.out = 0 → x.words ≠ [] → x.words.length ≤ 8 →
    ∃ t c lost kept, exec (.noticeCommit n {} 0 0) s = .next t ∧ (qGet t.q n).chain = r ∧
      (qGet s.q n).committed = lost ++ kept ∧ (qGet t.q n).committed = kept ++ [c] ∧
      (kept = [] ∨ ((kept.map (fun p => p.words.length)).sum + 8 ≤ 4096)) ∧
      (∀ y, (∃ z, lost = z ++ [y]) → 4096 < ((y :: kept).map (fun p => p.words.length)).sum + 8) ∧
      c.seq = (qGet s.q n).commits ∧ c.sev = sevField x.words ∧ c.words.drop 1 = x.words.drop 1 ∧
      c.words.length = x.words.length ∧ c.poison = 0 ∧
      (qGet t.q n).commits = ((qGet s.q n).commits + 1) % 2 ^ 32 ∧ (qGet t.q n).seqLast = (qGet s.q n).commits ∧
      (lost = [] → (pGet t.u n).lost = (pGet s.u n).lost) ∧
      (lost ≠ [] → (pGet t.u n).lost = satN 48 (satN 48 ((pGet s.u n).lost + 1) + (lost.length - 1))) ∧
      t.m = s.m ∧ t.pending = s.pending) ∧
  (∀ (s : State) (n : Fin 3) (x : Pkt) (r : List Pkt) (i : SpillIn), (qGet s.q n).chain = x :: r →
    x.out + i.words < x.words.length →
    ∃ t y, exec (.noticeCommit n i 0 0) s = .next t ∧ (qGet t.q n).chain = y :: r ∧ y.words = x.words ∧
      y.out = x.out + i.words ∧ (∃ lost, (qGet s.q n).committed = lost ++ (qGet t.q n).committed) ∧
      (qGet t.q n).commits = (qGet s.q n).commits ∧ (qGet t.q n).seqLast = (qGet s.q n).seqLast ∧
      t.m = s.m ∧ t.pending = s.pending)

/-- Mailboxes: the doorbell sets BUSY, clears RESP and captures the command area; a doorbell while BUSY sets OVERRUN alone
(R339). A command that passes the checks of R343 is begun, in rotation (R348). The response is written whole: RESP and
LAST_STATUS set, BUSY clear, the SEQUENCE recorded (R339, R342, R347), once every role that the command changed has committed
(R313, R348). A command that a check of R343 stops, whatever else it carries, gets that check's status and is not executed. -/
def Obligations.MailboxTakesACommandAndAnswersIt : Prop :=
  (
  (∀ (s : State) (n : Fin 64), barOpen s.u → (tgetD s.u.mbx n {}).busy = false → s.u.fw.mbxUp = true →
    exec (.mbxDoorbell n) s = .next (onUnits (fun u => { u with
      mbx := tset u.mbx n { tgetD u.mbx n {} with resp := false, cmd := (tgetD u.mbx n {}).area, touched := false,
                                                   busy := true, phase := .rung, ans := none, doneAt := 0 } }) s)) ∧
  (∀ (s : State) (n : Fin 64), barOpen s.u → (tgetD s.u.mbx n {}).busy = true →
    exec (.mbxDoorbell n) s = .next (onUnits (fun u => { u with
      mbx := tset u.mbx n { tgetD u.mbx n {} with overrun := true } }) s)) ∧
  (∀ (s : State) (n : Nat), isUp s.u = true → s.u.fw.mbxUp = true → s.u.fw.stage ≠ 5 → nextRung s.u = some n →
    (tgetD s.u.mbx n {}).touched = false → commandCheck s.u.fw n (tgetD s.u.mbx n {}) = none →
    ((tgetD s.u.mbx n {}).stored = none ∨ (tgetD s.u.mbx n {}).lastSeq ≠ mle (tgetD s.u.mbx n {}).cmd 12 4) →
    (∀ r, (tgetD s.u.fw.roles r {}).state ≠ 2) →
    exec .mbxCommandBegin s = .next (onUnits (fun u => { u with
      fw := { u.fw with mbxRot := n, begun := u.fw.begun + 1 }
      mbx := tset u.mbx n { tgetD u.mbx n {} with
        ver := answerVer u.fw (tgetD u.mbx n {}), begunAt := u.fw.begun, phase := .begun } }) s)) ∧
  (∀ (s : State) (n : Nat), isUp s.u = true → s.u.fw.mbxUp = true → nextRung s.u = some n →
    (tgetD s.u.mbx n {}).touched = true → exec .mbxCommandBegin s = .fault .commandAreaOverwritten) ∧
  (∀ (s : State) (n : Fin 64) (a : Ans), mbxServes s.u = true → answered s n a →
    committedSince (tgetD s.u.mbx n {}) s.u = true → a.whole = none → a.executed = true →
    a.status < 2 ^ 16 →
    ∃ t, exec (.mbxResponse n) s = .next t ∧ (tgetD t.u.mbx n {}).busy = false ∧ (tgetD t.u.mbx n {}).resp = true ∧
      (tgetD t.u.mbx n {}).phase = .idle ∧ (tgetD t.u.mbx n {}).lastStatus = a.status ∧
      (tgetD t.u.mbx n {}).lastSeq = mle (tgetD s.u.mbx n {}).cmd 12 4 ∧
      (∀ r, (tgetD t.u.mbx n {}).stored = some r → (tgetD t.u.mbx n {}).respArea = mwrite [] 0 r) ∧
      (∀ k, k ≠ n → tget t.u.mbx k = tget s.u.mbx k) ∧
      t = { s with u := { s.u with
        mbx := t.u.mbx, cnt := { s.u.cnt with die := t.u.cnt.die }, out := t.u.out
        port0 := t.u.port0, port1 := t.u.port1 } }) ∧
  (∀ (s : State) (n : Fin 64), committedSince (tgetD s.u.mbx n {}) s.u = false → exec (.mbxResponse n) s = .next s)) ∧
  (
  ∀ (s : State) (n st : Nat), isUp s.u = true → s.u.fw.mbxUp = true → nextRung s.u = some n →
    (tgetD s.u.mbx n {}).touched = false → commandCheck s.u.fw n (tgetD s.u.mbx n {}) = some st →
    ∃ t, exec .mbxCommandBegin s = .next t ∧ answered t n { bad st 0 0xFFFF 0 with executed := false } ∧
      t = { s with u := { s.u with mbx := t.u.mbx, fw := { s.u.fw with mbxRot := n, begun := s.u.fw.begun + 1 } } } ∧
      (501 < mle (tgetD s.u.mbx n {}).cmd 4 2 → st = 2) ∧
      (mle (tgetD s.u.mbx n {}).cmd 4 2 ≤ 501 → mle (tgetD s.u.mbx n {}).cmd (16 + 8 * mle (tgetD s.u.mbx n {}).cmd 4 2) 4 ≠
        crc32c (mread (tgetD s.u.mbx n {}).cmd 0 (16 + 8 * mle (tgetD s.u.mbx n {}).cmd 4 2)) → st = 3))

/- The step tick (02) and time discipline (13). -/
/-- TICK_EDGE begins the tick whose edge is due: TICK_NUMBER, the anchor and the slew waiting for the edge (R39, R40, R46).
If the arm deadline found every unit armed, every next table becomes current (R51) and a coast ends (R64); otherwise no
unit exchanges its tables and the tick coasts, each coasting tick counted, and the eighth unarmed one halts (R51, R64,
R65). Every unit is disarmed (R50). Nothing pending is taken. -/
def Obligations.TickEdgeExchangesTablesOrCoasts : Prop :=
  ∀ (s : State) (t k : Nat), edgeDue s.u = some (t, k) → s.u.tick.stopReq = false → s.u.tick.forced = false →
    ∃ r, exec .tickEdge s = .next r ∧ r.u.tick.number = k % 2 ^ 64 ∧ r.u.tick.edgeAt = t ∧ r.u.tick.anchor = some t ∧
      r.u.tick.lastMark = 6 ∧ r.u.tick.holdover = 0 ∧ r.u.tick.slew = s.u.tick.slewNext.getD s.u.tick.slew ∧
      r.u.tick.slewNext = none ∧ r.u.tick.armSample = none ∧ r.u.tick.armed = [] ∧ r.u.tick.period = s.u.tick.period ∧
      (s.u.tick.armSample = some true → r.u.tick.st = .current ∧ r.u.tick.cur = s.u.tick.next ∧
        r.u.tick.coastRun = 0) ∧
      (s.u.tick.armSample ≠ some true → r.u.tick.cur = s.u.tick.cur ∧ r.u.tick.next = s.u.tick.next ∧
        (s.u.tick.st = .current → r.u.tick.st = .coasting ∧ r.u.tick.coastRun = 1 ∧ r.u.tick.coastFirst = k) ∧
        (s.u.tick.st = .coasting → s.u.tick.haltNext = false → r.u.tick.st = .coasting ∧
          r.u.tick.coastRun = min 255 (s.u.tick.coastRun + 1)) ∧
        (s.u.tick.st = .coasting → s.u.tick.haltNext = true → r.u.tick.st = .halted ∧ r.u.tick.haltedBit = true) ∧
        (s.u.tick.st = .halted → r.u.tick.st = .halted) ∧ (s.u.tick.st = .starting → r.u.tick.st = .starting) ∧
        (s.u.tick.st ≠ .starting → r.u.tick.coastTotal = (s.u.tick.coastTotal + 1) % 2 ^ 64)) ∧
      r.q = s.q ∧ r.pending = s.pending ∧ r.asm = s.asm ∧ r.u.core = s.u.core ∧ r.u.str = s.u.str ∧ r.u.job = s.u.job ∧
      r.u.ctx = s.u.ctx ∧ r.u.slot = s.u.slot ∧ r.u.fw = { s.u.fw with roles := r.u.fw.roles } ∧
      (s.u.tick.anchor ≠ none → r.u.fw = s.u.fw)

/-- UNIT_ARM arms a unit in service whose role runs and whose table is not locked, with at most the 64 entries of its next
table; an armed table is locked (R48, R50), and one that R154 or R155 forbids is not armed (DEDUCED, log 213). ARM_DEADLINE
samples the ARMED flags at MA, nine tenths of the tick, once in a tick (R36, R50, R51), and with the eighth coasting tick unarmed the next edge halts (R64). TICK_HALT is that edge. Sources 1 and 2: the first
measured edge after EN is set fixes the phase; a later one is accepted only within 500 ns of the expected edge and re-anchors
it, any other is discarded and counted (R42, R43, R46). With none by 500 ns after the expected edge the block makes a holdover
edge at the expected time (R44); SRC_FAULT is set after 16 of them (R44). -/
def Obligations.ArmingAndGroupEdges : Prop :=
  (
  (∀ (s : State) (x : UnitId) (table : List LaunchEntry), x ∉ s.u.tick.armed → unitInService s.asm s.u x = true →
    (tgetD s.u.fw.roles (unitRole s.asm x) {}).state = 0 → placeOk s.u x table = true → table.length ≤ 64 →
    ∃ r, exec (.unitArm x table) s = .next r ∧ x ∈ r.u.tick.armed ∧ (x, table) ∈ r.u.tick.next ∧
      (∀ y, y ∈ s.u.tick.armed → y ∈ r.u.tick.armed) ∧ (∀ y tb, y ≠ x → ((y, tb) ∈ r.u.tick.next ↔ (y, tb) ∈ s.u.tick.next)) ∧
      r = { s with u := { s.u with tick := { s.u.tick with armed := r.u.tick.armed, next := r.u.tick.next } } }) ∧
  (∀ (s : State) (x : UnitId) (table : List LaunchEntry), x ∈ s.u.tick.armed ∨ placeOk s.u x table = false →
    exec (.unitArm x table) s = .next s) ∧
  (∀ s : State, running s.u = true → s.u.tick.anchor.isSome = true → s.u.tick.armSample = none →
    ∃ r, exec .armDeadline s = .next r ∧ r.u.tick.armSample = some (allArmed s.asm s.u) ∧
      r.u.tick.lastArmLate = !allArmed s.asm s.u ∧
      (s.u.tick.time < s.u.tick.edgeAt + s.u.tick.period * 900 →
        r.u.tick.time = (s.u.tick.edgeAt + s.u.tick.period * 900) % 2 ^ 64) ∧
      (allArmed s.asm s.u = false → s.u.tick.st = .coasting → 8 ≤ s.u.tick.coastRun → r.u.tick.haltNext = true) ∧
      r = { s with u := { s.u with tick := r.u.tick, svc := { s.u.svc with poweredNs := r.u.svc.poweredNs },
                                   cnt := { s.u.cnt with die := r.u.cnt.die } } }) ∧
  (∀ s : State, s.u.tick.armSample ≠ none → exec .armDeadline s = .next s) ∧
  (∀ s : State, s.u.tick.haltNext = true → exec .tickHalt s = exec .tickEdge s) ∧
  (∀ (s : State) (t k : Nat), edgeDue s.u = some (t, k) → s.u.tick.stopReq = false → s.u.tick.forced = false →
    s.u.tick.haltNext = true → s.u.tick.st = .coasting → s.u.tick.armSample ≠ some true →
    ∃ r, exec .tickHalt s = .next r ∧ r.u.tick.st = .halted ∧ r.u.tick.haltedBit = true ∧ r.u.tick.number = k % 2 ^ 64)) ∧
  (
  (∀ (s : State) (at_ : Nat), s.u.tick.src = 1 → running s.u = true → s.u.tick.anchor = none → s.u.tick.groupEdge = none →
    ∃ r, exec (.tickInEdge at_) s = .next r ∧ r.u.tick.groupEdge = some (at_ - s.u.tick.inlat) ∧
      r.u.tick.stray = s.u.tick.stray ∧ r.u.tick.number = s.u.tick.number ∧ r.q = s.q ∧ r.m = s.m) ∧
  (∀ (s : State) (at_ a : Nat), s.u.tick.src = 1 → running s.u = true → s.u.tick.anchor = some a →
    s.u.tick.groupEdge = none →
    ∃ r, exec (.tickInEdge at_) s = .next r ∧
      (let e := a - s.u.tick.offset + s.u.tick.period * 1000
       let g := at_ - s.u.tick.inlat
       (g ≤ e + 500 → e ≤ g + 500 → r.u.tick.groupEdge = some g ∧ r.u.tick.stray = s.u.tick.stray) ∧
       (g > e + 500 ∨ e > g + 500 → r.u.tick.groupEdge = none ∧ r.u.tick.stray = s.u.tick.stray + 1)) ∧
      r.u.tick.number = s.u.tick.number ∧ r.q = s.q ∧ r.m = s.m) ∧
  (∀ (s : State) (rx : Rx) (pkt : Bytes) (at_ : Nat), s.u.tick.src = 2 → running s.u = true →
    s.u.tick.anchor = none → s.u.tick.groupEdge = none → arrives s.u 0x01 rx pkt → le pkt 32 8 = s.u.fab.groupId →
    ∃ r, exec (.tickPacket rx pkt at_) s = .next r ∧ r.u.tick.groupEdge = some (at_ - s.u.tick.inlat) ∧
      r.u.tick.groupNum = some (le pkt 24 8) ∧ r.u.tick.stray = s.u.tick.stray ∧ r.q = s.q ∧ r.m = s.m) ∧
  (∀ (s : State) (a : Nat), s.u.tick.src ≠ 0 → running s.u = true → s.u.tick.groupEdge = none → s.u.tick.stopReq = false →
    s.u.tick.forced = false → s.u.tick.anchor = some a →
    ∃ r, exec .holdoverEdge s = .next r ∧ r.u.tick.number = (s.u.tick.number + 1) % 2 ^ 64 ∧
      r.u.tick.edgeAt = a - s.u.tick.offset + s.u.tick.period * 1000 + s.u.tick.offset ∧
      r.u.tick.anchor = some r.u.tick.edgeAt ∧ r.u.tick.holdover = s.u.tick.holdover + 1 ∧ r.u.tick.lastMark = 6 ∧
      r.q = s.q ∧ r.pending = s.pending ∧ r.u.core = s.u.core ∧ r.u.str = s.u.str) ∧
  (∀ s : State, s.u.tick.holdover = 16 → exec .srcFault s =
    .next (onUnits (fun u => notice (dieKey 3 0) 0x0103 0 [16] { u with tick := { u.tick with srcFault := true } }) s)) ∧
  (∀ s : State, s.u.tick.holdover ≠ 16 → exec .srcFault s = .next s))

/-- Time discipline (R384). The master sends a SYNC with its time and the next SYNCNO as its counter crosses a multiple of 1
ms, and answers a DREQ with a DRESP carrying T4, each sent at once where its port holds a credit and nothing waits (R375). A
follower whose delay is known steps TICK_TIME by theta while the tick is stopped, and slews while it runs; a DRESP fixes the delay, its divisions truncating toward 0; 16 intervals without a SYNC raise TIME_LOST once. -/
def Obligations.TimeDiscipline : Prop :=
  (∀ s : State, isUp s.u = true → s.u.blk.topoOk = true → s.u.fab.masterId = s.u.fab.selfId → s.u.fab.nbrs = [] →
    ∃ r, exec .syncSend s = .next r ∧ r.u.fab.lastNo = (s.u.fab.lastNo + 1) % 2 ^ 32 ∧
      r.u.tick.time = ((s.u.tick.time / 1000000 + 1) * 1000000) % 2 ^ 64 ∧ r.u.out = s.u.out ∧ r.q = s.q ∧ r.m = s.m) ∧
  (∀ (s : State) (n : Nbr), isUp s.u = true → s.u.blk.topoOk = true → s.u.fab.masterId = s.u.fab.selfId →
    s.u.fab.nbrs = [n] → portFree s.u (2 * n.xdie) 0 1 → ∃ r, exec .syncSend s = .next r ∧ r.u.out = s.u.out ++ [.fabric (2 * n.xdie)
      (fabPkt 0x02 0 0 n.id s.u.fab.selfId 0 (le8 r.u.tick.time ++ leBytes 4 r.u.fab.lastNo) [])]) ∧
  (∀ (s : State) (rx : Rx) (pkt : Bytes) (at_ : Nat) (d : Int), arrives s.u 0x02 rx pkt → disciplined s.u = true → le pkt 16 8 = s.u.fab.masterId → s.u.fab.delay = some d →
    s.u.tick.en = false → s.u.tick.st = .stopped → s.u.fab.syncs + 1 ≠ 16 → s.u.tick.time < at_ → at_ < 2 ^ 64 →
    ∃ r, exec (.syncReceive rx pkt at_) s = .next r ∧
      r.u.tick.time = unsigned 64 ((at_ : Int) - s64 ((at_ : Int) - (le pkt 32 8 : Nat) - d)) ∧ r.u.fab.integ = 0 ∧
      r.u.fab.syncs = s.u.fab.syncs + 1 ∧ r.u.fab.lastNo = le pkt 40 4 ∧ r.u.out = (rxFlits rx s.u).out ∧ r.q = s.q ∧ r.m = s.m) ∧
  (∀ (s : State) (rx : Rx) (pkt : Bytes) (at_ : Nat) (d : Int), arrives s.u 0x02 rx pkt → disciplined s.u = true → le pkt 16 8 = s.u.fab.masterId → s.u.fab.delay = some d →
    s.u.tick.en = true → s.u.tick.st ≠ .stopped → s.u.fab.syncs + 1 ≠ 16 →
    ∃ r, exec (.syncReceive rx pkt at_) s = .next r ∧
      (let theta := s64 ((at_ : Int) - (le pkt 32 8 : Nat) - d)
       r.u.fab.integ = clampI (-200000) 200000 (s64 (s.u.fab.integ - 32 * theta)) ∧
       r.u.tick.slewNext = some (clampI (-200000) 200000 (s64 (r.u.fab.integ - 500 * theta))))) ∧
  (∀ (s : State) (rx : Rx) (pkt : Bytes) (at_ : Nat), arrives s.u 0x03 rx pkt → s.u.blk.topoOk = true → s.u.fab.masterId = s.u.fab.selfId →
    portFree (rxFlits rx s.u) rx.port 0 1 →
    ∃ r, exec (.dreqReceive rx pkt at_) s = .next r ∧ r.u.out = (rxFlits rx s.u).out ++ [.fabric rx.port
      (fabPkt 0x04 0 0 (le pkt 16 8) s.u.fab.selfId 0
        (le8 (le pkt 32 8) ++ leBytes 4 (le pkt 40 4) ++ leBytes 4 0 ++ le8 at_) [])] ∧ r.q = s.q ∧ r.m = s.m) ∧
  (∀ (s : State) (rx : Rx) (pkt : Bytes) (at_ t1 t2 no : Nat), arrives s.u 0x04 rx pkt → disciplined s.u = true → le pkt 16 8 = s.u.fab.masterId → s.u.fab.sync = some (t1, t2, no) →
    le pkt 40 4 = no →
    ∃ r, exec (.drespReceive rx pkt at_) s = .next r ∧ r.u.fab.sync = none ∧
      r.u.fab.delay = some (Int.tdiv (s64 ((t2 : Int) - t1 + ((le pkt 48 8 : Nat) - s.u.fab.t3))) 2) ∧
      r.u.out = (rxFlits rx s.u).out ∧ r.q = s.q ∧ r.m = s.m) ∧
  (∀ s : State, disciplined s.u = true → s.u.fab.lostNoted = false →
    ∃ r, exec .timeLost s = .next r ∧ r.u.fab = { s.u.fab with lostNoted := true } ∧
      r.u.tick.slew = s.u.tick.slew ∧ r.u.prodN = (notice (dieKey 2 0) 0x0D04 0 [s.u.fab.lastNo] s.u).prodN)

/-- PHASE_MARK: a mark that can be next advances time to it (R36) and becomes the last mark passed. At M5, in the guard phase,
each running role writes its changes of the tick to the half of its area that its commit word does not name, with their CRC,
commits by that word, and takes its new watchdog period; with a CRC that fails when read back the word stands (R312, R315). A
mark that cannot be next, the tick stopped among the reasons, changes nothing. TICK_STOP_EDGE: with no context in service, the
edge that is due after a host stop, which the block makes itself where no group edge comes (R44), only stops the tick: nothing
is armed, no launch table is kept, no edge is fixed (R54). After a forced stop EN, STOP and TICK_CTL.EN are clear as well
(R413). -/
def Obligations.PhaseMarksAndTheStoppingEdge : Prop :=
  (
  (∀ (s : State) (io : MarkIo), io.credits = [] → markNext s.u 2 = true → dueEntries s.u 2 = [] → (∀ k, (coreAt s.u k).stalled = none) →
    ∃ r, exec (.phaseMark 2 io) s = .next r ∧ r.u.tick.lastMark = 2 ∧
      (s.u.tick.time < s.u.tick.edgeAt + (s.u.tick.ingress * 1000 + s.u.tick.egress * 1000) →
        r.u.tick.time = (s.u.tick.edgeAt + (s.u.tick.ingress * 1000 + s.u.tick.egress * 1000)) % 2 ^ 64) ∧
      r = { s with u := { s.u with tick := { s.u.tick with time := r.u.tick.time, lastMark := 2 },
                                   svc := { s.u.svc with poweredNs := r.u.svc.poweredNs },
                                   cnt := { s.u.cnt with die := r.u.cnt.die } } }) ∧
  (∀ (s : State) (role : Fin 10), markNext s.u 5 = true → dueEntries s.u 5 = [] → (∀ k, (coreAt s.u k).stalled = none) →
    tget s.u.fw.roles role ≠ none → (tgetD s.u.fw.roles role {}).state = 0 → Tsorted s.u.fw.roles = true →
    ∃ r, exec (.phaseMark 5 {}) s = .next r ∧ r.u.tick.lastMark = 5 ∧
      (let a := tgetD s.u.fw.roles role {}
       let b := tgetD r.u.fw.roles role {}
       b.word = 1 - a.word ∧ (committed b).tick = s.u.tick.number ∧ (committed b).crc = crc32c (committed b).bytes ∧
       (if a.word = 0 then b.half0 = a.half0 else b.half1 = a.half1) ∧ b.commitAt = s.u.fw.commits + 1 ∧
       b.kickAt = r.u.tick.time) ∧
      (tgetD r.u.fw.roles role {}).period =
        (tgetD s.u.fw.roles role {}).periodNext.getD (tgetD s.u.fw.roles role {}).period ∧
      r.q = s.q ∧ r.m = s.m ∧ r.u.str = s.u.str ∧ r.u.job = s.u.job ∧ r.u.core = s.u.core) ∧
  (∀ (s : State) (role : Fin 10), markNext s.u 5 = true → dueEntries s.u 5 = [] → (∀ k, (coreAt s.u k).stalled = none) →
    tget s.u.fw.roles role ≠ none → (tgetD s.u.fw.roles role {}).state = 0 → Tsorted s.u.fw.roles = true →
    ∃ r, exec (.phaseMark 5 { ckptBad := [role] }) s = .next r ∧
      (tgetD r.u.fw.roles role {}).word = (tgetD s.u.fw.roles role {}).word ∧
      committed (tgetD r.u.fw.roles role {}) = committed (tgetD s.u.fw.roles role {}) ∧
      (tgetD r.u.fw.roles role {}).commitAt = (tgetD s.u.fw.roles role {}).commitAt) ∧
  (∀ (s : State) (m : Fin 6) (io : MarkIo), markNext s.u m = false → exec (.phaseMark m io) s = .next s)) ∧
  (
  (∀ (s : State) (t k : Nat), (edgeDue s.u <|> holdoverDue s.u) = some (t, k) → s.u.tick.stopReq = true → s.u.tick.forced = false →
    inService s.u = [] →
    ∃ r, exec .tickStopEdge s = .next r ∧ r.u.tick.st = .stopped ∧ r.u.tick.stopReq = false ∧ r.u.tick.anchor = none ∧
      r.u.tick.armed = [] ∧ r.u.tick.next = [] ∧ r.u.tick.cur = [] ∧ r.u.tick.number = k % 2 ^ 64 ∧
      r.u.blk.en = s.u.blk.en ∧ r.q = s.q ∧ r.pending = s.pending ∧ r.u.str = s.u.str ∧ r.u.job = s.u.job) ∧
  (∀ (s : State) (t k : Nat), (edgeDue s.u <|> holdoverDue s.u) = some (t, k) → s.u.tick.forced = true → inService s.u = [] →
    ∃ r, exec .tickStopEdge s = .next r ∧ r.u.tick.st = .stopped ∧ r.u.tick.en = false ∧ r.u.tick.forced = false ∧
      r.u.blk.en = false ∧ r.u.blk.stopping = false ∧ r.u.tick.number = k % 2 ^ 64 ∧ r.q = s.q) ∧
  (∀ s : State, s.u.tick.stopReq = false → s.u.tick.forced = false → exec .tickStopEdge s = .next s))

/- Step programs (05). -/
/-- Scalar instructions (R129): register rd takes the result, poisoned if a source is, and the program goes on at the next
word; nothing else changes. The compares are of unsigned values and a right shift brings in zeros (the model's choice, log
225); a shift by 64 or more, whose result no rule states, writes a free value (the model's choice, log 7). SCALAR_LOAD reads 8
bytes, little-endian; within the 4 MiB of core SRAM (R113) they are the memory's. -/
def Obligations.ScalarInstructionsWriteTheirRegister : Prop :=
  (∀ (s : State) (c : CoreId) (op : SOp) (rd ra rb : Fin 16), mayDispatch s c = true →
    ∃ t, exec (.scalarOp c op rd ra rb) s = .next t ∧
      onlyCore s t (coreKey c) (advPc 0 (setS rd (scalarAlu op (sreg (coreOf s c) ra) (sreg (coreOf s c) rb))
        ((coreOf s c).spois.contains ra.val || (coreOf s c).spois.contains rb.val) (coreOf s c)))) ∧
  (∀ a b : W64, scalarAlu .add a b = a + b ∧ scalarAlu .sub a b = a - b ∧ scalarAlu .mul a b = a * b ∧
    scalarAlu .and a b = a &&& b ∧ scalarAlu .or a b = a ||| b ∧ scalarAlu .cmpEq a b = (if a = b then 1 else 0) ∧
    scalarAlu .cmpLt a b = (if a.toNat < b.toNat then 1 else 0) ∧
    (b.toNat < 64 → scalarAlu .shl a b = a <<< b.toNat ∧ scalarAlu .shr a b = a >>> b.toNat) ∧
    (64 ≤ b.toNat → scalarAlu .shl a b = Config.farShift 0 a b ∧ scalarAlu .shr a b = Config.farShift 1 a b)) ∧
  (∀ (s : State) (c : CoreId) (rd ra : Fin 16) (off : Nat), mayDispatch s c = true →
    ∃ t, exec (.scalarLoad c rd ra off) s = .next t ∧ onlyCore s t (coreKey c) (advPc 0 (setS rd
      (BitVec.ofNat 64 (leVal (sramRead s (coreKey c) ((sreg (coreOf s c) ra).toNat + off) 8)))
      (sramPois s (coreKey c) ((sreg (coreOf s c) ra).toNat + off) 8 || (coreOf s c).spois.contains ra.val) (coreOf s c)))) ∧
  (∀ (s : State) (k addr n : Nat), addr + n ≤ 4194304 → sramRead s k addr n = mread (sramOf s k) addr n) ∧
  (∀ (s : State) (c : CoreId) (rd : Fin 16), mayDispatch s c = true →
    ∃ t, exec (.ticknum c rd) s = .next t ∧ onlyCore s t (coreKey c) (advPc 0 (setS rd (BitVec.ofNat 64 s.u.tick.number) false
      (coreOf s c)))) ∧
  (∀ (c : CoreSt) (rd : Nat) (v : W64) (poison : Bool), sreg (setS rd v poison c) rd = v ∧
    ((setS rd v poison c).spois.contains rd = poison) ∧ (∀ r, r ≠ rd → sreg (setS rd v poison c) r = sreg c r))

/-- Control flow (R130, R149, R151): BR skips forward when its condition holds; LOOP enters its body, min of the count and the
encoded bound times, with notice 0x0301 and the launch marked truncated if the count is above the bound, and skips it at 0;
WAIT takes n from its flag and SWAIT n from its semaphore once they hold n, and stall before that; MARK passes once its mark
has come; END ends the launch once the core has nothing left to do. SIG waits behind the DMs of its queue (R150); the first
with none left lands: the semaphore takes n, saturating at 65,535 with notice 0x0305, and SIG leaves the core. -/
def Obligations.ControlFlowAndSemaphores : Prop :=
  (
  (∀ (s : State) (c : CoreId) (cond : SCond) (rs : Fin 16) (off : Nat), mayDispatch s c = true →
    rs.val ∉ (coreOf s c).spois →
    ∃ t, exec (.br c cond rs off) s = .next t ∧ onlyCore s t (coreKey c) (advPc
      (if (sreg (coreOf s c) rs = 0) = (cond = .zero) then off else 0) (coreOf s c))) ∧
  (∀ (s : State) (c : CoreId) (rs : Fin 16) (bound len : Nat), mayDispatch s c = true → rs.val ∉ (coreOf s c).spois →
    0 < (sreg (coreOf s c) rs).toNat → 0 < bound → 0 < len →
    ∃ t, exec (.loop c rs bound len) s = .next t ∧
      (coreOf t c).pc = (coreOf s c).pc + 1 ∧
      (coreOf t c).loops = { start := (coreOf s c).pc + 1
                             stop := (coreOf s c).pc + 1 + len
                             left := min (sreg (coreOf s c) rs).toNat bound - 1 } :: (coreOf s c).loops ∧
      (coreOf t c).s = (coreOf s c).s ∧ (coreOf t c).v = (coreOf s c).v ∧
      (∀ l, (coreOf s c).launch = some l → (coreOf t c).launch =
        some { l with truncated := l.truncated || decide (bound < (sreg (coreOf s c) rs).toNat) }) ∧
      ((sreg (coreOf s c) rs).toNat ≤ bound → t = { s with u := { s.u with core := t.u.core } }) ∧
      (bound < (sreg (coreOf s c) rs).toNat → t.u.prodN =
        (notice (dieKey 0 c.die) 0x0301 0 [coreLoc s.u (coreKey c), entryOf s.u (coreKey c)] s.u).prodN) ∧
      (∀ j, j ≠ coreKey c → coreAt t.u j = coreAt s.u j) ∧ t.m = s.m ∧ t.q = s.q) ∧
  (∀ (s : State) (c : CoreId) (rs : Fin 16) (bound len : Nat), mayDispatch s c = true → rs.val ∉ (coreOf s c).spois →
    sreg (coreOf s c) rs = 0 →
    ∃ t, exec (.loop c rs bound len) s = .next t ∧ onlyCore s t (coreKey c) (advPc len (coreOf s c))) ∧
  (∀ (s : State) (c : CoreId) (f : Fin 32) (n : Nat), mayDispatch s c = true → quietCore (coreOf s c) →
    n ≤ tgetD (coreOf s c).flags f 0 →
    ∃ t, exec (.wait c f n) s = .next t ∧ onlyCore s t (coreKey c) (advPc 0 { coreOf s c with
      flags := tset (coreOf s c).flags f (tgetD (coreOf s c).flags f 0 - n) })) ∧
  (∀ (s : State) (c : CoreId) (f : Fin 32) (n : Nat), mayDispatch s c = true → (coreOf s c).qv = [] →
    tgetD (coreOf s c).flags f 0 < n →
    ∃ t, exec (.wait c f n) s = .next t ∧
      onlyCore s t (coreKey c) { coreOf s c with stalled := some (.wait c f n) }) ∧
  (∀ (s : State) (c : CoreId) (m : Fin 6), mayDispatch s c = true → quietCore (coreOf s c) →
    s.u.tick.lastMark ≠ 6 → m.val ≤ s.u.tick.lastMark →
    ∃ t, exec (.mark c m) s = .next t ∧ onlyCore s t (coreKey c) (advPc 0 (coreOf s c))) ∧
  (∀ (s : State) (c : CoreId) (m : Fin 6), mayDispatch s c = true → (coreOf s c).qv = [] →
    (s.u.tick.lastMark = 6 ∨ s.u.tick.lastMark < m.val) →
    ∃ t, exec (.mark c m) s = .next t ∧ onlyCore s t (coreKey c) { coreOf s c with stalled := some (.mark c m) }) ∧
  (∀ (s : State) (c : CoreId) (idx : Fin 64) (n : Nat), mayDispatch s c = true → quietCore (coreOf s c) →
    n ≤ tgetD s.u.sem (c.die.val * 64 + idx.val) 0 →
    ∃ t, exec (.swait c idx n) s = .next t ∧
      t.u.sem = tset s.u.sem (c.die.val * 64 + idx.val) (tgetD s.u.sem (c.die.val * 64 + idx.val) 0 - n) ∧
      coreOf t c = advPc 0 (coreOf s c) ∧ (∀ j, j ≠ coreKey c → coreAt t.u j = coreAt s.u j) ∧
      t = { s with u := { s.u with core := t.u.core, sem := t.u.sem } }) ∧
  (∀ (s : State) (c : CoreId) (idx : Fin 64) (n : Nat), mayDispatch s c = true → (coreOf s c).qv = [] →
    tgetD s.u.sem (c.die.val * 64 + idx.val) 0 < n →
    ∃ t, exec (.swait c idx n) s = .next t ∧
      onlyCore s t (coreKey c) { coreOf s c with stalled := some (.swait c idx n) }) ∧
  (∀ (s : State) (c : CoreId), mayDispatch s c = true → quietCore (coreOf s c) →
    (coreOf s c).passes = [] → (coreOf s c).qFill = none → (coreOf s c).fFill = none → (coreOf s c).sigs = [] →
    ∃ t, exec (.endLaunch c) s = .next t ∧ onlyCore s t (coreKey c) (advPc 0 { coreOf s c with launch := none }))) ∧
  (
  (∀ (s : State) (c : CoreId) (die : Fin 26) (idx : Fin 64) (n : Nat), mayDispatch s c = true →
    ∃ t, exec (.sig c die idx n) s = .next t ∧ onlyCore s t (coreKey c) (advPc 0 { coreOf s c with
      sigs := (coreOf s c).sigs ++ [{ die := die, idx := idx, n := n, dms := dmsIn (coreOf s c).qd }] })) ∧
  (∀ (s : State) (c : CoreId) (g : Sig) (l r : List Sig), corePresent s.asm s.u c = true →
    (coreOf s c).sigs = l ++ g :: r → (∀ x, x ∈ l → x.dms ≠ 0) → g.dms = 0 →
    (∀ k, (coreAt s.u k).stalled = none) →
    ∃ t, exec (.sigLand c) s = .next t ∧
      t.u.sem = tset s.u.sem (g.die * 64 + g.idx) (min 65535 (tgetD s.u.sem (g.die * 64 + g.idx) 0 + g.n)) ∧
      coreOf t c = { coreOf s c with sigs := l ++ r } ∧ (∀ j, j ≠ coreKey c → coreAt t.u j = coreAt s.u j) ∧
      t.q = s.q ∧ t.m = s.m ∧
      (tgetD s.u.sem (g.die * 64 + g.idx) 0 + g.n < 65535 → t.u.prodN = s.u.prodN) ∧
      (65535 ≤ tgetD s.u.sem (g.die * 64 + g.idx) 0 + g.n →
        t.u.prodN = (notice (dieKey 0 g.die) 0x0305 0 [g.die, g.idx] s.u).prodN)))

/-- Vector instructions (R126, R127, R136 to R142): each joins queue V and the program goes on; when the vector unit executes it
(the first in the queue first; how soon is free, log 224) register vd takes the lanes the rule gives, poisoned if a source
is, and its flag counts (R128); memory and everything else stand. The first lanes of a reduction hold its result. VECTOR_STORE
(R128, R136, R421): n lanes of the register go to SRAM from addr on, little-endian, and no byte outside them changes; the
units written whole lose their poison when neither the register nor the launch has it. -/
def Obligations.VectorInstructionsAndStores : Prop :=
  (∀ (s : State) (c : CoreId), mayDispatch s c = true → quietCore (coreOf s c) →
    (∀ (vd : VDst) (addr : Nat),
      exec (.vectorLoad c vd addr) s = .next (vIssued (coreKey c) (.vectorLoad c vd addr) s)) ∧
    (∀ (vs : Fin 64) (addr n : Nat) (f : Option (Fin 32)),
      exec (.vectorStore c vs addr n f) s = .next (vIssued (coreKey c) (.vectorStore c vs addr n f) s)) ∧
    (∀ (op : VOp) (fmt : VFmt) (vd : VDst) (va vb vc : Fin 64),
      exec (.vectorArith c op fmt vd va vb vc) s = .next (vIssued (coreKey c) (.vectorArith c op fmt vd va vb vc) s)) ∧
    (∀ (g : VFun) (fmt : VFmt) (vd : VDst) (va : Fin 64),
      exec (.vectorTranscendental c g fmt vd va) s = .next (vIssued (coreKey c) (.vectorTranscendental c g fmt vd va) s)) ∧
    (∀ (fmt : VFmt) (vd : VDst) (va : Fin 64) (n : Nat),
      exec (.vectorSumReduce c fmt vd va n) s = .next (vIssued (coreKey c) (.vectorSumReduce c fmt vd va n) s)) ∧
    (∀ (fmt : VFmt) (isMin : Bool) (vd : VDst) (va : Fin 64) (n : Nat),
      exec (.vectorMaxReduce c fmt isMin vd va n) s = .next (vIssued (coreKey c) (.vectorMaxReduce c fmt isMin vd va n) s)) ∧
    (∀ (fmt : VFmt) (vd : VDst) (va : Fin 64) (n k : Nat),
      exec (.vtop c fmt vd va n k) s = .next (vIssued (coreKey c) (.vtop c fmt vd va n k) s)) ∧
    (∀ (vd : VDst) (va vb : Fin 64),
      exec (.vdot8 c vd va vb) s = .next (vIssued (coreKey c) (.vdot8 c vd va vb) s)) ∧
    (∀ (vd : VDst) (va : Fin 64),
      exec (.vwide c vd va) s = .next (vIssued (coreKey c) (.vwide c vd va) s)) ∧
    (∀ (src dst : VFmt) (vd : VDst) (va : Fin 64),
      exec (.vectorConvert c src dst vd va) s = .next (vIssued (coreKey c) (.vectorConvert c src dst vd va) s))) ∧
  (
  (∀ (s : State) (c : CoreId) (vd : VDst) (addr : Nat) (r : List Instr), (coreOf s c).qv = .vectorLoad c vd addr :: r →
    onlyCore s (vHead (coreKey c) s) (coreKey c) (flagInc vd.flag (setV vd.reg
      ((List.range 256).map (fun i => BitVec.ofNat 32 (le (sramRead s (coreKey c) addr 1024) (4 * i) 4)))
      (sramPois s (coreKey c) addr 1024) { coreOf s c with qv := r }))) ∧
  (∀ (s : State) (c : CoreId) (op : VOp) (fmt : VFmt) (vd : VDst) (va vb vc : Fin 64) (r : List Instr),
    (coreOf s c).qv = .vectorArith c op fmt vd va vb vc :: r →
    onlyCore s (vHead (coreKey c) s) (coreKey c) (flagInc vd.flag (setV vd.reg
        (((vreg (coreOf s c) va).zip ((vreg (coreOf s c) vb).zip (vreg (coreOf s c) vc))).map
          (fun p => laneOp op fmt p.1 p.2.1 p.2.2))
        (vbad (coreOf s c) ([va.val, vb.val] ++ if op = .fma then [vc.val] else [])) { coreOf s c with qv := r }))) ∧
  (∀ (s : State) (c : CoreId) (g : VFun) (fmt : VFmt) (f : FF) (vd : VDst) (va : Fin 64) (r : List Instr), ffOf fmt = some f →
    (coreOf s c).qv = .vectorTranscendental c g fmt vd va :: r →
    onlyCore s (vHead (coreKey c) s) (coreKey c) (flagInc vd.flag (setV vd.reg
      ((vreg (coreOf s c) va).map (fun w => lanePut f (laneFun g f (laneGet f w))))
      (vbad (coreOf s c) [va.val]) { coreOf s c with qv := r }))) ∧
  (∀ (s : State) (c : CoreId) (fmt : VFmt) (f : FF) (vd : VDst) (va : Fin 64) (n : Nat) (r : List Instr), ffOf fmt = some f →
    (coreOf s c).qv = .vectorSumReduce c fmt vd va n :: r →
    onlyCore s (vHead (coreKey c) s) (coreKey c) (flagInc vd.flag (setLanes vd.reg
      [lanePut f (sumReduce f ((vseq va n).map (vreg (coreOf s c))))]
      (vbad (coreOf s c) (vseq va n)) { coreOf s c with qv := r }))) ∧
  (∀ (s : State) (c : CoreId) (fmt : VFmt) (f : FF) (isMin : Bool) (vd : VDst) (va : Fin 64) (n : Nat) (r : List Instr),
    ffOf fmt = some f → (coreOf s c).qv = .vectorMaxReduce c fmt isMin vd va n :: r →
    (let l := ((vseq va n).flatMap (vreg (coreOf s c))).map (laneGet f)
     let m := if isMin then minReduce f l else maxReduce f l
     onlyCore s (vHead (coreKey c) s) (coreKey c) (flagInc vd.flag (setLanes vd.reg [lanePut f m.1, BitVec.ofNat 32 m.2]
       (vbad (coreOf s c) (vseq va n)) { coreOf s c with qv := r })))) ∧
  (∀ (s : State) (c : CoreId) (fmt : VFmt) (f : FF) (vd : VDst) (va : Fin 64) (n k : Nat) (r : List Instr),
    ffOf fmt = some f → (coreOf s c).qv = .vtop c fmt vd va n k :: r →
    (let l := ((vseq va n).flatMap (vreg (coreOf s c))).map (laneGet f)
     onlyCore s (vHead (coreKey c) s) (coreKey c) (flagInc vd.flag (setLanes vd.reg
       ((topK f k l).flatMap (fun p => [lanePut f p.1, BitVec.ofNat 32 p.2]))
       (vbad (coreOf s c) (vseq va n))
       { coreOf s c with qv := r, nanFlag := (coreOf s c).nanFlag || l.any (fisNan f) })))) ∧
  (∀ (s : State) (c : CoreId) (vd : VDst) (va vb : Fin 64) (r : List Instr), (coreOf s c).qv = .vdot8 c vd va vb :: r →
    onlyCore s (vHead (coreKey c) s) (coreKey c) (flagInc vd.flag (setV vd.reg
      (((vreg (coreOf s c) vd.reg).zip ((vreg (coreOf s c) va).zip (vreg (coreOf s c) vb))).map (fun p => dot8 p.1 p.2.1 p.2.2))
      (vbad (coreOf s c) [vd.reg.val, va.val, vb.val]) { coreOf s c with qv := r }))) ∧
  (∀ (s : State) (c : CoreId) (vd : VDst) (va : Fin 64) (r : List Instr), (coreOf s c).qv = .vwide c vd va :: r →
    vd.reg.val < 63 →
    (let x := coreOf s c
     let w := ((vreg x vd.reg).zip ((vreg x (vd.reg + 1)).zip (vreg x va))).map (fun p => wide p.1 p.2.1 p.2.2)
     let bad := vbad x [vd.reg.val, vd.reg.val + 1, va.val]
     onlyCore s (vHead (coreKey c) s) (coreKey c) (flagInc vd.flag (setV (vd.reg.val + 1) (w.map (·.2)) bad
       (setV vd.reg (w.map (·.1)) bad { x with qv := r }))))) ∧
  (∀ (s : State) (c : CoreId) (src dst : VFmt) (vd : VDst) (va : Fin 64) (r : List Instr),
    (coreOf s c).qv = .vectorConvert c src dst vd va :: r →
    onlyCore s (vHead (coreKey c) s) (coreKey c) (flagInc vd.flag (setV vd.reg
      ((vreg (coreOf s c) va).map (laneConvert src dst)) (vbad (coreOf s c) [va.val]) { coreOf s c with qv := r })))) ∧
  (∀ (s : State) (c : CoreId) (vs : Fin 64) (addr n : Nat) (f : Option (Fin 32)) (r : List Instr),
    (coreOf s c).qv = .vectorStore c vs addr n f :: r →
    n ≤ 256 → addr + 4 * n ≤ 4194304 → (sramOf s (coreKey c)).wf = true → (vreg (coreOf s c) vs).length = 256 →
    (let t := vHead (coreKey c) s;
      (∀ i, i < n → leVal (mread (sramOf t (coreKey c)) (addr + 4 * i) 4) = ((vreg (coreOf s c) vs).getD i 0).toNat) ∧
      (∀ a, a < addr ∨ addr + 4 * n ≤ a → mget (sramOf t (coreKey c)) a = mget (sramOf s (coreKey c)) a) ∧
      (∀ k, k ≠ coreKey c → sramOf t k = sramOf s k) ∧ t.m.t1 = s.m.t1 ∧ t.m.t2 = s.m.t2 ∧ t.q = s.q ∧
      (coreOf t c).v = (coreOf s c).v ∧ (coreOf t c).s = (coreOf s c).s ∧ (coreOf t c).qv = r ∧
      (coreOf t c).flags = (flagInc f (coreOf s c)).flags ∧
      (vs.val ∉ (coreOf s c).vpois → launchPois s.u (coreKey c) = false →
        ∀ x, addr ≤ 64 * x → 64 * x + 64 ≤ addr + 4 * n → x ∉ (coreOf t c).pois)))

/-- Rows (R132, R133). With the queues empty and the input buffers free, a QZ starts at once: every engine of its mask gets
the quantised row, not yet ready; a CF likewise gets the record's row. BUFFER_READY makes the row ready, counts the flag
and takes the instruction out of its queue. A full queue stalls dispatch (R126, R127). -/
def Obligations.RowsReachTheirEngines : Prop :=
  (∀ (s : State) (c : CoreId) (op : QzOp), mayDispatch s c = true → quietCore (coreOf s c) →
    (coreOf s c).qFill = none → (coreOf s c).fFill = none → op.recTo = none → op.distr = .bcast →
    (∀ e, e < 16 → (engAt (coreOf s c) e).bufs = []) →
    ∃ t, exec (.qz c op) s = .next t ∧ (coreOf t c).qq = [op] ∧
      (coreOf t c).qFill = some { engines := maskEngines op.mask, flag := op.flag } ∧
      (∀ e, e ∈ maskEngines op.mask → ∃ b, (engAt (coreOf t c) e).bufs = [b] ∧ b.ready = false ∧
        b.row = { (quantise op.fmt op.outMax op.outTau.toNat (bfRow s (coreKey c) op.src op.n)).1 with
          poison := (quantise op.fmt op.outMax op.outTau.toNat (bfRow s (coreKey c) op.src op.n)).1.poison ||
            sramPois s (coreKey c) op.src (2 * op.n) || launchPois s.u (coreKey c) }) ∧
      t.m = s.m ∧ t.q = s.q ∧ ∀ k, k ≠ coreKey c → coreAt t.u k = coreAt s.u k) ∧
  (∀ (s : State) (c : CoreId) (op : CfOp), mayDispatch s c = true → quietCore (coreOf s c) →
    (coreOf s c).qFill = none → (coreOf s c).fFill = none → op.distr = .bcast →
    (∀ e, e < 16 → (engAt (coreOf s c) e).bufs = []) →
    ∃ t, exec (.cf c op) s = .next t ∧ (coreOf t c).qf = [op] ∧
      (coreOf t c).fFill = some { engines := maskEngines op.mask, flag := op.flag } ∧
      (∀ e, e ∈ maskEngines op.mask → ∃ b, (engAt (coreOf t c) e).bufs = [b] ∧ b.ready = false ∧ b.src = none ∧
        b.row.codes = (rowOfRecord op.fmt op.n (sramRead s (coreKey c) op.src
          (64 + op.n * afBits op.fmt / 8 + 8 * le (sramRead s (coreKey c) op.src 64) 24 2))).codes) ∧
      t.m = s.m ∧ t.q = s.q ∧ ∀ k, k ≠ coreKey c → coreAt t.u k = coreAt s.u k) ∧
  (∀ (s : State) (c : CoreId) (e : Fin 16) (b : InBuf) (op : QzOp) (f : Fin 32), corePresent s.asm s.u c = true →
    quietCore { coreOf s c with qq := [] } → (coreOf s c).qq = [op] → (coreOf s c).stalled = none →
    (coreOf s c).qFill = some { engines := [e.val], flag := some f } → (engAt (coreOf s c) e).bufs = [b] →
    ∃ t, exec (.bufferReady c true) s = .next t ∧ (coreOf t c).qFill = none ∧
      (coreOf t c).qq = [] ∧ (engAt (coreOf t c) e).bufs = [{ b with ready := true }] ∧
      tgetD (coreOf t c).flags f 0 = min 65535 (tgetD (coreOf s c).flags f 0 + 1) ∧
      t = { s with u := { s.u with core := t.u.core } } ∧ ∀ k, k ≠ coreKey c → coreAt t.u k = coreAt s.u k) ∧
  (∀ (s : State) (c : CoreId) (e : Fin 16) (b : InBuf) (op : CfOp) (f : Fin 32), corePresent s.asm s.u c = true →
    quietCore { coreOf s c with qf := [] } → (coreOf s c).qf = [op] → (coreOf s c).stalled = none →
    (coreOf s c).fFill = some { engines := [e.val], flag := some f } → (engAt (coreOf s c) e).bufs = [b] →
    ∃ t, exec (.bufferReady c false) s = .next t ∧ (coreOf t c).fFill = none ∧
      (coreOf t c).qf = [] ∧ (engAt (coreOf t c) e).bufs = [{ b with ready := true }] ∧
      tgetD (coreOf t c).flags f 0 = min 65535 (tgetD (coreOf s c).flags f 0 + 1) ∧
      t = { s with u := { s.u with core := t.u.core } } ∧ ∀ k, k ≠ coreKey c → coreAt t.u k = coreAt s.u k) ∧
  (∀ (s : State) (c : CoreId) (op : QzOp), mayDispatch s c = true → 4 ≤ (coreOf s c).qq.length → (coreOf s c).qv = [] →
    ∃ t, exec (.qz c op) s = .next t ∧ onlyCore s t (coreKey c) { coreOf s c with stalled := some (.qz c op) }) ∧
  (∀ (s : State) (c : CoreId) (op : CfOp), mayDispatch s c = true → 4 ≤ (coreOf s c).qf.length → (coreOf s c).qv = [] →
    ∃ t, exec (.cf c op) s = .next t ∧ onlyCore s t (coreKey c) { coreOf s c with stalled := some (.cf c op) })

/-- MX (R134, R135): with a ready row in every engine of its mask and none of them busy, a valid pass starts, its values those
of R85 and R87; its end frees the engine, consumes the row, puts the results into SRAM, poisoned if the pass is, and counts
the flag (R109, R128). -/
def Obligations.PassesRunAndDeliver : Prop :=
  (∀ (s : State) (c : CoreId) (op : MxOp), mayDispatch s c = true → quietCore (coreOf s c) → (coreOf s c).loading = false →
    (∀ e, e ∈ maskEngines op.mask → (engAt (coreOf s c) e).busy = false ∧ (nextBuf (coreOf s c) e).isSome = true) →
    maskEngines op.mask ≠ [] → mxInvalid (coreOf s c) op = false → (coreOf s c).passes = [] →
    ∃ t p, exec (.mx c op) s = .next t ∧ (coreOf t c).qm = [] ∧ (coreOf t c).passes = [p] ∧
      p.flag = op.flag ∧ p.group = op.group ∧ p.ff = mxFf op ∧
      p.outs.filter (fun o => !o.data.isEmpty) = (((passValues (coreOf s c) op).1.map (fun o =>
        ({ engine := o.1, addr := o.2.1, data := passBytes (mxFf op) o.2.2 } : PassOut))).filter (fun o => !o.data.isEmpty)) ∧
      (∀ e, e ∈ maskEngines op.mask → (engAt (coreOf t c) e).busy = true ∧
        (engAt (coreOf t c) e).bufs = (engAt (coreOf s c) e).bufs) ∧
      t.m = s.m ∧ t.q = s.q ∧ ∀ k, k ≠ coreKey c → coreAt t.u k = coreAt s.u k) ∧
  (∀ (s : State) (c : CoreId) (e : Fin 16) (o : PassOut) (p : Pass), corePresent s.asm s.u c = true →
    quietCore (coreOf s c) → (coreOf s c).stalled = none → (coreOf s c).passes = [p] → p.outs = [o] → o.engine = e.val →
    o.data ≠ [] → o.addr + o.data.length ≤ 4194304 → (sramOf s (coreKey c)).wf = true →
    ∃ t, exec (.mxPassDone c) s = .next t ∧ (coreOf t c).passes = [] ∧
      (engAt (coreOf t c) e).busy = false ∧
      (engAt (coreOf t c) e).bufs = (engAt (coreOf s c) e).bufs.drop 1 ∧
      (coreOf t c).flags = (flagInc p.flag (coreOf s c)).flags ∧
      mread (sramOf t (coreKey c)) o.addr o.data.length = o.data ∧
      ((p.poison = true ∨ o.poison = true) → sramPois t (coreKey c) o.addr o.data.length = true) ∧
      (∀ a, a < o.addr ∨ o.addr + o.data.length ≤ a → mget (sramOf t (coreKey c)) a = mget (sramOf s (coreKey c)) a) ∧
      (∀ k, k ≠ coreKey c → sramOf t k = sramOf s k) ∧ t.m.t1 = s.m.t1 ∧ t.m.t2 = s.m.t2 ∧ t.q = s.q)

/-- Queue D (R143 to R146). A DM with a clean list enters the queue and starts if it is the first; DMA_DONE ends it once its
window transactions are answered: the flag counts and a SIG behind it waits for one DM less. DM.FENCE passes, and its flag
counts, once no transaction is outstanding; before that it waits. A block between local spaces copies its bytes and each
unit's poison with them (R144, R421): one 64-byte unit from tier 1 to a core's SRAM. -/
def Obligations.DmaQueueAndCopies : Prop :=
  (
  (∀ (s : State) (c : CoreId) (list count : Nat) (flag : Option (Fin 32)), mayDispatch s c = true →
    quietCore (coreOf s c) → (coreOf s c).dStarted = false → sramPois s (coreKey c) list (32 * min count 64) = false →
    ∃ t, exec (.dm c list count flag) s = .next t ∧ (coreOf t c).qd = [.dm list count flag] ∧
      (coreOf t c).dStarted = true ∧ (coreOf t c).pc = (advPc 0 (coreOf s c)).pc ∧
      (coreOf t c).flags = (coreOf s c).flags ∧ t.m = s.m ∧ t.q = s.q ∧ t.pending = s.pending) ∧
  (∀ (s : State) (c : CoreId) (list count : Nat) (flag : Option (Fin 32)), mayDispatch s c = true →
    quietCore { coreOf s c with qd := [] } → (coreOf s c).dStarted = true → (coreOf s c).qd.length < 16 →
    sramPois s (coreKey c) list (32 * min count 64) = false →
    ∃ t, exec (.dm c list count flag) s = .next t ∧ onlyCore s t (coreKey c) (advPc 0 { coreOf s c with
      qd := (coreOf s c).qd ++ [.dm list count flag] })) ∧
  (∀ (s : State) (c : CoreId) (list count : Nat) (f : Fin 32) (g : Sig), corePresent s.asm s.u c = true →
    quietCore { coreOf s c with qd := [] } →
    (coreOf s c).qd = [.dm list count (some f)] → (coreOf s c).dStarted = true →
    (coreOf s c).stalled = none → fabOut s.u (coreKey c) = 0 → (coreOf s c).sigs = [g] →
    ∃ t, exec (.dmaDone c) s = .next t ∧ (coreOf t c).qd = [] ∧ (coreOf t c).dStarted = false ∧
      tgetD (coreOf t c).flags f 0 = min 65535 (tgetD (coreOf s c).flags f 0 + 1) ∧
      (coreOf t c).sigs = [{ g with dms := g.dms - 1 }] ∧ t.q = s.q ∧
      ((∀ d, d ∈ dmList s (coreKey c) list count → dmaAllowed s.u (coreKey c) d.2 = false) → t.m = s.m)) ∧
  (∀ (s : State) (x : FenceOp), mayDispatch s x.core = true → quietCore (coreOf s x.core) →
    (coreOf s x.core).dStarted = false →
    ∃ t, exec (.dmFence x) s = .next t ∧ onlyCore s t (coreKey x.core) (advPc 0
      (if fabOut s.u (coreKey x.core) = 0 then flagInc x.flag (coreOf s x.core)
       else { coreOf s x.core with qd := [.fence x.flag] })))) ∧
  (
  ∀ (s : State) (k src dst : Nat), (sramOf s k).wf = true → src % 64 = 0 → dst % 64 = 0 → dst + 64 ≤ 4194304 →
    (let t := unitCopy (2, 0, src) (0, k, dst) 64 s
     mread (sramOf t k) dst 64 = mread s.m.t1 src 64 ∧
     (sramPois t k dst 64 = t1Pois s.asm s.u.tier (src / 64)) ∧
     (∀ a, a < dst ∨ dst + 64 ≤ a → mget (sramOf t k) a = mget (sramOf s k) a) ∧ t.m.t1 = s.m.t1 ∧ t.m.t2 = s.m.t2))

/-- MQ (R147, R148, R186): it joins queue H and, where its slot's policies name its profile, issues as many keys as its slot
has free credits; when the search ends its result record is in SRAM, its credits return and its flag counts. A profile that
the slot's policies do not name gives poisoned records, whatever the key. -/
def Obligations.MatchQueriesOfACore : Prop :=
  (∀ (s : State) (c : CoreId) (op : MqOp) (slot : Nat), mayDispatch s c = true → quietCore (coreOf s c) →
    (coreOf s c).slot = some slot → (coreOf s c).hOut = 0 →
    ∃ t, exec (.mq c op) s = .next t ∧ onlyCore s t (coreKey c) (advPc 0 { coreOf s c with
      qh := [op]
      hOut := if op.profile.val ∈ slotProfiles s.u slot then min (min op.count 256) (mqFree s.u slot) else 0 })) ∧
  (∀ (s : State) (c : CoreId) (op : MqOp) (f : Fin 32), corePresent s.asm s.u c = true →
    quietCore { coreOf s c with qh := [] } → (coreOf s c).stalled = none → (coreOf s c).qh = [op] → op.flag = some f →
    op.count = 1 → (sramOf s (coreKey c)).wf = true → op.dst + 8 ≤ 4194304 →
    op.profile.val ∉ slotProfiles s.u ((coreOf s c).slot.getD 0xFF) →
    ∃ t, exec (.mqResult c) s = .next t ∧ (coreOf t c).qh = [] ∧ (coreOf t c).hOut = 0 ∧
      tgetD (coreOf t c).flags f 0 = min 65535 (tgetD (coreOf s c).flags f 0 + 1) ∧
      leVal (mread (sramOf t (coreKey c)) op.dst 8) = 2 ^ 57 ∧ sramPois t (coreKey c) op.dst 8 = true ∧
      t.m.t1 = s.m.t1 ∧ t.m.t2 = s.m.t2 ∧ t.q = s.q) ∧
  (∀ (s : State) (c : CoreId) (op : MqOp) (f : Fin 32), corePresent s.asm s.u c = true →
    quietCore { coreOf s c with qh := [] } → (coreOf s c).stalled = none → (coreOf s c).qh = [op] → op.flag = some f →
    op.count = 1 → (coreOf s c).hOut = 1 → (sramOf s (coreKey c)).wf = true → op.dst + 8 ≤ 4194304 →
    op.profile.val ∈ slotProfiles s.u ((coreOf s c).slot.getD 0xFF) →
    allZero ((sramRead s (coreKey c) op.src 32).drop 20) = true → sramPois s (coreKey c) op.src 32 = false →
    ∃ t, exec (.mqResult c) s = .next t ∧ (coreOf t c).qh = [] ∧ (coreOf t c).hOut = 0 ∧
      tgetD (coreOf t c).flags f 0 = min 65535 (tgetD (coreOf s c).flags f 0 + 1) ∧
      leVal (mread (sramOf t (coreKey c)) op.dst 8) = recWord (searchU 0 (if op.byteForm then 1 else 0)
        (profBanks (profAt s.u op.profile)) (leVal ((sramRead s (coreKey c) op.src 32).take 20)) s.u).1 % 2 ^ 64 ∧
      t.m.t1 = s.m.t1 ∧ t.m.t2 = s.m.t2 ∧ t.q = s.q)

/- Messages of the block, the contexts and the policies (12, 08, 15, 19). -/
/-- Block messages (R351): BLK_INFO, BLK_STATUS and BLK_CHECK answer and change nothing; BLK_TOPOLOGY takes the identities and
neighbours while the block is disabled; BLK_CONFIG takes effect at the next edge; BLK_VOCAB stores the table it read. The
block check (R412): with no reason against it EN reads 1 and CHECKING 0; otherwise EN stays 0, FAILED is set, and the first
reason and the number of reasons are written. -/
def Obligations.BlockMessagesAndCheck : Prop :=
  (
  (∀ (s : State) (mb : Fin 64) (p : Bytes), heard s.u mb 0x0001 p → exec (.blkInfo mb) s = .next (onUnits (answer mb (ok
    (le8 s.asm.serial ++ leBytes 1 s.asm.variant ++ leBytes 1 (engineDies s.asm) ++ leBytes 1 (ioDies s.asm) ++
      leBytes 1 (nStacks s.asm) ++ leBytes 2 s.u.fw.run.ifMin ++ leBytes 2 s.u.fw.run.ifMax ++ leBytes 4 s.u.fw.run.ver ++
      leBytes 4 s.u.tick.period))) s)) ∧
  (∀ (s : State) (mb : Fin 64) (p : Bytes), heard s.u mb 0x0005 p → exec (.blkCheck mb) s =
    .next (onUnits (answer mb (ok (resultList (blockCheck s.asm s.u)))) s)) ∧
  (∀ (s : State) (mb : Fin 64) (p : Bytes), heard s.u mb 0x0006 p →
    ∃ t a, exec (.blkStatus mb) s = .next t ∧ answered t mb (ok a) ∧ a.length = 28 ∧
      le a 1 1 = tickStCode s.u.tick.st ∧ le a 24 4 = s.u.job.length % 2 ^ 32 ∧
      t = { s with u := { s.u with mbx := t.u.mbx } }) ∧
  (∀ (s : State) (mb : Fin 64) (p : Bytes), heard s.u mb 0x0002 p → le p 24 1 ≤ 64 →
    (∀ k, k < le p 24 1 → le p (40 + 16 * k) 1 ≤ 3) → s.u.blk.en = false →
    exec (.blkTopology mb) s = .next (onUnits (fun u => answer mb (ok []) { u with
      blk := { u.blk with topoOk := true }
      fab := { u.fab with
        groupId := le p 0 8, selfId := le p 8 8, masterId := le p 16 8
        nbrs := (List.range (le p 24 1)).map (fun k =>
          { id := le p (32 + 16 * k) 8, kind := le p (40 + 16 * k) 1, xdie := le p (41 + 16 * k) 1 }) } }) s)) ∧
  (∀ (s : State) (mb : Fin 64) (p : Bytes), heard s.u mb 0x0002 p → le p 24 1 ≤ 64 →
    (∀ k, k < le p 24 1 → le p (40 + 16 * k) 1 ≤ 3) → s.u.blk.en = true →
    exec (.blkTopology mb) s = .next (onUnits (answer mb (plain 8)) s)) ∧
  (∀ (s : State) (mb : Fin 64) (p : Bytes), heard s.u mb 0x0003 p → le p 4 2 ≤ 1024 → le p 6 2 < le p 4 2 →
    0 < le p 12 2 → le p 12 2 ≤ 3600 → s.u.blk.en = false →
    t1Need s.asm { s.u with tier := { s.u.tier with pageMain := le p 0 4, jobPool := le p 8 4 } } ≤ tier1Bytes s.asm →
    exec (.blkConfig mb) s = .next (onUnits (fun u => answer mb (ok (le8 (nextTick u))) (schedule
      (.config (le p 0 4) (le p 4 2) (le p 6 2) (le p 8 4) (le p 12 2))
      { u with blk := { u.blk with configOk := true } })) s)) ∧
  (∀ (s : State) (mb : Fin 64) (p x y : Bytes) (idx pool : Dma), heard s.u mb 0x0004 p → 0 < le p 0 4 → le p 0 4 ≤ 1048575 →
    bufOk s.u mb (bufOf p 16) = true → 4 * le p 0 4 ≤ (bufOf p 16).len → bufOk s.u mb (bufOf p 32) = true →
    (bufOf p 32).len ≤ 2 ^ 22 → s.u.blk.en = false → anyInService s.u = false →
    bufRead s mb (bufOf p 16) idx = some x → bufRead s mb (bufOf p 32) pool = some y →
    (∀ k, k < le p 0 4 → bitsOf (le x (4 * k) 4) 3 1 = 0 ∧
      bitsOf (le x (4 * k) 4) 31 10 + bitsOf (le x (4 * k) 4) 9 4 ≤ (bufOf p 32).len) →
    exec (.blkVocab mb idx pool) s = .next (onUnits (fun u => answer mb (ok []) { u with
      blk := { u.blk with vocabOk := true }
      mat := { u.mat with
        ntok := le p 0 4, pool := mwrite [] 0 y
        vocIdx := ((List.range (le p 0 4)).map (fun k => (k, le x (4 * k) 4))).filter (fun w => w.2 != 0) } }) s))) ∧
  (
  (∀ s : State, s.u.blk.checking = true → blockCheck s.asm s.u = [] → exec .blockCheckDone s = .next (onUnits (fun u =>
    { u with blk := { u.blk with checking := false, en := true, firstReason := 0, nfail := 0 } }) s)) ∧
  (∀ (s : State) (r : Nat × Nat) (l : List (Nat × Nat)), s.u.blk.checking = true → blockCheck s.asm s.u = r :: l →
    ∃ t, exec .blockCheckDone s = .next t ∧ t.u.blk = { s.u.blk with checking := false, failed := true, firstReason := r.1, nfail := min 255 (l.length + 1) } ∧
      t.q = s.q ∧ t.m = s.m))

/-- Context messages (R352): CTX_CONFIG of an idle context stores the whole record; CTX_RINGS its rings; CTX_SHARES and an
accepted CTX_ENABLE take effect at the next edge and say so in EFFECTIVE; CTX_DISABLE puts an enabled context into state 3;
CTX_STATUS reads. An enabled context refuses a change of its rings with STATE. -/
def Obligations.ContextMessages : Prop :=
  (∀ (s : State) (mb : Fin 64) (p : Bytes), heard s.u mb 0x0101 p → ctxConfigFault p = none →
    (tgetD s.u.ctx (le p 0 1) {}).state ≠ 2 → (tgetD s.u.ctx (le p 0 1) {}).state ≠ 3 →
    (tgetD s.u.ctx (le p 0 1) {}).enableAt = none →
    ∃ t c, exec (.ctxConfig mb) s = .next t ∧ answered t mb (ok (le8 (nextTick s.u))) ∧
      t.u.ctx = tset s.u.ctx (le p 0 1) c ∧
      c = { tgetD s.u.ctx (le p 0 1) {} with
        state := 1, cohort := le p 1 1, headSlot := le p 2 1, maxStreams := le p 4 2, jobQuota := le p 6 2
        maxPos := le p 8 4, classes := (List.range (le p 3 1)).map (fun j => (le p (24 + 8 * j) 2, le p (26 + 8 * j) 2))
        defTtl := le p 12 4, defTarget := le p 16 1 } ∧
      t = { s with u := { s.u with mbx := t.u.mbx, ctx := t.u.ctx } }) ∧
  (∀ (s : State) (mb : Fin 64) (p : Bytes), heard s.u mb 0x0102 p → 0 < le p 0 1 → le p 0 1 ≤ 63 → 80 ≤ le p 2 2 →
    le p 2 2 ≤ 2047 → ringOk s.u (bufOf p 16) 16 = true → ringOk s.u (bufOf p 32) 16 = true →
    ringOk s.u (bufOf p 48) 64 = true → (tgetD s.u.ctx (le p 0 1) {}).state ≠ 2 →
    (tgetD s.u.ctx (le p 0 1) {}).state ≠ 3 → (tgetD s.u.ctx (le p 0 1) {}).enableAt = none →
    exec (.ctxRings mb) s = .next (onUnits (fun u => answer mb (ok []) { u with
      ctx := tset u.ctx (le p 0 1) { tgetD u.ctx (le p 0 1) {} with
        ringsSet := true, vec := le p 2 2, sub := bufOf p 16, cpl := bufOf p 32, bat := bufOf p 48 } }) s)) ∧
  (∀ (s : State) (mb : Fin 64) (p : Bytes), heard s.u mb 0x0102 p → 0 < le p 0 1 → le p 0 1 ≤ 63 → 80 ≤ le p 2 2 →
    le p 2 2 ≤ 2047 → ringOk s.u (bufOf p 16) 16 = true → ringOk s.u (bufOf p 32) 16 = true →
    ringOk s.u (bufOf p 48) 64 = true → (tgetD s.u.ctx (le p 0 1) {}).state = 2 →
    exec (.ctxRings mb) s = .next (onUnits (answer mb (plain 8)) s)) ∧
  (∀ (s : State) (mb : Fin 64) (p : Bytes), heard s.u mb 0x0103 p → 0 < le p 0 1 → le p 0 1 ≤ 63 → le p 1 1 = 1 →
    le p 8 1 ≤ 31 → 0 < le p 10 2 → le p 10 2 ≤ 1024 →
    le p 10 2 + ((s.u.ctx.filter (fun e => e.1 != le p 0 1)).map (fun e => tgetD (nextShares s.u e.1) (le p 8 1) 0)).sum ≤ 1024 →
    ∃ t, exec (.ctxShares mb) s = .next t ∧ answered t mb (ok (le8 (nextTick s.u))) ∧
      t.u.changes = s.u.changes ++ [(nextTick s.u, .shares (le p 0 1) [(le p 8 1, le p 10 2)])] ∧
      (∀ k, tgetD t.u.ctx k {} = tgetD s.u.ctx k {}) ∧
      t = { s with u := { s.u with mbx := t.u.mbx, ctx := t.u.ctx, changes := t.u.changes } }) ∧
  (∀ (s : State) (mb : Fin 64) (p : Bytes) (lines : List Dma), heard s.u mb 0x0104 p → 0 < le p 0 1 → le p 0 1 ≤ 63 →
    (tgetD s.u.ctx (le p 0 1) {}).state ≠ 2 → (tgetD s.u.ctx (le p 0 1) {}).state ≠ 3 →
    (tgetD s.u.ctx (le p 0 1) {}).enableAt = none → contextCheck s.asm s.u (le p 0 1) lines none = [] →
    bitAt (flagsOf s.u mb) 1 = false →
    ∃ t, exec (.ctxEnable mb lines) s = .next t ∧ answered t mb (ok (le8 (nextTick s.u))) ∧
      t.u.changes = s.u.changes ++ [(nextTick s.u, .enable (le p 0 1))] ∧
      t.u.ctx = tset s.u.ctx (le p 0 1) { tgetD s.u.ctx (le p 0 1) {} with enableAt := some (nextTick s.u) } ∧
      t = { s with u := { s.u with mbx := t.u.mbx, ctx := t.u.ctx, changes := t.u.changes } }) ∧
  (∀ (s : State) (mb : Fin 64) (p : Bytes) (lines : List Dma), heard s.u mb 0x0104 p → 0 < le p 0 1 → le p 0 1 ≤ 63 →
    (tgetD s.u.ctx (le p 0 1) {}).state ≠ 2 → (tgetD s.u.ctx (le p 0 1) {}).state ≠ 3 →
    (tgetD s.u.ctx (le p 0 1) {}).enableAt = none → contextCheck s.asm s.u (le p 0 1) lines none ≠ [] →
    exec (.ctxEnable mb lines) s = .next (onUnits (answer mb
      { status := 0xA, payload := resultList (contextCheck s.asm s.u (le p 0 1) lines none) }) s)) ∧
  (∀ (s : State) (mb : Fin 64) (p : Bytes), heard s.u mb 0x0105 p → 0 < le p 0 1 → le p 0 1 ≤ 63 →
    (tgetD s.u.ctx (le p 0 1) {}).state = 2 →
    exec (.ctxDisable mb) s = .next (onUnits (fun u => answer mb (ok (le8 (nextTick u))) { u with
      ctx := tset u.ctx (le p 0 1) { tgetD u.ctx (le p 0 1) {} with state := 3, holdFrom := some (nextTick u) } }) s)) ∧
  (∀ (s : State) (mb : Fin 64) (p : Bytes), heard s.u mb 0x0106 p → 0 < le p 0 1 → le p 0 1 ≤ 63 →
    (mb = 0 ∨ mb.val = le p 0 1) →
    exec (.ctxStatus mb) s = .next (onUnits (answer mb (ok (leBytes 1 (tgetD s.u.ctx (le p 0 1) {}).state ++
      leBytes 1 (tgetD s.u.ctx (le p 0 1) {}).cohort ++ leBytes 2 (ctxStreams s.u (le p 0 1)) ++
      leBytes 4 (ctxJobs s.u (le p 0 1)) ++ le8 (tgetD s.u.ctx (le p 0 1) {}).deferrals ++
      le8 (tgetD s.u.ctx (le p 0 1) {}).truncs))) s))

/-- POLICY_WRITE accepts a record without fault, gives it the next version and schedules it; POLICY_READ returns the last
accepted record and its version (R234, R353). A record with a fault is refused at the lowest offset and changes nothing.
CONFIG_CHANGE_EFFECT (R234, R352): at the edge an accepted policy record is in effect with its version, accepted shares are
the context's, and an accepted enable puts the context into state 2 with its ring indexes 0 (R363). A change whose edge has
not come stands. -/
def Obligations.PolicyMessagesAndAcceptedChanges : Prop :=
  (
  (∀ (s : State) (mb : Fin 64) (p : Bytes), heard s.u mb 0x0201 p → le p 0 2 ≤ 1023 → policyFault s.u (sliceZ p 8 288) = none →
    exec (.policyWrite mb) s = .next (onUnits (fun u => answer mb
      (ok (leBytes 4 (((tgetD u.pol (le p 0 2) {}).lastVer + 1) % 2 ^ 32) ++ leBytes 4 0 ++ le8 (nextTick u)))
      (schedule (.policy (le p 0 2) (sliceZ p 8 288) (((tgetD u.pol (le p 0 2) {}).lastVer + 1) % 2 ^ 32))
        { u with pol := tset u.pol (le p 0 2) { tgetD u.pol (le p 0 2) {} with
            last := sliceZ p 8 288, lastVer := ((tgetD u.pol (le p 0 2) {}).lastVer + 1) % 2 ^ 32 } })) s)) ∧
  (∀ (s : State) (mb : Fin 64) (p : Bytes) (off : Nat), heard s.u mb 0x0201 p → le p 0 2 ≤ 1023 →
    policyFault s.u (sliceZ p 8 288) = some off →
    exec (.policyWrite mb) s = .next (onUnits (answer mb (bad 7 5 (8 + off) 0)) s)) ∧
  (∀ (s : State) (mb : Fin 64) (p : Bytes), heard s.u mb 0x0202 p → le p 0 2 ≤ 1023 →
    exec (.policyRead mb) s = .next (onUnits (answer mb (ok (leBytes 4 (tgetD s.u.pol (le p 0 2) {}).lastVer ++ leBytes 4 0 ++
      sliceZ (polLast s.u (le p 0 2)) 0 288))) s))) ∧
  (
  (∀ (s : State) (n id v : Nat) (r : Bytes), s.u.changes = [(n, .policy id r v)] → running s.u = true →
    n ≤ s.u.tick.number → s.u.str = [] → (∀ c, c ∈ s.u.ctx → c.2.state ≠ 2) →
    ∃ t, exec .configChangeEffect s = .next t ∧ (tgetD t.u.pol id {}).cur = some (r, v) ∧
      (∀ k, k ≠ id → tget t.u.pol k = tget s.u.pol k) ∧ t.u.changes = [] ∧ t.q = s.q ∧ t.m = s.m) ∧
  (∀ (s : State) (n k : Nat), s.u.changes = [(n, .enable k)] → running s.u = true → n ≤ s.u.tick.number → s.u.str = [] →
    ∃ t, exec .configChangeEffect s = .next t ∧ (tgetD t.u.ctx k {}).state = 2 ∧ (tgetD t.u.ctx k {}).subProd = 0 ∧
      (tgetD t.u.ctx k {}).batProd = 0 ∧ (tgetD t.u.ctx k {}).bseq = 0 ∧ (tgetD t.u.ctx k {}).enableAt = none ∧
      (tgetD t.u.ctx k {}).shares = (tgetD s.u.ctx k {}).shares ∧
      t = { s with u := { s.u with ctx := t.u.ctx, changes := [] } }) ∧
  (∀ (s : State) (n k : Nat) (sh : Tbl Nat), s.u.changes = [(n, .shares k sh)] → running s.u = true → n ≤ s.u.tick.number →
    s.u.str = [] → (∀ c, c ∈ s.u.ctx → c.2.state ≠ 2) →
    ∃ t, exec .configChangeEffect s = .next t ∧ tgetD t.u.ctx k {} = { tgetD s.u.ctx k {} with shares := sh } ∧
      (∀ j, j ≠ k → tget t.u.ctx j = tget s.u.ctx j) ∧ t = { s with u := { s.u with ctx := t.u.ctx, changes := [] } }) ∧
  (∀ (s : State) (n : Nat) (c : Change), s.u.changes = [(n, c)] → running s.u = true → s.u.tick.number < n →
    (∀ a b r l, c ≠ .sampling a b r l) → exec .configChangeEffect s = .next s))

/-- Counter messages (R507, R509, R510): CNT_SELECT takes a listed source of a fitted die, and as it takes effect the counter
counts that source from 0; CNT_READ with a buffer large enough waits, and the latch of an edge writes its snapshot there and
answers with the edge's tick. A die counter counts its source and saturates at 48 bits; a block counter saturates there and
says so. -/
def Obligations.CounterMessages : Prop :=
  (∀ (s : State) (mb : Fin 64) (p : Bytes), heard s.u mb 0x0801 p → dieFitted s.asm (le p 0 1) (le p 1 1) = true →
    le p 2 1 ≤ 31 → sourceOk (le p 0 1) (le p 4 2) = true →
    exec (.cntSelect mb) s = .next (onUnits (fun u => answer mb (ok (le8 (nextTick u)))
      (schedule (.cntSel (dieKey (le p 0 1) (le p 1 1) * 32 + le p 2 1) (le p 4 2)) u)) s)) ∧
  (∀ (s : State) (mb : Fin 64) (p : Bytes) (flt : Bool), heard s.u mb 0x0802 p → bufOk s.u mb (bufOf p 16) = true →
    512 * (cntDies s.asm mb (le p 8 8)).length + 256 ≤ (bufOf p 16).len →
    exec (.cntRead mb flt) s = .next (onUnits (fun u => await mb { u with
      cnt := { u.cnt with reads := u.cnt.reads ++ [(mb.val, flt)] } }) s)) ∧
  (∀ (u : Units) (i source : Nat), tgetD (changeEffect (.cntSel i source) u).cnt.die i {} = { source := source } ∧
    ∀ j, j ≠ i → tget (changeEffect (.cntSel i source) u).cnt.die j = tget u.cnt.die j) ∧
  (∀ (s : State) (k : Nat) (mb : Fin 64) (p : Bytes), s.u.cnt.reads = [(mb.val, false)] → awaits s mb →
    p = payloadOf (tgetD s.u.mbx mb {}) → (bufOf p 16).space = 0 → dmaUp s.u 0 = true →
    512 * (cntDies s.asm mb (le p 8 8)).length + 256 ≤ (bufOf p 16).len →
    cntLatch k s = onUnits (fun u => answer mb (ok (le8 k)) (emit (.host 0 (bufOf p 16).addr
      (cntEntries u (cntDies s.asm mb (le p 8 8)))) { u with cnt := { u.cnt with reads := [] } })) s) ∧
  (∀ (u : Units) (die source k i : Nat) (c : DieCnt), 0 < k → tget u.cnt.die i = some c → i / 32 = die → c.source = source →
    ∃ d, tget (dieBump die source k u).cnt.die i = some d ∧ d.source = source ∧ d.value = min (c.value + k) (2 ^ 48 - 1)) ∧
  (∀ (u : Units) (n k : Nat), 0 < k → tgetD (blkBump n k u).cnt.blk n (0, false) =
    (min ((tgetD u.cnt.blk n (0, false)).1 + k) (2 ^ 48 - 1),
      (tgetD u.cnt.blk n (0, false)).2 || decide (2 ^ 48 ≤ (tgetD u.cnt.blk n (0, false)).1 + k)))

/- Matching (06). -/
/-- Match messages that take effect at an edge (R175, R182, R183, R196): PROFILE_WRITE, DESC_WRITE and BANK_CONFIG with no field
at fault and nothing in service against them are scheduled and answer EFFECTIVE, profiles and descriptors entering the match
shadow at once (R200); a profile record at fault is refused at its lowest offset; ACTION_WRITE, BANLIST_WRITE and REPLSEQ_WRITE
store their records at once. -/
def Obligations.MatchConfigurationMessages : Prop :=
  (∀ (s : State) (mb : Fin 64) (p : Bytes), heard s.u mb 0x0203 p → profileFault s.u (sliceZ p 8 32) = none →
    profValid (sliceZ p 8 32) = true →
    exec (.profileWrite mb) s = .next (onUnits (fun u => answer mb (ok (le8 (nextTick u)))
      (schedule (.profile (le p 0 1) (some (sliceZ p 8 32)))
        { u with mat := { u.mat with shProfiles := tset u.mat.shProfiles (le p 0 1) (sliceZ p 8 32) } })) s)) ∧
  (∀ (s : State) (mb : Fin 64) (p : Bytes), heard s.u mb 0x0203 p → profileFault s.u (sliceZ p 8 32) = none →
    profValid (sliceZ p 8 32) = false → profNamed s.u (le p 0 1) = false →
    exec (.profileWrite mb) s = .next (onUnits (fun u => answer mb (ok (le8 (nextTick u)))
      (schedule (.profile (le p 0 1) none) { u with mat := { u.mat with shProfiles := tdel u.mat.shProfiles (le p 0 1) } })) s)) ∧
  (∀ (s : State) (mb : Fin 64) (p : Bytes) (off : Nat), heard s.u mb 0x0203 p → profileFault s.u (sliceZ p 8 32) = some off →
    exec (.profileWrite mb) s = .next (onUnits (answer mb (bad 7 5 (8 + off) 0)) s)) ∧
  (∀ (s : State) (mb : Fin 64) (p : Bytes) (d : Desc), heard s.u mb 0x0204 p → le p 0 1 ≤ 1 → le p 2 2 ≤ 4095 → le p 4 1 ≤ 1 →
    (if le p 0 1 = 0 then le p 8 4 < 524288 ∧ le p 12 4 < 262144 else le p 8 4 = 0 ∧ le p 12 4 = 0) →
    (le p 4 1 = 1 ∨ nextDefined s.u (le p 0 1 == 1) (le p 2 2) = false ∨
      ∀ r, r ∈ nextProfiles s.u → profNames r (le p 0 1 == 1) (le p 2 2) = false) →
    d = { defined := le p 4 1 == 1, accept := le p 8 4, start := le p 12 4
          classMap := if le p 0 1 = 0 then sliceZ p 16 256 else [] } →
    exec (.descWrite mb) s = .next (onUnits (fun u => answer mb (ok (le8 (nextTick u))) (schedule (.desc (le p 0 1 == 1) (le p 2 2) d)
      (shadowDesc (le p 0 1 == 1) (le p 2 2) (fun x => { d with gen := x.gen }) u))) s)) ∧
  (∀ (s : State) (mb : Fin 64) (p : Bytes), heard s.u mb 0x0205 p → le p 0 4 < 524288 → 0 < le p 4 2 → le p 4 2 ≤ 500 →
    le p 0 4 + le p 4 2 ≤ 524288 → (∀ k, k < le p 4 2 → actionBad (le p (8 + 8 * k) 8) = false) →
    ∃ t, exec (.actionWrite mb) s = .next t ∧ answered t mb (ok []) ∧
      (∀ k, k < le p 4 2 → actionAt t.u (le p 0 4 + k) = le p (8 + 8 * k) 8) ∧
      (∀ k, k < le p 4 2 → tgetD t.u.mat.shActions (le p 0 4 + k) 0 = le p (8 + 8 * k) 8) ∧
      (∀ a, a < le p 0 4 ∨ le p 0 4 + le p 4 2 ≤ a → actionAt t.u a = actionAt s.u a) ∧
      t = { s with u := { s.u with mbx := t.u.mbx, mat := { s.u.mat with
        actions := t.u.mat.actions, shActions := t.u.mat.shActions } } }) ∧
  (∀ (s : State) (mb : Fin 64) (p x : Bytes) (d : Dma), heard s.u mb 0x0206 p → le p 0 4 < 2 ^ 20 →
    le p 0 4 + le p 4 4 ≤ 2 ^ 20 → bufOk s.u mb (bufOf p 16) = true → 4 * le p 4 4 ≤ (bufOf p 16).len →
    bufRead s mb (bufOf p 16) d = some x → (∀ k, k < le p 4 4 → le x (4 * k) 4 < 2 ^ 20) →
    ∃ t, exec (.banlistWrite mb d) s = .next t ∧ answered t mb (ok []) ∧
      (∀ k, k < le p 4 4 → tgetD t.u.mat.lists (le p 0 4 + k) 0 = le x (4 * k) 4) ∧
      (∀ a, a < le p 0 4 ∨ le p 0 4 + le p 4 4 ≤ a → tget t.u.mat.lists a = tget s.u.mat.lists a) ∧
      t = { s with u := { s.u with mbx := t.u.mbx, mat := { s.u.mat with lists := t.u.mat.lists } } }) ∧
  (∀ (s : State) (mb : Fin 64) (p : Bytes), heard s.u mb 0x0207 p → le p 0 2 ≤ 4095 → replFault (sliceZ p 8 128) = none →
    exec (.replseqWrite mb) s = .next (onUnits (fun u => answer mb (ok []) { u with
      mat := { u.mat with repl := tset u.mat.repl (le p 0 2) (sliceZ p 8 128) } }) s)) ∧
  (∀ (s : State) (mb : Fin 64) (p : Bytes), heard s.u mb 0x0208 p → le p 0 1 ≤ 1 → le p 1 1 ≤ 31 → le p 2 1 ≤ 3 →
    le p 3 1 ≤ 1 → le p 4 2 ≤ s.u.tick.period * 1500 / 16 →
    (le p 2 1 = nextMode s.u (le p 0 1 * 32 + le p 1 1) ∨ bankHolds s.u (le p 0 1 * 32 + le p 1 1) = false ∧
      ∀ r, r ∈ nextProfiles s.u → bitAt (profBanks r) (le p 0 1 * 32 + le p 1 1) = false) →
    exec (.bankConfig mb) s = .next (onUnits (fun u => answer mb (ok (le8 (nextTick u))) (schedule
      (.bank (le p 0 1 * 32 + le p 1 1) (le p 2 1) (le p 3 1 == 1) (le p 4 2)) u)) s))

/-- MATCH_UPDATE (R195, R200): a list with no record at fault is accepted whole, takes its place in the order and waits for its
answer until all its records are done, no entry changed yet; the one record of a list enters the shadow and its bank's queue;
a list with a record at fault is refused; an empty list is answered at once. MATCH_READ writes the entries as records. -/
def Obligations.MatchUpdateAndReadMessages : Prop :=
  (∀ (s : State) (mb : Fin 64) (p x : Bytes) (d : Dma), heard s.u mb 0x0209 p → bufOk s.u mb (bufOf p 16) = true →
    le p 0 4 = 0 → bufRead s mb (bufOf p 16) d = some x →
    exec (.matchUpdate mb d) s = .next (onUnits (answer mb (ok (List.replicate 16 0))) s)) ∧
  (∀ (s : State) (mb : Fin 64) (p x : Bytes) (d : Dma), heard s.u mb 0x0209 p → bufOk s.u mb (bufOf p 16) = true →
    le p 0 4 = 1 → 64 ≤ (bufOf p 16).len → bufRead s mb (bufOf p 16) d = some x →
    updBad s.u (sliceZ x 0 64) = false → bitsOf (le x 40 4) 23 20 = 1 → s.u.mat.updLists = [] →
    (bankAt s.u (le x 40 4 % 2 ^ 20 / 16384)).queue.length < 64 → x.length = (bufOf p 16).len →
    ∃ t r, exec (.matchUpdate mb d) s = .next t ∧ awaits t mb ∧
      (bankAt t.u (le x 40 4 % 2 ^ 20 / 16384)).queue = (bankAt s.u (le x 40 4 % 2 ^ 20 / 16384)).queue ++ [r] ∧
      r.op = 1 ∧ r.addr = le x 40 4 % 2 ^ 20 ∧ r.ent.mask = le x 20 20 ∧ r.ent.key = Nat.land (le x 0 20) (le x 20 20) ∧
      r.ent.prio = le x 44 4 % 4096 ∧ r.step = 0 ∧
      tget t.u.mat.shadow r.addr = some (withPar { r.ent with key := Nat.land r.ent.key r.ent.mask }) ∧
      t.u.mat.entries = s.u.mat.entries ∧ t.m = s.m ∧ t.q = s.q) ∧
  (∀ (s : State) (mb : Fin 64) (p x : Bytes) (d : Dma), heard s.u mb 0x0209 p → bufOk s.u mb (bufOf p 16) = true →
    0 < le p 0 4 → 64 * le p 0 4 ≤ (bufOf p 16).len → bufRead s mb (bufOf p 16) d = some x →
    (∀ k, k < le p 0 4 → updBad s.u (sliceZ x (64 * k) 64) = false) →
    ∃ t, exec (.matchUpdate mb d) s = .next t ∧ awaits t mb ∧ t.u.mat.nextList = s.u.mat.nextList + 1 ∧
      t.u.mat.nextOrd = s.u.mat.nextOrd + le p 0 4 ∧ t.u.mat.entries = s.u.mat.entries ∧ t.m = s.m ∧ t.q = s.q) ∧
  (∀ (s : State) (mb : Fin 64) (p x : Bytes) (d : Dma) (k : Nat), heard s.u mb 0x0209 p → bufOk s.u mb (bufOf p 16) = true →
    64 * le p 0 4 ≤ (bufOf p 16).len → bufRead s mb (bufOf p 16) d = some x → k < le p 0 4 →
    updBad s.u (sliceZ x (64 * k) 64) = true →
    exec (.matchUpdate mb d) s = .next (onUnits (answer mb (invalid 16)) s)) ∧
  (∀ (s : State) (mb : Fin 64) (p : Bytes), heard s.u mb 0x020A p → le p 0 4 < 2 ^ 20 → 0 < le p 4 2 → le p 4 2 ≤ 4096 →
    le p 0 4 + le p 4 2 ≤ 2 ^ 20 → bufOk s.u mb (bufOf p 16) = true → 64 * le p 4 2 ≤ (bufOf p 16).len →
    (bufOf p 16).space = 0 → dmaUp s.u 0 = true →
    exec (.matchRead mb false) s = .next (onUnits (fun u => answer mb (ok []) (emit (.host 0 (bufOf p 16).addr
      ((fromN (le p 0 4) (le p 4 2)).flatMap (entryRecord u))) u)) s))

/-- A search (R171 to R173): an entry matches when it is valid and agrees with the key under its mask; the winner has the
highest PRIO and, among equals, the lowest address; a search with no match hits nothing. MATCH_SEARCH writes the result record
of the banks its profile selects. A parity failure of the winner (R174): the result is poisoned, the entry is rewritten from
the shadow, and a notice names its address. -/
def Obligations.SearchFindsTheWinner : Prop :=
  (
  (∀ (l : List (Nat × MEntry)) (w : Nat × MEntry), winner l = some w → w ∈ l ∧ (∀ e, e ∈ l → e.2.prio ≤ w.2.prio) ∧
    (∀ x y, l = x ++ w :: y → w ∉ x → ∀ e, e ∈ x → e.2.prio < w.2.prio)) ∧
  (∀ l : List (Nat × MEntry), winner l = none ↔ l = []) ∧
  (∀ (m : Match) (mode banks key : Nat) (w : Nat × MEntry), keyModeOk mode key = true →
    winner (matching m banks mode key) = some w →
    (searchRes m mode banks key).hit = true ∧ (searchRes m mode banks key).addr = w.1 ∧
      (searchRes m mode banks key).action = w.2.action ∧ (searchRes m mode banks key).prio = w.2.prio ∧
      (searchRes m mode banks key).count = min 15 (matching m banks mode key).length ∧
      (searchRes m mode banks key).multi = decide (2 ≤ (matching m banks mode key).length)) ∧
  (∀ (m : Match) (mode banks key : Nat) (w e : Nat × MEntry), Tsorted m.entries = true →
    winner (matching m banks mode key) = some w → e ∈ matching m banks mode key →
    e.2.prio < w.2.prio ∨ e.2.prio = w.2.prio ∧ w.1 ≤ e.1) ∧
  (∀ (m : Match) (banks mode key : Nat) (e : Nat × MEntry), e ∈ matching m banks mode key ↔
    e ∈ m.entries ∧ e.2.valid = true ∧ Nat.land (Nat.xor key e.2.key) e.2.mask = 0 ∧
      bankTaken m banks mode (e.1 / 16384) = true) ∧
  (∀ (s : State) (p : Fin 256) (key : Key),
    keyModeOk (profMode (profAt s.u p)) key.toNat = true →
    (∀ w, winner (matching s.u.mat (profBanks (profAt s.u p)) (profMode (profAt s.u p)) key.toNat) = some w →
      parOk (entryAt s.u w.1) = true) →
    ∃ t, exec (.matchSearch p key []) s = .next t ∧
      t.u.mat = { s.u.mat with result := recWord (searchRes s.u.mat (profMode (profAt s.u p)) (profBanks (profAt s.u p)) key.toNat) } ∧
      t = { s with u := { s.u with mat := t.u.mat, cnt := { s.u.cnt with die := t.u.cnt.die } } })) ∧
  (
  ∀ (s : State) (p : Fin 256) (key : Key) (l : List Upset) (v : Units) (w : Nat × MEntry) (e : MEntry), v = upset l s.u →
    keyModeOk (profMode (profAt s.u p)) key.toNat = true →
    winner (matching v.mat (profBanks (profAt s.u p)) (profMode (profAt s.u p)) key.toNat) = some w →
    parOk (entryAt v w.1) = false → tget s.u.mat.shadow w.1 = some e →
    ∃ t, exec (.matchSearch p key l) s = .next t ∧
      t.u.mat.result = recWord { searchRes v.mat (profMode (profAt s.u p)) (profBanks (profAt s.u p)) key.toNat with poison := true } ∧
      tget t.u.mat.entries w.1 = some (shadowEntry s.u w.1 e) ∧
      (∀ a, a ≠ w.1 → tget t.u.mat.entries a = tget v.mat.entries a) ∧
      t.u.prodN = (notice (matchDie w.1) 0x0401 0 [w.1] s.u).prodN ∧ t.q = s.q ∧ t.m = s.m)

/-- Updates of a bank (R193, R194, R196, R199): the one-slot path writes the entry whole in one step and spends budget; the
three-step path first invalidates the entry, then writes all but VALID, then sets VALID; every write writes PAR (R170).
AUTOMATON_REPLAY drops waiting groups that the profile no longer names and rebuilds one from an empty history at START; a due
COMMIT of a defined group inverts its GEN. Scrubbing and banks (R174, R201): a clean scrub clears the entry's mark; a bad one
rewrites the entry from the shadow, and the second in a row decides the bank's retirement; BANK_RETIRE gives the bank's number to a
spare loaded from the shadow. -/
def Obligations.MatchUpdatesAndScrub : Prop :=
  (
  (∀ (s : State) (b : Fin 64) (r : UpdRec), (bankAt s.u b).queue = [r] → r.addr / 16384 = b.val → r.step = 0 →
    (r.op = 1 ∨ r.op = 3) → (bankAt s.u b).mode = 0 → (bankAt s.u b).steal = true → (bankAt s.u b).used < (bankAt s.u b).budget → s.u.mat.updLists = [] →
    ∃ t, exec (.oneSlotUpdate b) s = .next t ∧
      tget t.u.mat.entries r.addr = some (withPar (if r.op = 3 then { entryAt s.u r.addr with valid := false }
        else { r.ent with key := Nat.land r.ent.key r.ent.mask })) ∧
      (∀ a, a ≠ r.addr → tget t.u.mat.entries a = tget s.u.mat.entries a) ∧ (bankAt t.u b).queue = [] ∧
      (bankAt t.u b).used = (bankAt s.u b).used + 1 ∧ (∀ k, k ≠ b.val → bankAt t.u k = bankAt s.u k) ∧ t.q = s.q ∧ t.m = s.m) ∧
  (∀ (s : State) (b : Fin 64) (r : UpdRec), (bankAt s.u b).queue = [r] → r.addr / 16384 = b.val → r.step = 0 → r.op = 2 →
    ∃ t, exec (.threeStepUpdate b) s = .next t ∧
      tget t.u.mat.entries r.addr = some (withPar { entryAt s.u r.addr with valid := false }) ∧
      (∀ a, a ≠ r.addr → tget t.u.mat.entries a = tget s.u.mat.entries a) ∧ (bankAt t.u b).queue = [{ r with step := 1 }] ∧
      t.q = s.q ∧ t.m = s.m) ∧
  (∀ (s : State) (b : Fin 64) (r : UpdRec), (bankAt s.u b).queue = [r] → r.addr / 16384 = b.val → r.step = 1 → r.op ≠ 3 →
    ∃ t, exec (.threeStepUpdate b) s = .next t ∧
      tget t.u.mat.entries r.addr = some (withPar { r.ent with key := Nat.land r.ent.key r.ent.mask, valid := false }) ∧
      (∀ a, a ≠ r.addr → tget t.u.mat.entries a = tget s.u.mat.entries a) ∧ (bankAt t.u b).queue = [{ r with step := 2 }]) ∧
  (∀ (s : State) (b : Fin 64) (r : UpdRec), (bankAt s.u b).queue = [r] → r.addr / 16384 = b.val → r.step = 2 → r.op ≠ 3 →
    s.u.mat.updLists = [] →
    ∃ t, exec (.threeStepUpdate b) s = .next t ∧
      tget t.u.mat.entries r.addr = some (withPar { entryAt s.u r.addr with valid := r.ent.valid }) ∧ (bankAt t.u b).queue = []) ∧
  (∀ (s : State) (n : Fin 4096) (x : Str), tget s.u.str n = some x → (s.u.mat.replay.filter (fun y => y.1 == n.val)) ≠ [] →
    profGroups (ansTrans s.u x) = [] →
    ∃ t, exec (.automatonReplay n) s = .next t ∧ t.u.mat.replay = s.u.mat.replay.filter (fun y => y.1 != n.val) ∧
      tget t.u.str n = some x ∧ t = { s with u := { s.u with str := t.u.str, mat := { s.u.mat with replay := t.u.mat.replay } } }) ∧
  (∀ (s : State) (n : Fin 4096) (x : Str) (g : Nat), tget s.u.str n = some x → s.u.mat.replay = [(n.val, g)] →
    g ∈ profGroups (ansTrans s.u x) → x.ms.bytes = [] → x.ms.autos = [] →
    ∃ t, exec (.automatonReplay n) s = .next t ∧ t.u.mat.replay = [] ∧
      (tgetD t.u.str n {}).ms = { x.ms with autos := [(g, (descAt s.u false g).start)] } ∧ t.q = s.q ∧ t.m = s.m) ∧
  (∀ (s : State) (ord g : Nat), s.u.mat.due = [(ord, 0, g)] → (descAt s.u false g).defined = true → s.u.str = [] →
    s.u.mat.updLists = [] →
    ∃ t, exec .commitEffect s = .next t ∧ (descAt t.u false g).gen = !(descAt s.u false g).gen ∧
      (∀ k, k ≠ g → descAt t.u false k = descAt s.u false k) ∧ (∀ k, descAt t.u true k = descAt s.u true k) ∧
      t.u.mat.due = [] ∧ t.u.mat.commits = s.u.mat.commits + 1 ∧ t.u.mat.entries = s.u.mat.entries ∧ t.q = s.q ∧ t.m = s.m)) ∧
  (
  (∀ (s : State) (a : BitVec 20), (bankAt s.u (a.toNat / 16384)).outOfService = false → parOk (entryAt s.u a.toNat) = true →
    ∃ t, exec (.matchScrubRead a []) s = .next t ∧ a.toNat ∉ t.u.mat.scrubFail ∧
      t.u.mat.entries = s.u.mat.entries ∧
      t = { s with u := { s.u with mat := { s.u.mat with scrubFail := t.u.mat.scrubFail }
                                   cnt := { s.u.cnt with die := t.u.cnt.die } } }) ∧
  (∀ (s : State) (a : BitVec 20) (l : List (Fin 360)) (e : MEntry), (bankAt s.u (a.toNat / 16384)).outOfService = false →
    parOk (entryAt (upset (l.map (fun i => (a, i))) s.u) a.toNat) = false → tget s.u.mat.shadow a.toNat = some e →
    ∃ t, exec (.matchScrubRead a l) s = .next t ∧ tget t.u.mat.entries a.toNat = some (shadowEntry s.u a.toNat e) ∧
      (a.toNat ∈ s.u.mat.scrubFail → RUnit.bank (Fin.ofNat 64 (a.toNat / 16384)) ∈ t.u.svc.decided) ∧
      (a.toNat ∉ s.u.mat.scrubFail → a.toNat ∈ t.u.mat.scrubFail ∧ t.u.svc.decided = s.u.svc.decided) ∧ t.q = s.q ∧ t.m = s.m) ∧
  (∀ (s : State) (b : Fin 64), RUnit.bank b ∈ s.u.svc.decided → (bankAt s.u b).outOfService = false →
    spareFree s.u.svc (.bank b) ≠ 0 → s.u.svc.decided.Nodup →
    ∃ t, exec (.bankRetire b) s = .next t ∧ (bankAt t.u b).phys = some (34 - spareFree s.u.svc (.bank b)) ∧
      (bankAt t.u b).outOfService = false ∧ RUnit.bank b ∉ t.u.svc.decided ∧
      (∀ a e, a / 16384 = b.val → tget s.u.mat.shadow a = some e → Tsorted s.u.mat.shadow = true →
        tget t.u.mat.entries a = some (shadowEntry s.u a e)) ∧
      (∀ k, k ≠ b.val → bankAt t.u k = bankAt s.u k) ∧ t.u.blk.unit = true ∧ t.q = s.q ∧ t.m = s.m))

/- Slots, arrays (05, 04, 03). -/
/-- Messages of model slots (R354, R164 to R166, R288): SLOT_LOAD waits for its image; SLOT_PLACE binds free cores of the allowed
dies in ascending order and waits; SLOT_SERVICE schedules the move and answers EFFECTIVE; SLOT_UNLOAD frees slot and cores;
SLOT_STATUS answers the slot's state and identity. -/
def Obligations.SlotMessages : Prop :=
  (∀ (s : State) (mb : Fin 64) (p x : Bytes) (d : Dma), heard s.u mb 0x0301 p → le p 0 1 ≤ 31 → bufOk s.u mb (bufOf p 16) = true →
    s.u.pins.throt = false → updateClash s.u (ceilDiv (bufOf p 16).len (2 ^ 24)) = false →
    (slotAt s.u (le p 0 1)).st = .empty → (slotAt s.u (le p 0 1)).bringing = false → bufRead s mb (bufOf p 16) d = some x →
    ∃ t, exec (.slotLoad mb d) s = .next t ∧ awaits t mb ∧ (slotAt t.u (le p 0 1)).bringing = true ∧
      (slotAt t.u (le p 0 1)).st = .empty ∧ (slotAt t.u (le p 0 1)).img = mwrite [] 0 x ∧
      (slotAt t.u (le p 0 1)).mb = some mb.val ∧ (∀ k, k ≠ le p 0 1 → slotAt t.u k = slotAt s.u k) ∧
      ((bufOf p 16).space ≠ 3 → t.u.tier.moves = s.u.tier.moves) ∧
      t = { s with u := { s.u with mbx := t.u.mbx, slot := t.u.slot, tier := { s.u.tier with moves := t.u.tier.moves } } }) ∧
  (∀ (s : State) (mb : Fin 64) (p : Bytes) (d : Dma), heard s.u mb 0x0301 p → le p 0 1 ≤ 31 → bufOk s.u mb (bufOf p 16) = true →
    s.u.pins.throt = false → updateClash s.u (ceilDiv (bufOf p 16).len (2 ^ 24)) = false →
    ((slotAt s.u (le p 0 1)).st ≠ .empty ∨ (slotAt s.u (le p 0 1)).bringing = true) →
    exec (.slotLoad mb d) s = .next (onUnits (answer mb (bad 0xA 3 0xFFFF 0x10)) s)) ∧
  (∀ (s : State) (mb : Fin 64) (p : Bytes) (cores : List Nat), heard s.u mb 0x0302 p → le p 0 1 ≤ 31 → 0 < le p 1 1 →
    le p 1 1 ≤ 32 → le p 2 2 ≤ 512 → s.u.pins.throt = false → updateClash s.u 8 = false →
    (slotAt s.u (le p 0 1)).st = .staged →
    cores = (freeIn s.asm s.u (maskOf (le p 8 8))).take (le p 1 1 * imgNcore (slotAt s.u (le p 0 1)).img) →
    cores.length = le p 1 1 * imgNcore (slotAt s.u (le p 0 1)).img → (le p 8 8 = 0 ∨ le p 8 8 % 2 ^ 26 ≠ 0) →
    secFind (imgSecs (slotAt s.u (le p 0 1)).img (slotAt s.u (le p 0 1)).imgLen) 6 0xFFFF 0xFF = none →
    ∃ t, exec (.slotPlace mb) s = .next t ∧ awaits t mb ∧ (slotAt t.u (le p 0 1)).st = .loading ∧
      (slotAt t.u (le p 0 1)).nrep = le p 1 1 ∧ (slotAt t.u (le p 0 1)).bind.map bindKey = cores ∧
      (∀ k, k ∈ cores → (coreAt t.u k).slot = some (le p 0 1) ∧ (coreAt t.u k).loading = true) ∧
      (∀ k, k ∉ cores → coreAt t.u k = coreAt s.u k) ∧ (∀ k, k ≠ le p 0 1 → slotAt t.u k = slotAt s.u k) ∧
      t = { s with u := { s.u with mbx := t.u.mbx, slot := t.u.slot, core := t.u.core } }) ∧
  (∀ (s : State) (mb : Fin 64) (p : Bytes), heard s.u mb 0x0303 p → le p 0 1 ≤ 31 → le p 1 1 = 1 →
    (slotAt s.u (le p 0 1)).st = .resident → (slotAt s.u (le p 0 1)).move = none →
    (imgKind (slotAt s.u (le p 0 1)).img = 1 → le p 4 4 = 0 ∧ le p 8 2 = 0) →
    serviceReasons s.asm (modSlot (le p 0 1) (fun x => { x with u := le p 4 4, l := le p 8 2 }) s.u) (le p 0 1) = [] →
    ∃ t, exec (.slotService mb) s = .next t ∧ answered t mb (ok (le8 (nextTick s.u))) ∧
      slotAt t.u (le p 0 1) =
        { slotAt s.u (le p 0 1) with u := le p 4 4, l := le p 8 2, move := some (true, nextTick s.u) } ∧
      t.u.changes = s.u.changes ++ [(nextTick s.u, .slot (le p 0 1) true)] ∧
      (∀ k, k ≠ le p 0 1 → slotAt t.u k = slotAt s.u k) ∧
      t = { s with u := { s.u with mbx := t.u.mbx, slot := t.u.slot, changes := t.u.changes } }) ∧
  (∀ (s : State) (mb : Fin 64) (p : Bytes), heard s.u mb 0x0303 p → le p 0 1 ≤ 31 → le p 1 1 = 0 →
    (slotAt s.u (le p 0 1)).st = .inService → (slotAt s.u (le p 0 1)).move = none → steppedUnder s.u (le p 0 1) = false →
    ∃ t, exec (.slotService mb) s = .next t ∧ answered t mb (ok (le8 (nextTick s.u))) ∧
      slotAt t.u (le p 0 1) = { slotAt s.u (le p 0 1) with move := some (false, nextTick s.u) } ∧
      t.u.changes = s.u.changes ++ [(nextTick s.u, .slot (le p 0 1) false)] ∧
      t = { s with u := { s.u with mbx := t.u.mbx, slot := t.u.slot, changes := t.u.changes } }) ∧
  (∀ (s : State) (mb : Fin 64) (p : Bytes), heard s.u mb 0x0304 p → le p 0 1 ≤ 31 →
    ((slotAt s.u (le p 0 1)).st = .staged ∨ (slotAt s.u (le p 0 1)).st = .resident) → (slotAt s.u (le p 0 1)).move = none →
    steppedUnder s.u (le p 0 1) = false →
    ∃ t, exec (.slotUnload mb) s = .next t ∧ answered t mb (ok []) ∧ slotAt t.u (le p 0 1) = {} ∧
      (∀ b, b ∈ (slotAt s.u (le p 0 1)).bind → (coreAt t.u (bindKey b)).slot = none ∧ (coreAt t.u (bindKey b)).loading = false) ∧
      (∀ i, tget t.u.semSlot i ≠ some (le p 0 1)) ∧ t.q = s.q ∧ t.m = s.m) ∧
  (∀ (s : State) (mb : Fin 64) (p : Bytes) (f : Bool), heard s.u mb 0x0305 p → le p 0 1 ≤ 31 → bufOk s.u mb (bufOf p 16) = true →
    (bufOf p 16).len = 0 →
    ∃ r, exec (.slotStatus mb f) s = .next (onUnits (answer mb (ok r)) s) ∧
      le r 0 1 = slotCode (slotAt s.u (le p 0 1)).st ∧
      ((slotAt s.u (le p 0 1)).st = .empty → r = List.replicate 64 0) ∧
      ((slotAt s.u (le p 0 1)).st ≠ .empty → le r 1 1 = imgKind (slotAt s.u (le p 0 1)).img % 256 ∧
        le r 2 2 = imgNcore (slotAt s.u (le p 0 1)).img % 65536 ∧ le r 4 1 = (slotAt s.u (le p 0 1)).nrep % 256 ∧
        le r 8 8 = (slotAt s.u (le p 0 1)).imageId % 2 ^ 64 ∧ r.drop 16 = mread (slotAt s.u (le p 0 1)).img 48 48))

/-- The work behind SLOT_LOAD and SLOT_PLACE (R164, R165, R121): a verified image is STAGED under its own IMAGE_ID, a faulty one
is refused whole with its lowest reason; a placement whose arrays all hold makes the slot RESIDENT with its cores' arrays and
instruction stores loaded from the image, and one with a marked array returns the slot to STAGED. -/
def Obligations.LoadsEnd : Prop :=
  (∀ (s : State) (n : Fin 32) (m : Nat), (slotAt s.u n).bringing = true → onceRuns s.u = true → moveDone s.u (.load n.val) = true →
    (slotAt s.u n).mb = some m → awaits s m →
    imageReasons s.asm (slotAt s.u n).img (bufOf (payloadOf (tgetD s.u.mbx m {})) 16).len
      (if (slotAt s.u n).imgLen = 0 then 0 else (bufOf (payloadOf (tgetD s.u.mbx m {})) 16).len)
      (sliceZ (payloadOf (tgetD s.u.mbx m {})) 32 48) = [] →
    ∃ t, exec (.imageStaged n) s = .next t ∧
      answered t m (ok (leBytes 8 (mle (slotAt s.u n).img 40 8) ++ leBytes 1 (imgKind (slotAt s.u n).img) ++ [0]
        ++ leBytes 2 (imgNcore (slotAt s.u n).img))) ∧
      slotAt t.u n =
        { slotAt s.u n with st := .staged, bringing := false, imageId := mle (slotAt s.u n).img 40 8, mb := none } ∧
      (∀ k, k ≠ n.val → slotAt t.u k = slotAt s.u k) ∧ t = { s with u := { s.u with mbx := t.u.mbx, slot := t.u.slot } }) ∧
  (∀ (s : State) (n : Fin 32) (m r : Nat) (l : List Nat), (slotAt s.u n).bringing = true → onceRuns s.u = true →
    moveDone s.u (.load n.val) = true → (slotAt s.u n).mb = some m → awaits s m → imageReasons s.asm (slotAt s.u n).img (bufOf (payloadOf (tgetD s.u.mbx m {})) 16).len
      (if (slotAt s.u n).imgLen = 0 then 0 else (bufOf (payloadOf (tgetD s.u.mbx m {})) 16).len)
      (sliceZ (payloadOf (tgetD s.u.mbx m {})) 32 48) = l → r ∈ l → r < 255 → (∀ x, x ∈ l → r ≤ x) →
    ∃ t, exec (.imageStaged n) s = .next t ∧ answered t m (bad 0xA 3 0xFFFF r) ∧ slotAt t.u n = {} ∧
      (∀ k, k ≠ n.val → slotAt t.u k = slotAt s.u k) ∧ t = { s with u := { s.u with mbx := t.u.mbx, slot := t.u.slot } }) ∧
  (∀ (s : State) (n : Fin 32) (m : Nat), (slotAt s.u n).st = .loading → onceRuns s.u = true → (slotAt s.u n).mb = some m →
    awaits s m → (∀ b, b ∈ (slotAt s.u n).bind → (coreAt s.u (bindKey b)).slot = some n.val ∧
      (coreAt s.u (bindKey b)).eng.any (fun e => !e.2.marked.isEmpty) = false) →
    ∃ t, exec (.placeLoadDone n) s = .next t ∧ answered t m (ok (leBytes 2 (slotAt s.u n).bind.length)) ∧
      (slotAt t.u n).st = .resident ∧ (slotAt t.u n).bind = (slotAt s.u n).bind ∧
      (∀ b, b ∈ (slotAt s.u n).bind → (coreAt t.u (bindKey b)).loading = false ∧ (coreAt t.u (bindKey b)).slot = some n.val ∧
        ∀ e, e < 16 → (engAt (coreAt t.u (bindKey b)) e).w =
          imgWeights (slotAt s.u n).img (slotAt s.u n).imgLen (coreAt s.u (bindKey b)).lidx e) ∧
      (∀ b, b ∈ (slotAt s.u n).bind → (coreAt t.u (bindKey b)).istore =
        imgStore (slotAt s.u n).img (slotAt s.u n).imgLen (coreAt s.u (bindKey b)).lidx) ∧
      (∀ k, (∀ b, b ∈ (slotAt s.u n).bind → bindKey b ≠ k) → coreAt t.u k = coreAt s.u k ∧ sramOf t k = sramOf s k) ∧
      (∀ k, k ≠ n.val → slotAt t.u k = slotAt s.u k) ∧ t.q = s.q ∧ t.m.t1 = s.m.t1 ∧ t.m.t2 = s.m.t2) ∧
  (∀ (s : State) (n : Fin 32) (m : Nat) (b : Binding), (slotAt s.u n).st = .loading → onceRuns s.u = true →
    (slotAt s.u n).mb = some m → awaits s m →
    b ∈ (slotAt s.u n).bind → (coreAt s.u (bindKey b)).eng.any (fun e => !e.2.marked.isEmpty) = true →
    ∃ t, exec (.placeLoadDone n) s = .next t ∧ answered t m (bad 0xA 3 0xFFFF 0x0E) ∧ (slotAt t.u n).st = .staged ∧
      (slotAt t.u n).bind = [] ∧ (slotAt t.u n).img = (slotAt s.u n).img ∧
      (∀ c, c ∈ (slotAt s.u n).bind → (coreAt t.u (bindKey c)).slot = none) ∧ t.q = s.q ∧ t.m = s.m)

/-- Arrays in service (R103, R105 to R108, R121, R95, R96): a scrub read waits while a pass uses the array; a clean one notes its
tick; a corrected one sets CORR; an uncorrectable row is rewritten with its check bits from an unpoisoned shadow copy, and the
outputs that used it are poisoned; a verified row write leaves the image's row with its check bits. CLIP_CHECK, once 1,024 ticks
have passed since the last, reports groups newly above threshold and starts the next span; CLIP_READ writes the counts and, if asked,
clears them. -/
def Obligations.ArraysInService : Prop :=
  (∀ (s : State) (c : CoreId) (e a : Fin 16) (row : Fin 1024), c.die.val < engineDies s.asm → (coreOf s c).retired = false →
    engIdle (coreOf s c) e = true →
    ∃ t, exec (.arrayScrubRead c e a row .clean) s = .next t ∧
      engOf t.u (coreKey c) e = { engOf s.u (coreKey c) e with
        scrubbed := tset (engOf s.u (coreKey c) e).scrubbed (a.val * 1024 + row.val) s.u.tick.number
        swept := (engOf t.u (coreKey c) e).swept } ∧
      (∀ k, k ≠ coreKey c → coreAt t.u k = coreAt s.u k) ∧
      t = { s with u := { s.u with core := t.u.core, cnt := { s.u.cnt with die := t.u.cnt.die }
                                   svc := { s.u.svc with urgent := t.u.svc.urgent } } }) ∧
  (∀ (s : State) (c : CoreId) (e a : Fin 16) (row : Fin 1024) (o : Ecc), engIdle (coreOf s c) e = false →
    exec (.arrayScrubRead c e a row o) s = .next s) ∧
  (∀ (s : State) (c : CoreId) (e a : Fin 16) (row : Fin 1024), c.die.val < engineDies s.asm → (coreOf s c).retired = false →
    engIdle (coreOf s c) e = true →
    ∃ t, exec (.arrayScrubRead c e a row .corrected) s = .next t ∧ t.u.blk.corr = true ∧
      (engOf t.u (coreKey c) e).w = (engOf s.u (coreKey c) e).w ∧ (∀ k, k ≠ coreKey c → coreAt t.u k = coreAt s.u k) ∧
      t.q = s.q ∧ t.m = s.m) ∧
  (∀ (s : State) (c : CoreId) (e a : Fin 16) (row : Fin 1024) (n addr : Nat), c.die.val < engineDies s.asm →
    (coreOf s c).retired = false → engIdle (coreOf s c) e = true →
    shadowRow s.u (coreKey c) e (a.val * 1024 + row.val) = some (n, addr) →
    addr / 64 ∉ s.u.tier.pois1 → addr / 64 + 1 ∉ s.u.tier.pois1 →
    ∃ t, exec (.arrayScrubRead c e a row .uncorrectable) s = .next t ∧
      (∀ r, tgetD (engOf t.u (coreKey c) e).w.cells r 0 = if r = a.val * 1024 + row.val
        then shadowCells s.u (coreKey c) e r else tgetD (engOf s.u (coreKey c) e).w.cells r 0) ∧
      tget (engOf t.u (coreKey c) e).check (a.val * 1024 + row.val) =
        some (Config.rowCheck (shadowCells s.u (coreKey c) e (a.val * 1024 + row.val))) ∧
      (∀ o, o ∈ (engOf s.u (coreKey c) e).outs → (engOf s.u (coreKey c) e).outTick = s.u.tick.number →
        o.1 + o.2 ≤ 4194304 → ∀ x, x ∈ unitsOf o.1 o.2 → x ∈ (coreOf t c).pois) ∧
      (∀ p, p ∈ (coreOf t c).passes → ∀ o, o ∈ p.outs → o.engine = e.val → o.poison = true) ∧
      (∀ k, k ≠ coreKey c → coreAt t.u k = coreAt s.u k) ∧ t.q = s.q ∧ t.m = s.m) ∧
  (∀ (s : State) (c : CoreId) (e a : Fin 16) (row : Fin 1024) (v : Bool), c.die.val < engineDies s.asm →
    (coreOf s c).slot ≠ none → spareLoads s.u c e a = false → (engOf s.u (coreKey c) e).busy = false →
    ∃ t, exec (.weightRowWrite c e a row true v) s = .next t ∧
      (∀ r, tgetD (engOf t.u (coreKey c) e).w.cells r 0 = if r = a.val * 1024 + row.val
        then shadowCells s.u (coreKey c) e r else tgetD (engOf s.u (coreKey c) e).w.cells r 0) ∧
      tget (engOf t.u (coreKey c) e).check (a.val * 1024 + row.val) =
        some (Config.rowCheck (shadowCells s.u (coreKey c) e (a.val * 1024 + row.val))) ∧
      (∀ k, k ≠ coreKey c → coreAt t.u k = coreAt s.u k) ∧ t = { s with u := { s.u with core := t.u.core } }) ∧
  (∀ (s : State) (n : Nat) (x : Slot) (b : Binding) (e i v : Nat) (g : Eng), roleRuns s.u 8 = true → clipDue s.u = true →
    s.u.slot = [(n, x)] → x.bind = [b] → (coreAt s.u (bindKey b)).eng = [(e, g)] → g.clipHigh = [] → 0 < x.clipPpm →
    clipShares g x.clipPpm = [(i, v)] →
    ∃ t, exec .clipCheck s = .next t ∧ t.u.prodN = (fwNotice 8 0x0201 0 [arrayLoc s.u (bindKey b) e 0 0, i, v] s.u).prodN ∧
      engOf t.u (bindKey b) e = { g with span := [], clipHigh := [i] } ∧ t.u.svc.clipAt = s.u.tick.number ∧
      (∀ k, k ≠ bindKey b → coreAt t.u k = coreAt s.u k) ∧ t.q = s.q ∧ t.m = s.m) ∧
  (∀ (s : State) (n : Nat) (x : Slot) (b : Binding) (e : Nat) (g : Eng), roleRuns s.u 8 = true → clipDue s.u = true →
    s.u.slot = [(n, x)] → x.bind = [b] → (coreAt s.u (bindKey b)).eng = [(e, g)] → (x.clipPpm = 0 ∨ clipShares g x.clipPpm = []) →
    ∃ t, exec .clipCheck s = .next t ∧ engOf t.u (bindKey b) e = { g with span := [], clipHigh := [] } ∧
      t = { s with u := { s.u with core := t.u.core, svc := { s.u.svc with clipAt := s.u.tick.number } } }) ∧
  (∀ s : State, clipDue s.u = false → exec .clipCheck s = .next s) ∧
  (∀ (g : Eng) (ppm i v : Nat), (i, v) ∈ clipShares g ppm →
    i < 16 ∧ ppm * (tgetD g.span i (0, 0)).1 < 1000000 * (tgetD g.span i (0, 0)).2) ∧
  (∀ (s : State) (mb : Fin 64) (p : Bytes), heard s.u mb 0x0803 p → le p 0 1 ≤ 31 → le p 1 1 = 0 →
    bufOk s.u mb (bufOf p 16) = true → (bufOf p 16).space = 0 → dmaUp s.u 0 = true →
    exec (.clipRead mb false) s = .next (onUnits (fun u =>
      answer mb (ok (leBytes 4 (((clipRecords u (slotAt u (le p 0 1))).take ((bufOf p 16).len / 16 * 16)).length / 16)))
        (emit (.host 0 (bufOf p 16).addr ((clipRecords u (slotAt u (le p 0 1))).take ((bufOf p 16).len / 16 * 16))) u)) s)) ∧
  (∀ (s : State) (mb : Fin 64) (p : Bytes), heard s.u mb 0x0803 p → le p 0 1 ≤ 31 → le p 1 1 = 1 →
    bufOk s.u mb (bufOf p 16) = true → (bufOf p 16).space = 0 → dmaUp s.u 0 = true →
    ∃ t, exec (.clipRead mb false) s = .next t ∧
      answered t mb (ok (leBytes 4 (((clipRecords s.u (slotAt s.u (le p 0 1))).take ((bufOf p 16).len / 16 * 16)).length / 16))) ∧
      (∀ b, b ∈ (slotAt s.u (le p 0 1)).bind → ∀ e, (engOf t.u (bindKey b) e).quant = [] ∧ (engOf t.u (bindKey b) e).clip = []) ∧
      t = { s with u := { s.u with mbx := t.u.mbx, core := t.u.core, out := t.u.out } })

/-- Reference mode (R98, R99, R359): REF_START begins a run at the next edge; a narrow comparison counts a pass or a mismatch, and a
mismatch decides the array's fault retirement and poisons the pass's output; a tick without spare engine time and without a
comparison counts once as skipped; the run ends after its ticks;
REF_REPORT answers the counts of the run started last. -/
def Obligations.ReferenceMode : Prop :=
  (∀ (s : State) (mb : Fin 64) (p : Bytes) (die core e : Nat), heard s.u mb 0x0804 p → le p 0 1 ≤ 31 → le p 1 1 ≤ 2 →
    0 < le p 2 2 → locEngine (le p 8 8) = (0, die, core, e) → die < engineDies s.asm →
    (coreAt s.u (die * 16 + core)).slot = some (le p 0 1) →
    (le p 1 1 = 0 ∨ imgKind (slotAt s.u (le p 0 1)).img ≠ 1) → s.u.pins.throt = false → s.u.ref = [] →
    exec (.refStart mb) s = .next (onUnits (fun u => answer mb (ok (le8 (nextTick u))) { u with ref := [{
      die := die, core := core, engine := e, slot := le p 0 1, mode := le p 1 1, ticks := le p 2 2, tol := le p 4 4
      first := nextTick u }] }) s)) ∧
  (∀ (s : State) (c : CoreId) (e : Fin 16) (r : RefRun) (b : Option (Fin 16)), s.u.ref = [r] → r.running = true →
    r.die * 16 + r.core = coreKey c → r.engine = e.val → r.first ≤ s.u.tick.number → s.u.tick.number < r.first + r.ticks →
    exec (.refCompare c e false b) s = .next (onUnits (fun u => { u with ref := [
      if r.cmpAt = some u.tick.number ∨ r.skipAt = some u.tick.number then r
      else { r with skipped := r.skipped + 1, skipAt := some u.tick.number }] }) s)) ∧
  (∀ (s : State) (c : CoreId) (e : Fin 16) (r : RefRun) (x : InBuf) (n : Nat) (f : FF), s.u.ref = [r] → r.running = true →
    r.mode = 0 → r.die * 16 + r.core = coreKey c → r.engine = e.val → r.first ≤ s.u.tick.number →
    s.u.tick.number < r.first + r.ticks → (engOf s.u (coreKey c) e).last = some (x, n, f) → x.row.poison = false →
    s.u.pins.throt = false →
    exec (.refCompare c e true none) s = .next (onUnits (fun u => { u with ref := [{ r with
      compared := r.compared + 1, cmpAt := some u.tick.number
      skipped := if r.skipAt = some u.tick.number then r.skipped - 1 else r.skipped
      skipAt := if r.skipAt = some u.tick.number then none else r.skipAt }] }) s)) ∧
  (∀ (s : State) (c : CoreId) (e a : Fin 16) (r : RefRun) (x : InBuf) (n : Nat) (f : FF), s.u.ref = [r] → r.running = true →
    r.mode = 0 → r.die * 16 + r.core = coreKey c → r.engine = e.val → r.first ≤ s.u.tick.number →
    s.u.tick.number < r.first + r.ticks → (engOf s.u (coreKey c) e).last = some (x, n, f) → x.row.poison = false →
    s.u.pins.throt = false → r.skipAt ≠ some s.u.tick.number →
    ∃ t, exec (.refCompare c e true (some a)) s = .next t ∧
      t.u.ref = [{ r with compared := r.compared + 1, mismatches := r.mismatches + 1, cmpAt := some s.u.tick.number }] ∧
      t.u.prodN = (fwNotice 8 0x0202 0 [arrayLoc s.u (coreKey c) e a 0] s.u).prodN ∧
      RUnit.array c e a ∈ t.u.svc.decided ∧
      ((engOf s.u (coreKey c) e).lastAt + (engOf s.u (coreKey c) e).lastOut.length ≤ 4194304 →
        ∀ y, y ∈ unitsOf (engOf s.u (coreKey c) e).lastAt (engOf s.u (coreKey c) e).lastOut.length → y ∈ (coreOf t c).pois) ∧ t.q = s.q ∧ t.m = s.m) ∧
  (∀ (s : State) (c : CoreId) (e : Fin 16) (r : RefRun), s.u.ref = [r] → r.running = true → r.stats = [] →
    r.die * 16 + r.core = coreKey c → r.engine = e.val → r.first + r.ticks ≤ s.u.tick.number →
    exec (.refDone c e) s = .next (onUnits (fun u => fwNotice 8 0x0C02 0 [arrayLoc u (coreKey c) e 0 0, r.mismatches]
      { u with ref := [{ r with running := false }] }) s)) ∧
  (∀ (s : State) (mb : Fin 64) (p : Bytes) (r : RefRun), heard s.u mb 0x0805 p → bufOk s.u mb (bufOf p 16) = true →
    s.u.ref = [r] → r.stats = [] → (bufOf p 16).space = 0 → dmaUp s.u 0 = true →
    exec (.refReport mb false) s = .next (onUnits (fun u => answer mb (ok (leBytes 4 r.compared ++ leBytes 4 r.skipped
      ++ leBytes 4 r.mismatches ++ leBytes 1 (b2n r.running))) (emit (.host 0 (bufOf p 16).addr []) u)) s))

/- Service life (16) and background work (14). -/
/-- Retirement (R123, R433, R434), at tick edges (a fault between them is only decided, and no spare takes over): a fault with a
spare free takes the core out of service and begins the spare's load; a plan with
a spare free only begins it; a core with no spare left is retired and its logical core bound to the first free core in order; a
load that ends gives the unit its spare, and one that meets a poisoned shadow copy fails. -/
def Obligations.RetirementAndSpares : Prop :=
  (∀ (s : State) (c : CoreId) (e r : Fin 16) (reason : Nat), c.die.val < engineDies s.asm →
    (coreAt s.u (coreKey c)).retired = false → (∀ n, (RUnit.array c e r, n) ∉ s.u.svc.planned) →
    0 < spareFree s.u.svc (.array c e r) → atEdge s.u = true →
    ∃ t, exec (.unitRetire (.array c e r) true reason) s = .next t ∧
      t.u.svc.planned = s.u.svc.planned ++ [(.array c e r, reason)] ∧ (coreAt t.u (coreKey c)).loading = true ∧
      (∀ n, (coreAt s.u (coreKey c)).slot = some n →
        ∃ o, o ∈ (slotAt t.u n).out ∧ o.1 = (coreAt s.u (coreKey c)).rep ∧ coreKey c ∈ o.2) ∧
      t.u.blk.unit = true ∧ RUnit.array c e r ∉ t.u.svc.decided ∧
      (∀ k, k ≠ coreKey c → coreAt t.u k = coreAt s.u k) ∧ t.q = s.q ∧ t.m = s.m) ∧
  (∀ (s : State) (c : CoreId) (e r : Fin 16) (reason : Nat), c.die.val < engineDies s.asm → (coreOf s c).retired = false →
    atEdge s.u = false →
    exec (.unitRetire (.array c e r) true reason) s = .next (onUnits (decideFault (.array c e r)) s) ∧
      exec (.unitRetire (.core c) true reason) s = .next (onUnits (decideFault (.core c)) s)) ∧
  (∀ (s : State) (c : CoreId) (n : Nat), c.die.val < engineDies s.asm → (coreAt s.u (coreKey c)).retired = false →
    0 < spareFree s.u.svc (.core c) → s.u.svc.planned = [] →
    exec (.unitRetire (.core c) false n) s = .next (onUnits (fun u => { u with
      svc := { u.svc with planned := [(.core c, 1)] } }) s)) ∧
  (∀ (s : State) (c : CoreId) (reason n k : Nat), c.die.val < engineDies s.asm → (coreAt s.u (coreKey c)).retired = false →
    s.u.svc.planned = [] → spareFree s.u.svc (.core c) = 0 → s.u.temper = [] → (coreAt s.u (coreKey c)).slot = some n →
    (freeOrder s.asm s.u (slotAt s.u n).dieMask).head? = some k → atEdge s.u = true →
    ∃ t, exec (.unitRetire (.core c) true reason) s = .next t ∧ (coreAt t.u (coreKey c)).retired = true ∧
      (coreAt t.u (coreKey c)).slot = none ∧ (coreAt t.u k).slot = some n ∧
      (coreAt t.u k).rep = (coreAt s.u (coreKey c)).rep ∧ (coreAt t.u k).lidx = (coreAt s.u (coreKey c)).lidx ∧
      (coreAt t.u k).loading = true ∧ (∀ j, j ≠ k → j ≠ coreKey c → coreAt t.u j = coreAt s.u j) ∧
      t.u.blk.unit = true ∧ t.q = s.q ∧ t.m = s.m) ∧
  (∀ (s : State) (c : CoreId) (e r : Fin 16) (reason : Nat), s.u.svc.planned = [(.array c e r, reason)] → reason ≠ 1 → atEdge s.u = true →
    loadPoisoned s.asm s.u (coreKey c) (some (e.val, r.val)) = none →
    ∃ t, exec (.spareTakeover (.array c e r)) s = .next t ∧ t.u.svc.planned = [] ∧
      (engOf t.u (coreKey c) e).spareFor = some r.val ∧ r.val ∉ (engOf t.u (coreKey c) e).marked ∧
      (coreAt t.u (coreKey c)).loading = false ∧ t.u.svc.spares = s.u.svc.spares ++ [spareGroup (.array c e r)] ∧
      (∀ k, k ≠ coreKey c → coreAt t.u k = coreAt s.u k) ∧ t.q = s.q ∧ t.m = s.m) ∧
  (∀ (s : State) (c : CoreId) (e r : Fin 16) (reason addr : Nat), s.u.svc.planned = [(.array c e r, reason)] →
    loadPoisoned s.asm s.u (coreKey c) (some (e.val, r.val)) = some addr → atEdge s.u = true →
    ∃ t, exec (.spareTakeover (.array c e r)) s = .next t ∧ t.u.svc.planned = [] ∧ t.u.core = s.u.core ∧
      t.u.svc.spares = s.u.svc.spares ∧ t.q = s.q ∧ t.m = s.m) ∧
  (∀ (s : State) (c : CoreId) (n reason : Nat), s.u.svc.planned = [(.core c, reason)] → reason ≠ 1 → atEdge s.u = true →
    loadPoisoned s.asm s.u (coreKey c) none = none → (coreAt s.u (coreKey c)).slot = some n →
    ∃ t, exec (.spareTakeover (.core c)) s = .next t ∧ t.u.svc.planned = [] ∧ (coreAt t.u (coreKey c)).phys = some 16 ∧
      (coreAt t.u (coreKey c)).loading = false ∧
      (∀ e, e < 16 → (engOf t.u (coreKey c) e).w =
        imgWeights (slotAt s.u n).img (slotAt s.u n).imgLen (coreAt s.u (coreKey c)).lidx e) ∧
      (∀ k, k ≠ coreKey c → coreAt t.u k = coreAt s.u k ∧ sramOf t k = sramOf s k) ∧ t.q = s.q ∧ t.m.t1 = s.m.t1 ∧
      t.m.t2 = s.m.t2) ∧
  (∀ (s : State) (n : Fin 32) (rep lidx k : Nat) (b : Binding), (slotAt s.u n).wanting = [(rep, lidx)] →
    (slotAt s.u n).bind.find? (fun b => b.rep == rep && b.lidx == lidx) = some b →
    (freeOrder s.asm s.u (slotAt s.u n).dieMask).head? = some k →
    ∃ t, exec (.replaceRetry n) s = .next t ∧ (slotAt t.u n).wanting = [] ∧ (coreAt t.u k).slot = some n.val ∧
      (coreAt t.u k).rep = rep ∧ (coreAt t.u k).lidx = lidx ∧ (coreAt t.u k).loading = true ∧
      (∀ j, j ≠ k → coreAt t.u j = coreAt s.u j) ∧ t.q = s.q ∧ t.m = s.m) ∧
  (∀ (s : State) (n : Fin 32), freeOrder s.asm s.u (slotAt s.u n).dieMask = [] → exec (.replaceRetry n) s = .next s) ∧
  (∀ (s : State) (x : RUnit), atEdge s.u = false → exec (.spareTakeover x) s = .next s)

/-- Wear, channels, rows and lanes (R431, R432, R436 to R440): HEALTH counts a unit's signals, a run of low
slack among them; a planned level warns and begins a planned retirement where a spare is free, a fault level decides the retirement; a
copied or faulty channel waits for the next edge, and so does a row's remap while the tick runs, its uncorrectable units poisoned;
a lane takes its spare at once; REPAIR_READ writes the map. -/
def Obligations.WearAndRepair : Prop :=
  (∀ (s : State) (x : RUnit) (r : WearIn) (failed : Bool) (w : Wear), roleRuns s.u 8 = true → unitFitted s.asm x = true →
    w = wearCount s.u x r (((s.u.svc.wear.find? (fun e => e.1 == x)).map (·.2)).getD {}) → wearPlans x r w = false →
    exec (.wearCheck x (wearRow x) r failed) s = .next (onUnits (fun u => { u with svc := { u.svc with
      wear := u.svc.wear.filter (fun e => e.1 != x) ++ [(x, w)]
      decided := if wearFaults x w failed && !u.svc.decided.contains x then u.svc.decided ++ [x] else u.svc.decided } }) s)) ∧
  (∀ (s : State) (c : CoreId) (r : WearIn) (w : Wear), roleRuns s.u 8 = true → unitFitted s.asm (.core c) = true →
    w = wearCount s.u (.core c) r (((s.u.svc.wear.find? (fun e => e.1 == RUnit.core c)).map (·.2)).getD {}) →
    wearPlans (.core c) r w = true → wearFaults (.core c) w false = false →
    (RUnit.core c, 2) ∉ s.u.svc.warned → s.u.svc.planned = [] → 0 < spareFree s.u.svc (.core c) →
    ∃ t, exec (.wearCheck (.core c) 2 r false) s = .next t ∧ t.u.svc.planned = [(.core c, 1)] ∧
      t.u.svc.warned = s.u.svc.warned ++ [(.core c, 2)] ∧
      t.u.prodN = (fwNotice 8 0x0A05 0 [unitLoc s.asm (.core c), 2] s.u).prodN ∧ t.u.core = s.u.core ∧ t.q = s.q ∧ t.m = s.m) ∧
  (∀ (u : Units) (x : RUnit) (r : WearIn) (w : Wear) (v f : Int), r.slack = some (v, f) → slackCounts u x = true →
    (wearCount u x r w).slackRun = if 2 * v < f then w.slackRun + 1 else 0) ∧
  (∀ (s : State) (st : Fin 12) (ch : Fin 16), st.val * 16 + ch.val ∈ s.u.svc.copying → st.val * 16 + ch.val ∉ s.u.svc.copyDone →
    exec (.channelCopyDone st ch) s = .next (onUnits (fun u => { u with
      svc := { u.svc with copyDone := u.svc.copyDone ++ [st.val * 16 + ch.val] } }) s)) ∧
  (∀ (s : State) (st : Fin 12) (ch : Fin 16), st.val < nStacks s.asm → st.val * 16 + ch.val ∉ s.u.svc.chanFault →
    0 < spareFree s.u.svc (.channel st ch) →
    exec (.channelRetire st ch) s = .next (onUnits (fun u => { u with
      svc := { u.svc with chanFault := u.svc.chanFault ++ [st.val * 16 + ch.val] } }) s)) ∧
  (∀ (s : State) (st : Fin 12) (ch : Fin 16) (bank row : Nat) (l : List Nat), st.val < nStacks s.asm →
    0 < spareFree s.u.svc (.row st ch bank row) → s.u.svc.planned = [] → s.u.svc.rowWait = [] → running s.u = true →
    ∃ t, exec (.rowRepair st ch bank row l) s = .next t ∧ (∀ k, k ∈ l → k ∈ t.u.tier.pois1) ∧
      t.u.svc.rowWait = [(.row st ch bank row, row, false)] ∧
      t = { s with u := { s.u with tier := { s.u.tier with pois1 := t.u.tier.pois1 }, svc := { s.u.svc with rowWait := t.u.svc.rowWait } } }) ∧
  (∀ (s : State) (st : Fin 12) (ch : Fin 16) (bank row : Nat) (l : List Nat), st.val < nStacks s.asm →
    0 < spareFree s.u.svc (.row st ch bank row) → s.u.svc.planned = [] → s.u.svc.rowWait = [] → running s.u = false →
    ∃ t, exec (.rowRepair st ch bank row l) s = .next t ∧ (∀ k, k ∈ l → k ∈ t.u.tier.pois1) ∧
      t.u.svc.repair = s.u.svc.repair ++ [repairEnt s.asm s.u (.row st ch bank row) 0 4 row] ∧
      t.u.svc.spares = s.u.svc.spares ++ [spareGroup (.row st ch bank row)] ∧ RUnit.row st ch bank row ∉ t.u.svc.decided ∧
      t.u.core = s.u.core ∧ t.q = s.q ∧ t.m = s.m) ∧
  (∀ (a : Asm) (u : Units) (x : RUnit) (row : Nat), u.svc.rowWait = [(x, row, false)] → u.svc.chanFault = [] → u.svc.copyDone = [] →
    0 < spareFree u.svc x → (chanEdge a u).svc.rowWait = [] ∧
      (chanEdge a u).svc.repair = u.svc.repair ++ [repairEnt a u x 0 4 row] ∧
      (chanEdge a u).svc.spares = u.svc.spares ++ [spareGroup x] ∧ (chanEdge a u).tier = u.tier) ∧
  (∀ (s : State) (io : Fin 6) (g : Bool) (l : Fin 32), unitFitted s.asm (.lane io g l) = true →
    0 < spareFree s.u.svc (.lane io g l) → s.u.svc.planned = [] →
    ∃ t, exec (.laneRetrain io g l) s = .next t ∧
      t.u.svc.repair = s.u.svc.repair ++ [repairEnt s.asm s.u (.lane io g l) 0 8
        (groupLanes io g + (2 - spareFree s.u.svc (.lane io g l)))] ∧
      t.u.svc.spares = s.u.svc.spares ++ [spareGroup (.lane io g l)] ∧ RUnit.lane io g l ∉ t.u.svc.decided ∧
      t.u.blk.unit = true ∧ t.u.core = s.u.core ∧ t.q = s.q ∧ t.m = s.m) ∧
  (∀ (s : State) (mb : Fin 64) (p : Bytes), heard s.u mb 0x0808 p → bufOk s.u mb (bufOf p 16) = true →
    (bufOf p 16).space = 0 → dmaUp s.u 0 = true →
    exec (.repairRead mb false) s = .next (onUnits (fun u =>
      answer mb (ok (leBytes 4 ((repairImage u.svc).take ((bufOf p 16).len / 16 * 16)).length))
        (emit (.host 0 (bufOf p 16).addr ((repairImage u.svc).take ((bufOf p 16).len / 16 * 16))) u)) s))

/-- Background work and the journal (R402 to R404, R420, R423, R447): urgent work is reported and counted once until it is done, missed
work is reported and urgent no longer; a patrol read poisons what it finds uncorrectable and nothing else; a journal record joins
both copies under the next SEQ. -/
def Obligations.BackgroundWorkAndJournal : Prop :=
  (∀ (s : State) (k : Fin 9) (l : W64), k.val ≠ 0 → (k.val, l.toNat) ∉ s.u.svc.urgent →
    exec (.bgUrgent k l) s = .next (onUnits (fun u => blkBump 15 1 (fwNotice 8 0x0E02 0 [k.val, l.toNat] { u with
      svc := { u.svc with urgent := u.svc.urgent ++ [(k.val, l.toNat)] } })) s)) ∧
  (∀ (s : State) (k : Fin 9) (l : W64), (k.val, l.toNat) ∈ s.u.svc.urgent → exec (.bgUrgent k l) s = .next s) ∧
  (∀ (s : State) (k : Fin 9) (l : W64), k.val ≠ 0 →
    ∃ t, exec (.bgMissed k l) s = .next t ∧ (k.val, l.toNat) ∉ t.u.svc.urgent ∧
      t.u.prodN = (fwNotice 8 0x0E03 0 [k.val, l.toNat] s.u).prodN ∧ t.q = s.q ∧ t.m = s.m) ∧
  (∀ (s : State) (unit : Nat) (corr : List (Fin 64)), 4096 * unit < tier1Bytes s.asm →
    ∃ t, exec (.patrolScrub unit corr []) s = .next t ∧ t.u.tier = s.u.tier ∧ (corr ≠ [] → t.u.blk.corr = true) ∧
      t.u.prodN = s.u.prodN ∧ t.q = s.q ∧ t.m = s.m) ∧
  (∀ (s : State) (unit : Nat) (k : Fin 64), 4096 * unit < tier1Bytes s.asm →
    ∃ t, exec (.patrolScrub unit [] [k]) s = .next t ∧ 64 * unit + k.val ∈ t.u.tier.pois1 ∧
      (∀ x, x ∈ s.u.tier.pois1 → x ∈ t.u.tier.pois1) ∧
      (∀ x, x ∈ t.u.tier.pois1 → x ∈ s.u.tier.pois1 ∨ x = 64 * unit + k.val) ∧ t.q = s.q ∧ t.m = s.m) ∧
  (∀ (s : State) (type : Nat) (b : Bytes), isUp s.u = true → s.u.blk.tripped = false →
    (tgetD s.u.fw.roles 0 {}).state = 0 → 0 < type → type ≤ 0x0A → type ≠ 3 → b.length ≤ 16352 →
    0 < journalBlocks s.u.svc 0 → 0 < journalBlocks s.u.svc 1 →
    (s.u.svc.journal.length + 1) * 4 < journalBlocks s.u.svc 0 * 16 * 3 →
    ∃ t, exec (.journalWrite type b .ok .ok) s = .next t ∧
      t.u.svc = { s.u.svc with jseq := s.u.svc.jseq + 1, journal := s.u.svc.journal ++ [{
        seq := s.u.svc.jseq, type := type, payload := b, c0 := true, c1 := true }] } ∧
      t = { s with u := { s.u with svc := t.u.svc, cnt := { s.u.cnt with die := t.u.cnt.die } } })

/- Calibration, sensing, pins and management (16, 17). -/
/-- Calibration over the SMBus (R443, R470 to R472): CAL_BEGIN opens, CAL_PART adds entries, CAL_COMMIT stores entries that are in
range and otherwise changes nothing, each with its result and an alert; a write with a wrong PEC is counted and has no effect. -/
def Obligations.CalibrationOverSmbus : Prop :=
  (∀ s : State, smbLive s.u = true →
    exec (.calBegin true) s = .next (onUnits (fun u => { u with svc := { u.svc with calOpen := some [] } }) s)) ∧
  (∀ (s : State) (b : Bytes) (l : List CalEnt), smbLive s.u = true → s.u.svc.calOpen = some l →
    exec (.calPart b true) s = .next (onUnits (fun u => { u with
      svc := { u.svc with calOpen := some ((l ++ calEntries b).take 512) } }) s)) ∧
  (∀ (s : State) (l : List CalEnt), smbLive s.u = true → s.u.svc.calOpen = some l →
    (∀ e, e ∈ l → ∃ lo hi, calUserRange e.item = some (lo, hi) ∧ lo ≤ e.user ∧ e.user ≤ hi) →
    ∃ t, exec (.calCommit true .ok) s = .next t ∧ t.u.svc.user = l ∧ t.u.svc.calOpen = none ∧ t.u.pins.calResult = 0 ∧
      t.u.pins.alert = setBit s.u.pins.alert 3 true ∧ t.u.svc.journal.length = s.u.svc.journal.length + 1 ∧
      t.u.svc.factory = s.u.svc.factory ∧ t = { s with u := { s.u with svc := t.u.svc, pins := t.u.pins } }) ∧
  (∀ (s : State) (l : List CalEnt) (e : CalEnt) (o : StoreOut), smbLive s.u = true → s.u.svc.calOpen = some l → e ∈ l →
    (∀ lo hi, calUserRange e.item = some (lo, hi) → e.user < lo ∨ hi < e.user) →
    exec (.calCommit true o) s = .next (onUnits (fun u => { u with
      svc := { u.svc with calOpen := none }
      pins := { u.pins with calResult := 1, alert := setBit u.pins.alert 3 true } }) s)) ∧
  (∀ (s : State) (o : StoreOut), smbLive s.u = true → s.u.svc.calOpen = none →
    exec (.calCommit true o) s = .next (onUnits (fun u => { u with
      pins := { u.pins with calResult := 2, alert := setBit u.pins.alert 3 true } }) s)) ∧
  (∀ (s : State) (l : List CalEnt) (b : Fin 256), smbLive s.u = true → s.u.svc.calOpen = some l →
    (∀ e, e ∈ l → ∃ lo hi, calUserRange e.item = some (lo, hi) ∧ lo ≤ e.user ∧ e.user ≤ hi) →
    exec (.calCommit true (.fail b)) s = .next (onUnits (fun u => { u with
      svc := { u.svc with calOpen := none }
      pins := { u.pins with calResult := 3, alert := setBit u.pins.alert 3 true } }) s)) ∧
  (∀ s : State, smbLive s.u = true →
    ∃ t, exec (.calClear true .ok) s = .next t ∧ t.u.svc.user = [] ∧ t.u.svc.factory = s.u.svc.factory ∧
      t.u.pins.calResult = 0 ∧ t.u.pins.alert = setBit s.u.pins.alert 3 true ∧
      t = { s with u := { s.u with svc := t.u.svc, pins := t.u.pins } }) ∧
  (∀ (s : State) (o : StoreOut), smbLive s.u = true →
    exec (.calCommit false o) s = .next (onUnits (fun u => { u with
      pins := { u.pins with pecErrors := u.pins.pecErrors + 1 } }) s))

/-- The other SMBus commands, the sense outputs and the throttle (R470 to R472, R474, R476 to R478): what each read sends, the
levels that the sensors and the rails give the sense outputs, what a forward of the rails records, the parking of a sense output
and its end, the stale forward after a second, THROTTLE on and off at an edge. -/
def Obligations.SensingAndThrottle : Prop :=
  (∀ s : State, smbLive s.u = true →
    ∃ c, exec .smbStatus s = .next (onUnits (emit (.smb (leBytes 2 (smbStatusWord s.u) ++ [c]))) s)) ∧
  (∀ s : State, smbLive s.u = true →
    ∃ c d, exec .ident s = .next (onUnits (emit (.smb ([24] ++ leBytes 8 s.asm.serial ++ leBytes 1 s.asm.variant ++ d ++ [c]))) s) ∧
      d.length = 15) ∧
  (∀ s : State, smbLive s.u = true →
    ∃ c, exec .limits s = .next (onUnits (emit (.smb ([16] ++
      (List.range 8).flatMap (fun g => leBytes 2 (unsigned 16 (s.asm.critTemp.getD g 0))) ++ [c]))) s)) ∧
  (∀ (s : State) (x : Sensed), smbLive s.u = true →
    ∃ t c, exec (.temps x) s = .next t ∧ t.u.out = (sensed s.asm x s.u).out ++ [.smb ([16] ++ (List.range 8).flatMap (fun g =>
        leBytes 2 (unsigned 16 (tsReported s.asm s.u.svc x.sensors g))) ++ [c])] ∧
      (∀ g v, g < 8 → tsHottest s.asm x.sensors g (s.u.pins.temps.getD g none) = some v → tget s.u.pins.sensePark g = none →
        Out.level g (clampI 100000 1750000 (500000 + 625 * v)) ∈ t.u.out) ∧
      (∀ k, k < 6 → tget s.u.pins.sensePark (8 + k) = none → Out.level (8 + k) (x.rails.getD k 0).toInt ∈ t.u.out) ∧
      t = { s with u := { s.u with out := t.u.out, pins := { s.u.pins with temps := t.u.pins.temps, vs := t.u.pins.vs } } }) ∧
  (∀ s : State, smbLive s.u = true →
    ∃ t c, exec .alertCause s = .next t ∧
      t.u.out = s.u.out ++ [.smb (leBytes 2 (s.u.pins.alert % 32 + s.u.pins.calResult * 256) ++ [c])] ∧ t.u.pins.alert = 0 ∧
      t = { s with u := { s.u with out := t.u.out, pins := { s.u.pins with alert := 0 } } }) ∧
  (∀ s : State, smbLive s.u = true → s.u.pins.alert % 32 ≠ 0 →
    ∃ c, exec .alertResponse s = .next (onUnits (emit (.smb (leBytes 1 (2 * (0x58 + s.u.pins.strap)) ++ [c]))) s)) ∧
  (∀ s : State, s.u.pins.alert % 32 = 0 → exec .alertResponse s = .next s) ∧
  (∀ (s : State) (l : List (BitVec 32)), smbLive s.u = true → (∀ k, k < 6 → tget s.u.pins.sensePark (8 + k) = none) →
    ∃ t, exec (.senseFwd l true) s = .next t ∧ t.u.pins.senseStale = false ∧ t.u.pins.lastFwd = s.u.tick.time ∧
      (∀ k, k < 6 → tgetD t.u.pins.rail k 0 = railEffective s.u.svc k (l.getD k 0).toInt) ∧ t.u.svc = s.u.svc ∧ t.q = s.q ∧
      t.m = s.m) ∧
  (∀ s : State, s.u.pins.senseStale = false →
    ∃ t, exec .senseStale s = .next t ∧ t.u.pins.senseStale = true ∧
      t.u.pins.alert = setBit s.u.pins.alert 2 true ∧ t.q = s.q ∧ t.m = s.m) ∧
  (∀ (s : State) (w : BitVec 16), smbLive s.u = true → bitsOf w.toNat 3 0 ≤ 13 → 0 < bitsOf w.toNat 13 4 →
    bitsOf w.toNat 13 4 ≤ 1000 →
    exec (.sensePark w true) s = .next (onUnits (fun u => emit (.sense (bitsOf w.toNat 3 0) true) { u with
      pins := { u.pins with sensePark := tset u.pins.sensePark (bitsOf w.toNat 3 0)
                                (u.tick.time + bitsOf w.toNat 13 4 * 1000000) } }) s)) ∧
  (∀ (s : State) (o : Fin 14) (x : Nat), tget s.u.pins.sensePark o = some x → x ≤ s.u.tick.time →
    exec (.senseParkEnd o) s = .next (onUnits (fun u => senseOut o.val (emit (.sense o.val false) { u with
      pins := { u.pins with sensePark := tdel u.pins.sensePark o.val } })) s)) ∧
  (∀ (s : State) (g : Fin 8) (y : SensorIn), s.u.pins.throt = false → atEdge s.u = true → tsGroup s.asm y.kind y.die = g.val →
    s.asm.critTemp.getD g.val 0 - 128 ≤ tempReported s.u.svc y.reading.toInt y.scope.toNat →
    exec (.throttleOn (.sensor y) g) s = .next (onUnits (fun u => fwNotice 8 0x0961 0 [1, g.val] { u with
      pins := { u.pins with throt := true, throtAt := u.tick.number, alert := setBit u.pins.alert 0 true } }) s)) ∧
  (∀ (s : State) (g : Fin 8) (k : Nat) (x : Gpio), s.u.pins.throt = false → atEdge s.u = true → (k, x) ∈ s.u.pins.gpio →
    x.func = 4 → parking x = false →
    exec (.throttleOn .pin g) s = .next (onUnits (fun u => fwNotice 8 0x0961 0 [0, g.val] { u with
      pins := { u.pins with throt := true, throtAt := u.tick.number, alert := setBit u.pins.alert 0 true } }) s)) ∧
  (∀ s : State, s.u.pins.throt = true → atEdge s.u = true →
    exec .throttleOff s = .next (onUnits (fun u => fwNotice 8 0x0962 0 [u.tick.number - u.pins.throtAt] { u with
      pins := { u.pins with throt := false, alert := setBit u.pins.alert 0 true } }) s))

/-- Reset, power, thermal trips, host ports and links (R451, R452, R457 to R459, R461, R464, R468): what a block reset leaves, what
a trip records and stops, what a port's reset clears, what an error on a port or a link reports. -/
def Obligations.ResetPowerAndPorts : Prop :=
  (∀ s : State,
    exec .resetAssert s = .next { s with
      u := { resetUnits s.u with blk := { ({} : Blk) with resetLow := true } }, q := {}, m := {} }) ∧
  (∀ s : State,
    exec .pwrGoodFall s = .next { s with
      u := { resetUnits s.u with blk := { ({} : Blk) with powerLow := true }
                                 pins := { (resetUnits s.u).pins with pwrGood := false } }, q := {}, m := {} }) ∧
  (∀ u : Units, (resetUnits u).mbx = [] ∧ (resetUnits u).ctx = [] ∧ (resetUnits u).str = [] ∧ (resetUnits u).slot = [] ∧
    (resetUnits u).job = [] ∧ (resetUnits u).core = [] ∧ (resetUnits u).tick = {} ∧ (resetUnits u).blk = {} ∧
    (resetUnits u).svc.journal = u.svc.journal ∧ (resetUnits u).svc.user = u.svc.user ∧
    (resetUnits u).svc.factory = u.svc.factory ∧ (resetUnits u).fw.bankA = u.fw.bankA ∧ (resetUnits u).fw.bankB = u.fw.bankB) ∧
  (∀ (s : State) (kind : Fin 4) (die : Fin 32) (x : BitVec 16), s.u.blk.tripped = false → s.u.blk.shutdown = false →
    s.u.fw.loading = none →
    ∃ t, exec (.thermTrip kind die x) s = .next t ∧ t.u.blk = { s.u.blk with tripped := true } ∧
      t.u.pins = { s.u.pins with tripIn := true } ∧
      t.u.svc.tripRecord = some (leBytes 8 s.u.tick.number ++ leBytes 2 (kind.val * 64 + die.val) ++ leBytes 2 x.toNat) ∧
      t = { s with u := { s.u with blk := t.u.blk, pins := t.u.pins, svc := { s.u.svc with
        jseq := t.u.svc.jseq, journal := t.u.svc.journal, tripRecord := t.u.svc.tripRecord } } }) ∧
  (∀ (s : State) (kind : Fin 4) (die : Fin 32), s.u.fw.loading = none → s.u.blk.tripped = false →
    exec (.thermCritical kind die) s = .next (onUnits (fun u => notice (dieKey kind die) 0x0002 0 [locDie kind die] { u with
      blk := { u.blk with tripped := true }, pins := { u.pins with tripOut := true, tripIn := true } }) s)) ∧
  (∀ s : State, s.u.blk.tripped = true →
    ∃ t, exec .thermalShutdown s = .next t ∧ t.u.blk = { ({} : Blk) with shutdown := true, tripped := true } ∧
      t.q = s.q ∧ t.m = {} ∧ t.u.svc.journal = s.u.svc.journal ∧ t.u.mbx = [] ∧
      t.u.prodN = { s.u.prodN with wait := [] }) ∧
  (∀ s : State,
    exec (.hostPortReset 0) s = .next { s with u := { s.u with port0 := {} }
                                               q := { s.q with notice := { s.q.notice with rbuf0 := {} } } }) ∧
  (∀ s : State,
    exec (.hostPortReset 1) s = .next { s with u := { s.u with port1 := {} }
                                               q := { s.q with notice := { s.q.notice with rbuf1 := {} } } }) ∧
  (∀ (s : State) (x : W32),
    exec (.pcieErr 0 x) s = .next (onUnits (fun u => notice (dieKey 2 0) 0x0966 0 [0, x.toNat] { u with
      blk := { u.blk with iface := true }, port0 := { u.port0 with aer := Nat.lor u.port0.aer x.toNat } }) s)) ∧
  (∀ (s : State) (x : W32),
    exec (.pcieErr 1 x) s = .next (onUnits (fun u => notice (dieKey 2 1) 0x0966 0 [1, x.toNat] { u with
      blk := { u.blk with iface := true }, port1 := { u.port1 with aer := Nat.lor u.port1.aer x.toNat } }) s)) ∧
  (∀ (s : State) (l : Fin 12) (to_ : Bool), l.val < nLinks s.asm → l.val ∉ s.u.tier.linksOut →
    ∃ t, exec (.cxlLinkDown l to_) s = .next t ∧ t.u.tier = { s.u.tier with linksOut := s.u.tier.linksOut ++ [l.val] } ∧
      t.u.blk.iface = true ∧ (∀ c, c ∈ tier2Ctxs s.u → (4, c) ∈ t.u.conds) ∧
      t.u.prodN = (notice (dieKey 2 (l.val / 2)) 0x0967 0 [l.val, b2n to_] s.u).prodN ∧ t.q = s.q ∧ t.m = s.m) ∧
  (∀ (s : State) (n : Fin 16) (v : Bool), (tgetD s.u.pins.gpio n {}).next ≠ none →
    exec (.pinParkEnd n v) s = .next (onUnits (fun u => { u with pins := { u.pins with
      gpio := tset u.pins.gpio n.val { tgetD u.pins.gpio n.val {} with next := none, level := v } } }) s)) ∧
  (∀ (s : State) (p : Fin 2) (c : CfgReq), isUp s.u = true → s.u.fw.stage = 0 →
    exec (.configurationRequest p c) s = .next (onUnits (emit (.retry p.val)) s)) ∧
  (∀ (s : State) (b : Bool), isUp s.u = true → s.u.fw.stage ≠ 0 →
    exec (.configurationRequest 0 (.busMaster b)) s = .next (onUnits (fun u => { u with
      port0 := { u.port0 with busMaster := b } }) s)) ∧
  (∀ (s : State) (v : Fin 2048), isUp s.u = true → s.u.fw.stage ≠ 0 → s.u.port0.msixEn = true → s.u.port0.d3hot = false →
    s.u.port0.pend = [v.val] →
    ∃ t, exec (.configurationRequest 0 (.msixMask v false)) s = .next t ∧ t.u.out = s.u.out ++ [.msix 0 v.val] ∧
      t.u.port0.pend = [] ∧ v.val ∈ t.u.port0.unmasked ∧ t.q = s.q ∧ t.m = s.m)

/-- The management ports and the TAP (R462, R473): nothing but the two reply kinds leaves a management port, from READY on; the
instruction each scan leaves in force and what it shifts out; EXTEST, CLAMP and HIGHZ act as BYPASS outside reset. -/
def Obligations.ManagementPortsAndTap : Prop :=
  (∀ (s : State) (d : Fin 2) (p r : Bytes), isUp s.u = true → s.u.fw.stage = 4 →
    mgmtReply (if d = 0 then s.asm.mac0 else s.asm.mac1) (Config.mgmtAddr d).toNat p = some r →
    exec (.mgmtPacket d p) s = .next (onUnits (emit (.eth d.val r)) s)) ∧
  (∀ (s : State) (d : Fin 2) (p : Bytes), (s.u.fw.stage ≠ 4 ∨ isUp s.u = false ∨
      mgmtReply (if d = 0 then s.asm.mac0 else s.asm.mac1) (Config.mgmtAddr d).toNat p = none) →
    exec (.mgmtPacket d p) s = .next s) ∧
  (∀ (mac ip : Nat) (p r : Bytes), mgmtReply mac ip p = some r →
    (r.drop 6).take 6 = leBytes 6 mac ∧ (be p 12 2 = 0x0806 ∨ be p 12 2 = 0x0800)) ∧
  (∀ (s : State) (l : List Bool),
    exec (.jtagBypass l) s = .next (onUnits (fun u => emit (.tdo ((false :: l).take l.length)) { u with
      pins := { u.pins with jtagIr := 0 } }) s)) ∧
  (∀ (s : State) (l : List Bool), l.length = 32 →
    exec (.jtagIdcode l) s = .next (onUnits (fun u => emit (.tdo ((List.range 32).map (bitAt (0x3201A0D3 + 0x1000 * s.asm.variant))))
      { u with pins := { u.pins with jtagIr := 2 } }) s)) ∧
  (∀ (s : State) (l x : List Bool),
    exec (.jtagSamplePreload l x) s = .next (onUnits (fun u => emit (.tdo ((x ++ l).take l.length)) { u with
      pins := { u.pins with jtagIr := 1, bsr := (x ++ l).drop l.length } }) s)) ∧
  (∀ (s : State) (l x : List Bool), (s.u.blk.resetLow = true ∨ s.u.blk.powerLow = true) →
    exec (.jtagExtest l x) s = .next (onUnits (fun u => emit (.tdo ((x ++ l).take l.length)) { u with
      pins := { u.pins with jtagIr := 3, bsr := (x ++ l).drop l.length } }) s) ∧
    exec (.jtagClamp l) s = .next (onUnits (fun u => emit (.tdo ((false :: l).take l.length)) { u with
      pins := { u.pins with jtagIr := 4 } }) s) ∧
    exec (.jtagHighz l) s = .next (onUnits (fun u => emit (.tdo ((false :: l).take l.length)) { u with
      pins := { u.pins with jtagIr := 5 } }) s)) ∧
  (∀ (s : State) (l x : List Bool), s.u.blk.resetLow = false → s.u.blk.powerLow = false →
    exec (.jtagExtest l x) s = exec (.jtagBypass l) s ∧ exec (.jtagClamp l) s = exec (.jtagBypass l) s ∧
      exec (.jtagHighz l) s = exec (.jtagBypass l) s) ∧
  (∀ s : State, exec .jtagTapReset s = .next (onUnits (fun u => { u with pins := { u.pins with jtagIr := 2 } }) s))

/- Streams (09, 07). -/
/-- Messages on streams (R355, R266, R277, R279, R284): an open, a pause or a resume that is well formed waits for its decision in
the next tick; a sampling record is scheduled for the stream's next boundary; a cancellation is noted, and one in the tick of a pause's
decision withdraws the pause and its acknowledgement (R291; that it is still unwritten is the model's reading, log 152); the two status
messages answer; a handle that names no stream of the context is refused. -/
def Obligations.StreamMessages : Prop :=
  (∀ (s : State) (mb : Fin 64) (p : Bytes) (l : List (Nat × Nat)), heard s.u mb 0x0401 p → le p 0 2 ≤ 1023 →
    (polCur s.u (le p 0 2)).isEmpty = false →
    sampJudge s mb (le p 0 2) (tgetD s.u.ctx mb {}).headSlot (sliceZ p 8 64) = .inl l →
    ∃ t, exec (.streamOpen mb) s = .next t ∧ awaits t mb ∧ (tgetD t.u.ctx mb {}).waiting = (tgetD s.u.ctx mb {}).waiting ++ [{
        desc := sliceZ (leBytes 1 2 ++ leBytes 1 (le p 2 1) ++ leBytes 2 (le p 0 2) ++ leBytes 4 (le p 4 4)) 0 64
        srec := some (sliceZ p 8 64), tick := nextTick s.u, mb := some mb.val }] ∧
      t = { s with u := { s.u with mbx := t.u.mbx, ctx := t.u.ctx } }) ∧
  (∀ (s : State) (mb : Fin 64) (p : Bytes) (off : Nat), heard s.u mb 0x0401 p → le p 0 2 ≤ 1023 →
    (polCur s.u (le p 0 2)).isEmpty = false →
    sampJudge s mb (le p 0 2) (tgetD s.u.ctx mb {}).headSlot (sliceZ p 8 64) = .inr off →
    exec (.streamOpen mb) s = .next (onUnits (answer mb (bad 7 0 (8 + off) 0)) s)) ∧
  (∀ (s : State) (mb : Fin 64) (p : Bytes) (k : Nat) (l : List (Nat × Nat)), heard s.u mb 0x0402 p →
    handleSlotOf s.u mb (le p 0 4) = .inl k →
    sampJudge s mb (tgetD s.u.str k {}).policy (tgetD s.u.str k {}).headSlot (sliceZ p 8 64) = .inl l →
    lagOf (sliceZ p 8 64) = lagOf (tgetD s.u.str k {}).samp →
    exec (.streamSampling mb) s = .next (onUnits (fun u =>
      answer mb (ok (le8 (cohortTick u (tgetD u.str k {}).cohort + 1))) { u with
        changes := u.changes ++ [(cohortTick u (tgetD u.str k {}).cohort + 1,
          .sampling k (tgetD u.str k {}).gen (sliceZ p 8 64) l)] }) s)) ∧
  (∀ (s : State) (mb : Fin 64) (p : Bytes) (k : Nat) (x : Str), heard s.u mb 0x0403 p → handleSlotOf s.u mb (le p 0 4) = .inl k →
    tget s.u.str k = some x → x.st ≠ .closing → x.cancelAt = none → s.u.tick.st = .current →
    (∀ r e, x.pause = some r → r.at_ = s.u.tick.number → e ∈ x.outEvts → isAck r.id e.2 = false) →
    exec (.streamCancel mb) s = .next (onUnits (fun u => answer mb (ok (le8 (cohortTick u x.cohort + 1))) { u with
      str := tset u.str k { x with cancelAt := some (cohortTick u x.cohort + 1) } }) s)) ∧
  (∀ (s : State) (mb : Fin 64) (p : Bytes) (k : Nat) (x : Str) (r : PauseReq) (e : Nat × Bytes), heard s.u mb 0x0403 p →
    handleSlotOf s.u mb (le p 0 4) = .inl k → tget s.u.str k = some x → x.st ≠ .closing → x.cancelAt = none →
    s.u.tick.st = .current → x.pause = some r → r.at_ = s.u.tick.number → x.outEvts = [e] → isAck r.id e.2 = true →
    exec (.streamCancel mb) s = .next (onUnits (fun u => answer mb (ok (le8 (cohortTick u x.cohort + 1))) { u with
      str := tset u.str k { x with
        pause := none, cancelAt := some (cohortTick u x.cohort + 1)
        outEvts := [(e.1, eventEntry 0x21 8 1 (le e.2 4 4) (handleOf k x) 0 0 0 0 0)] } }) s)) ∧
  (∀ (s : State) (mb : Fin 64) (p : Bytes) (k : Nat), heard s.u mb 0x0404 p → handleSlotOf s.u mb (le p 0 4) = .inl k →
    pauseFault s.u (le p 4 4) (le p 8 1) = none →
    ∃ t, exec (.streamPause mb) s = .next t ∧ awaits t mb ∧ (tgetD t.u.ctx mb {}).waiting = (tgetD s.u.ctx mb {}).waiting ++ [{
        desc := sliceZ (leBytes 1 3 ++ leBytes 1 (le p 8 1) ++ leBytes 6 0 ++ leBytes 4 (le p 0 4) ++ leBytes 4 (le p 4 4)) 0 64
        tick := nextTick s.u, mb := some mb.val }] ∧
      t = { s with u := { s.u with mbx := t.u.mbx, ctx := t.u.ctx } }) ∧
  (∀ (s : State) (mb : Fin 64) (p : Bytes), heard s.u mb 0x0405 p → le p 4 1 = 0 →
    ∃ t, exec (.streamResume mb) s = .next t ∧ awaits t mb ∧ (tgetD t.u.ctx mb {}).waiting = (tgetD s.u.ctx mb {}).waiting ++ [{
        desc := sliceZ (leBytes 1 4 ++ leBytes 1 0 ++ leBytes 6 0 ++ leBytes 4 (le p 0 4)) 0 64
        tick := nextTick s.u, mb := some mb.val }] ∧
      t = { s with u := { s.u with mbx := t.u.mbx, ctx := t.u.ctx } }) ∧
  (∀ (s : State) (mb : Fin 64) (p : Bytes) (k : Nat), heard s.u mb 0x0406 p → handleSlotOf s.u mb (le p 0 4) = .inl k →
    ∃ r, exec (.streamStatus mb) s = .next (onUnits (answer mb (ok r)) s) ∧ le r 0 1 = strCode (tgetD s.u.str k {}).st ∧
      le r 1 1 = bitsOf (le (tgetD s.u.str k {}).samp 33 1) 5 4 ∧ le r 2 1 = (tgetD s.u.str k {}).rew % 256 ∧
      le r 3 1 = min 255 (tgetD s.u.str k {}).hold.length ∧ le r 4 4 = (tgetD s.u.str k {}).pos % 2 ^ 32) ∧
  (∀ (s : State) (mb : Fin 64) (p : Bytes) (e : Nat) (v : Saved), heard s.u mb 0x0407 p → savedOf s.u mb (le p 0 4) = some (e, v) →
    exec (.pauseStatus mb) s = .next (onUnits (answer mb (ok (leBytes 4 v.st ++ leBytes 4 v.str.pos ++ leBytes 8 v.expiry
      ++ leBytes 4 v.npages))) s)) ∧
  (∀ (s : State) (mb : Fin 64) (p : Bytes), heard s.u mb 0x0407 p → savedOf s.u mb (le p 0 4) = none →
    exec (.pauseStatus mb) s = .next (onUnits (answer mb (bad 9 0 0xFFFF 0)) s)) ∧
  (∀ (s : State) (mb : Fin 64) (p : Bytes), heard s.u mb 0x0406 p → handleSlotOf s.u mb (le p 0 4) = .inr 7 →
    exec (.streamStatus mb) s = .next (onUnits (answer mb (bad 7 0 0 0)) s))

/-- Decisions on streams (R264 to R266, R279, R284): an open that no cause refuses takes the next slot in a new generation, its pages
and its first tick; one beyond the context's streams is refused with QUOTA and changes no stream; a pause gives its ID and the room
it needs; a resume without pages takes a slot and marks the saved state RESTORING, and one whose saved state is bound to another answer
image is refused with IMAGE. -/
def Obligations.StreamDecisions : Prop :=
  (∀ (s : State) (c : Fin 64) (w : Waiting) (m k : Nat) (r : Bytes) (l : List (Nat × Nat)), decides s.u c 2 = some w →
    w.mb = some m → awaits s m → w.srec = some r → le w.desc 2 2 ≤ 1023 → (polCur s.u (le w.desc 2 2)).isEmpty = false →
    sampJudge s c (le w.desc 2 2) (tgetD s.u.ctx c {}).headSlot r = .inl l → admissionHeld s.u c = false →
    ctxStreams s.u c < (tgetD s.u.ctx c {}).maxStreams → allocSlot s.u (tgetD s.u.ctx c {}).cohort = some k →
    (openChunks r (tgetD s.u.ctx c {}).maxPos = [] ∨
      (s.u.tier.mainUse + (openChunks r (tgetD s.u.ctx c {}).maxPos).length ≤ s.u.tier.pageMain ∧
        (s.u.tier.mainUse + (openChunks r (tgetD s.u.ctx c {}).maxPos).length) * 1024 ≤ s.u.tier.pageMain * s.u.tier.highWm)) →
    ∃ t, exec (.streamOpenDecision c) s = .next t ∧
      answered t m (ok (leBytes 8 (c.val * 2 ^ 24 + nextGen (tgetD s.u.str k {}).gen * 2 ^ 12 + k)
        ++ le8 (s.u.tick.number + 1 + le w.desc 1 1))) ∧
      (tgetD t.u.str k {}).st = .opening ∧ (tgetD t.u.str k {}).gen = nextGen (tgetD s.u.str k {}).gen ∧
      (tgetD t.u.str k {}).ctx = c.val ∧ (tgetD t.u.str k {}).samp = r ∧ (tgetD t.u.str k {}).bias = l ∧
      (tgetD t.u.str k {}).policy = le w.desc 2 2 ∧ (tgetD t.u.str k {}).start = s.u.tick.number + 1 + le w.desc 1 1 ∧
      tkeys (tgetD t.u.str k {}).pages = openChunks r (tgetD s.u.ctx c {}).maxPos ∧
      t.u.tier.mainUse = s.u.tier.mainUse + (openChunks r (tgetD s.u.ctx c {}).maxPos).length ∧
      (∀ j, j ≠ k → tget t.u.str j = tget s.u.str j) ∧
      (tgetD t.u.ctx c {}).waiting = (tgetD s.u.ctx c {}).waiting.erase w ∧ t.q = s.q ∧ t.m = s.m) ∧
  (∀ (s : State) (c : Fin 64) (w : Waiting) (m : Nat) (r : Bytes) (l : List (Nat × Nat)), decides s.u c 2 = some w →
    w.mb = some m → awaits s m → w.srec = some r → le w.desc 2 2 ≤ 1023 → (polCur s.u (le w.desc 2 2)).isEmpty = false →
    sampJudge s c (le w.desc 2 2) (tgetD s.u.ctx c {}).headSlot r = .inl l → admissionHeld s.u c = false →
    (tgetD s.u.ctx c {}).maxStreams ≤ ctxStreams s.u c →
    ∃ t, exec (.streamOpenDecision c) s = .next t ∧ answered t m (bad 1 2 0xFFFF 1) ∧ t.u.str = s.u.str ∧
      t.u.tier = s.u.tier ∧ t.q = s.q ∧ t.m = s.m) ∧
  (∀ (s : State) (c : Fin 64) (w : Waiting) (m : Nat) (r : Bytes) (l : List (Nat × Nat)), decides s.u c 2 = some w →
    w.mb = some m → awaits s m → w.srec = some r → le w.desc 2 2 ≤ 1023 → (polCur s.u (le w.desc 2 2)).isEmpty = false →
    sampJudge s c (le w.desc 2 2) (tgetD s.u.ctx c {}).headSlot r = .inl l → admissionHeld s.u c = true →
    ∃ t, exec (.streamOpenDecision c) s = .next t ∧ answered t m (bad 1 2 0xFFFF 3) ∧ t.u.str = s.u.str ∧
      t.u.tier = s.u.tier ∧ t.q = s.q ∧ t.m = s.m) ∧
  (∀ (s : State) (c : Fin 64), decides s.u c 2 = none → exec (.streamOpenDecision c) s = .next s) ∧
  (∀ (s : State) (c : Fin 64) (w : Waiting) (m k e : Nat) (x : Str), decides s.u c 3 = some w → w.mb = some m → awaits s m →
    le w.desc 1 1 = 0 → pauseFault s.u (le w.desc 12 4) 0 = none → handleSlotOf s.u c (le w.desc 8 4) = .inl k →
    tget s.u.str k = some x → heldPlain s.u c = false → x.pages.length + 1 ≤ roomAt s.u 0 → freeEntry s.u = some e →
    (x.st = .active ∨ x.st = .waiting) → x.pause = none → x.cancelAt = none → tgetD s.u.tier.useCount e 0 < 0xFFFF →
    ∃ t, exec (.pauseDecision c) s = .next t ∧
      answered t m (ok (leBytes 4 ((tgetD s.u.tier.useCount e 0 + 1) * 65536 + e))) ∧
      tget t.u.str k = some { x with pause := some {
        id := (tgetD s.u.tier.useCount e 0 + 1) * 65536 + e, target := 0, room := x.pages.length + 1
        ttl := if le w.desc 12 4 = 0 then (tgetD s.u.ctx c {}).defTtl else le w.desc 12 4
        at_ := s.u.tick.number } } ∧
      (∀ j, j ≠ k → tget t.u.str j = tget s.u.str j) ∧ t.u.tier.saved = s.u.tier.saved ∧ t.q = s.q ∧ t.m = s.m) ∧
  (∀ (s : State) (c : Fin 64) (w : Waiting) (m k e : Nat) (v : Saved), decides s.u c 4 = some w → w.mb = some m → awaits s m →
    le w.desc 1 1 = 0 → savedOf s.u c (le w.desc 8 4) = some (e, v) → tget s.u.tier.saved e = some v → v.st = 1 → lagOf v.str.samp = 0 →
    v.imageId = ansImage s.u v.str.policy 255 → admissionHeld s.u c = false → ctxStreams s.u c < (tgetD s.u.ctx c {}).maxStreams →
    allocSlot s.u (tgetD s.u.ctx c {}).cohort = some k →
    ∃ t, exec (.resumeDecision c) s = .next t ∧
      answered t m (ok (leBytes 4 (v.str.ctx * 2 ^ 24 + nextGen (tgetD s.u.str k {}).gen * 2 ^ 12 + k) ++ leBytes 4 v.str.pos
        ++ le8 (s.u.tick.number + 2))) ∧
      (tgetD t.u.str k {}).st = .resuming ∧ (tgetD t.u.str k {}).restoring = v.id ∧ (tgetD t.u.str k {}).pos = v.str.pos ∧
      (tgetD t.u.str k {}).samp = v.str.samp ∧ (tgetD t.u.str k {}).start = s.u.tick.number + 2 ∧
      tget t.u.tier.saved e = some { v with st := 3 } ∧ (∀ j, j ≠ k → tget t.u.str j = tget s.u.str j) ∧
      t.q = s.q ∧ t.m = s.m) ∧
  (∀ (s : State) (c : Fin 64) (w : Waiting) (m : Nat), decides s.u c 4 = some w → w.mb = some m → awaits s m →
    le w.desc 1 1 = 0 → savedOf s.u c (le w.desc 8 4) = none → admissionHeld s.u c = false →
    ctxStreams s.u c < (tgetD s.u.ctx c {}).maxStreams →
    ∃ t, exec (.resumeDecision c) s = .next t ∧ answered t m (bad 1 2 0xFFFF 5) ∧ t.u.str = s.u.str ∧
      t.u.tier = s.u.tier ∧ t.q = s.q ∧ t.m = s.m) ∧
  (∀ (s : State) (c : Fin 64) (w : Waiting) (m e : Nat) (v : Saved), decides s.u c 4 = some w → w.mb = some m → awaits s m →
    le w.desc 1 1 = 0 → savedOf s.u c (le w.desc 8 4) = some (e, v) → v.st = 1 → lagOf v.str.samp = 0 →
    v.imageId ≠ ansImage s.u v.str.policy 255 → admissionHeld s.u c = false → ctxStreams s.u c < (tgetD s.u.ctx c {}).maxStreams →
    ∃ t, exec (.resumeDecision c) s = .next t ∧ answered t m (bad 1 2 0xFFFF 7) ∧ t.u.str = s.u.str ∧
      t.u.tier = s.u.tier ∧ t.q = s.q ∧ t.m = s.m)

/-- Streams at their boundaries (R267, R276, R277, R281, R282, R285, R287, R289): seats, starts, cancellations, the freeing of a slot,
the pause copy and its end, expiry, and the end of a resume. -/
def Obligations.StreamBoundaries : Prop :=
  (∀ (s : State) (c : Fin 2), atBoundary s.u c = false → exec (.seatAssign c) s = .next s) ∧
  (∀ (s : State) (c : Fin 2) (n r : Nat) (x : Str), atBoundary s.u c = true → s.u.str = [(n, x)] → x.st = .waiting →
    x.cohort = c.val → boundOk s.u x = true → freeSeat s.u x.headSlot x.cohort = some r →
    exec (.seatAssign c) s = .next (onUnits (fun u => { u with str := [(n, { x with st := .active, seat := some r })] }) s)) ∧
  (∀ (s : State) (c : Fin 2), ∃ t, exec (.seatAssign c) s = .next t ∧ t = { s with u := { s.u with str := t.u.str } } ∧
    (∀ n x, tget s.u.str n = some x → x.cohort ≠ c.val → Tsorted s.u.str = true → tget t.u.str n = some x)) ∧
  (∀ (s : State) (n : Fin 4096) (r : Nat) (x : Str), tget s.u.str n = some x → x.st = .opening → x.start ≤ boundTick s.u x.cohort →
    s.u.tick.st = .current → atBoundary s.u x.cohort = true → x.cancelAt = none → seatAssign x.cohort s.u = s.u →
    (∀ e, e ∈ s.u.str → e.1 < n.val → e.2.st ≠ .opening ∧ e.2.st ≠ .resuming) →
    boundOk s.u x = true → freeSeat s.u x.headSlot x.cohort = some r →
    exec (.streamStart n) s = .next (onUnits (fun u => { u with
      str := tset u.str n.val { x with st := .active, seat := some r } }) s)) ∧
  (∀ (s : State) (n : Fin 4096) (x : Str), tget s.u.str n = some x → x.st = .opening → x.start ≤ boundTick s.u x.cohort →
    s.u.tick.st = .current → atBoundary s.u x.cohort = true → x.cancelAt = none → seatAssign x.cohort s.u = s.u →
    (∀ e, e ∈ s.u.str → e.1 < n.val → e.2.st ≠ .opening ∧ e.2.st ≠ .resuming) →
    (boundOk s.u x = false ∨ freeSeat s.u x.headSlot x.cohort = none) →
    exec (.streamStart n) s = .next (onUnits (fun u => { u with
      str := tset u.str n.val { x with st := .waiting, seat := none, waitSince := boundTick s.u x.cohort } }) s)) ∧
  (∀ (s : State) (n : Fin 4096) (k : Nat) (x : Str), tget s.u.str n = some x → x.st ≠ .free → x.st ≠ .closing → x.st ≠ .resuming →
    x.st ≠ .opening → x.pause = none → x.cancelAt = some k → k ≠ coastEnd → k ≤ boundTick s.u x.cohort → running s.u = true →
    ∃ t, exec (.streamCancelEffect n) s = .next t ∧
      tget t.u.str n = some { gen := x.gen, ctx := x.ctx, cohort := x.cohort } ∧
      (tgetD t.u.ctx x.ctx {}).gone = (tgetD s.u.ctx x.ctx {}).gone ++ [{ slot := n.val, handle := handleOf n x, toks := x.outToks
                                                                          evts := x.outEvts ++ [(boundTick s.u x.cohort,
                                                                            endEntry n x 5 0x30 (boundTick s.u x.cohort))]
                                                                          since := x.since, endInd := some (x.pos, x.rew) }] ∧
      (∀ p, p ∈ x.pages → p.2.tier2 = false → p.2.page ∈ t.u.tier.freed) ∧ (∀ j, j ≠ n.val → tget t.u.str j = tget s.u.str j) ∧
      t.q = s.q ∧ t.m = s.m) ∧
  (∀ (s : State) (n : Fin 4096) (x : Str), tget s.u.str n = some x → x.st = .closing → x.closeAt ≤ boundTick s.u x.cohort →
    ∃ t, exec (.streamSlotFree n) s = .next t ∧ tget t.u.str n = some { gen := x.gen, ctx := x.ctx, cohort := x.cohort } ∧
      (∀ j, j ≠ n.val → tget t.u.str j = tget s.u.str j) ∧ t.q = s.q ∧ t.m = s.m) ∧
  (∀ (s : State) (n : Fin 4096) (x : Str), tget s.u.str n = some x → x.closeAt > boundTick s.u x.cohort →
    exec (.streamSlotFree n) s = .next s) ∧
  (∀ (s : State) (n : Fin 4096) (x : Str) (r : PauseReq), tget s.u.str n = some x → x.pause = some r → r.target = 0 →
    x.st = .pauseDrain → drained x = true → atBoundary s.u x.cohort = true → x.pages = [] →
    ∃ t, exec (.pausingEnter n) s = .next t ∧
      tget t.u.str n = some { x with
        st := .pausing, copyFail := false
        pause := some { r with pages := lowestFree s.u.tier.t2 1, entered := boundTick s.u x.cohort } } ∧
      t.u.tier.t2 = s.u.tier.t2 ++ lowestFree s.u.tier.t2 1 ∧
      { id := .pause n.val, left := 1, first := s.u.tick.number } ∈ t.u.tier.moves ∧
      (∀ j, j ≠ n.val → tget t.u.str j = tget s.u.str j) ∧
      t = { s with u := { s.u with str := t.u.str, tier := t.u.tier } }) ∧
  (∀ (s : State) (n : Fin 4096) (x : Str) (r : PauseReq), tget s.u.str n = some x → x.pause = some r → x.st = .pausing →
    atBoundary s.u x.cohort = true → r.entered < boundTick s.u x.cohort → x.cancelAt = none → x.copyFail = false →
    copying s.u (.pause n) = false → moveDone s.u (.pause n) = true → x.pages = [] →
    ∃ t v, exec (.pauseCopyDone n true) s = .next t ∧ tget t.u.tier.saved (r.id % 65536) = some v ∧ v.id = r.id ∧
      v.st = (if (tget s.u.tier.imports r.target).any (fun w => w.depart.isSome) then 2 else 1) ∧ v.t2 = r.pages ∧
      v.target = r.target ∧ v.expiry = boundTime s.u x.cohort + r.ttl * 1000000000 ∧ v.str.pos = x.pos ∧ v.str.samp = x.samp ∧
      v.str.ms = x.ms ∧ tget t.u.str n = some { gen := x.gen, ctx := x.ctx, cohort := x.cohort } ∧
      (∀ j, j ≠ n.val → tget t.u.str j = tget s.u.str j) ∧ t.q = s.q ∧
      t.m = (if r.target = 0 then (localWrite (pageAddr2 s.u (r.pages.headD 0)) (pauseRecord r.id) s).m else s.m)) ∧
  (∀ (s : State) (n : Fin 4096) (x : Str) (r : PauseReq), tget s.u.str n = some x → x.pause = some r → x.st = .pausing →
    atBoundary s.u x.cohort = true → r.entered < boundTick s.u x.cohort → x.cancelAt = none →
    ∃ t, exec (.pauseCopyDone n false) s = .next t ∧ tget t.u.str n = some { x with
        st := .pauseDrain, copyFail := false, pause := some { r with pages := [] } } ∧
      (∀ g, g ∈ t.u.tier.moves → g.id ≠ .pause n.val) ∧ t.u.tier.saved = s.u.tier.saved ∧
      (∀ j, j ≠ n.val → tget t.u.str j = tget s.u.str j) ∧
      t = { s with u := { s.u with str := t.u.str, tier := t.u.tier } }) ∧
  (∀ (s : State) (e : Nat) (v : Saved), s.u.tier.saved = [(e, v)] → v.st ≠ 3 → v.expiry ≤ s.u.tick.edgeAt →
    ∃ t, exec .pauseExpiry s = .next t ∧ t.u.tier.saved = [] ∧
      t.u.prodN = (fwNotice 7 0x0602 v.str.ctx [v.id] s.u).prodN ∧ t.u.str = s.u.str ∧ t.q = s.q ∧ t.m = s.m) ∧
  (∀ (s : State), (∀ e, e ∈ s.u.tier.saved → s.u.tick.edgeAt < e.2.expiry) → exec .pauseExpiry s = .next s) ∧
  (∀ (s : State) (n : Fin 4096) (x : Str) (e : Nat) (v : Saved), tget s.u.str n = some x → x.st = .resuming → x.pages = [] →
    s.u.tier.saved = [(e, v)] → v.id = x.restoring → v.st = 3 → v.t2.length ≤ 1 → x.copyFail = false →
    x.start ≤ boundTick s.u x.cohort → atBoundary s.u x.cohort = true → copying s.u (.resume n) = false →
    moveDone s.u (.resume n) = true → x.cancelAt = none →
    ∃ t, exec (.resumePageIn n true) s = .next t ∧ t.u.tier.saved = [] ∧ (tgetD t.u.str n {}).restoring = 0 ∧
      ((tgetD t.u.str n {}).st = .active ∨ (tgetD t.u.str n {}).st = .waiting) ∧ (tgetD t.u.str n {}).pos = x.pos ∧
      t.q = s.q ∧ t.m = s.m) ∧
  (∀ (s : State) (n : Fin 4096) (x : Str) (e : Nat) (v : Saved), tget s.u.str n = some x → x.st = .resuming →
    s.u.tier.saved = [(e, v)] → v.id = x.restoring → v.st = 3 →
    ∃ t, exec (.resumePageIn n false) s = .next t ∧ t.u.tier.saved = [] ∧ (tgetD t.u.str n {}).st = .closing ∧
      (∀ j, j ≠ n.val → tget t.u.str j = tget s.u.str j) ∧ t.q = s.q ∧ t.m = s.m)

/- The head, release and pages (07, 08, 09). -/
/-- A slice's summary and the choice of a token (R210, R214 to R219): a finished slice adds the summary of its logits under its work
list entry; with all summaries in, a stream that a sampling pass lists samples a token, which joins the hold queue at its position; a poisoned
value or a fully masked vocabulary samples none; a halted tick, or one whose passes do not list the stream, samples none; greedy choice
takes the head of the merged list. -/
def Obligations.SamplingOfATokenIsAsStated : Prop :=
  (∀ (s : State) (c : CoreId) (buf co : Fin 2) (entry slot n : Nat) (b : Bool) (x : Str), coreLive s.asm s.u c = true →
    (coreAt s.u (coreKey c)).slot = some slot → streamAt s.u slot (coreAt s.u (coreKey c)).rep co entry = some n →
    tget s.u.str n = some x → imgKind (slotImg s.u slot) = 1 → (∀ y, y ∈ x.sums → y.core ≠ (coreAt s.u (coreKey c)).lidx) →
    x.noSample = false → x.chosen = none →
    ∃ t y, exec (.sliceSummary c buf co entry b) s = .next t ∧ tget t.u.str n = some { x with sums := x.sums ++ [y] } ∧
      y.core = (coreAt s.u (coreKey c)).lidx ∧ y.unmasked ≤ 4096 ∧ y.cand.length ≤ min 64 y.unmasked ∧ (b = true → y.poison = true) ∧
      (y.unmasked = 0 → y.lse = banned32) ∧ (∀ j, j ≠ n → tget t.u.str j = tget s.u.str j) ∧
      t = { s with u := { s.u with str := t.u.str, cnt := { s.u.cnt with die := t.u.cnt.die } } }) ∧
  (∀ (s : State) (n : Fin 4096) (x : Str), tget s.u.str n = some x → x.entry ≠ none → x.chosen = none → x.noSample = false →
    x.st = .active → x.listed = true → s.u.tick.st ≠ .halted → imgNcore (slotImg s.u x.headSlot) ≤ x.sums.length → x.cont ≠ none →
    (∀ y, y ∈ x.sums → y.poison = false) → (∃ y, y ∈ x.sums ∧ y.unmasked ≠ 0) →
    ∃ t, exec (.tokenSample n) s = .next t ∧
      (tgetD t.u.str n {}).chosen = some (x.pos, (chooseToken x.samp (stepKey (le x.samp 0 8) x.pos x.rew) x.sums).1) ∧
      (tgetD t.u.str n {}).hold = x.hold ++ [{
        pos := x.pos, tok := (chooseToken x.samp (stepKey (le x.samp 0 8) x.pos x.rew) x.sums).1
        trunc := (chooseToken x.samp (stepKey (le x.samp 0 8) x.pos x.rew) x.sums).2 }] ∧
      (tgetD t.u.str n {}).pos = x.pos + 1 ∧ (tgetD t.u.str n {}).misses = 0 ∧
      (tgetD t.u.str n {}).ended = endsAnswer x (chooseToken x.samp (stepKey (le x.samp 0 8) x.pos x.rew) x.sums).1 x.pos ∧
      (tgetD t.u.str n {}).fails = x.fails ∧ (∀ j, j ≠ n.val → tget t.u.str j = tget s.u.str j) ∧ t.q = s.q ∧ t.m = s.m) ∧
  (∀ (s : State) (n : Fin 4096) (x : Str), tget s.u.str n = some x → x.entry ≠ none → x.chosen = none → x.noSample = false →
    x.st = .active → x.listed = true → s.u.tick.st ≠ .halted → imgNcore (slotImg s.u x.headSlot) ≤ x.sums.length → (x.cont = none ∨ ∃ y, y ∈ x.sums ∧ y.poison = true) →
    ∃ t, exec (.tokenSample n) s = .next t ∧ tget t.u.str n = some { x with recIn := false, entry := none } ∧
      t.u.blk.poison = true ∧ (∀ j, j ≠ n.val → tget t.u.str j = tget s.u.str j) ∧ t.q = s.q ∧ t.m = s.m) ∧
  (∀ (s : State) (n : Fin 4096) (x : Str), tget s.u.str n = some x → x.entry ≠ none → x.chosen = none → x.noSample = false →
    x.st = .active → x.listed = true → s.u.tick.st ≠ .halted → imgNcore (slotImg s.u x.headSlot) ≤ x.sums.length → x.cont ≠ none →
    (∀ y, y ∈ x.sums → y.poison = false) → (∀ y, y ∈ x.sums → y.unmasked = 0) →
    exec (.tokenSample n) s = .next (onUnits (fun u => { u with str := tset u.str n.val { x with
      entry := none, fails := x.fails ++ [{ start := x.pos, act := 0, verdict := 2, reason := 0x42 }] } }) s)) ∧
  (∀ (s : State) (n : Fin 4096) (x : Str), tget s.u.str n = some x → (x.listed = false ∨ s.u.tick.st = .halted) →
    exec (.tokenSample n) s = .next s) ∧
  (∀ (samp : Bytes) (k : Nat) (l : List Summary), le samp 8 4 = 0 →
    (chooseToken samp k l).2 = false ∧
      ((mergeAll l ≠ []) → exactLen l (mergeAll l) ≠ 0 → some (chooseToken samp k l).1 = (mergeAll l).head?.map Cand.v))

/-- The sweep of a held token and answer checks (R189, R222, R255, R257, R275): a sweep marks the oldest unswept token, clear exactly
where it made no failure, and writes the match state to its place in the snapshot ring; a check is launched once, one that reads
borrowed pages within the budget and in its turn; scores wait while a token of the check is unswept; a passed check covers its span, a
failed or poisoned one adds a failure and is done; a verdict of another epoch is discarded; a late check is reported once and, where the policy quenches, fails. -/
def Obligations.SweepsAndChecks : Prop :=
  (∀ (s : State) (n : Fin 4096) (x : Str) (h : Held) (b : List Upset), tget s.u.str n = some x →
    x.hold.find? (fun y => !y.swept) = some h → (∀ c, c ∈ x.checks → c.scores = none) →
    ∃ t f c l, exec (.matchSummaryDone n b) s = .next t ∧
      (tgetD t.u.str n {}).hold = x.hold.map (fun y => if y.pos = h.pos then { y with swept := true, flag := f, clear := c } else y) ∧
      (tgetD t.u.str n {}).fails = x.fails ++ l ∧ (c = true ↔ l = []) ∧ (∀ z, z ∈ l → z.found = some h.pos) ∧
      (tgetD t.u.str n {}).snaps = tset x.snaps (h.pos % 128) (msBytes (tgetD t.u.str n {}).ms) ∧
      (tgetD t.u.str n {}).checks = x.checks ∧ (tgetD t.u.str n {}).pos = x.pos ∧
      (∀ j, j ≠ n.val → tget t.u.str j = tget s.u.str j) ∧ t.q = s.q ∧ t.m = s.m) ∧
  (∀ (s : State) (n : Fin 4096) (b : List Upset), (tgetD s.u.str n {}).hold.find? (fun y => !y.swept) = none →
    (∀ c, c ∈ (tgetD s.u.str n {}).checks → c.scores = none) → exec (.matchSummaryDone n b) s = .next (onUnits (upset b) s)) ∧
  (∀ (s : State) (n : Fin 4096) (x : Str) (c : Check), tget s.u.str n = some x → x.checks = [c] → c.launched = false →
    s.u.tick.st = .current → x.st ≠ .waiting → slotServing s.u x.ansSlot = true →
    checksOn s.u x.ansSlot < servingReps s.u x.ansSlot →
    (checkPages x c = 0 ∨ s.u.tier.checkRead + checkPages x c ≤ checkBudget s.u ∧ checkAhead s.u n c = false) →
    exec (.checkLaunch n) s = .next (onUnits (fun u => { u with
      str := tset u.str n.val { x with checks := [{ c with launched := true }] }
      tier := { u.tier with checkRead := u.tier.checkRead + checkPages x c } }) s)) ∧
  (∀ (s : State) (n : Fin 4096) (x : Str) (c : Check) (l : List W32), tget s.u.str n = some x → x.checks = [c] → c.launched = true →
    c.epoch = x.rew → x.rew < 256 → unsweptIn x c = false → checkJudge s.u x c l false = some true →
    ∃ t, exec (.checkVerdict n c.lo (BitVec.ofNat 8 x.rew) l false) s = .next t ∧ (tgetD t.u.str n {}).checks = [] ∧
      (tgetD t.u.str n {}).passed = x.passed ++ [(c.lo,
        if c.short then c.lo + checkSpan x - 1 + (if lagOf x.samp = 32 then 16 else 0) else c.hi)] ∧ (tgetD t.u.str n {}).fails = x.fails ∧ (tgetD t.u.str n {}).hold = x.hold ∧
      t = { s with u := { s.u with str := t.u.str } } ∧ ∀ j, j ≠ n.val → tget t.u.str j = tget s.u.str j) ∧
  (∀ (s : State) (n : Fin 4096) (x : Str) (c : Check) (l : List W32), tget s.u.str n = some x → x.checks = [c] → c.launched = true →
    c.epoch = x.rew → x.rew < 256 → unsweptIn x c = false → checkJudge s.u x c l false = some false →
    ∃ t f, exec (.checkVerdict n c.lo (BitVec.ofNat 8 x.rew) l false) s = .next t ∧
      tget t.u.str n = some { x with checks := [], fails := x.fails ++ [f] } ∧ f.verdict = 2 ∧ f.reason = 0x41 ∧
      f.start = max (firstHeld x) (if lagOf x.samp = 32 then c.lo - 16 else c.lo) ∧
      t = { s with u := { s.u with str := t.u.str } }) ∧
  (∀ (s : State) (n : Fin 4096) (x : Str) (c : Check) (l : List W32), tget s.u.str n = some x → x.checks = [c] → c.launched = true →
    c.epoch = x.rew → x.rew < 256 → unsweptIn x c = false →
    ∃ t f, exec (.checkVerdict n c.lo (BitVec.ofNat 8 x.rew) l true) s = .next t ∧
      tget t.u.str n = some { x with checks := [], fails := x.fails ++ [f] } ∧ f.verdict = 4 ∧ f.reason = 0x15 ∧
      t.u.blk.poison = true ∧ (∀ j, j ≠ n.val → tget t.u.str j = tget s.u.str j) ∧ t.q = s.q ∧ t.m = s.m) ∧
  (∀ (s : State) (n : Fin 4096) (x : Str) (c : Check) (l : List W32) (b : Bool), tget s.u.str n = some x → x.checks = [c] →
    c.launched = true → c.epoch = x.rew → x.rew < 256 → unsweptIn x c = true →
    exec (.checkVerdict n c.lo (BitVec.ofNat 8 x.rew) l b) s = .next (onUnits (fun u => { u with
      str := tset u.str n.val { x with checks := [{ c with scores := some (l, b) }] } }) s)) ∧
  (∀ (s : State) (n : Fin 4096) (x : Str) (lo : Nat) (e : Byte) (l : List W32) (b : Bool), tget s.u.str n = some x →
    e.toNat ≠ x.rew → exec (.checkVerdict n lo e l b) s = .next s) ∧
  (∀ (s : State) (n : Fin 4096) (x : Str) (c : Check), tget s.u.str n = some x → x.checks = [c] → c.late = false →
    egressMark s.u x.cohort = true → c.queued + le c.pol 22 2 ≤ cohortTick s.u x.cohort → le c.pol 21 1 / 16 = 0 →
    ∃ t, exec (.checkTimeout n) s = .next t ∧ tget t.u.str n = some { x with
        checks := [{ c with late := true }]
        fails := x.fails ++ [{ start := max (firstHeld x) c.lo, act := 0, verdict := 3, reason := 0x23 }] } ∧
      (tgetD t.u.ctx x.ctx {}).breach2 = (if (tget s.u.ctx x.ctx).isSome then (tgetD s.u.ctx x.ctx {}).breach2 + 1 else 0) ∧
      (∀ j, j ≠ n.val → tget t.u.str j = tget s.u.str j) ∧ t.q = s.q ∧ t.m = s.m) ∧
  (∀ (s : State) (n : Fin 4096), egressMark s.u (tgetD s.u.str n {}).cohort = false → exec (.checkTimeout n) s = .next s)

/-- The effects of a rewind and a redaction at the boundary, and runs of missed ticks (R60, R228, R231): the stream stands at the
position of the rewind in a new epoch, or behind its replacement tokens; a run of three is reported once. -/
def Obligations.RewindRedactionAndRuns : Prop :=
  (∀ (s : State) (n : Fin 4096) (x : Str) (r why : Nat), tget s.u.str n = some x → x.redo = some (r, [], why) → why ≠ 3 →
    x.st = .active → atBoundary s.u x.cohort = true → x.cancelAt = none →
    ∃ t, exec (.rewindApply n) s = .next t ∧ (tgetD t.u.str n {}).pos = r ∧ (tgetD t.u.str n {}).rew = (x.rew + 1) % 256 ∧
      (tgetD t.u.str n {}).redo = none ∧ (tgetD t.u.str n {}).st = .active ∧ (tgetD t.u.str n {}).ended = false ∧
      (∀ f, f ∈ (tgetD t.u.str n {}).fails → f.start < r) ∧ (tgetD t.u.str n {}).hold = x.hold ∧
      (∀ j, j ≠ n.val → tget t.u.str j = tget s.u.str j) ∧ t.q = s.q ∧ t.m = s.m) ∧
  (∀ (s : State) (n : Fin 4096) (x : Str) (r : Nat) (l : List Nat), tget s.u.str n = some x → x.redo = some (r, l, 3) →
    x.st = .active → atBoundary s.u x.cohort = true → x.cancelAt = none →
    ∃ t, exec (.redactApply n) s = .next t ∧ (tgetD t.u.str n {}).pos = r + l.length ∧
      (tgetD t.u.str n {}).rew = (x.rew + 1) % 256 ∧ (tgetD t.u.str n {}).redo = none ∧ (tgetD t.u.str n {}).hold = x.hold ∧
      (∀ j, j ≠ n.val → tget t.u.str j = tget s.u.str j) ∧ t.q = s.q ∧ t.m = s.m) ∧
  (∀ (s : State) (n : Fin 4096), (tgetD s.u.str n {}).redo = none →
    exec (.rewindApply n) s = .next s ∧ exec (.redactApply n) s = .next s) ∧
  (∀ (s : State) (n : Fin 4096) (x : Str), tget s.u.str n = some x → 3 ≤ x.misses → x.missNoted = false →
    exec (.skipRun n) s = .next (onUnits (fun u => notice (dieKey 1 (slotDie n)) 0x0108 x.ctx [handleOf n.val x] { u with
      str := tset u.str n.val { x with missNoted := true } }) s)) ∧
  (∀ (s : State) (n : Fin 4096), ((tgetD s.u.str n {}).misses < 3 ∨ (tgetD s.u.str n {}).missNoted = true) →
    exec (.skipRun n) s = .next s)

/-- Pages (R272, R273, R290, R359, R403): migration back takes a page of the main quota for the earliest-borrowed one while use is
below LOW_WM; eviction credits freed pages; neither runs in a coast, a halt or the two ticks of a pending update; a migrating
state's move begins, ends at its new target, or fails and is to be made again; PAGEMAP_READ writes the map. -/
def Obligations.PagesMoveAndAreCredited : Prop :=
  (∀ (s : State) (n c : Nat) (g : Page), borrowedPages s.u = [(n, c, g)] → backgroundRuns s.u = true →
    s.u.tier.mainUse * 1024 < s.u.tier.pageMain * s.u.tier.lowWm → s.u.tier.mainUse < s.u.tier.pageMain →
    tier2Down s.u (pageAddr2 s.u g.page) 65536 = false → tget (tgetD s.u.str n {}).pages c = some g →
    ∃ t p, exec .pageMigrate s = .next t ∧ lowestFree s.u.tier.t1 1 = [p] ∧
      tget (tgetD t.u.str n {}).pages c = some { g with to_ := some p } ∧ t.u.tier.mainUse = s.u.tier.mainUse + 1 ∧
      t.u.tier.t1 = s.u.tier.t1 ++ [p] ∧ { id := .back n c, left := 1, first := s.u.tick.number } ∈ t.u.tier.moves ∧
      (∀ j, j ≠ n → tget t.u.str j = tget s.u.str j) ∧ t.q = s.q ∧ t.m = s.m) ∧
  (∀ (s : State), (s.u.tick.st = .coasting ∨ s.u.tick.st = .halted ∨
      ∃ w, s.u.fw.upd = some w ∧ (s.u.tick.number = w.q + 2 ∨ s.u.tick.number = w.q + 3)) →
    exec .pageMigrate s = .next s ∧ exec .pageEviction s = .next s) ∧
  (∀ (s : State) (p : Nat), backgroundRuns s.u = true → s.u.tier.freed = [p] →
    ∃ t, exec .pageEviction s = .next t ∧ t.u.tier.freed = [] ∧ t.u.tier.t1 = (creditPage p s.u.tier).t1 ∧
      t = { s with u := { s.u with tier := t.u.tier, svc := { s.u.svc with urgent := t.u.svc.urgent } } }) ∧
  (∀ (s : State) (e : BitVec 16) (v : Saved), s.u.tier.saved = [(e.toNat, v)] → v.st = 2 → v.to_ = none →
    v.npages + 1 ≤ roomAt s.u 0 → backgroundRuns s.u = true →
    ∃ t, exec (.pauseMigrate e true) s = .next t ∧
      t.u.tier.saved = [(e.toNat, { v with to_ := some (0, lowestFree s.u.tier.t2 (v.npages + 1)), fail := false })] ∧
      t.u.tier.t2 = s.u.tier.t2 ++ lowestFree s.u.tier.t2 (v.npages + 1) ∧
      { id := .saved e.toNat, left := v.npages + 1, first := s.u.tick.number } ∈ t.u.tier.moves ∧ t.u.str = s.u.str ∧
      t.q = s.q ∧ t.m = s.m) ∧
  (∀ (s : State) (e : BitVec 16) (v : Saved) (x : Nat × List Nat), s.u.tier.saved = [(e.toNat, v)] → v.st = 2 → v.to_ = some x →
    v.fail = false → copying s.u (.saved e.toNat) = false → moveDone s.u (.saved e.toNat) = true →
    exec (.pauseMigrate e true) s = .next (onUnits (fun u => { u with tier := { u.tier with saved := [(e.toNat, { v with
      st := if (tget u.tier.imports x.1).any (fun w => w.depart.isSome) then 2 else 1, target := x.1, t2 := x.2, to_ := none })] } }) s)) ∧
  (∀ (s : State) (e : BitVec 16) (v : Saved) (x : Nat × List Nat), s.u.tier.saved = [(e.toNat, v)] → v.st = 2 → v.to_ = some x →
    ∃ t, exec (.pauseMigrate e false) s = .next t ∧ t.u.tier.saved = [(e.toNat, { v with to_ := none, fail := false })] ∧
      (∀ p, x.1 = 0 → p ∈ x.2 → p ∉ t.u.tier.t2) ∧ t = { s with u := { s.u with tier := t.u.tier } }) ∧
  (∀ (s : State) (e : BitVec 16) (v : Saved), tget s.u.tier.saved e.toNat = some v → v.to_ = none →
    exec (.pauseMigrate e false) s = .next s) ∧
  (∀ (s : State) (mb : Fin 64) (p : Bytes) (k : Nat), heard s.u mb 0x0807 p → handleSlotOf s.u mb (le p 0 4) = .inl k →
    bufOk s.u mb (bufOf p 16) = true → (bufOf p 16).space = 0 → dmaUp s.u 0 = true →
    exec (.pagemapRead mb false) s = .next (onUnits (fun u =>
      answer mb (ok (leBytes 4 (min ((tgetD u.str k {}).maxPos / 16) ((bufOf p 16).len / 4))))
        (emit (.host 0 (bufOf p 16).addr ((List.range (min ((tgetD u.str k {}).maxPos / 16) ((bufOf p 16).len / 4))).flatMap
          (fun c => leBytes 4 (pageEntry (tget (tgetD u.str k {}).pages c))))) u)) s))

/- Jobs (08). -/
/-- Job messages and the fetching of descriptors (R254, R356, R365): a cancel in time is accepted for the next edge, one too late is
ALREADY; a job's state is told; an accepted descriptor joins the decisions of the next tick and owes a completion entry, a rejected
one owes only the entry. -/
def Obligations.JobMessagesAndDescriptors : Prop :=
  (∀ (s : State) (mb : Fin 64) (p : Bytes) (j : Job), heard s.u mb 0x0501 p → jobAt s.u mb (le p 0 2) = some j → j.cancelAt = none →
    jobLive j = true → j.emitted = false → s.u.tick.number + 1 < j.admitAt + j.delay - 1 →
    exec (.jobCancel mb) s = .next (onUnits (fun u => answer mb (ok (le8 (u.tick.number + 1)))
      (modJob mb j.tag (fun j => { j with cancelAt := some (u.tick.number + 1) }) u)) s)) ∧
  (∀ (s : State) (mb : Fin 64) (p : Bytes) (j : Job), heard s.u mb 0x0501 p → jobAt s.u mb (le p 0 2) = some j → j.cancelAt = none →
    (jobLive j = false ∨ j.emitted = true ∨ j.admitAt + j.delay - 1 ≤ s.u.tick.number + 1) →
    exec (.jobCancel mb) s = .next (onUnits (answer mb (bad 0xB 0 0xFFFF 0)) s)) ∧
  (∀ (s : State) (mb : Fin 64) (p : Bytes), (heard s.u mb 0x0501 p → jobAt s.u mb (le p 0 2) = none →
      exec (.jobCancel mb) s = .next (onUnits (answer mb (bad 9 0 0xFFFF 0)) s)) ∧
    (heard s.u mb 0x0502 p → jobAt s.u mb (le p 0 2) = none →
      exec (.jobStatus mb) s = .next (onUnits (answer mb (bad 9 0 0xFFFF 0)) s))) ∧
  (∀ (s : State) (mb : Fin 64) (p : Bytes) (j : Job), heard s.u mb 0x0502 p → jobAt s.u mb (le p 0 2) = some j →
    exec (.jobStatus mb) s = .next (onUnits (answer mb (ok (
      leBytes 1 (if j.cancelAt.isSome then 3 else if j.done.isSome then 2 else 1) ++ leBytes 1 j.cls ++ leBytes 6 0
        ++ le8 j.admitAt ++ le8 (j.admitAt + j.delay)))) s)) ∧
  (∀ (s : State) (c : Fin 64) (b : Bytes) (r : Dma) (x : Option Bytes), 1 < (tgetD s.u.ctx c {}).fetchLeft → running s.u = true →
    ringUp s.u (tgetD s.u.ctx c {}).sub = true → descSampling s c (sliceZ b 0 64) r = some x →
    descReject (tgetD s.u.ctx c {}) (sliceZ b 0 64) = 0 → tickHolds s.u = false →
    ∃ t, exec (.descriptorFetched c (.data b) r) s = .next t ∧
      (tgetD t.u.ctx c {}).waiting = (tgetD s.u.ctx c {}).waiting ++ [{ desc := sliceZ b 0 64, srec := x, tick := nextTick s.u }] ∧
      (tgetD t.u.ctx c {}).fetchLeft = (tgetD s.u.ctx c {}).fetchLeft - 1 ∧
      (tgetD t.u.ctx c {}).subCons = ((tgetD s.u.ctx c {}).subCons + 1) % 2 ^ 32 ∧
      (tgetD t.u.ctx c {}).cplWait = (tgetD s.u.ctx c {}).cplWait ++ [completion (le (sliceZ b 0 64) 0 1) 0
        (tgetD s.u.ctx c {}).subCons (nextTick s.u)
        (if le (sliceZ b 0 64) 0 1 = 1 then le (sliceZ b 0 64) 2 2 else le (sliceZ b 0 64) 4 4)] ∧
      (∀ k, k ≠ c.val → tget t.u.ctx k = tget s.u.ctx k) ∧ t.u.job = s.u.job ∧ t.u.str = s.u.str ∧ t.q = s.q ∧ t.m = s.m) ∧
  (∀ (s : State) (c : Fin 64) (b : Bytes) (r : Dma) (x : Option Bytes), 1 < (tgetD s.u.ctx c {}).fetchLeft → running s.u = true →
    ringUp s.u (tgetD s.u.ctx c {}).sub = true → descSampling s c (sliceZ b 0 64) r = some x →
    descReject (tgetD s.u.ctx c {}) (sliceZ b 0 64) ≠ 0 →
    ∃ t, exec (.descriptorFetched c (.data b) r) s = .next t ∧ (tgetD t.u.ctx c {}).waiting = (tgetD s.u.ctx c {}).waiting ∧
      (tgetD t.u.ctx c {}).subCons = ((tgetD s.u.ctx c {}).subCons + 1) % 2 ^ 32 ∧
      (tgetD t.u.ctx c {}).cplWait.length = (tgetD s.u.ctx c {}).cplWait.length + 1 ∧ t.u.blk.iface = true ∧
      t.u.job = s.u.job ∧ t.u.str = s.u.str ∧ t.q = s.q ∧ t.m = s.m) ∧
  (∀ (s : State) (c : Fin 64) (d r : Dma), (tgetD s.u.ctx c {}).fetchLeft = 0 → exec (.descriptorFetched c d r) s = .next s) ∧
  (∀ (b : Bytes) (c : Ctx), descReject c b = 0 → 1 ≤ le b 0 1 ∧ le b 0 1 ≤ 4 ∧ crc32c (b.take 60) = le b 60 4)

/-- Decisions on jobs (R239 to R245): a job with no cause against it is admitted with the calendar cells its work takes and its pool
units; one in a tick that holds admission is refused with cause 0x04 and leaves the jobs as they are. -/
def Obligations.JobDecisions : Prop :=
  (∀ (s : State) (c : Fin 64) (w : Waiting) (d : Dma) (tab : Bytes) (lim delay n : Nat) (cells : List Cell),
    decides s.u c 1 = some w → loseDead s.u = s.u → admissionHeld s.u c = false →
    1 ≤ le w.desc 44 1 → le w.desc 44 1 ≤ 64 → 8 * le w.desc 44 1 ≤ (bufOf w.desc 8).len →
    descBufOk (decided c w s.u) c (bufOf w.desc 8) = true →
    bufRead s c { bufOf w.desc 8 with len := 8 * le w.desc 44 1 } d = some tab → segsBad tab (le w.desc 44 1) = false →
    n = ((segTable tab (le w.desc 44 1)).map (·.2)).sum → 8 * le w.desc 44 1 + 4 * n ≤ (bufOf w.desc 8).len →
    (tgetD s.u.ctx c {}).classes[le w.desc 1 1]? = some (lim, delay) → n ≤ lim →
    screens (polCur s.u (le w.desc 4 4 % 1024)) = true →
    (∀ k, k ∈ reqSlots (polCur s.u (le w.desc 4 4 % 1024)) → slotServing s.u k = true) →
    s.u.job.length < 8192 → ctxJobs s.u c < (tgetD s.u.ctx c {}).jobQuota →
    s.u.tier.poolUse + poolUnits (decided c w s.u) (reqSlots (polCur s.u (le w.desc 4 4 % 1024))) n (le w.desc 44 1)
      ≤ s.u.tier.jobPool →
    placeAll (decided c w s.u) (polCur s.u (le w.desc 4 4 % 1024)) c (s.u.tick.number + 2) (s.u.tick.number + delay - 2) true
      ((reqSlots (polCur s.u (le w.desc 4 4 % 1024))).map (fun k => (k, n, none)) ++
        [(tokCell, if profBanks (polProf s.u (polCur s.u (le w.desc 4 4 % 1024)) 0) = 0 then 0 else n, none),
         (byteCell, le w.desc 40 4, none)])
      = some cells →
    ∃ t j, exec (.jobDecision c d) s = .next t ∧ t.u.job = s.u.job ++ [j] ∧ j.ctx = c.val ∧ j.tag = le w.desc 2 2 ∧
      j.cls = le w.desc 1 1 ∧ j.admitAt = s.u.tick.number ∧ j.delay = delay ∧ j.ntok = n ∧ j.cells = cells ∧ j.copyAt = s.u.tick.number + 1 ∧ j.tokens = none ∧
      j.done = none ∧ t.u.tier.poolUse = s.u.tier.poolUse +
        poolUnits (decided c w s.u) (reqSlots (polCur s.u (le w.desc 4 4 % 1024))) n (le w.desc 44 1) ∧
      (tgetD t.u.ctx c {}).waiting = (tgetD s.u.ctx c {}).waiting.erase w ∧ t.u.str = s.u.str ∧ t.q = s.q ∧ t.m = s.m) ∧
  (∀ (s : State) (c : Fin 64) (w : Waiting) (d : Dma), decides s.u c 1 = some w → loseDead s.u = s.u →
    admissionHeld s.u c = true →
    ∃ t b, exec (.jobDecision c d) s = .next t ∧ t.u.job = s.u.job ∧
      (tgetD t.u.ctx c {}).recs = (tgetD s.u.ctx c {}).recs ++ [{
        tag := le w.desc 2 2, due := dueOf s.u w (tgetD s.u.ctx c {}).cohort, body := b }] ∧
      le b 0 2 = le w.desc 2 2 ∧ le b 2 1 = 6 ∧ le b 3 1 = 0x04 ∧
      (tgetD t.u.ctx c {}).waiting = (tgetD s.u.ctx c {}).waiting.erase w ∧ t.u.str = s.u.str ∧ t.q = s.q ∧ t.m = s.m) ∧
  (∀ (s : State) (c : Fin 64) (d : Dma), decides s.u c 1 = none → exec (.jobDecision c d) s = .next s)

/-- The work of a job and its end (R192, R236, R239, R246 to R254): the token copy brings its words, a sweep that its tick lists
adds its hits once, a replan takes new cells between its own tick and A + D - 2 or gives the job up, composition leaves a record with
the verdict of what was found, ERROR with no greater reason than its faults give, the deadline leaves LATE, a cancel's edge leaves
CANCELLED. -/
def Obligations.JobWorkAndRecords : Prop :=
  (∀ (s : State) (c : Fin 64) (g : BitVec 16) (d : Dma) (j : Job) (b : Bytes), jobAt s.u c g.toNat = some j → jobLive j = true →
    j.tokens = none → 0x18 ∉ j.faults → s.u.tick.number = j.copyAt → j.copyLost = false → s.u.tick.st = .current →
    bufRead s c { j.tokbuf with addr := j.tokbuf.addr + 8 * j.segs.length, len := 4 * j.ntok } d = some b →
    exec (.jobTokenCopy c g d) s = .next (onUnits (fun u => modJob c g.toNat (fun k => { k with
      tokens := some ((List.range j.ntok).map (fun i => le b (4 * i) 4))
      faults := k.faults ++ tokenFaults u.mat ((List.range j.ntok).map (fun i => le b (4 * i) 4)) j.nbytes
      copyLost := false }) u) s)) ∧
  (∀ (s : State) (c : Fin 64) (g : BitVec 16) (d : Dma) (j : Job), jobAt s.u c g.toNat = some j → jobLive j = true →
    j.tokens = none → 0x18 ∉ j.faults → s.u.tick.number = j.copyAt → j.copyLost = false → s.u.tick.st = .current →
    bufRead s c { j.tokbuf with addr := j.tokbuf.addr + 8 * j.segs.length, len := 4 * j.ntok } d = none →
    exec (.jobTokenCopy c g d) s = .next (onUnits (modJob c g.toNat (fun k => { k with
      faults := k.faults ++ [0x18], copyLost := false })) s)) ∧
  (∀ (s : State) (c : Fin 64) (g : BitVec 16) (seg : Nat) (b : List Upset) (j : Job) (l : List Nat), s.u.job = [j] → j.ctx = c.val →
    j.tag = g.toNat → j.tokens = some l → jobLive j = true → seg < j.segs.length → seg ∉ j.swept → s.u.tick.st = .current →
    sweepListed s.u j.pol = true → j.lost = none → j.undone = [] → j.admitAt + 2 ≤ s.u.tick.number → s.u.tick.number ≤ j.admitAt + j.delay - 2 →
    ∃ t h p, exec (.requestSweep c g seg b) s = .next t ∧
      t.u.job = [{ j with hits := j.hits ++ h, poison := j.poison || p, swept := j.swept ++ [seg] }] ∧
      t.u.str = s.u.str ∧ t.u.ctx = s.u.ctx ∧ t.u.tick = s.u.tick ∧ t.q = s.q ∧ t.m = s.m) ∧
  (∀ (s : State) (c : Fin 64) (g : BitVec 16) (seg : Nat) (b : List Upset) (j : Job), jobAt s.u c g.toNat = some j →
    (seg ∈ j.swept ∨ sweepListed s.u j.pol = false) → exec (.requestSweep c g seg b) s = .next (onUnits (upset b) s)) ∧
  (∀ (s : State) (j : Job), s.u.job = [j] → loseDead s.u = s.u → wantsReplan j = true → j.cancelAt = none → j.copyLost = false →
    s.u.tick.st = .current → roleRuns s.u 1 = true →
    ∃ t, exec .replan s = .next t ∧ wantsReplan (t.u.job.headD {}) = false ∧ t.u.job.length = 1 ∧ (t.u.job.headD {}).undone = [] ∧
      ((t.u.job.headD {}).lost = some j.why ∧ (t.u.job.headD {}).cells = j.cells ∨
        (t.u.job.headD {}).lost = none ∧
          (∀ x, x ∈ j.cells → (∀ y, y ∈ j.undone → y.slot < tokCell ∧ y.slot ≠ x.slot) → x ∈ (t.u.job.headD {}).cells) ∧
          (∀ x, x ∈ (t.u.job.headD {}).cells → x ∈ j.cells ∨
            (max (j.admitAt + 2) s.u.tick.number ≤ x.tick ∧ x.tick ≤ j.admitAt + j.delay - 2))) ∧ t.q = s.q ∧ t.m = s.m) ∧
  (∀ (s : State) (c : Fin 64) (g : BitVec 16) (l : List ScoreVec) (f : Bool) (j : Job), s.u.job = [j] → j.ctx = c.val →
    j.tag = g.toNat → jobLive j = true → running s.u = true → s.u.tick.number = j.admitAt + j.delay - 1 → j.cancelAt = none →
    j.tokens ≠ none → matchDone j = true → clsDone j l = true → wantsReplan j = false → j.lost = none → j.faults = [] →
    jobPoison j l = false → (∀ k, k < j.segs.length → (judgeSeg s.u j l k).block = false ∧ (judgeSeg s.u j l k).fails = [] ∧
      (judgeSeg s.u j l k).spans = [] ∧ (judgeSeg s.u j l k).scores = [] ∧ (judgeSeg s.u j l k).hits = []) →
    ∃ t b, exec (.jobCompose c g l f) s = .next t ∧ t.u.job = [{ j with scores := l, done := some b }] ∧ le b 0 2 = j.tag % 65536 ∧
      le b 2 1 = 0 ∧ le b 3 1 = 0 ∧ t.u.str = s.u.str ∧ t.u.ctx = s.u.ctx ∧ t.q = s.q ∧ t.m = s.m) ∧
  (∀ (s : State) (c : Fin 64) (g : BitVec 16) (l : List ScoreVec) (f : Bool) (j : Job), s.u.job = [j] → j.ctx = c.val →
    j.tag = g.toNat → jobLive j = true → running s.u = true → s.u.tick.number = j.admitAt + j.delay - 1 → j.cancelAt = none →
    j.faults ≠ [] → jobPoison j l = false → (∀ x, x ∈ j.faults → x < 256) →
    ∃ t b, exec (.jobCompose c g l f) s = .next t ∧ t.u.job = [{ j with scores := l, done := some b }] ∧ le b 0 2 = j.tag % 65536 ∧
      le b 2 1 = 4 ∧ le b 3 1 ≤ lowest j.faults ∧ t.u.str = s.u.str ∧ t.q = s.q) ∧
  (∀ (s : State) (c : Fin 64) (g : BitVec 16) (l : List ScoreVec) (f : Bool) (j : Job), s.u.job = [j] → j.ctx = c.val →
    j.tag = g.toNat → jobLive j = true → running s.u = true → s.u.tick.number = j.admitAt + j.delay - 1 → j.cancelAt = none →
    j.faults ≠ [] → jobPoison j l = false → (∀ x, x ∈ j.faults → x < 256) →
    (∀ k, k < j.segs.length → (judgeSeg s.u j l k).block = false ∧ (judgeSeg s.u j l k).fails = [] ∧
      (judgeSeg s.u j l k).spans = [] ∧ (judgeSeg s.u j l k).scores = [] ∧ (judgeSeg s.u j l k).hits = []) →
    ∃ t b, exec (.jobCompose c g l f) s = .next t ∧ t.u.job = [{ j with scores := l, done := some b }] ∧ le b 0 2 = j.tag % 65536 ∧
      le b 2 1 = 4 ∧ le b 3 1 = lowest j.faults ∧ t.u.str = s.u.str ∧ t.u.ctx = s.u.ctx ∧ t.q = s.q ∧ t.m = s.m) ∧
  (∀ (s : State) (c : Fin 64) (g : BitVec 16) (f : Bool) (j : Job), s.u.job = [j] → j.ctx = c.val → j.tag = g.toNat →
    jobLive j = true → egressMark s.u (tgetD s.u.ctx c {}).cohort = true →
    j.admitAt + j.delay ≤ cohortTick s.u (tgetD s.u.ctx c {}).cohort → j.cancelAt = none → le j.pol 21 1 % 16 = 0 →
    ∃ t b, exec (.jobDeadline c g f) s = .next t ∧ t.u.job = [{ j with done := some b }] ∧ le b 0 2 = j.tag % 65536 ∧ le b 2 1 = 3 ∧
      le b 3 1 = lateReason j % 256 ∧ t.u.prodN = (notice (dieKey 1 0) 0x0109 j.ctx [j.tag, lateReason j] s.u).prodN ∧
      t.u.str = s.u.str ∧ t.q = s.q ∧ t.m = s.m) ∧
  (∀ (s : State) (c : Fin 64) (g : BitVec 16) (j : Job) (k : Nat), s.u.job = [j] → j.ctx = c.val → j.tag = g.toNat →
    jobLive j = true → running s.u = true → j.cancelAt = some k → k ≤ s.u.tick.number →
    ∃ t b, exec (.jobCancelEffect c g) s = .next t ∧ t.u.job = [{ j with
        stopped := true, cells := j.cells.filter (fun x => decide (x.tick < s.u.tick.number)), undone := [], copyLost := false
        done := some b }] ∧ le b 0 2 = j.tag % 65536 ∧ le b 2 1 = 5 ∧ le b 3 1 = 0x30 ∧
      t = { s with u := { s.u with job := t.u.job } }) ∧
  (∀ (s : State) (c : Fin 64) (g : BitVec 16), jobAt s.u c g.toNat = none →
    exec (.jobCancelEffect c g) s = .next s ∧ (∀ f, exec (.jobDeadline c g f) s = .next s) ∧
      (∀ l f, exec (.jobCompose c g l f) s = .next s))

/- Windows, tiers and step traffic (12, 13, 17). -/
/-- Messages on windows and tiers (R357, R289 to R291, R422, R460): an import and an export take effect at the next edge; a departure
marks the saved states that move, and its edge ends the import; ranges are set while the block is disabled; an area gets its base; a
copy moves bytes between the host and the context's area and nothing else. -/
def Obligations.WindowAndTierMessages : Prop :=
  (∀ (s : State) (mb : Fin 64) (p : Bytes), heard s.u mb 0x0601 p → 1 ≤ le p 0 1 → le p 0 1 ≤ 254 → le p 1 1 ≤ 1 →
    tget s.u.tier.imports (le p 0 1) = none → importDue s.u (le p 0 1) = false →
    exec (.windowImport mb) s = .next (onUnits (fun u => answer mb (ok (le8 (nextTick u))) (schedule (.winImport (le p 0 1) {
      pauseOk := le p 1 1 == 1, rtt := le p 4 4, base := le p 8 8, len := le p 16 8 }) u)) s)) ∧
  (∀ (s : State) (mb : Fin 64) (p : Bytes), heard s.u mb 0x0601 p → 1 ≤ le p 0 1 → le p 0 1 ≤ 254 → le p 1 1 ≤ 1 →
    tget s.u.tier.imports (le p 0 1) ≠ none →
    exec (.windowImport mb) s = .next (onUnits (answer mb (bad 8 0 0xFFFF 0)) s)) ∧
  (∀ (s : State) (mb : Fin 64) (p : Bytes), heard s.u mb 0x0602 p → (le p 1 1 = 1 ∨ le p 1 1 = 2) → le p 2 1 ≤ 1 →
    exec (.windowExport mb) s = .next (onUnits (fun u => answer mb (ok (le8 (nextTick u))) (schedule (.winExport (le p 0 1) {
      base := le p 24 8, len := le p 16 8, tier := le p 1 1, writable := le p 2 1 == 1, loc := le p 8 8 }) u)) s)) ∧
  (∀ (s : State) (mb : Fin 64) (p : Bytes) (d : Win), heard s.u mb 0x0603 p → tget s.u.tier.imports (le p 0 1) = some d →
    exec (.windowDepart mb) s = .next (onUnits (fun u => answer mb (ok []) { u with tier := { u.tier with
      imports := tset u.tier.imports (le p 0 1) { d with depart := some (le p 8 8) }
      saved := tmap u.tier.saved (fun _ v => if v.target = le p 0 1 ∧ v.st = 1 then { v with st := 2 } else v) } }) s)) ∧
  (∀ (s : State) (w : Fin 256) (d : Win) (k : Nat), tget s.u.tier.imports w = some d → d.depart = some k → k ≤ s.u.tick.number →
    ∃ t, exec (.windowDepartEdge w) s = .next t ∧ tget t.u.tier.imports w = none ∧
      (∀ j, j ≠ w.val → tget t.u.tier.imports j = tget s.u.tier.imports j) ∧
      (∀ e v, tget t.u.tier.saved e = some v → Tsorted s.u.tier.saved = true → v.target = w.val → v.st = 3) ∧
      t.u.tier.exports = s.u.tier.exports ∧ t.q = s.q ∧ t.m = s.m) ∧
  (∀ (s : State) (w : Fin 256) (d : Win) (k : Nat), tget s.u.tier.imports w = some d → d.depart = some k → s.u.tick.number < k →
    exec (.windowDepartEdge w) s = .next s) ∧
  (∀ (s : State) (mb : Fin 64) (p : Bytes), heard s.u mb 0x0604 p → s.u.blk.en = false →
    exec (.tier2Config mb) s = .next (onUnits (fun u => answer mb (ok []) { u with tier := { u.tier with
      linkMask := le p 0 2, pageBase := le p 8 8, pageLen := le p 16 8, stageBase := le p 24 8, stageLen := le p 32 8 } }) s)) ∧
  (∀ (s : State) (mb : Fin 64) (p : Bytes), heard s.u mb 0x0604 p → s.u.blk.en = true →
    exec (.tier2Config mb) s = .next (onUnits (answer mb (bad 8 0 0xFFFF 0)) s)) ∧
  (∀ (s : State) (mb : Fin 64) (p : Bytes) (base : Nat), heard s.u mb 0x0605 p → 1 ≤ le p 0 1 → le p 0 1 ≤ 63 → 0 < le p 4 4 →
    (tgetD s.u.ctx (le p 0 1) {}).state < 2 → (tgetD s.u.ctx (le p 0 1) {}).enableAt = none →
    t1Fit s.asm { s.u with tier := { s.u.tier with areas := s.u.tier.areas.filter (fun x => x.1 != le p 0 1) } }
      (65536 * le p 4 4) = some base →
    exec (.tier1Area mb) s = .next (onUnits (fun u => answer mb (ok (le8 base)) { u with
      ctx := tset u.ctx (le p 0 1) { tgetD u.ctx (le p 0 1) {} with areaBase := base, areaUnits := le p 4 4 }
      tier := { u.tier with
        areas := u.tier.areas.filter (fun x => x.1 != le p 0 1) ++ [(le p 0 1, base, le p 4 4)] } }) s)) ∧
  (∀ (s : State) (mb : Fin 64) (p x : Bytes) (d : Dma) (base : Nat), heard s.u mb 0x0606 p → le p 0 1 = 0 → (bufOf p 16).space ≤ 1 →
    bufOk s.u mb { space := 2, len := (bufOf p 16).len, addr := le p 8 8 } = true → bufOk s.u mb (bufOf p 16) = true →
    s.u.pins.throt = false → updateClash s.u (ceilDiv (bufOf p 16).len (2 ^ 24)) = false →
    bufRead s mb (bufOf p 16) d = some x → base = (tgetD s.u.ctx mb {}).areaBase + le p 8 8 →
    ∃ t, exec (.tierCopy mb d) s = .next t ∧ answered t mb (ok []) ∧ mread t.m.t1 base (bufOf p 16).len = x ∧
      (∀ a, (a < base ∨ base + (bufOf p 16).len ≤ a) → mget t.m.t1 a = mget s.m.t1 a) ∧ t.m.t2 = s.m.t2 ∧ t.m.sram = s.m.sram ∧
      t.q = s.q ∧ t.u.core = s.u.core ∧ t.u.ctx = s.u.ctx) ∧
  (∀ (s : State) (mb : Fin 64) (p x : Bytes) (base : Nat), heard s.u mb 0x0606 p → le p 0 1 = 1 → (bufOf p 16).space ≤ 1 →
    bufOk s.u mb { space := 2, len := (bufOf p 16).len, addr := le p 8 8 } = true → bufOk s.u mb (bufOf p 16) = true →
    s.u.pins.throt = false → updateClash s.u (ceilDiv (bufOf p 16).len (2 ^ 24)) = false → dmaUp s.u (bufOf p 16).space = true →
    base = (tgetD s.u.ctx mb {}).areaBase + le p 8 8 → (areaRead s base (bufOf p 16).len).2 = false →
    exec (.tierCopy mb (.data x)) s = .next (onUnits (fun u => answer mb (ok []) (emit (.host (bufOf p 16).space (bufOf p 16).addr
      (mread s.m.t1 base (bufOf p 16).len)) u)) s)) ∧
  (∀ (s : State) (mb : Fin 64) (p : Bytes), heard s.u mb 0x0607 p →
    exec (.tierStatus mb) s = .next (onUnits (fun u => answer mb (ok (leBytes 4 (inUse u.tier).mainUse ++ leBytes 4 (inUse u.tier).escUse
      ++ leBytes 4 (inUse u.tier).escUse ++ leBytes 4 (borrowed u) ++ leBytes 4 (u.tier.saved.filter (fun e => e.2.st != 3)).length
      ++ leBytes 4 (tier2Budget u))) u) s))

/-- Window transactions (R374, R375, R382, R383): a valid read request is answered with the bytes of its window, a valid write
request is written before its WACK, a response ends its transaction, a NACK or a timeout fails it, a packet that fails a check or is
beyond its port's credits changes nothing but the error queue and what the flits that brought it free. A transaction of an I/O die with
1,024 outstanding waits, and the place a response frees is taken by the first that waits and may go. Answers leave at once where
their port holds the credits and nothing waits in it. -/
def Obligations.WindowTransactions : Prop :=
  (∀ (u : Units) (x : Txn) (data : Bytes), 1024 ≤ winSent (winDie (tgetD u.tier.imports x.win {})) u.tier →
    txnIssue x data u = { u with tier := { u.tier with
      nextTag := (u.tier.nextTag + 1) % 2 ^ 32, waitTx := u.tier.waitTx ++ [({ x with tag := u.tier.nextTag }, data)] } }) ∧
  (∀ (u : Units) (e : Txn × Bytes) (l : List (Txn × Bytes)), u.tier.waitTx = e :: l →
    winSent (winDie (tgetD u.tier.imports e.1.win {})) u.tier < 1024 →
    (txnNext u).tier.txns = u.tier.txns ++ [{ e.1 with sentAt := u.tick.time }] ∧
      (portFree u (Config.windowPort (tgetD u.tier.imports e.1.win {}).base) 2 (1 + ceilDiv e.2.length 64) →
        ∃ p, (txnNext u).out = u.out ++ [.fabric (Config.windowPort (tgetD u.tier.imports e.1.win {}).base) p])) ∧
  (∀ u : Units, u.tier.waitTx = [] → txnNext u = u) ∧
  (∀ (s : State) (rx : Rx) (p : Bytes) (a : Nat), arrives s.u 0x20 rx p → portFree (rxFlits rx s.u) rx.port 3 (1 + le p 40 4 / 64) →
    reqFault s.u (le p 32 8) (le p 40 4) false = none → reqPlace s.u (le p 32 8) (le p 40 4) = (2, a) →
    (∀ k, k < le p 40 4 / 64 → t1Pois s.asm s.u.tier (a / 64 + k) = false) →
    ∃ t, exec (.rdRequest rx p) s = .next t ∧ t.u.out = (rxFlits rx s.u).out ++ [.fabric rx.port (fabPkt 0x28 3 (le p 4 4) (le p 16 8)
        s.u.fab.selfId 0 (sliceZ p 32 12) (mread s.m.t1 a (le p 40 4)))] ∧
      t = { s with u := { s.u with out := t.u.out, cnt := { s.u.cnt with die := t.u.cnt.die }
                                   fab := { s.u.fab with ports := t.u.fab.ports } } }) ∧
  (∀ (s : State) (rx : Rx) (p : Bytes) (st : Nat), arrives s.u 0x20 rx p → portFree (rxFlits rx s.u) rx.port 3 1 →
    reqFault s.u (le p 32 8) (le p 40 4) false = some st →
    ∃ t, exec (.rdRequest rx p) s = .next t ∧ t.u.out = (rxFlits rx s.u).out ++ [.fabric rx.port (fabPkt 0x2F 3 (le p 4 4) (le p 16 8)
        s.u.fab.selfId 0 (sliceZ p 32 12 ++ [BitVec.ofNat 8 st]) [])] ∧
      t = { s with u := { s.u with out := t.u.out, cnt := { s.u.cnt with die := t.u.cnt.die }
                                   fab := { s.u.fab with ports := t.u.fab.ports } } }) ∧
  (∀ (s : State) (rx : Rx) (p : Bytes) (a : Nat), arrives s.u 0x21 rx p → portFree (rxFlits rx s.u) rx.port 3 1 →
    (p.drop 64).length = le p 40 4 → reqFault s.u (le p 32 8) (le p 40 4) true = none →
    reqPlace s.u (le p 32 8) (le p 40 4) = (2, a) →
    ∃ t, exec (.wrRequest rx p) s = .next t ∧ mread t.m.t1 a (le p 40 4) = p.drop 64 ∧
      (∀ x, (x < a ∨ a + le p 40 4 ≤ x) → mget t.m.t1 x = mget s.m.t1 x) ∧ t.m.t2 = s.m.t2 ∧ t.m.sram = s.m.sram ∧
      t.u.out = (rxFlits rx s.u).out ++ [.fabric rx.port (fabPkt 0x29 3 (le p 4 4) (le p 16 8) s.u.fab.selfId 0 (sliceZ p 32 12) [])] ∧
      t.q = s.q ∧ t.u.core = s.u.core) ∧
  (∀ (s : State) (rx : Rx) (p : Bytes) (st : Nat), arrives s.u 0x21 rx p → portFree (rxFlits rx s.u) rx.port 3 1 →
    (p.drop 64).length = le p 40 4 → reqFault s.u (le p 32 8) (le p 40 4) true = some st →
    ∃ t, exec (.wrRequest rx p) s = .next t ∧ t.m = s.m ∧ t.u.out = (rxFlits rx s.u).out ++ [.fabric rx.port (fabPkt 0x2F 3 (le p 4 4)
        (le p 16 8) s.u.fab.selfId 0 (sliceZ p 32 12 ++ [BitVec.ofNat 8 st]) [])] ∧ t.q = s.q) ∧
  (∀ (s : State) (rx : Rx) (p : Bytes) (x : Txn), arrives s.u 0x28 rx p → txnOf s.u p false = some x → x.dspace = 0 →
    x.bytes % 64 = 0 → x.dst + x.bytes ≤ sramBytes → (∀ c r, x.own ≠ some (.ring c r)) →
    ∃ t, exec (.rdata rx p) s = .next t ∧ sramRead t x.dkey x.dst x.bytes = sliceZ (p.drop 64) 0 x.bytes ∧
      (∀ a, (a < x.dst ∨ x.dst + x.bytes ≤ a) → mget (sramOf t x.dkey) a = mget (sramOf s x.dkey) a) ∧
      (∀ k, k ≠ x.dkey → sramOf t k = sramOf s k) ∧ t.u.tier.txns = (txnNext { s.u with tier := { s.u.tier with
        txns := s.u.tier.txns.filter (fun y => y.tag != x.tag) } }).tier.txns ∧
      t.m.t1 = s.m.t1 ∧ t.m.t2 = s.m.t2 ∧ t.q = s.q) ∧
  (∀ (s : State) (rx : Rx) (p : Bytes) (x : Txn), arrives s.u 0x29 rx p → txnOf s.u p true = some x → (∀ c r, x.own ≠ some (.ring c r)) →
    exec (.wack rx p) s = .next { s with u := txnNext { rxFlits rx s.u with tier := { s.u.tier with
      txns := s.u.tier.txns.filter (fun y => y.tag != x.tag) } } }) ∧
  (∀ (s : State) (rx : Rx) (p : Bytes), arrives s.u 0x29 rx p → txnOf s.u p true = none →
    exec (.wack rx p) s = .next (onUnits (fun u => fabError rx.port 0x0D25 [rx.port, le p 4 4] (rxFlits rx u)) s)) ∧
  (∀ (s : State) (rx : Rx) (p : Bytes) (x : Txn) (n : Nat), arrives s.u 0x2F rx p → txnOf s.u p true = some x → x.core = none →
    (x.own = some (.pause n) ∨ x.own = some (.resume n)) →
    ∃ t, exec (.nack rx p) s = .next t ∧ t.u.tier.txns = (txnNext { s.u with tier := { s.u.tier with
        txns := s.u.tier.txns.filter (fun y => y.tag != x.tag) } }).tier.txns ∧
      (∀ y, tget s.u.str n = some y → tget t.u.str n = some { y with copyFail := true }) ∧ t.u.blk.iface = true ∧
      t.u.prodF = (fabError rx.port 0x0D26 [x.win, x.addr, le p 44 1] s.u).prodF ∧ t.q = s.q ∧ t.m = s.m) ∧
  (∀ (s : State) (tag : W32) (x : Txn) (n : Nat), s.u.tier.txns.find? (fun y => y.tag == tag.toNat) = some x → x.core = none →
    (x.own = some (.pause n) ∨ x.own = some (.resume n)) →
    ∃ t, exec (.windowTimeout tag) s = .next t ∧
      t.u.tier.txns = (txnNext (advTo (x.sentAt + (tgetD s.u.tier.imports x.win {}).rtt) { s.u with tier := { s.u.tier with
        txns := s.u.tier.txns.filter (fun y => y.tag != x.tag) } })).tier.txns ∧
      (∀ y, tget s.u.str n = some y → tget t.u.str n = some { y with copyFail := true }) ∧
      (3, (tgetD s.u.str n {}).ctx) ∈ t.u.conds ∧
      t.u.prodF = (fabError (Config.windowPort (tgetD s.u.tier.imports x.win {}).base) 0x0D27 [x.win, x.addr] s.u).prodF ∧
      t.q = s.q ∧ t.m = s.m) ∧
  (∀ (s : State) (rx : Rx) (p : Bytes) (code : Nat) (l : List Nat), isUp s.u = true → rxBeyond (rxFlits rx s.u) rx p = false →
    fabFault s.u rx.port p = some (code, l) →
    exec (.fabCrc rx p) s = .next (onUnits (fun u => fabError rx.port code l (rxFlits rx u)) s) ∧
      exec (.rdRequest rx p) s = .next (onUnits (fun u => fabError rx.port code l (rxFlits rx u)) s) ∧
      exec (.wrRequest rx p) s = .next (onUnits (fun u => fabError rx.port code l (rxFlits rx u)) s)) ∧
  (∀ (s : State) (rx : Rx) (p : Bytes), isUp s.u = true → rxBeyond (rxFlits rx s.u) rx p = true →
    exec (.fabCrc rx p) s = .next (onUnits (fun u => fabError rx.port 0x0D23 [rx.port, le p 1 1 % 4] (rxFlits rx u)) s) ∧
      exec (.rdRequest rx p) s = .next (onUnits (fun u => fabError rx.port 0x0D23 [rx.port, le p 1 1 % 4] (rxFlits rx u)) s)) ∧
  (∀ (s : State) (rx : Rx) (p : Bytes) (cls : Nat), arrives s.u cls rx p → exec (.fabCrc rx p) s = .next s)

/-- Step traffic into the block (R58, R59, R94, R118, R377 to R379): a fragment of a record not yet whole is kept; a record that is
whole, valid and in its ingress window enters the ring of every core of the stream's replica; one that breaks R94 is counted by reason
and discarded; one whose handle names no stream counts as stale; a skip marker of the present tick marks its stream. -/
def Obligations.StepTrafficReachesItsStream : Prop :=
  (∀ (s : State) (rx : Rx) (p : Bytes) (at_ : Nat), at_ ≤ s.u.tick.time → arrives s.u 0x10 rx p → s.u.fab.reasm = [] →
    fragBad s.u (rx.port.val / 2) (le p 32 4) (le p 24 8) (le p 36 4) (le p 40 4) (p.drop 64) = false →
    (p.drop 64).length < le p 40 4 →
    ∃ t, exec (.hstate rx p at_) s = .next t ∧ t.u.fab.reasm = [{
        handle := le p 32 4, tick := le p 24 8, die := rx.port.val / 2, rlen := le p 40 4, frags := [(le p 36 4, p.drop 64)] }] ∧
      t = { s with u := { s.u with out := (rxFlits rx s.u).out
                                   fab := { s.u.fab with reasm := t.u.fab.reasm, ports := t.u.fab.ports } } }) ∧
  (∀ (s : State) (rx : Rx) (p : Bytes) (at_ n r : Nat) (x : Str), at_ ≤ s.u.tick.time → arrives s.u 0x10 rx p → s.u.fab.reasm = [] →
    fragBad s.u (rx.port.val / 2) (le p 32 4) (le p 24 8) (le p 36 4) (le p 40 4) (p.drop 64) = false →
    (p.drop 64).length = le p 40 4 → streamOf s.u (le p 32 4) = some n → tget s.u.str n = some x →
    le p 24 8 = cohortTick s.u x.cohort → recordOk s.u (p.drop 64) (le p 32 4) (le p 24 8) x = true →
    ingressOpen s.u x.cohort = true → x.seat = some r → x.st = .active → x.recIn = false → x.skipIn = false →
    ∃ t, exec (.hstate rx p at_) s = .next t ∧ tget t.u.str n = some { x with recIn := true } ∧
      (∀ b, b ∈ (slotAt s.u x.headSlot).bind → b.rep = r →
        ∃ e, e ∈ (coreAt t.u (bindKey b)).ring ∧ e.handle = le p 32 4 ∧ e.tick = le p 24 8) ∧
      (∀ k, (∀ b, b ∈ (slotAt s.u x.headSlot).bind → b.rep = r → bindKey b ≠ k) →
        coreAt t.u k = coreAt s.u k ∧ sramOf t k = sramOf s k) ∧ t.m.t1 = s.m.t1 ∧ t.m.t2 = s.m.t2 ∧ t.q = s.q) ∧
  (∀ (s : State) (rx : Rx) (p : Bytes) (at_ n why : Nat) (x : Str) (l : List Nat), at_ ≤ s.u.tick.time → arrives s.u 0x10 rx p →
    s.u.fab.reasm = [] → fragBad s.u (rx.port.val / 2) (le p 32 4) (le p 24 8) (le p 36 4) (le p 40 4) (p.drop 64) = false →
    (p.drop 64).length = le p 40 4 → streamOf s.u (le p 32 4) = some n → tget s.u.str n = some x →
    le p 24 8 = cohortTick s.u x.cohort → recordFaults s.u (p.drop 64) (le p 32 4) (le p 24 8) x = why :: l →
    ∃ t, exec (.hstate rx p at_) s = .next t ∧ t.u.fab.invalid = s.u.fab.invalid + 1 ∧
      tget t.u.fab.invalidBy why = some (tgetD s.u.fab.invalidBy why 0 + 1) ∧ t.u.core = s.u.core ∧ t.u.str = s.u.str ∧
      t.q = s.q ∧ t.m = s.m) ∧
  (∀ (s : State) (rx : Rx) (p : Bytes) (at_ : Nat), at_ ≤ s.u.tick.time → arrives s.u 0x10 rx p → s.u.fab.reasm = [] →
    fragBad s.u (rx.port.val / 2) (le p 32 4) (le p 24 8) (le p 36 4) (le p 40 4) (p.drop 64) = false →
    (p.drop 64).length = le p 40 4 → streamOf s.u (le p 32 4) = none →
    ∃ t, exec (.hstate rx p at_) s = .next t ∧ t.u.fab.stale = s.u.fab.stale + 1 ∧ t.u.fab.invalid = s.u.fab.invalid ∧
      t.u.core = s.u.core ∧ t.u.str = s.u.str ∧ t.q = s.q ∧ t.m = s.m) ∧
  (∀ (s : State) (rx : Rx) (p : Bytes) (at_ n : Nat) (x : Str), at_ ≤ s.u.tick.time → arrives s.u 0x11 rx p → le p 32 2 = 1 →
    (p.drop 64).length = 64 → allZero ((p.drop 64).drop 4) = true →
    streamOf s.u (le (p.drop 64) 0 4) = some n → tget s.u.str n = some x → le p 24 8 = cohortTick s.u x.cohort →
    ingressOpen s.u x.cohort = true → x.recIn = false →
    ∃ t, exec (.skipPacket rx p at_) s = .next t ∧ tget t.u.str n = some { x with skipIn := true } ∧
      (∀ j, j ≠ n → tget t.u.str j = tget s.u.str j) ∧
      t = { s with u := { s.u with str := t.u.str, out := (rxFlits rx s.u).out, cnt := { s.u.cnt with die := t.u.cnt.die }
                                   fab := { s.u.fab with ports := t.u.fab.ports } } }) ∧
  (∀ (s : State) (rx : Rx) (p : Bytes) (at_ : Nat), at_ ≤ s.u.tick.time → arrives s.u 0x11 rx p → le p 32 2 = 0 →
    exec (.skipPacket rx p at_) s = .next (onUnits (fun u => fabError rx.port 0x0D21 [rx.port, 0x11, 1] (rxHold rx p (rxFlits rx u))) s))

/- Firmware (11). -/
/-- Firmware messages and the queues they read (R324, R326, R329, R330, R335, R336, R358, R359): what a load, an activation, a boot
word, a watchdog period, trace points and fuses leave; what FW_LOG_READ and QUEUE_READ pop and write; what visibility, order and
authority refuse. -/
def Obligations.FirmwareMessages : Prop :=
  (∀ (s : State) (mb : Fin 64) (p x : Bytes) (d : Dma), heard s.u mb 0x0701 p → s.u.fw.updState ≠ 1 → s.u.fw.updState ≠ 3 →
    s.u.fw.loading = none → bufOk s.u 0 (bufOf p 16) = true → (s.u.fw.stage ≠ 5 ∨ (bufOf p 16).space = 0) →
    bufRead s 0 (bufOf p 16) d = some x →
    ∃ t, exec (.fwLoad mb d) s = .next t ∧ awaits t mb ∧ t.u.fw.updState = 1 ∧ (otherBank t.u.fw).valid = false ∧
      (otherBank t.u.fw).data = some x ∧
      t.u.fw.loading = some (mb.val, imgParse x, (loadResult s.u.fw x (bufOf p 16).len (sliceZ p 32 48)).1,
        (loadResult s.u.fw x (bufOf p 16).len (sliceZ p 32 48)).2) ∧ t.u.fw.run = s.u.fw.run ∧ t.u.fw.bank = s.u.fw.bank ∧
      t = { s with u := { s.u with mbx := t.u.mbx, fw := t.u.fw, svc := t.u.svc } }) ∧
  (∀ (s : State) (mb : Fin 64) (p : Bytes) (d : Dma), heard s.u mb 0x0701 p → (s.u.fw.updState = 1 ∨ s.u.fw.updState = 3) →
    exec (.fwLoad mb d) s = .next (onUnits (answer mb (bad 8 0 0xFFFF 0)) s)) ∧
  (∀ (s : State) (n : Nat) (i : FwImg) (st : Nat), s.u.fw.loading = some (n, i, 0, st) → awaits s n → s.u.fw.stage = 4 →
    ∃ t, exec (.updStateStaged .ok) s = .next t ∧ answered t n (ok (leBytes 4 i.ver ++ leBytes 2 i.svn)) ∧ t.u.fw.updState = 2 ∧
      t.u.fw.staged = some i ∧ otherBank t.u.fw = i ∧ t.u.fw.loading = none ∧ t.u.fw.bankTorn = false ∧ t.u.fw.run = s.u.fw.run ∧
      t.q = s.q ∧ t.m = s.m) ∧
  (∀ (s : State) (n r st : Nat) (i : FwImg), s.u.fw.loading = some (n, i, r, st) → r ≠ 0 → awaits s n →
    ∃ t, exec (.updStateStaged .ok) s = .next t ∧ answered t n (bad st 4 0xFFFF r) ∧ t.u.fw.updState = 0 ∧ t.u.fw.updResult = r ∧
      t.u.fw.loading = none ∧ t.u.fw.run = s.u.fw.run ∧ t.q = s.q ∧ t.m = s.m) ∧
  (∀ (s : State) (mb : Fin 64) (p : Bytes), heard s.u mb 0x0702 p → s.u.fw.updState = 2 →
    exec (.fwActivate mb) s = .next (onUnits (fun u => answer mb (ok (le8 (max (le p 0 8) (u.tick.number + 1024)))) { u with
      fw := { u.fw with
        updState := 3, updTick := max (le p 0 8) (u.tick.number + 1024), idle := u.fw.staged, hand := none
        upd := some { q := max (le p 0 8) (u.tick.number + 1024), old := u.fw.run } } }) s)) ∧
  (∀ (s : State) (mb : Fin 64) (p : Bytes), heard s.u mb 0x0702 p → s.u.fw.updState ≠ 2 →
    exec (.fwActivate mb) s = .next (onUnits (answer mb (bad 8 0 0xFFFF 0)) s)) ∧
  (∀ (s : State) (mb : Fin 64) (p : Bytes), heard s.u mb 0x0703 p → le p 0 4 < 128 →
    ∃ t, exec (.fwBootCfg mb) s = .next t ∧ answered t mb (ok []) ∧ t.u.fw = { s.u.fw with bootCfgNext := le p 0 4 } ∧
      t.u.svc.journal.length = s.u.svc.journal.length + 1 ∧
      t = { s with u := { s.u with mbx := t.u.mbx, fw := t.u.fw, svc := { s.u.svc with
        journal := t.u.svc.journal, jseq := s.u.svc.jseq + 1 } } }) ∧
  (∀ (s : State) (mb : Fin 64) (p : Bytes) (r : Role), heard s.u mb 0x0704 p → le p 0 1 ≤ 9 → 0 < le p 2 2 → le p 2 2 ≤ 1000 →
    tget s.u.fw.roles (le p 0 1) = some r →
    exec (.fwWatchdog mb) s = .next (onUnits (fun u => answer mb (ok []) { u with fw := { u.fw with
      roles := tset u.fw.roles (le p 0 1) { r with periodNext := some (le p 2 2) } } }) s)) ∧
  (∀ (s : State) (mb : Fin 64) (p : Bytes), heard s.u mb 0x0706 p → 2 ≤ s.u.fw.vis → 0x2000 ≤ le p 0 2 → le p 0 2 ≤ le p 2 2 →
    le p 2 2 ≤ 0x2FFF → le p 4 1 = 1 →
    exec (.fwTrace mb) s = .next (onUnits (fun u => answer mb (ok []) { u with fw := { u.fw with
      traces := rangesWithout u.fw.traces (le p 0 2) (le p 2 2) ++ [(le p 0 2, le p 2 2)] } }) s)) ∧
  (∀ (s : State) (mb : Fin 64) (p : Bytes), heard s.u mb 0x0706 p → s.u.fw.vis < 2 →
    exec (.fwTrace mb) s = .next (onUnits (answer mb (bad 0xE 0 0xFFFF 0)) s)) ∧
  (∀ (s : State) (mb : Fin 64) (p : Bytes), heard s.u mb 0x0707 p → le p 0 1 = 1 → le p 1 1 ≤ 3 → le p 8 8 = s.asm.serial →
    keyOk s.u.fw (le p 1 1) (sliceZ p 16 96) = true →
    ecdsaVerify (sliceZ p 16 96) (sliceZ p 112 96) (sha384 (sliceZ p 0 16)) = true → le p 2 2 ≤ s.u.fw.run.svn →
    exec (.fwFuse mb) s = .next (onUnits (fun u => answer mb (ok []) { u with fw := { u.fw with
      minSvn := max u.fw.minSvn (le p 2 2) } }) s)) ∧
  (∀ (s : State) (mb : Fin 64) (p : Bytes), heard s.u mb 0x0707 p → (le p 0 1 = 1 ∨ le p 0 1 = 2 ∧ le p 2 2 ≤ 3) → le p 1 1 ≤ 3 →
    le p 8 8 ≠ s.asm.serial →
    exec (.fwFuse mb) s = .next (onUnits (answer mb (bad 0xD 0 0xFFFF 0)) s)) ∧
  (∀ (s : State) (mb : Fin 64) (p : Bytes) (i : PopIn), heard s.u mb 0x0705 p → s.u.fw.vis = 0 →
    exec (.fwLogRead mb i) s = .next (onUnits (answer mb (bad 0xE 0 0xFFFF 0)) s)) ∧
  (∀ (s : State) (mb : Fin 64) (p : Bytes) (c : CPkt) (g : QInst) (i : PopIn) (a d : Nat), heard s.u mb 0x0705 p → s.u.fw.vis ≠ 0 → le p 0 2 = 1 →
    bufOk s.u mb (bufOf p 16) = true → (bufOf p 16).space = 0 → dmaUp s.u 0 = true → qPop s.q.log = some (c, g) → c.words ≠ [] →
    8 * c.words.length ≤ (bufOf p 16).len → i.flt = false → a = (i.ecc.headD (0, 0)).1.toNat % 2 ^ c.words.length →
    d = (i.ecc.headD (0, 0)).2.toNat % 2 ^ c.words.length →
    ∃ t, exec (.fwLogRead mb i) s = .next t ∧ answered t mb (ok (leBytes 2 1)) ∧
      t.q = { s.q with log := qEcc g (ones8 a) (ones8 d) } ∧
      t.u.out = s.u.out ++ [.host 0 (bufOf p 16).addr ((withSeq (c.words.headD 0) c.seq (Nat.lor c.poison d != 0)
        :: c.words.drop 1).flatMap (fun w => leBytes 8 w.toNat))] ∧ t.m = s.m) ∧
  (∀ (s : State) (mb : Fin 64) (p : Bytes) (i : PopIn), heard s.u mb 0x0705 p → s.u.fw.vis ≠ 0 → 1 ≤ le p 0 2 → le p 0 2 ≤ 512 →
    bufOk s.u mb (bufOf p 16) = true → qPop s.q.log = none →
    exec (.fwLogRead mb i) s = .next (onUnits (answer mb (ok (leBytes 2 0))) s)) ∧
  (∀ (s : State) (mb : Fin 64) (p : Bytes) (c : CPkt) (g : QInst) (i : PopIn) (a d : Nat), heard s.u mb 0x0806 p → le p 0 1 = 2 → le p 1 1 = 1 →
    bufOk s.u mb (bufOf p 16) = true → (bufOf p 16).space = 0 → dmaUp s.u 0 = true → qPop s.q.fab = some (c, g) → c.words ≠ [] →
    8 * c.words.length ≤ (bufOf p 16).len → i.flt = false → a = (i.ecc.headD (0, 0)).1.toNat % 2 ^ c.words.length →
    d = (i.ecc.headD (0, 0)).2.toNat % 2 ^ c.words.length →
    ∃ t, exec (.queueRead mb i) s = .next t ∧
      answered t mb (ok ([s.u.prodF.lost, s.q.fab.flushed, s.q.fab.rewound, s.q.fab.parErr, s.q.fab.eccCorr, s.q.fab.eccUnc].flatMap le8
        ++ leBytes 2 1)) ∧ t.q = { s.q with fab := qEcc g (ones8 a) (ones8 d) } ∧
      t.u.out = s.u.out ++ [.host 0 (bufOf p 16).addr ((withSeq (c.words.headD 0) c.seq (Nat.lor c.poison d != 0)
        :: c.words.drop 1).flatMap (fun w => leBytes 8 w.toNat))] ∧ t.m = s.m)

/-- Boot, watchdogs and live update (R315 to R317, R319, R325, R328, R330 to R334, R444): a power-on with a journal that names no boot
word and no bank boots the active bank if it passes R324, or ends in recovery; READY follows bring-up with a good calibration; an
expiry after a whole period without a kick restarts its role, one of MBX takes the mailboxes down and its begun commands wait again;
an update goes through its quiet tick, switch and end, or is rolled back; an adopted hand-off record passes every check of R334. -/
def Obligations.BootWatchdogsAndUpdate : Prop :=
  (∀ (s : State) (b : BootIn), b.powerOn = true → b.badCores = [] → s.u.fw.badCores = [] → s.u.fw.bank = 0 →
    b.journalBad = [] → (∀ r, r ∈ s.u.svc.journal → r.type < 5 ∨ 8 < r.type) → bankFail s.u.fw b.bankRead 0 s.u.fw.bankA = 0 →
    bitAt (bootNorm s.u.fw.bootCfgNext) 3 = false → journalGone [] s.u = false →
    ∃ t, exec (.resetRelease b) s = .next t ∧ t.u.fw.stage = 3 ∧ t.u.fw.run = s.u.fw.bankA ∧ t.u.fw.bank = 0 ∧
      t.u.pins.strap = b.strap ∧ t.u.fw.bootCfg = bootNorm s.u.fw.bootCfgNext ∧ t.u.mbx = [] ∧ t.u.ctx = [] ∧ t.q = {} ∧ t.m = {}) ∧
  (∀ (s : State) (b : BootIn), b.powerOn = true → b.badCores = [] → s.u.fw.badCores = [] → b.journalBad = [] →
    (∀ r, r ∈ s.u.svc.journal → r.type < 5 ∨ 8 < r.type) → s.u.fw.bankA.valid = false → s.u.fw.bankB.valid = false →
    bitAt (bootNorm s.u.fw.bootCfgNext) 2 = false → journalGone [] s.u = false →
    ∃ t, exec (.resetRelease b) s = .next t ∧ t.u.fw.stage = 5 ∧ t.u.fw.mbxUp = false ∧ t.q = {} ∧ t.m = {}) ∧
  (∀ (s : State) (b : BootIn), b.powerOn = false → s.u.blk.powerLow = true → exec (.resetRelease b) s = .next s) ∧
  (∀ s : State, s.u.fw.stage = 3 → s.u.fw.calOk = true →
    exec .bootReady s = .next (onUnits (fun u => { u with
      fw := { u.fw with stage := 4, mbxUp := (tgetD u.fw.roles 9 {}).state == 0 }
      tick := { u.tick with admitHold := u.tick.admitHold || (tgetD u.fw.roles 9 {}).state != 0 } }) s)) ∧
  (∀ s : State, s.u.fw.calOk = false → exec .bootReady s = .next s) ∧
  (∀ (s : State) (r : Fin 10) (x : Role), isUp s.u = true → s.u.fw.stage = 4 → tget s.u.fw.roles r = some x → x.state ≠ 2 →
    x.lastExpiry = none → r ≠ 9 → kicksMissed s.u x = true →
    ∃ t, exec (.watchdogExpiry r {}) s = .next t ∧ tget t.u.fw.roles r = some { voidHalf x with
        state := 1, restarts := satN 16 (x.restarts + 1), lastExpiry := some s.u.tick.time } ∧ t.u.fw.mbxUp = s.u.fw.mbxUp ∧
      t.u.prodN = (notice (dieKey 3 (x.core / 6)) 0x0B01 0 [r.val, physCtl x.core, satN 16 (x.restarts + 1)] s.u).prodN ∧
      t.u.tick = s.u.tick ∧ t.q = s.q ∧ t.m = s.m) ∧
  (∀ (s : State) (r : Fin 10) (x : Role), tget s.u.fw.roles r = some x → kicksMissed s.u x = false →
    exec (.watchdogExpiry r {}) s = .next s) ∧
  (∀ (s : State) (x : Role), isUp s.u = true → s.u.fw.stage = 4 → tget s.u.fw.roles 9 = some x → x.state ≠ 2 →
    x.lastExpiry = none → kicksMissed s.u x = true → s.u.fw.mbxUp = true →
    ∃ t, exec (.watchdogExpiry 9 {}) s = .next t ∧ (tgetD t.u.fw.roles 9 {}).state = 1 ∧ t.u.fw.mbxUp = false ∧
      t.u.tick = { s.u.tick with admitHold := true } ∧
      (∀ n, (tgetD s.u.mbx n {}).phase = .begun → (tgetD t.u.mbx n {}).phase = .rung) ∧ t.q = s.q ∧ t.m = s.m) ∧
  (∀ (s : State) (r : Fin 10) (x : Role) (c : Nat), isUp s.u = true → s.u.fw.stage = 4 → tget s.u.fw.roles r = some x →
    x.state ≠ 2 → r ≠ 9 → kicksMissed s.u x = true → freeSpare { s.u.fw with roles := tset s.u.fw.roles r { voidHalf x with
        state := 1, restarts := satN 16 (x.restarts + 1), lastExpiry := some s.u.tick.time } } (x.core / 6) = some c →
    ∃ t, exec (.watchdogExpiry r { selfTestOk := false }) s = .next t ∧ (tgetD t.u.fw.roles r {}).core = c ∧
      (tgetD t.u.fw.roles r {}).moves = satN 8 (x.moves + 1) ∧ x.core ∈ t.u.fw.badCores ∧ t.q = s.q ∧ t.m = s.m) ∧
  (∀ (s : State) (r : Fin 10) (us : Nat) (x : Role), tget s.u.fw.roles r = some x → x.state = 1 →
    exec (.roleRestored r us) s = .next (onUnits (fun u => notice (ctlProd x.core) 0x0B03 0 [r.val, us] { u with
      fw := { u.fw with roles := tset u.fw.roles r.val { x with state := 0, kickAt := u.tick.time } } }) s)) ∧
  (∀ s : State, s.u.fw.stage = 4 → s.u.fw.mbxUp = false → (tgetD s.u.fw.roles 9 {}).state = 0 → s.u.fw.upd = none →
    (s.u.fw.rolled = false ∨ s.u.tick.st = .current ∨ running s.u = false) → atEdge s.u = true →
    exec .mbxUpRestore s = .next (onUnits (fun u => { u with
      fw := { u.fw with mbxUp := true, rolled := false }, tick := { u.tick with admitHold := false } }) s)) ∧
  (∀ s : State, atEdge s.u = false → exec .mbxUpRestore s = .next s) ∧
  (∀ (s : State) (w : Update), s.u.fw.upd = some w → w.stage = 0 → s.u.tick.number = w.q → running s.u = true →
    (∀ r, r ∈ s.u.fw.roles → r.2.state = 0) →
    exec .updateQuietTick s = .next (onUnits (fun u => { u with
      fw := { u.fw with mbxUp := false, upd := some { w with stage := 1 } }, tick := { u.tick with admitHold := true } }) s)) ∧
  (∀ (s : State) (w : Update), s.u.fw.upd = some w → w.stage = 0 → s.u.tick.number = w.q → running s.u = true →
    (∃ r, r ∈ s.u.fw.roles ∧ r.2.state ≠ 0) →
    exec .updateQuietTick s = .next (onUnits (fun u => { u with
      fw := { u.fw with upd := none, updState := 0, updResult := 7, staged := none } }) s)) ∧
  (∀ (s : State) (w : Update) (a : List (Nat × Byte)) (b : List (Nat × Nat × Byte)) (c : List (Nat × Nat)), s.u.fw.upd = some w →
    w.stage = 1 → s.u.tick.number = w.q + 1 →
    exec (.updateSwitch a b c) s = .next (onUnits (fun u => { u with fw := { u.fw with
      run := u.fw.idle.getD u.fw.run, idle := some u.fw.run
      upd := some { w with
        stage := 2, coasted := u.tick.coastTotal
        refused := !handAdopted (u.fw.idle.getD u.fw.run) (handRead (u.fw.hand.getD {}) a b) c
        ignored := ((handEntries (handRead (u.fw.hand.getD {}) a b).head).filter
          (fun e => !sectionAdopted c e.1 e.2.1)).map (·.1) } } }) s)) ∧
  (∀ (i : FwImg) (h : Hand) (c : List (Nat × Nat)), handAdopted i h c = true →
    le h.head 0 4 = 0x4F464448 ∧ i.hoMin ≤ le h.head 4 2 ∧ le h.head 4 2 ≤ i.hoOut ∧
      crc32c (patch (sliceZ h.head 0 (128 + 32 * le h.head 6 2)) 24 (leBytes 4 0)) = le h.head 24 4 ∧
      ∀ e, e ∈ handEntries h.head → crc32c (tgetD h.secs e.1 []) = e.2.2.2 ∧
        (e.2.2.1 = true → sectionAdopted c e.1 e.2.1 = true)) ∧
  (∀ (s : State) (w : Update), s.u.fw.upd = some w → w.stage = 2 → w.refused = false → w.expired = false →
    s.u.tick.st = .current → w.q + 2 ≤ s.u.tick.number → s.u.tick.number ≤ w.q + 4 →
    ∃ t, exec .updateDone s = .next t ∧ t.u.fw.bank = 1 - s.u.fw.bank ∧ t.u.fw.upd = none ∧ t.u.fw.updState = 0 ∧
      t.u.fw.updResult = 1 ∧ t.u.fw.run = s.u.fw.run ∧ t.u.fw.mbxUp = ((tgetD s.u.fw.roles 9 {}).state == 0) ∧
      t.u.tick = { s.u.tick with admitHold := (tgetD s.u.fw.roles 9 {}).state != 0 } ∧
      t.u.svc.journal.length = s.u.svc.journal.length + 1 ∧ t.q = s.q ∧ t.m = s.m ∧
      (0xC ∉ w.ignored → t.u.fw.traces = s.u.fw.traces) ∧ (0xC ∈ w.ignored → t.u.fw.traces = []) ∧
      (0xB ∉ w.ignored → t.u.temper = s.u.temper) ∧
      (0xB ∈ w.ignored → ∀ run, (tgetD t.u.temper run {}).state = 0)) ∧
  (∀ (s : State) (w : Update), s.u.fw.upd = some w → w.stage = 2 → w.refused = true →
    exec (.updateRollback .refused) s = .next (onUnits (fun u => fwNotice 0 0x0B06 0 [8, w.q] { u with fw := { u.fw with
      run := w.old, idle := some u.fw.run, upd := none, updState := 0, updResult := 8, staged := none, rolled := true } }) s)) ∧
  (∀ (s : State) (w : Update), s.u.fw.upd = some w → w.stage ≠ 0 → w.expired = true →
    exec (.updateRollback .expiry) s = .next (onUnits (fun u => fwNotice 0 0x0B06 0 [9, w.q] { u with fw := { u.fw with
      run := w.old, idle := some u.fw.run, upd := none, updState := 0, updResult := 9, staged := none, rolled := true } }) s))

/- Tempering (18). -/
/-- Tempering runs (R360, R486, R487, R489, R493 to R497): a start that passes its checks gives a running run from the tick after the
next; a step of a run that may run counts one and changes only the run; a feedback fault, poison or an aborted launch ends it; a complete run is
reported; a commit is accepted for edge E, requantised, and rebound with a new IMAGE_ID, or fails back to state 2. -/
def Obligations.TemperingRuns : Prop :=
  (∀ (s : State) (mb : Fin 64) (p : Bytes) (h : Bytes × Bool) (base : Nat), heard s.u mb 0x0901 p → le p 0 1 ≤ 31 → le p 1 1 ≤ 3 →
    1 ≤ le p 2 2 → le p 2 2 ≤ 1024 → 1 ≤ le p 4 4 → le p 4 4 ≤ 1048576 → 1 ≤ le p 8 4 → le p 8 4 ≤ 0x3F800000 →
    ((bufOf p 16).space = 2 ∨ (bufOf p 16).space = 3) → bufOk s.u (feedbackCtx (bufOf p 16)) (bufOf p 16) = true →
    64 ≤ (bufOf p 16).len → s.u.pins.throt = false →
    ((slotAt s.u (le p 0 1)).st = .resident ∨ (slotAt s.u (le p 0 1)).st = .inService) →
    tdeclOk (imgTemper (slotAt s.u (le p 0 1)).img (slotAt s.u (le p 0 1)).imgLen) (imgNcore (slotAt s.u (le p 0 1)).img) = true →
    s.u.temper = [] → feedbackRead s (bufOf p 16) 0 64 = some h →
    feedbackOk h.1 (tdecl (imgTemper (slotAt s.u (le p 0 1)).img (slotAt s.u (le p 0 1)).imgLen)) (bufOf p 16).len = true →
    workCores (tparams (tdecl (imgTemper (slotAt s.u (le p 0 1)).img (slotAt s.u (le p 0 1)).imgLen)))
      ≤ (freeOrder s.asm s.u (slotAt s.u (le p 0 1)).dieMask).length →
    t1Fit s.asm s.u (momentBytes (tparams (tdecl (imgTemper (slotAt s.u (le p 0 1)).img (slotAt s.u (le p 0 1)).imgLen))))
      = some base →
    ∃ t r, exec (.temperStart mb) s = .next t ∧ answered t mb (ok (le8 (nextTick s.u + 1))) ∧ t.u.temper = [(le p 1 1, r)] ∧
      r.state = 1 ∧ r.slot = le p 0 1 ∧ r.share = le p 2 2 ∧ r.steps = le p 4 4 ∧ r.rate = le p 8 4 ∧ r.done = 0 ∧
      r.first = nextTick s.u + 1 ∧ r.base = base ∧ t = { s with u := { s.u with mbx := t.u.mbx, temper := t.u.temper } }) ∧
  (∀ (s : State) (mb : Fin 64) (p : Bytes), heard s.u mb 0x0902 p → le p 0 1 ≤ 3 →
    exec (.temperStatus mb) s = .next (onUnits (fun u => answer mb (ok (leBytes 1 (tgetD u.temper (le p 0 1) {}).state ++ leBytes 3 0
      ++ leBytes 4 (tgetD u.temper (le p 0 1) {}).done ++ leBytes 4 (tgetD u.temper (le p 0 1) {}).loss ++ leBytes 4 0)) u) s)) ∧
  (∀ (s : State) (mb : Fin 64) (p : Bytes), heard s.u mb 0x0903 p → le p 0 1 ≤ 3 → (tgetD s.u.temper (le p 0 1) {}).state = 2 →
    s.u.fw.upd = none →
    exec (.temperCommit mb) s = .next (onUnits (fun u =>
      answer mb (ok (le8 (max (le p 8 8) (u.tick.number + 3 + ceilDiv 524288 (periodNs u))))) { u with
        temper := tset u.temper (le p 0 1) { tgetD u.temper (le p 0 1) {} with
          state := 3, accepted := u.tick.number
          edge := max (le p 8 8) (u.tick.number + 3 + ceilDiv 524288 (periodNs u)) } }) s)) ∧
  (∀ (s : State) (mb : Fin 64) (p : Bytes), heard s.u mb 0x0903 p → le p 0 1 ≤ 3 → (tgetD s.u.temper (le p 0 1) {}).state ≠ 2 →
    exec (.temperCommit mb) s = .next (onUnits (answer mb (bad 8 0 0xFFFF 0)) s)) ∧
  (∀ (s : State) (mb : Fin 64) (p : Bytes), heard s.u mb 0x0904 p → le p 0 1 ≤ 3 →
    ((tgetD s.u.temper (le p 0 1) {}).state = 1 ∨ (tgetD s.u.temper (le p 0 1) {}).state = 2) →
    exec (.temperAbort mb) s = .next (onUnits (fun u => answer mb (ok []) (fwNotice 8 0x0982 0
      [le p 0 1, 0, (tgetD u.temper (le p 0 1) {}).done] { u with temper := tset u.temper (le p 0 1) {} })) s)) ∧
  (∀ (s : State) (n : Fin 4) (h : Bytes), (tgetD s.u.temper n {}).state = 1 →
    (tgetD s.u.temper n {}).done < (tgetD s.u.temper n {}).steps → temperMay s.u (tgetD s.u.temper n {}) = true →
    feedbackRead s (tgetD s.u.temper n {}).buf 0 64 = some (h, false) →
    (∀ e, e < le h 6 2 → ∃ x, feedbackRead s (tgetD s.u.temper n {}).buf (64 + (64 + 2 * (tdecl (tgetD s.u.temper n {}).decl).k)
      * (((tgetD s.u.temper n {}).done * le h 6 2 + e) % max (le h 8 4) 1)) (64 + 2 * (tdecl (tgetD s.u.temper n {}).decl).k)
        = some (x, false)) →
    ∃ t, exec (.temperStep { run := n }) s = .next t ∧ (tgetD t.u.temper n {}).done = (tgetD s.u.temper n {}).done + 1 ∧
      (tgetD t.u.temper n {}).state = 1 ∧ (tgetD t.u.temper n {}).decl = (tgetD s.u.temper n {}).decl ∧
      (∀ k, k ≠ n.val → tget t.u.temper k = tget s.u.temper k) ∧
      t = { s with u := { s.u with temper := t.u.temper, freeIx := t.u.freeIx } }) ∧
  (∀ (s : State) (n : Fin 4), (tgetD s.u.temper n {}).state = 1 → (tgetD s.u.temper n {}).done < (tgetD s.u.temper n {}).steps →
    temperMay s.u (tgetD s.u.temper n {}) = true → feedbackRead s (tgetD s.u.temper n {}).buf 0 64 = none →
    exec (.temperStep { run := n }) s = .next (onUnits (fun u => fwNotice 8 0x0982 0 [n.val, 5, (tgetD u.temper n.val {}).done] { u with
      temper := tset u.temper n.val {} }) s)) ∧
  (∀ (s : State) (n : Fin 4) (h : Bytes), (tgetD s.u.temper n {}).state = 1 →
    (tgetD s.u.temper n {}).done < (tgetD s.u.temper n {}).steps → temperMay s.u (tgetD s.u.temper n {}) = true →
    feedbackRead s (tgetD s.u.temper n {}).buf 0 64 = some (h, true) →
    (∀ e, e < le h 6 2 → ∃ x, feedbackRead s (tgetD s.u.temper n {}).buf (64 + (64 + 2 * (tdecl (tgetD s.u.temper n {}).decl).k)
      * (((tgetD s.u.temper n {}).done * le h 6 2 + e) % max (le h 8 4) 1)) (64 + 2 * (tdecl (tgetD s.u.temper n {}).decl).k)
        = some x) →
    exec (.temperStep { run := n }) s = .next (onUnits (fun u => fwNotice 8 0x0982 0 [n.val, 1, (tgetD u.temper n.val {}).done] { u with
      temper := tset u.temper n.val {} }) s)) ∧
  (∀ (s : State) (n : Fin 4), (tgetD s.u.temper n {}).state = 1 → (tgetD s.u.temper n {}).done < (tgetD s.u.temper n {}).steps →
    temperMay s.u (tgetD s.u.temper n {}) = true →
    exec (.temperStep { run := n, cut := true }) s = .next (onUnits (fun u => fwNotice 8 0x0982 0
      [n.val, 2, (tgetD u.temper n.val {}).done] { u with temper := tset u.temper n.val {} }) s)) ∧
  (∀ (s : State) (x : StepRun), temperMay s.u (tgetD s.u.temper x.run {}) = false → exec (.temperStep x) s = .next s) ∧
  (∀ (s : State) (n : Fin 4), (tgetD s.u.temper n {}).state = 1 → (tgetD s.u.temper n {}).steps ≤ (tgetD s.u.temper n {}).done →
    exec (.temperDone n) s = .next (onUnits (fun u => fwNotice 8 0x0981 0
      [n.val, (tgetD u.temper n.val {}).done, (tgetD u.temper n.val {}).loss] { u with
        temper := tset u.temper n.val { tgetD u.temper n.val {} with state := 2 } }) s)) ∧
  (∀ (s : State) (n : Fin 4) (r : Temper) (m : Memory) (base : Nat), tgetD s.u.temper n {} = r → r.state = 3 → r.ready = none →
    r.accepted < s.u.tick.number → onceRuns s.u = true →
    requantise (slotAt s.u r.slot).img (slotAt s.u r.slot).imgLen r = some m →
    t1Fit s.asm s.u (slotAt s.u r.slot).imgLen = some base →
    (tdecl r.decl).nhc * (slotAt s.u r.slot).nrep ≤ r.cores.length + (freeOrder s.asm s.u (slotAt s.u r.slot).dieMask).length →
    ∃ t l, exec (.temperRequantise n) s = .next t ∧ tget t.u.temper n = some { r with ready := some m, shadow := base, loads := l } ∧
      l.length = (tdecl r.decl).nhc * (slotAt s.u r.slot).nrep ∧ t = { s with u := { s.u with temper := t.u.temper } }) ∧
  (∀ (s : State) (n : Fin 4) (r : Temper), tgetD s.u.temper n {} = r → r.state = 3 → r.ready = none →
    r.accepted < s.u.tick.number → onceRuns s.u = true →
    requantise (slotAt s.u r.slot).img (slotAt s.u r.slot).imgLen r = none →
    exec (.temperRequantise n) s = .next (onUnits (fun u => fwNotice 8 0x0982 0 [n.val, 7, r.done] { u with
      temper := tset u.temper n.val { r with state := 2, ready := none, loads := [] } }) s)) ∧
  (∀ (s : State) (n : Fin 4) (r : Temper) (m : Memory), tgetD s.u.temper n {} = r → r.state = 3 → r.ready = some m →
    running s.u = true → r.edge ≤ s.u.tick.number → s.u.tick.lastMark = 6 →
    ∃ t, exec (.temperRebind n) s = .next t ∧ tgetD t.u.temper n {} = {} ∧ (slotAt t.u r.slot).img = m ∧
      (slotAt t.u r.slot).base = r.shadow ∧ (slotAt t.u r.slot).imageId = (slotAt s.u r.slot).imageId / 65536 * 65536 +
        (if 0xFFFF ≤ (slotAt s.u r.slot).commits then 1 else (slotAt s.u r.slot).commits + 1) ∧
      (∀ k, k ≠ r.slot → slotAt t.u k = slotAt s.u k) ∧ t.q = s.q ∧ t.m.t1 = s.m.t1 ∧ t.m.t2 = s.m.t2) ∧
  (∀ (s : State) (n : Fin 4), s.u.tick.lastMark ≠ 6 → exec (.temperRebind n) s = .next s)

/- Invariants. -/
/-- Reset leaves memories in their canonical form and queues within their bounds. -/
def Obligations.ResetStateIsWellFormed : Prop := memsWf State.reset.m = true ∧ queuesWf State.reset.q = true

/-- Every step keeps the memories in their canonical form: addresses strictly rising, no byte listed that reads as unlisted. -/
def Obligations.StepKeepsMemoriesCanonical : Prop :=
  ∀ s t : State, step s = .next t → memsWf s.m = true → memsWf t.m = true

/-- Every step keeps the three queues within the bounds of the primitive: packets of at most 8 words, 64 words in the chain, 4,096
committed (R296, R298), and counters within 48 bits. -/
def Obligations.StepKeepsQueuesWithinBounds : Prop :=
  ∀ s t : State, step s = .next t → queuesWf s.q = true → queuesWf t.q = true

/- Stops. -/
/-- No command of the table is refused, and only two conditions stop the block: a register access beyond the 16 MiB control BAR,
which always does, and a command whose area was written while BUSY = 1 (R17, R314). -/
def Obligations.OnlyTwoConditionsStop : Prop :=
  (∀ (c : Instr) (s : State) (r : Refusal), exec c s ≠ .refused r) ∧
  (∀ (c : Instr) (s : State), exec c s = .fault .outsideBar → ∃ (p : Fin 2) (off w : Nat), 2 ^ 24 ≤ off ∧
    ((∃ v b, c = .regWrite p off w v b) ∨ (∃ v, c = .regAccess p off w v) ∨ (∃ e, c = .rcRead p off e))) ∧
  (∀ (s : State) (p : Fin 2) (off w e : Nat) (v : W64) (b : Bool) (o : Option W64), 2 ^ 24 ≤ off →
    exec (.regWrite p off w v b) s = .fault .outsideBar ∧ exec (.regAccess p off w o) s = .fault .outsideBar ∧
    exec (.rcRead p off e) s = .fault .outsideBar) ∧
  (∀ (c : Instr) (s : State), exec c s = .fault .commandAreaOverwritten → c = .mbxCommandBegin ∧
    ∃ n, nextRung s.u = some n ∧ (tgetD s.u.mbx n {}).touched = true)
end

