-- ==== Sys2Proof/Laws/Table.lean ====
section
/-! SUPPORT. The laws of sparse tables: a read after a write, and the rising order of the indices. -/
namespace Sys2Proof.Machine

variable {α : Type}

@[simp] theorem tget_tset_self (t : Tbl α) (k : Nat) (a : α) : tget (tset t k a) k = some a := by
  induction t with
  | nil => simp [tset, tget]
  | cons e r ih =>
    obtain ⟨i, b⟩ := e
    simp only [tset]
    split
    · simp [tget]
    · split
      · simp [tget]
      · rename_i h; simp [tget, h, ih]

theorem tget_tset_other (t : Tbl α) {k j : Nat} (a : α) (h : j ≠ k) : tget (tset t k a) j = tget t j := by
  induction t with
  | nil => simp [tset, tget, h]
  | cons e r ih =>
    obtain ⟨i, b⟩ := e
    simp only [tset]
    split
    · simp [tget, h]
    · split
      · rename_i hk; subst hk; simp [tget, h]
      · simp only [tget, ih]

@[simp] theorem tgetD_tset_self (t : Tbl α) (k : Nat) (a d : α) : tgetD (tset t k a) k d = a := by
  simp [tgetD]

theorem tgetD_tset_other (t : Tbl α) {k j : Nat} (a d : α) (h : j ≠ k) : tgetD (tset t k a) j d = tgetD t j d := by
  simp [tgetD, tget_tset_other t a h]

/-- A change of a listed entry reads back changed. -/
theorem tgetD_tupd_self (t : Tbl α) (k : Nat) (f : α → α) (d : α) (h : tget t k ≠ none) :
    tgetD (tupd t k f) k d = f (tgetD t k d) := by
  unfold tupd
  cases hk : tget t k with
  | none => exact absurd hk h
  | some a => simp [tgetD, hk]

theorem tget_tupd_other (t : Tbl α) {k j : Nat} (f : α → α) (h : j ≠ k) : tget (tupd t k f) j = tget t j := by
  unfold tupd
  split
  · exact tget_tset_other _ _ h
  · rfl

theorem tgetD_tupd_other (t : Tbl α) {k j : Nat} (f : α → α) (d : α) (h : j ≠ k) :
    tgetD (tupd t k f) j d = tgetD t j d := by
  simp [tgetD, tget_tupd_other t f h]

/-- An entry that reads otherwise than the default is listed. -/
theorem tget_of_tgetD_ne {t : Tbl α} {k : Nat} {d : α} (h : tgetD t k d ≠ d) : tget t k ≠ none := by
  intro hn; exact h (by simp [tgetD, hn])

theorem tset_mem {t : Tbl α} {k : Nat} {a : α} {e : Nat × α} (h : e ∈ tset t k a) : e = (k, a) ∨ e ∈ t := by
  induction t with
  | nil => simpa [tset] using h
  | cons x r ih =>
    obtain ⟨i, b⟩ := x
    simp only [tset] at h
    split at h
    · simpa using h
    · split at h
      · rcases List.mem_cons.mp h with h | h <;> simp [h]
      · rcases List.mem_cons.mp h with h | h
        · simp [h]
        · rcases ih h with h | h <;> simp [h]

/-- A write keeps the indices rising. -/
theorem tsorted_tset {t : Tbl α} (k : Nat) (a : α) (h : Tsorted t = true) : Tsorted (tset t k a) = true := by
  induction t with
  | nil => simp [tset, Tsorted]
  | cons x r ih =>
    obtain ⟨i, b⟩ := x
    simp only [Tsorted, Bool.and_eq_true, List.all_eq_true, decide_eq_true_eq] at h
    obtain ⟨h1, h2⟩ := h
    simp only [tset]
    split
    · rename_i hk
      simp only [Tsorted, List.all_cons, Bool.and_eq_true, List.all_eq_true, decide_eq_true_eq]
      exact ⟨⟨hk, fun p hp => Nat.lt_trans hk (h1 p hp)⟩, h1, h2⟩
    · split
      · rename_i hk; subst hk
        simp only [Tsorted, Bool.and_eq_true, List.all_eq_true, decide_eq_true_eq]
        exact ⟨h1, h2⟩
      · simp only [Tsorted, Bool.and_eq_true, List.all_eq_true, decide_eq_true_eq]
        refine ⟨fun p hp => ?_, ih h2⟩
        rcases tset_mem hp with h | h
        · subst h; simp; omega
        · exact h1 p h

end Sys2Proof.Machine
end

