-- ==== Sys2Proof/Laws/State.lean ====
section
/-! SUPPORT. The state's updates, field by field. -/
namespace Sys2Proof.Machine

variable (f : Units → Units) (s : State) (u : Units)

@[simp] theorem onUnits_u : (onUnits f s).u = f s.u := rfl
@[simp] theorem onUnits_q : (onUnits f s).q = s.q := rfl
@[simp] theorem onUnits_m : (onUnits f s).m = s.m := rfl
@[simp] theorem onUnits_asm : (onUnits f s).asm = s.asm := rfl
@[simp] theorem onUnits_pending : (onUnits f s).pending = s.pending := rfl
theorem onU_eq : onU f s = .next (onUnits f s) := rfl

@[simp] theorem emit_out (o : Out) : (emit o u).out = u.out ++ [o] := rfl
@[simp] theorem schedule_changes (c : Change) : (schedule c u).changes = u.changes ++ [(nextTick u, c)] := rfl
@[simp] theorem coreAt_setCore (k : Nat) (c : CoreSt) : coreAt (setCore k c u) k = c := tgetD_tset_self _ _ _ _
theorem coreAt_setCore_other {k j : Nat} (c : CoreSt) (h : j ≠ k) : coreAt (setCore k c u) j = coreAt u j :=
  tgetD_tset_other _ _ _ h

/- an answer that becomes ready -/
@[simp] theorem answer_blk (n : Nat) (a : Ans) : (answer n a u).blk = u.blk := rfl
@[simp] theorem answer_tick (n : Nat) (a : Ans) : (answer n a u).tick = u.tick := rfl
@[simp] theorem answer_prodN (n : Nat) (a : Ans) : (answer n a u).prodN = u.prodN := rfl
@[simp] theorem answer_prodL (n : Nat) (a : Ans) : (answer n a u).prodL = u.prodL := rfl
@[simp] theorem answer_prodF (n : Nat) (a : Ans) : (answer n a u).prodF = u.prodF := rfl
@[simp] theorem answer_limits (n : Nat) (a : Ans) : (answer n a u).limits = u.limits := rfl
@[simp] theorem answer_pins (n : Nat) (a : Ans) : (answer n a u).pins = u.pins := rfl
@[simp] theorem answer_port0 (n : Nat) (a : Ans) : (answer n a u).port0 = u.port0 := rfl
@[simp] theorem answer_port1 (n : Nat) (a : Ans) : (answer n a u).port1 = u.port1 := rfl
@[simp] theorem answer_cnt (n : Nat) (a : Ans) : (answer n a u).cnt = u.cnt := rfl
@[simp] theorem answer_core (n : Nat) (a : Ans) : (answer n a u).core = u.core := rfl
@[simp] theorem answer_sem (n : Nat) (a : Ans) : (answer n a u).sem = u.sem := rfl
@[simp] theorem answer_semSlot (n : Nat) (a : Ans) : (answer n a u).semSlot = u.semSlot := rfl
@[simp] theorem answer_semClear (n : Nat) (a : Ans) : (answer n a u).semClear = u.semClear := rfl
@[simp] theorem answer_slot (n : Nat) (a : Ans) : (answer n a u).slot = u.slot := rfl
@[simp] theorem answer_svc (n : Nat) (a : Ans) : (answer n a u).svc = u.svc := rfl
@[simp] theorem answer_mat (n : Nat) (a : Ans) : (answer n a u).mat = u.mat := rfl
@[simp] theorem answer_pol (n : Nat) (a : Ans) : (answer n a u).pol = u.pol := rfl
@[simp] theorem answer_ctx (n : Nat) (a : Ans) : (answer n a u).ctx = u.ctx := rfl
@[simp] theorem answer_job (n : Nat) (a : Ans) : (answer n a u).job = u.job := rfl
@[simp] theorem answer_str (n : Nat) (a : Ans) : (answer n a u).str = u.str := rfl
@[simp] theorem answer_tier (n : Nat) (a : Ans) : (answer n a u).tier = u.tier := rfl
@[simp] theorem answer_fab (n : Nat) (a : Ans) : (answer n a u).fab = u.fab := rfl
@[simp] theorem answer_fw (n : Nat) (a : Ans) : (answer n a u).fw = u.fw := rfl
@[simp] theorem answer_ref (n : Nat) (a : Ans) : (answer n a u).ref = u.ref := rfl
@[simp] theorem answer_temper (n : Nat) (a : Ans) : (answer n a u).temper = u.temper := rfl
@[simp] theorem answer_changes (n : Nat) (a : Ans) : (answer n a u).changes = u.changes := rfl
@[simp] theorem answer_round (n : Nat) (a : Ans) : (answer n a u).round = u.round := rfl
@[simp] theorem answer_out (n : Nat) (a : Ans) : (answer n a u).out = u.out := rfl
@[simp] theorem answer_conds (n : Nat) (a : Ans) : (answer n a u).conds = u.conds := rfl
@[simp] theorem answer_freeIx (n : Nat) (a : Ans) : (answer n a u).freeIx = u.freeIx := rfl

/- a command that waits -/
@[simp] theorem await_blk (n : Nat) : (await n u).blk = u.blk := rfl
@[simp] theorem await_tick (n : Nat) : (await n u).tick = u.tick := rfl
@[simp] theorem await_prodN (n : Nat) : (await n u).prodN = u.prodN := rfl
@[simp] theorem await_prodL (n : Nat) : (await n u).prodL = u.prodL := rfl
@[simp] theorem await_prodF (n : Nat) : (await n u).prodF = u.prodF := rfl
@[simp] theorem await_limits (n : Nat) : (await n u).limits = u.limits := rfl
@[simp] theorem await_pins (n : Nat) : (await n u).pins = u.pins := rfl
@[simp] theorem await_port0 (n : Nat) : (await n u).port0 = u.port0 := rfl
@[simp] theorem await_port1 (n : Nat) : (await n u).port1 = u.port1 := rfl
@[simp] theorem await_cnt (n : Nat) : (await n u).cnt = u.cnt := rfl
@[simp] theorem await_core (n : Nat) : (await n u).core = u.core := rfl
@[simp] theorem await_sem (n : Nat) : (await n u).sem = u.sem := rfl
@[simp] theorem await_semSlot (n : Nat) : (await n u).semSlot = u.semSlot := rfl
@[simp] theorem await_semClear (n : Nat) : (await n u).semClear = u.semClear := rfl
@[simp] theorem await_slot (n : Nat) : (await n u).slot = u.slot := rfl
@[simp] theorem await_svc (n : Nat) : (await n u).svc = u.svc := rfl
@[simp] theorem await_mat (n : Nat) : (await n u).mat = u.mat := rfl
@[simp] theorem await_pol (n : Nat) : (await n u).pol = u.pol := rfl
@[simp] theorem await_ctx (n : Nat) : (await n u).ctx = u.ctx := rfl
@[simp] theorem await_job (n : Nat) : (await n u).job = u.job := rfl
@[simp] theorem await_str (n : Nat) : (await n u).str = u.str := rfl
@[simp] theorem await_tier (n : Nat) : (await n u).tier = u.tier := rfl
@[simp] theorem await_fab (n : Nat) : (await n u).fab = u.fab := rfl
@[simp] theorem await_fw (n : Nat) : (await n u).fw = u.fw := rfl
@[simp] theorem await_ref (n : Nat) : (await n u).ref = u.ref := rfl
@[simp] theorem await_temper (n : Nat) : (await n u).temper = u.temper := rfl
@[simp] theorem await_changes (n : Nat) : (await n u).changes = u.changes := rfl
@[simp] theorem await_round (n : Nat) : (await n u).round = u.round := rfl
@[simp] theorem await_out (n : Nat) : (await n u).out = u.out := rfl
@[simp] theorem await_conds (n : Nat) : (await n u).conds = u.conds := rfl
@[simp] theorem await_freeIx (n : Nat) : (await n u).freeIx = u.freeIx := rfl

/- what is put on an interface -/
@[simp] theorem emit_blk (o : Out) : (emit o u).blk = u.blk := rfl
@[simp] theorem emit_tick (o : Out) : (emit o u).tick = u.tick := rfl
@[simp] theorem emit_prodN (o : Out) : (emit o u).prodN = u.prodN := rfl
@[simp] theorem emit_prodL (o : Out) : (emit o u).prodL = u.prodL := rfl
@[simp] theorem emit_prodF (o : Out) : (emit o u).prodF = u.prodF := rfl
@[simp] theorem emit_limits (o : Out) : (emit o u).limits = u.limits := rfl
@[simp] theorem emit_mbx (o : Out) : (emit o u).mbx = u.mbx := rfl
@[simp] theorem emit_pins (o : Out) : (emit o u).pins = u.pins := rfl
@[simp] theorem emit_port0 (o : Out) : (emit o u).port0 = u.port0 := rfl
@[simp] theorem emit_port1 (o : Out) : (emit o u).port1 = u.port1 := rfl
@[simp] theorem emit_cnt (o : Out) : (emit o u).cnt = u.cnt := rfl
@[simp] theorem emit_core (o : Out) : (emit o u).core = u.core := rfl
@[simp] theorem emit_sem (o : Out) : (emit o u).sem = u.sem := rfl
@[simp] theorem emit_semSlot (o : Out) : (emit o u).semSlot = u.semSlot := rfl
@[simp] theorem emit_semClear (o : Out) : (emit o u).semClear = u.semClear := rfl
@[simp] theorem emit_slot (o : Out) : (emit o u).slot = u.slot := rfl
@[simp] theorem emit_svc (o : Out) : (emit o u).svc = u.svc := rfl
@[simp] theorem emit_mat (o : Out) : (emit o u).mat = u.mat := rfl
@[simp] theorem emit_pol (o : Out) : (emit o u).pol = u.pol := rfl
@[simp] theorem emit_ctx (o : Out) : (emit o u).ctx = u.ctx := rfl
@[simp] theorem emit_job (o : Out) : (emit o u).job = u.job := rfl
@[simp] theorem emit_str (o : Out) : (emit o u).str = u.str := rfl
@[simp] theorem emit_tier (o : Out) : (emit o u).tier = u.tier := rfl
@[simp] theorem emit_fab (o : Out) : (emit o u).fab = u.fab := rfl
@[simp] theorem emit_fw (o : Out) : (emit o u).fw = u.fw := rfl
@[simp] theorem emit_ref (o : Out) : (emit o u).ref = u.ref := rfl
@[simp] theorem emit_temper (o : Out) : (emit o u).temper = u.temper := rfl
@[simp] theorem emit_changes (o : Out) : (emit o u).changes = u.changes := rfl
@[simp] theorem emit_round (o : Out) : (emit o u).round = u.round := rfl
@[simp] theorem emit_conds (o : Out) : (emit o u).conds = u.conds := rfl
@[simp] theorem emit_freeIx (o : Out) : (emit o u).freeIx = u.freeIx := rfl

/- a change accepted for an edge -/
@[simp] theorem schedule_blk (c : Change) : (schedule c u).blk = u.blk := rfl
@[simp] theorem schedule_tick (c : Change) : (schedule c u).tick = u.tick := rfl
@[simp] theorem schedule_prodN (c : Change) : (schedule c u).prodN = u.prodN := rfl
@[simp] theorem schedule_prodL (c : Change) : (schedule c u).prodL = u.prodL := rfl
@[simp] theorem schedule_prodF (c : Change) : (schedule c u).prodF = u.prodF := rfl
@[simp] theorem schedule_limits (c : Change) : (schedule c u).limits = u.limits := rfl
@[simp] theorem schedule_mbx (c : Change) : (schedule c u).mbx = u.mbx := rfl
@[simp] theorem schedule_pins (c : Change) : (schedule c u).pins = u.pins := rfl
@[simp] theorem schedule_port0 (c : Change) : (schedule c u).port0 = u.port0 := rfl
@[simp] theorem schedule_port1 (c : Change) : (schedule c u).port1 = u.port1 := rfl
@[simp] theorem schedule_cnt (c : Change) : (schedule c u).cnt = u.cnt := rfl
@[simp] theorem schedule_core (c : Change) : (schedule c u).core = u.core := rfl
@[simp] theorem schedule_sem (c : Change) : (schedule c u).sem = u.sem := rfl
@[simp] theorem schedule_semSlot (c : Change) : (schedule c u).semSlot = u.semSlot := rfl
@[simp] theorem schedule_semClear (c : Change) : (schedule c u).semClear = u.semClear := rfl
@[simp] theorem schedule_slot (c : Change) : (schedule c u).slot = u.slot := rfl
@[simp] theorem schedule_svc (c : Change) : (schedule c u).svc = u.svc := rfl
@[simp] theorem schedule_mat (c : Change) : (schedule c u).mat = u.mat := rfl
@[simp] theorem schedule_pol (c : Change) : (schedule c u).pol = u.pol := rfl
@[simp] theorem schedule_ctx (c : Change) : (schedule c u).ctx = u.ctx := rfl
@[simp] theorem schedule_job (c : Change) : (schedule c u).job = u.job := rfl
@[simp] theorem schedule_str (c : Change) : (schedule c u).str = u.str := rfl
@[simp] theorem schedule_tier (c : Change) : (schedule c u).tier = u.tier := rfl
@[simp] theorem schedule_fab (c : Change) : (schedule c u).fab = u.fab := rfl
@[simp] theorem schedule_fw (c : Change) : (schedule c u).fw = u.fw := rfl
@[simp] theorem schedule_ref (c : Change) : (schedule c u).ref = u.ref := rfl
@[simp] theorem schedule_temper (c : Change) : (schedule c u).temper = u.temper := rfl
@[simp] theorem schedule_round (c : Change) : (schedule c u).round = u.round := rfl
@[simp] theorem schedule_out (c : Change) : (schedule c u).out = u.out := rfl
@[simp] theorem schedule_conds (c : Change) : (schedule c u).conds = u.conds := rfl
@[simp] theorem schedule_freeIx (c : Change) : (schedule c u).freeIx = u.freeIx := rfl

/- a core replaced -/
@[simp] theorem setCore_blk (k : Nat) (c : CoreSt) : (setCore k c u).blk = u.blk := rfl
@[simp] theorem setCore_tick (k : Nat) (c : CoreSt) : (setCore k c u).tick = u.tick := rfl
@[simp] theorem setCore_prodN (k : Nat) (c : CoreSt) : (setCore k c u).prodN = u.prodN := rfl
@[simp] theorem setCore_prodL (k : Nat) (c : CoreSt) : (setCore k c u).prodL = u.prodL := rfl
@[simp] theorem setCore_prodF (k : Nat) (c : CoreSt) : (setCore k c u).prodF = u.prodF := rfl
@[simp] theorem setCore_limits (k : Nat) (c : CoreSt) : (setCore k c u).limits = u.limits := rfl
@[simp] theorem setCore_mbx (k : Nat) (c : CoreSt) : (setCore k c u).mbx = u.mbx := rfl
@[simp] theorem setCore_pins (k : Nat) (c : CoreSt) : (setCore k c u).pins = u.pins := rfl
@[simp] theorem setCore_port0 (k : Nat) (c : CoreSt) : (setCore k c u).port0 = u.port0 := rfl
@[simp] theorem setCore_port1 (k : Nat) (c : CoreSt) : (setCore k c u).port1 = u.port1 := rfl
@[simp] theorem setCore_cnt (k : Nat) (c : CoreSt) : (setCore k c u).cnt = u.cnt := rfl
@[simp] theorem setCore_sem (k : Nat) (c : CoreSt) : (setCore k c u).sem = u.sem := rfl
@[simp] theorem setCore_semSlot (k : Nat) (c : CoreSt) : (setCore k c u).semSlot = u.semSlot := rfl
@[simp] theorem setCore_semClear (k : Nat) (c : CoreSt) : (setCore k c u).semClear = u.semClear := rfl
@[simp] theorem setCore_slot (k : Nat) (c : CoreSt) : (setCore k c u).slot = u.slot := rfl
@[simp] theorem setCore_svc (k : Nat) (c : CoreSt) : (setCore k c u).svc = u.svc := rfl
@[simp] theorem setCore_mat (k : Nat) (c : CoreSt) : (setCore k c u).mat = u.mat := rfl
@[simp] theorem setCore_pol (k : Nat) (c : CoreSt) : (setCore k c u).pol = u.pol := rfl
@[simp] theorem setCore_ctx (k : Nat) (c : CoreSt) : (setCore k c u).ctx = u.ctx := rfl
@[simp] theorem setCore_job (k : Nat) (c : CoreSt) : (setCore k c u).job = u.job := rfl
@[simp] theorem setCore_str (k : Nat) (c : CoreSt) : (setCore k c u).str = u.str := rfl
@[simp] theorem setCore_tier (k : Nat) (c : CoreSt) : (setCore k c u).tier = u.tier := rfl
@[simp] theorem setCore_fab (k : Nat) (c : CoreSt) : (setCore k c u).fab = u.fab := rfl
@[simp] theorem setCore_fw (k : Nat) (c : CoreSt) : (setCore k c u).fw = u.fw := rfl
@[simp] theorem setCore_ref (k : Nat) (c : CoreSt) : (setCore k c u).ref = u.ref := rfl
@[simp] theorem setCore_temper (k : Nat) (c : CoreSt) : (setCore k c u).temper = u.temper := rfl
@[simp] theorem setCore_changes (k : Nat) (c : CoreSt) : (setCore k c u).changes = u.changes := rfl
@[simp] theorem setCore_round (k : Nat) (c : CoreSt) : (setCore k c u).round = u.round := rfl
@[simp] theorem setCore_out (k : Nat) (c : CoreSt) : (setCore k c u).out = u.out := rfl
@[simp] theorem setCore_conds (k : Nat) (c : CoreSt) : (setCore k c u).conds = u.conds := rfl
@[simp] theorem setCore_freeIx (k : Nat) (c : CoreSt) : (setCore k c u).freeIx = u.freeIx := rfl

end Sys2Proof.Machine
end

