-- ==== Sys2Proof/Laws/Core.lean ====
section
/-! SUPPORT. Cores: one core replaced, an instruction that never stalls, a core with nothing to start. -/
namespace Sys2Proof.Machine

/-- The last of two writes of one index stands. -/
theorem tset_tset {α : Type} (t : Tbl α) (k : Nat) (a b : α) : tset (tset t k a) k b = tset t k b := by
  induction t with
  | nil => simp [tset]
  | cons e r ih =>
    obtain ⟨i, c⟩ := e
    simp only [tset]
    split
    · simp [tset]
    · split
      · simp [tset]
      · rename_i h1 h2; simp [tset, h1, h2, ih]

@[simp] theorem setCore_setCore (k : Nat) (a b : CoreSt) (u : Units) : setCore k b (setCore k a u) = setCore k b u := by
  simp [setCore, tset_tset]
@[simp] theorem modCore_setCore (k : Nat) (a : CoreSt) (f : CoreSt → CoreSt) (u : Units) :
    modCore k f (setCore k a u) = setCore k (f a) u := by simp [modCore]
theorem modCore_modCore (k : Nat) (f g : CoreSt → CoreSt) (u : Units) :
    modCore k g (modCore k f u) = modCore k (fun c => g (f c)) u := by simp [modCore]
@[simp] theorem coreAt_modCore (k : Nat) (f : CoreSt → CoreSt) (u : Units) : coreAt (modCore k f u) k = f (coreAt u k) := by
  simp [modCore]
theorem coreAt_modCore_other {k j : Nat} (f : CoreSt → CoreSt) (u : Units) (h : j ≠ k) :
    coreAt (modCore k f u) j = coreAt u j := coreAt_setCore_other _ _ h

/-- Replacing one core leaves every other. -/
theorem onlyCore_setCore (s : State) (k : Nat) (x : CoreSt) : onlyCore s (onUnits (setCore k x) s) k x :=
  ⟨rfl, by simp, fun _ h => coreAt_setCore_other _ _ h⟩

/-- What an instruction that changes its core alone does where it may be dispatched: its effect, then the next word. -/
theorem dispatchCore_may {c : CoreId} {s : State} (f : CoreSt → CoreSt) (h : mayDispatch s c = true) :
    dispatchCore c f s = onUnits (setCore (coreKey c) (advPc 0 (f (coreAt s.u (coreKey c))))) s := by
  simp [mayDispatch] at h
  simp [dispatchCore, dispatchNow, h, onUnits, modCore]
/-- Where it may not, nothing. -/
theorem dispatchCore_not {c : CoreId} {s : State} (f : CoreSt → CoreSt) (h : mayDispatch s c = false) :
    dispatchCore c f s = s := by
  unfold mayDispatch at h
  unfold dispatchCore dispatchNow
  rw [if_pos]
  cases hl : coreLive s.asm s.u c <;> cases hs : (coreAt s.u (coreKey c)).stalled <;> simp_all

theorem foldl_still {α : Type} {g : α → α} {s : α} (h : g s = s) (l : List Nat) : l.foldl (fun s _ => g s) s = s := by
  induction l with
  | nil => rfl
  | cons a r ih => simpa [h] using ih

/-- On a core whose queues are empty nothing starts. -/
theorem kick_quiet {k : Nat} {s : State} (h : quietCore (coreAt s.u k)) : kick k s = s := by
  obtain ⟨h1, h2, h3, _, h4, h5⟩ := h
  have m : startMx k s = s := by simp [startMx, h3]
  have d : startD k s = s := by simp [startD, h4]
  have q : startQz k s = s := by simp [startQz, h1]
  have f : startCf k s = s := by simp [startCf, h2]
  have e : onUnits (startH k) s = s := by simp [onUnits, startH, h5]
  simp [kick, foldl_still m, q, f, foldl_still d, e]

/-- Moving on by a word leaves the queues. -/
theorem quiet_advPc {x : CoreSt} (n : Nat) (h : quietCore x) : quietCore (advPc n x) := h

/-- With nothing in queue V the vector unit does nothing. -/
theorem vAdvance_empty {k : Nat} {s : State} (h : (coreAt s.u k).qv = []) : vAdvance k s = s := by simp [vAdvance, h]

end Sys2Proof.Machine
end

