-- ==== Sys2Proof/Laws/Memory.lean ====
section
/-! SUPPORT. The laws of byte memories: every operation keeps the canonical form, a read after a write, a byte outside the
bytes written. -/
namespace Sys2Proof.Machine

theorem mget_mput_self (m : Memory) (a : Nat) (v : Byte) (h : m.wf = true) : mget (mput m a v) a = v := by
  induction m with
  | nil => by_cases hv : v = memDefault <;> simp [mput, mget, hv]
  | cons c r ih =>
    obtain ⟨i, b⟩ := c
    simp only [Memory.wf, Bool.and_eq_true, List.all_eq_true, decide_eq_true_eq] at h
    obtain ⟨⟨hb, hr⟩, hw⟩ := h
    have gone : ∀ (l : Memory) (x : Nat), (∀ e ∈ l, x < e.1) → mget l x = memDefault := by
      intro l x hl
      induction l with
      | nil => rfl
      | cons e t iht =>
        obtain ⟨j, w⟩ := e
        have := hl (j, w) (by simp)
        simp only [mget]
        rw [if_neg (by simp at this; omega)]
        exact iht (fun e he => hl e (by simp [he]))
    simp only [mput]
    split
    · rename_i hlt
      by_cases hv : v = memDefault
      · simp only [hv, ↓reduceIte]
        apply gone
        intro e he
        rcases List.mem_cons.mp he with he | he
        · subst he; exact hlt
        · have := hr e he; omega
      · simp [hv, mget]
    · split
      · rename_i hi; subst hi
        by_cases hv : v = memDefault
        · simp only [hv, ↓reduceIte]; exact gone r a (fun e he => by simpa using hr e he)
        · simp [hv, mget]
      · rename_i hne
        simp only [mget, if_neg hne]
        exact ih hw

theorem mget_mput_other (m : Memory) {a x : Nat} (v : Byte) (h : x ≠ a) : mget (mput m a v) x = mget m x := by
  induction m with
  | nil => by_cases hv : v = memDefault <;> simp [mput, mget, hv, h]
  | cons c r ih =>
    obtain ⟨i, b⟩ := c
    simp only [mput]
    split
    · by_cases hv : v = memDefault <;> simp [hv, mget, h]
    · split
      · rename_i hi; subst hi
        by_cases hv : v = memDefault <;> simp [hv, mget, h]
      · simp only [mget, ih]

theorem mput_mem {m : Memory} {a : Nat} {v : Byte} {e : Host.Cell} (h : e ∈ mput m a v) : e = (a, v) ∨ e ∈ m := by
  induction m with
  | nil => by_cases hv : v = memDefault <;> simp_all [mput]
  | cons c r ih =>
    obtain ⟨i, b⟩ := c
    simp only [mput] at h
    split at h
    · by_cases hv : v = memDefault <;> simp_all
    · split at h
      · by_cases hv : v = memDefault <;> simp_all
        rcases h with h | h <;> simp [h]
      · rcases List.mem_cons.mp h with h | h
        · simp [h]
        · rcases ih h with h | h <;> simp [h]

/-- Writing one byte keeps the canonical form. -/
theorem mput_wf {m : Memory} (a : Nat) (v : Byte) (h : m.wf = true) : (mput m a v).wf = true := by
  induction m with
  | nil => by_cases hv : v = memDefault <;> simp [mput, Memory.wf, hv]
  | cons c r ih =>
    obtain ⟨i, b⟩ := c
    have h0 := h
    simp only [Memory.wf, Bool.and_eq_true, List.all_eq_true, decide_eq_true_eq] at h
    obtain ⟨⟨hb, hr⟩, hw⟩ := h
    simp only [mput]
    split
    · rename_i hlt
      by_cases hv : v = memDefault
      · simpa [hv] using h0
      · simp only [if_neg hv]
        simp only [Memory.wf, Bool.and_eq_true, List.all_eq_true, decide_eq_true_eq, List.mem_cons]
        refine ⟨⟨by simpa using hv, ?_⟩, ⟨hb, hr⟩, hw⟩
        rintro e (he | he)
        · subst he; exact hlt
        · have := hr e he; omega
    · split
      · rename_i hi; subst hi
        by_cases hv : v = memDefault
        · simp only [hv, ↓reduceIte]; exact hw
        · simp only [if_neg hv, Memory.wf, Bool.and_eq_true, List.all_eq_true, decide_eq_true_eq]
          exact ⟨⟨by simpa using hv, hr⟩, hw⟩
      · simp only [Memory.wf, Bool.and_eq_true, List.all_eq_true, decide_eq_true_eq]
        refine ⟨⟨hb, fun e he => ?_⟩, ih hw⟩
        rcases mput_mem he with he | he
        · subst he; simp; omega
        · exact hr e he

/-- Writing a run of bytes keeps the canonical form. -/
theorem mwrite_wf {m : Memory} (a : Nat) (l : Bytes) (h : m.wf = true) : (mwrite m a l).wf = true := by
  induction l generalizing m a with
  | nil => exact h
  | cons b r ih => exact ih _ (mput_wf a b h)

/-- A byte outside the run written reads as before. -/
theorem mget_mwrite_other (m : Memory) {a x : Nat} (l : Bytes) (h : x < a ∨ a + l.length ≤ x) :
    mget (mwrite m a l) x = mget m x := by
  induction l generalizing m a with
  | nil => rfl
  | cons b r ih =>
    simp only [List.length_cons] at h
    simp only [mwrite]
    rw [ih _ (by omega), mget_mput_other _ _ (by omega)]

/-- A byte of the run written reads back. -/
theorem mget_mwrite_self {m : Memory} (a i : Nat) (l : Bytes) (h : m.wf = true) (hi : i < l.length) :
    mget (mwrite m a l) (a + i) = l[i] := by
  induction l generalizing m a i with
  | nil => simp at hi
  | cons b r ih =>
    simp only [mwrite]
    cases i with
    | zero => rw [mget_mwrite_other _ _ (by omega)]; simpa using mget_mput_self m a b h
    | succ j =>
      have := ih (a + 1) j (mput_wf a b h) (by simpa using hi)
      simpa [Nat.add_assoc, Nat.add_comm 1 j] using this

/-- A run written reads back as it was written. -/
theorem mread_mwrite_self {m : Memory} (a : Nat) (l : Bytes) (h : m.wf = true) : mread (mwrite m a l) a l.length = l := by
  induction l generalizing m a with
  | nil => rfl
  | cons b r ih =>
    simp only [List.length_cons, mread, mwrite]
    rw [ih (a + 1) (mput_wf a b h), mget_mwrite_other _ _ (by omega), mget_mput_self m a b h]

@[simp] theorem mread_length (m : Memory) (a n : Nat) : (mread m a n).length = n := by
  induction n generalizing a with
  | zero => rfl
  | succ n ih => simp [mread, ih]

theorem filter_wf (p : Host.Cell → Bool) {m : Memory} (h : m.wf = true) : Memory.wf (m.filter p) = true := by
  induction m with
  | nil => rfl
  | cons c r ih =>
    obtain ⟨i, b⟩ := c
    simp only [Memory.wf, Bool.and_eq_true, List.all_eq_true, decide_eq_true_eq] at h
    simp only [List.filter_cons]
    split
    · simp only [Memory.wf, Bool.and_eq_true, List.all_eq_true, decide_eq_true_eq]
      exact ⟨⟨h.1.1, fun e he => h.1.2 e ((List.mem_filter.mp he).1)⟩, ih h.2⟩
    · exact ih h.2

/-- Clearing a range keeps the canonical form. -/
theorem mclear_wf {m : Memory} (a n : Nat) (h : m.wf = true) : (mclear m a n).wf = true := filter_wf _ h

/-- Copying a range keeps the canonical form. -/
theorem mcopy_wf {m : Memory} (src : Memory) (a b n : Nat) (h : m.wf = true) : (mcopy m src a b n).wf = true := by
  unfold mcopy
  generalize List.filter _ src = l
  have : ∀ (l : Memory) (k : Memory), k.wf = true →
      Memory.wf (l.foldl (fun m c => mput m (a + (c.1 - b)) c.2) k) = true := by
    intro l
    induction l with
    | nil => intro k hk; exact hk
    | cons c r ih => intro k hk; exact ih _ (mput_wf _ _ hk)
  exact this l _ (mclear_wf a n h)

end Sys2Proof.Machine
end

