-- ==== Sys2Proof/Laws/Message.lean ====
section
/-! SUPPORT. What a message can do: the one lemma for each of its two shapes, and what its answer leaves. -/
namespace Sys2Proof.Machine

/-- What a message does once it is heard: its own effect, then its answer or its wait. -/
def heardEffect (n : Nat) (r : Units × Option Ans) : Units :=
  match r.2 with
  | some a => answer n a r.1
  | none => await n r.1

theorem message_heard {op n : Nat} {f : Bytes → Units → Units × Option Ans} {u : Units} {p : Bytes}
    (h : heard u n op p) : message op n f u = heardEffect n (f p u) := by
  obtain ⟨h1, h2⟩ := h
  simp only [message, h1]
  cases hl : layoutOf op p with
  | none => simp [hl] at h2
  | some l =>
    obtain ⟨k, b, nm⟩ := l
    simp only [hl] at h2
    simp only [h2, heardEffect]
    all_goals (cases (f p u).2 <;> rfl)

/-- What a message over the memories does once it is heard. -/
def heardEffectS (n : Nat) (r : State × Option Ans) : State :=
  match r.2 with
  | some a => onUnits (answer n a) r.1
  | none => onUnits (await n) r.1

theorem messageS_heard {op n : Nat} {f : Bytes → State → State × Option Ans} {s : State} {p : Bytes}
    (h : heard s.u n op p) : messageS op n f s = heardEffectS n (f p s) := by
  obtain ⟨h1, h2⟩ := h
  simp only [messageS, h1]
  cases hl : layoutOf op p with
  | none => simp [hl] at h2
  | some l =>
    obtain ⟨k, b, nm⟩ := l
    simp only [hl] at h2
    simp only [h2, heardEffectS, onUnits]
    all_goals (cases (f p s).2 <;> rfl)

/-- A command begun has its mailbox listed. -/
theorem heard_listed {u : Units} {n op : Nat} {p : Bytes} (h : heard u n op p) : tget u.mbx n ≠ none := by
  have h1 := h.1
  unfold begunWith at h1
  simp only at h1
  split at h1
  · rename_i hc
    apply tget_of_tgetD_ne (d := {})
    intro he
    rw [he] at hc
    exact absurd hc.2.1 (by decide)
  · simp at h1

/-- A message not heard on a mailbox does nothing. -/
theorem message_unheard {op n : Nat} {f : Bytes → Units → Units × Option Ans} {u : Units}
    (h : begunWith u n op = none) : message op n f u = u := by
  simp [message, h]

/-- An answer made ready on a listed mailbox reads back. -/
theorem answer_answered {n : Nat} (a : Ans) {u : Units} (h : tget u.mbx n ≠ none) :
    (tgetD (answer n a u).mbx n {}).phase = .ready ∧ (tgetD (answer n a u).mbx n {}).ans = some a := by
  simp [answer, tgetD_tupd_self _ _ _ _ h]

end Sys2Proof.Machine
end

