-- ==== Sys2Proof/Laws/Ops.lean ====
section
/-! SUPPORT. What the shared operations can change: counters, vectors, notices, tray service, errors. -/
namespace Sys2Proof.Machine

/-- Counters and the ports alone: what a lost notice may touch beside its producers' side. -/
def noticeFrame (u v : Units) : Prop :=
  v = { u with prodN := v.prodN, cnt := { u.cnt with die := v.cnt.die }, out := v.out, port0 := v.port0, port1 := v.port1 }

theorem noticeFrame_refl (u : Units) : noticeFrame u u := rfl
theorem noticeFrame_trans {u v w : Units} (h : noticeFrame u v) (k : noticeFrame v w) : noticeFrame u w := by
  unfold noticeFrame at *
  rw [k, h]

/-- A die counter's count changes that die's counters alone. -/
theorem dieBump_eq (d n k : Nat) (u : Units) :
    dieBump d n k u = { u with cnt := { u.cnt with die := (dieBump d n k u).cnt.die } } := by
  unfold dieBump; split <;> rfl
/-- A block counter's count changes the block counters alone. -/
theorem blkBump_eq (n k : Nat) (u : Units) :
    blkBump n k u = { u with cnt := { u.cnt with blk := (blkBump n k u).cnt.blk } } := by
  unfold blkBump; split <;> rfl
/-- A vector touches the outputs and the ports alone. -/
theorem msix_eq (k : Nat) (u : Units) :
    msix k u = { u with out := (msix k u).out, port0 := (msix k u).port0, port1 := (msix k u).port1 } := by
  unfold msix
  simp only
  split
  · rfl
  · split <;> rfl

theorem noticeFrame_dieBump (d n k : Nat) (u : Units) : noticeFrame u (dieBump d n k u) := by
  unfold noticeFrame dieBump; split <;> rfl
theorem noticeFrame_msix (k : Nat) (u : Units) : noticeFrame u (msix k u) := by
  unfold noticeFrame msix
  simp only
  split
  · rfl
  · split <;> rfl

/-- A notice touches its producers' side, and, where it is lost, a counter, the outputs and the ports. -/
theorem notice_frame (p c x : Nat) (a : List Nat) (u : Units) : noticeFrame u (notice p c x a u) := by
  unfold notice
  simp only
  split
  · rfl
  · have h : noticeFrame u (dieBump 56 0x0307 1 { u with prodN := prodLost u.prodN (sevOf c) }) :=
      noticeFrame_trans (v := { u with prodN := prodLost u.prodN (sevOf c) }) rfl (noticeFrame_dieBump _ _ _ _)
    split
    · refine noticeFrame_trans h (noticeFrame_trans ?_ (noticeFrame_msix 1 _))
      rfl
    · exact h
theorem fwNotice_frame (r c x : Nat) (a : List Nat) (u : Units) : noticeFrame u (fwNotice r c x a u) := notice_frame _ _ _ _ _

/-- What notices leave as it is. -/
theorem noticeFrame_keeps {u v : Units} (h : noticeFrame u v) : v.tick = u.tick ∧ v.fw = u.fw ∧ v.svc = u.svc ∧
    v.mbx = u.mbx ∧ v.core = u.core ∧ v.slot = u.slot ∧ v.mat = u.mat ∧ v.str = u.str ∧ v.tier = u.tier ∧ v.job = u.job ∧
    v.ctx = u.ctx ∧ v.blk = u.blk ∧ v.temper = u.temper ∧ v.pol = u.pol ∧ v.pins = u.pins ∧ v.fab = u.fab := by
  unfold noticeFrame at h
  rw [h]
  exact ⟨rfl, rfl, rfl, rfl, rfl, rfl, rfl, rfl, rfl, rfl, rfl, rfl, rfl, rfl, rfl, rfl⟩

/-- TRAY_SERVICE touches its causes beside what a notice touches. -/
theorem trayService_frame (c : Nat) (u : Units) :
    noticeFrame { u with svc := { u.svc with causes := (trayService c u).svc.causes } } (trayService c u) := by
  have hs := (noticeFrame_keeps (fwNotice_frame 8 0x0A0B 0 [c]
    { u with svc := { u.svc with causes := u.svc.causes ++ [c] } })).2.2.1
  unfold trayService
  split
  · rfl
  · rw [hs]; exact fwNotice_frame _ _ _ _ _

/-- What each of a list's changes keeps, the list keeps. -/
theorem forAll_keeps {α : Type} (P : Units → Prop) (l : List α) (f : α → Units → Units) (u : Units) (h : P u)
    (hf : ∀ a u, P u → P (f a u)) : P (forAll l f u) := by
  unfold forAll
  induction l generalizing u with
  | nil => exact h
  | cons a r ih => exact ih _ (hf a u h)

/-- Time that passes touches time and what counts it. -/
theorem advTo_eq (t : Nat) (u : Units) : advTo t u = { u with
    tick := { u.tick with time := (advTo t u).tick.time }
    svc := { u.svc with poweredNs := (advTo t u).svc.poweredNs }
    cnt := { u.cnt with die := (advTo t u).cnt.die } } := by
  unfold advTo; split <;> rfl

end Sys2Proof.Machine
end

