-- ==== Sys2Proof/Laws/Queue.lean ====
section
/-! SUPPORT. The queue primitive (10): every operation keeps its bounds. -/
namespace Sys2Proof.Machine

/-- Words of committed packets. -/
def cwords (l : List CPkt) : Nat := (l.map (fun c => c.words.length)).sum

theorem satN_lt (w n : Nat) : satN w n < 2 ^ w := by
  have : 0 < 2 ^ w := Nat.pow_pos (by decide)
  unfold satN; omega

/-- The room check leaves a suffix with eight words free, or nothing (R298). -/
theorem qRoom_fits (l : List CPkt) : cwords (qRoom l).1 + 8 ≤ 4096 := by
  induction l with
  | nil => decide
  | cons c r ih =>
    simp only [qRoom]
    split
    · rename_i h; exact h
    · exact ih

/-- What the room check keeps is the newest packets, in order. -/
theorem qRoom_suffix (l : List CPkt) : ∃ lost, l = lost ++ (qRoom l).1 ∧ (qRoom l).2 = lost.map (·.sev) := by
  induction l with
  | nil => exact ⟨[], rfl, rfl⟩
  | cons c r ih =>
    simp only [qRoom]
    split
    · exact ⟨[], rfl, rfl⟩
    · obtain ⟨lost, h1, h2⟩ := ih
      exact ⟨c :: lost, by simpa using h1, by simpa using h2⟩

/-- The parts of the bound of an instance. -/
theorem queueWf_iff (q : QInst) : queueWf q = true ↔
    openFits q = true ∧ (∀ x ∈ q.chain, x.words.length ≤ 8) ∧ chainWords q ≤ 64 ∧ cwords q.committed ≤ 4096 ∧
    q.commits < 2 ^ 32 ∧ q.seqLast < 2 ^ 32 ∧ q.thresh < 2 ^ 13 ∧ q.flushed < 2 ^ 48 ∧ q.rewound < 2 ^ 48 ∧
    q.parErr < 2 ^ 48 ∧ q.eccCorr < 2 ^ 48 ∧ q.eccUnc < 2 ^ 48 := by
  have e : decide (qfill q ≤ 4096) = true ↔ cwords q.committed ≤ 4096 := decide_eq_true_iff
  simp only [queueWf, Bool.and_eq_true, e, List.all_eq_true, decide_eq_true_eq, and_assoc]

/-- The same for the packet in progress. -/
theorem openFits_cons {q : QInst} {x : Pkt} {r : List Pkt} (h : q.chain = x :: r) :
    openFits q = true ↔ (x.out = 0 ∨ cwords q.committed + 8 ≤ 4096) ∧ ∀ y ∈ r, y.out = 0 := by
  have e : decide (qfill q + 8 ≤ 4096) = true ↔ cwords q.committed + 8 ≤ 4096 := decide_eq_true_iff
  simp only [openFits, h, Bool.and_eq_true, Bool.or_eq_true, beq_iff_eq, e, List.all_eq_true]

/-- A queue with no more committed words, and the same chain or none, still has its room. -/
theorem openFits_le {q g : QInst} (h : openFits q = true) (hc : g.chain = q.chain ∨ g.chain = [])
    (hl : cwords g.committed ≤ cwords q.committed) : openFits g = true := by
  cases hg : g.chain with
  | nil => simp [openFits, hg]
  | cons x r =>
    have hq : q.chain = x :: r := by rcases hc with hc | hc <;> simp_all
    rw [openFits_cons hq] at h
    rw [openFits_cons hg]
    exact ⟨h.1.imp id (by omega), h.2⟩

/-- An erased packet takes its words with it. -/
theorem cwords_erase_le (l : List CPkt) (c : CPkt) : cwords (l.erase c) ≤ cwords l := by
  induction l with
  | nil => simp [cwords]
  | cons d r ih =>
    simp only [List.erase_cons]
    split
    · simp [cwords]
    · simp only [cwords, List.map_cons, List.sum_cons] at ih ⊢; omega

/-- A pop keeps the bounds (R300). -/
theorem qPop_wf {q : QInst} {c : CPkt} {g : QInst} (h : queueWf q = true) (hp : qPop q = some (c, g)) : queueWf g = true := by
  unfold qPop at hp
  cases hf : qFront q.committed with
  | none => simp [hf] at hp
  | some d =>
    simp only [hf] at hp
    obtain rfl := congrArg (fun x => x.2) (Option.some.inj hp)
    rw [queueWf_iff] at h ⊢
    obtain ⟨h0, h1, h2, h3, hr⟩ := h
    exact ⟨openFits_le h0 (.inl rfl) (cwords_erase_le _ _), h1, h2, Nat.le_trans (cwords_erase_le _ _) h3, hr⟩

/-- SECDED counts keep the bounds (R297). -/
theorem qEcc_wf {q : QInst} (a b : Nat) (h : queueWf q = true) : queueWf (qEcc q a b) = true := by
  rw [queueWf_iff] at h ⊢
  obtain ⟨h0, h1, h2, h3, h4, h5, h6, h7, h8, h9, _, _⟩ := h
  exact ⟨h0, h1, h2, h3, h4, h5, h6, h7, h8, h9, satN_lt _ _, satN_lt _ _⟩

/-- A flush keeps the bounds (R303). -/
theorem qFlush_wf {q : QInst} (h : queueWf q = true) : queueWf (qFlush q) = true := by
  rw [queueWf_iff] at h ⊢
  obtain ⟨h0, _, _, _, h4, h5, h6, _, h8, h9, h10, h11⟩ := h
  exact ⟨openFits_le h0 (.inr rfl) (by simp [qFlush, cwords]), by simp [qFlush], by simp [qFlush, chainWords],
    by simp [qFlush, cwords], h4, h5, h6, satN_lt _ _, h8, h9, h10, h11⟩

/-- A pop through a port keeps the bounds (R300). -/
theorem qPopPort_wf {q : QInst} (port a b : Nat) (h : queueWf q = true) : queueWf (qPopPort q port a b).1 = true := by
  have put (g : QInst) (b : RBuf) (hg : queueWf g = true) :
      queueWf (if port = 0 then { g with rbuf0 := b } else { g with rbuf1 := b }) = true := by
    split <;> exact hg
  unfold qPopPort
  cases hp : qPop q with
  | none => exact put _ _ h
  | some x => exact put _ _ (qEcc_wf _ _ (qPop_wf h (c := x.1) hp))

/-- A packet that enters the chain has left no word behind. -/
theorem openFits_enter {q g : QInst} {x : Pkt} (h : openFits q = true) (hx : x.out = 0) (hg : g.chain = q.chain ++ [x])
    (hc : g.committed = q.committed) : openFits g = true := by
  cases hq : q.chain with
  | nil => rw [hq] at hg; rw [openFits_cons (x := x) (r := []) (by simpa using hg)]; exact ⟨.inl hx, by simp⟩
  | cons y r =>
    rw [openFits_cons hq] at h
    rw [hq] at hg
    rw [openFits_cons (x := y) (r := r ++ [x]) (by simpa using hg), hc]
    refine ⟨h.1, fun z hz => ?_⟩
    rcases List.mem_append.mp hz with hz | hz
    · exact h.2 z hz
    · simp only [List.mem_singleton] at hz; subst hz; exact hx

/-- A grant keeps the bounds (R293, R294, R296). -/
theorem qGrant_wf {p : Prod} {q : QInst} (h : queueWf q = true) : queueWf (qGrant p q).2 = true := by
  unfold qGrant
  split
  · exact h
  · split
    · exact h
    · rename_i k _ x r _
      rw [queueWf_iff] at h
      obtain ⟨h0, h1, h2, h3, h4, h5, h6, h7, h8, h9⟩ := h
      split
      · rw [queueWf_iff]; exact ⟨h0, h1, h2, h3, h4, h5, h6, h7, satN_lt _ _, h9⟩
      · rename_i hx
        split
        · rename_i hc
          rw [queueWf_iff]
          refine ⟨openFits_enter h0 rfl rfl rfl, ?_, ?_, h3, h4, h5, h6, h7, h8, h9⟩
          · intro y hy
            rcases List.mem_append.mp hy with hy | hy
            · exact h1 y hy
            · simp only [List.mem_singleton] at hy; subst hy; exact Nat.le_of_not_lt hx
          · simpa [chainWords] using hc
        · rw [queueWf_iff]; exact ⟨h0, h1, h2, h3, h4, h5, h6, h7, h8, h9⟩

/-- The room check at SOP leaves eight words free (R298). -/
theorem qMakeRoom_fits (meet : Bool) (l : List CPkt) : cwords (qMakeRoom meet l).1 + 8 ≤ 4096 := by
  unfold qMakeRoom
  split
  · exact qRoom_fits _
  · exact qRoom_fits _

/-- A packet commits with the words it came with. -/
theorem qPacked_length (x : Pkt) (seq : Nat) : (qPacked x seq).words.length = x.words.length := by
  unfold qPacked
  cases x.words <;> simp

/-- What a spill that takes a word out of the front packet leaves committed, with room for the rest of that packet (R298). -/
theorem qSpill_room {q : QInst} {x : Pkt} {r : List Pkt} (n : Nat) (meet : Bool) (hq : q.chain = x :: r)
    (h0 : openFits q = true) (h3 : cwords q.committed ≤ 4096) :
    let room := (if x.out = 0 ∧ n ≠ 0 then qMakeRoom meet q.committed else (q.committed, [])).1
    (cwords room ≤ 4096) ∧ (x.out ≠ 0 ∨ n ≠ 0 → cwords room + 8 ≤ 4096) := by
  have hf := qMakeRoom_fits meet q.committed
  rw [openFits_cons hq] at h0
  dsimp only
  split
  · exact ⟨by omega, fun _ => hf⟩
  · rename_i hn
    exact ⟨h3, fun hx => h0.1.resolve_left (by omega)⟩

/-- A spill keeps the bounds (R296, R298, R299). -/
theorem qSpill_wf {q : QInst} {i : SpillIn} {g : Spilled} (h : queueWf q = true) (hc : qSpill q i = some g) :
    queueWf g.q = true := by
  cases hq : q.chain with
  | nil => simp [qSpill, hq] at hc
  | cons x r =>
    rw [queueWf_iff] at h
    obtain ⟨h0, h1, h2, h3, h4, h5, h6, h7, h8, h9, h10, h11⟩ := h
    have hx : x.words.length ≤ 8 := h1 x (by simp [hq])
    have hr : ∀ y ∈ r, y.words.length ≤ 8 := fun y hy => h1 y (by simp [hq, hy])
    have hz := ((openFits_cons hq).mp h0).2
    have hroom := qSpill_room (min x.words.length (x.out + i.words)) i.meet hq h0 h3
    simp only [chainWords, hq, List.map_cons, List.sum_cons] at h2
    simp only [qSpill, hq] at hc
    split at hc
    · rename_i hlt
      obtain rfl := Option.some.inj hc
      rw [queueWf_iff]
      refine ⟨(openFits_cons rfl).mpr ⟨?_, hz⟩, ?_, ?_, hroom.1, h4, h5, h6, h7, h8, satN_lt _ _, h10, h11⟩
      · by_cases hn : min x.words.length (x.out + i.words) = 0
        · exact .inl hn
        · exact .inr (hroom.2 (.inr hn))
      · intro y hy
        rcases List.mem_cons.mp hy with rfl | hy
        · exact hx
        · exact hr y hy
      · simp only [chainWords, List.map_cons, List.sum_cons]; omega
    · rename_i hge
      obtain rfl := Option.some.inj hc
      rw [queueWf_iff]
      refine ⟨?_, hr, ?_, ?_, Nat.mod_lt _ (by decide), h4, h6, h7, h8, satN_lt _ _, h10, h11⟩
      · cases hr' : r with
        | nil => simp [openFits]
        | cons y l => exact (openFits_cons rfl).mpr ⟨.inl (hz y (by simp [hr'])), fun w hw => hz w (by simp [hr', hw])⟩
      · simp only [chainWords]; omega
      · have hp := hroom.2
        have h1' := hroom.1
        simp only [cwords, List.map_append, List.sum_append, List.map_cons, List.map_nil, List.sum_cons, List.sum_nil,
          qPacked_length] at hp h1' ⊢
        by_cases hn : x.words.length = 0
        · omega
        · have := hp (by omega)
          omega

end Sys2Proof.Machine
end

