-- ==== Sys2Proof/Laws/Stores.lean ====
section
/-! SUPPORT. What writes the memories: each operation keeps their canonical form and leaves the queues. -/
namespace Sys2Proof.Machine

theorem memsWf_iff (m : Mems) : memsWf m = true ↔ m.t1.wf = true ∧ m.t2.wf = true ∧ Tsorted m.sram = true ∧
    ∀ e ∈ m.sram, Memory.wf e.2 = true := by
  simp [memsWf, and_assoc]

theorem tget_mem {α : Type} {t : Tbl α} {k : Nat} {a : α} (h : tget t k = some a) : (k, a) ∈ t := by
  induction t with
  | nil => simp [tget] at h
  | cons e r ih =>
    obtain ⟨i, b⟩ := e
    simp only [tget] at h
    split at h
    · rename_i hk; subst hk; simp_all
    · exact List.mem_cons_of_mem _ (ih h)

/-- A core's SRAM is in the canonical form. -/
theorem sramOf_wf {s : State} (k : Nat) (h : memsWf s.m = true) : (sramOf s k).wf = true := by
  rw [memsWf_iff] at h
  unfold sramOf tgetD
  cases hk : tget s.m.sram k with
  | none => rfl
  | some m => exact h.2.2.2 _ (tget_mem hk)

/-- A core's SRAM replaced by a canonical one. -/
theorem memsWf_tset {m : Mems} (k : Nat) {x : Memory} (h : memsWf m = true) (hx : x.wf = true) :
    memsWf { m with sram := tset m.sram k x } = true := by
  rw [memsWf_iff] at h ⊢
  refine ⟨h.1, h.2.1, tsorted_tset _ _ h.2.2.1, fun e he => ?_⟩
  rcases tset_mem he with he | he
  · subst he; exact hx
  · exact h.2.2.2 e he

/-- A write to core SRAM keeps the form. -/
theorem sramWrite_wf {s : State} (k addr : Nat) (data : Bytes) (p : Bool) (h : memsWf s.m = true) :
    memsWf (sramWrite k addr data p s).m = true := memsWf_tset k h (mwrite_wf _ _ (sramOf_wf k h))
@[simp] theorem sramWrite_q (k addr : Nat) (data : Bytes) (p : Bool) (s : State) : (sramWrite k addr data p s).q = s.q := rfl
@[simp] theorem outWrite_q (k addr : Nat) (data : Bytes) (p : Bool) (s : State) : (outWrite k addr data p s).q = s.q := rfl
theorem outWrite_wf {s : State} (k addr : Nat) (data : Bytes) (p : Bool) (h : memsWf s.m = true) :
    memsWf (outWrite k addr data p s).m = true := sramWrite_wf k addr data (p || launchPois s.u k) h

/-- A write of a unit of a local space keeps the form. -/
theorem unitWrite_wf {s : State} (space key addr : Nat) (data : Bytes) (p : Bool) (h : memsWf s.m = true) :
    memsWf (unitWrite space key addr data p s).m = true := by
  unfold unitWrite
  split
  · exact sramWrite_wf _ _ _ _ h
  · rw [memsWf_iff] at h ⊢; exact ⟨mwrite_wf _ _ h.1, h.2⟩
  · rw [memsWf_iff] at h ⊢; exact ⟨h.1, mwrite_wf _ _ h.2.1, h.2.2⟩
@[simp] theorem unitWrite_q (space key addr : Nat) (data : Bytes) (p : Bool) (s : State) :
    (unitWrite space key addr data p s).q = s.q := by unfold unitWrite; split <;> rfl

/-- What each pass of a loop keeps, the loop keeps. -/
theorem foldl_keeps {α β : Type} (P : α → Prop) (f : α → β → α) (l : List β) (s : α) (h : P s)
    (hf : ∀ s b, P s → P (f s b)) : P (l.foldl f s) := by
  induction l generalizing s with
  | nil => exact h
  | cons b r ih => exact ih _ (hf s b h)

/-- A copy between local spaces keeps the form and the queues. -/
theorem unitCopy_wf {s : State} (src dst : Nat × Nat × Nat) (n : Nat) (h : memsWf s.m = true) :
    memsWf (unitCopy src dst n s).m = true :=
  foldl_keeps (fun t : State => memsWf t.m = true) _ _ _ h (fun _ _ ht => unitWrite_wf _ _ _ _ _ ht)
theorem unitCopy_q (src dst : Nat × Nat × Nat) (n : Nat) (s : State) : (unitCopy src dst n s).q = s.q :=
  foldl_keeps (fun t : State => t.q = s.q) _ _ _ rfl (fun _ _ ht => by simpa using ht)

/-- A write through a buffer keeps the form and the queues. -/
theorem bufWrite_wf {s : State} (ctx : Nat) (b : Buf) (data : Bytes) (flt : Bool) (h : memsWf s.m = true) :
    memsWf (bufWrite s ctx b data flt).1.m = true := by
  have two (x : State) (a : Nat) (d : Bytes) (hx : memsWf x.m = true) :
      memsWf { x.m with t2 := mwrite x.m.t2 a d } = true := by
    rw [memsWf_iff] at hx ⊢; exact ⟨hx.1, mwrite_wf _ _ hx.2.1, hx.2.2⟩
  unfold bufWrite
  simp only
  split
  · rw [memsWf_iff] at h ⊢; exact ⟨mwrite_wf _ _ h.1, h.2⟩
  · split <;> exact two s _ _ h
  · split <;> exact h
  · split
    · exact h
    · split <;> exact h
theorem bufWrite_q (s : State) (ctx : Nat) (b : Buf) (data : Bytes) (flt : Bool) : (bufWrite s ctx b data flt).1.q = s.q := by
  unfold bufWrite
  simp only
  split
  · rfl
  · split <;> rfl
  · split <;> rfl
  · split
    · rfl
    · split <;> rfl

end Sys2Proof.Machine
end

