-- ==== Sys2Proof/WellFormed.lean ====
section
/-! DEFINITION. Which commands are well formed: the operands the manual lets each one carry. -/
namespace Sys2Proof

/-- Widths of a register access in bytes (R9). -/
def widthOk (w : Nat) : Bool := w == 1 || w == 2 || w == 4 || w == 8
/-- A fabric packet: a 64-byte header and at most 4,096 bytes of payload in units of 64 (R374). -/
def pktOk (p : Bytes) : Bool := 64 ≤ p.length && p.length ≤ 4160 && p.length % 64 == 0
/-- A read that delivers n bytes or a fault. -/
def dmaLen (n : Nat) (d : Dma) : Bool :=
  match d with
  | .data b => b.length == n
  | .fault => true
/-- Engines of a mask. -/
def maskCount (m : BitVec 16) : Nat := ((List.range 16).filter (fun k => m.getLsbD k)).length
/-- The channels of a QZ or CF: a multiple of 256, at most 16,384 for each engine they are spread over (R132, R133). -/
def rowOk (n : Nat) (mask : BitVec 16) (d : Distr) : Bool :=
  mask != 0 && 1 ≤ n && n % 256 == 0 && n ≤ 16384 * (match d with | .bcast => 1 | .split => maskCount mask)
/-- Formats the reductions and the transcendental instructions read (R137 to R141). -/
def floatFmt (f : VFmt) : Bool := f == .fp32 || f == .bf16
/-- Whether an entry launches a step program. -/
def isProgram (e : LaunchEntry) : Bool := match e.act with | .program _ _ _ _ => true | _ => false
/-- A launch table (R24, R48): at most 64 entries; programs on cores alone, one for each mark, with eight parameter words. -/
def tableOk (u : UnitId) (t : List LaunchEntry) : Bool :=
  let core := match u with | .core _ => true | _ => false
  t.length ≤ 64 && t.all (fun e => match e.act with | .program _ _ params _ => core && params.length == 8 | _ => true)
    && (List.range 6).all (fun m => (t.filter (fun e => e.mark.val == m && isProgram e)).length ≤ 1)

/-- Whether a command is well formed. -/
def wellFormed (i : Instr) : Bool :=
  match i with
  | .regWrite _ off width _ _ => widthOk width && off + width ≤ 2 ^ 24
  | .regAccess _ off width _ => widthOk width && off + width ≤ 2 ^ 24
  | .rcRead _ off _ => off + 4 ≤ 2 ^ 24
  | .mbxDoorbell _ => true
  | .mbxCommandBegin => true
  | .mbxResponse _ => true
  | .blkInfo _ => true
  | .blkTopology _ => true
  | .blkConfig _ => true
  | .blkVocab _ _ _ => true
  | .blkCheck _ => true
  | .blkStatus _ => true
  | .ctxConfig _ => true
  | .ctxRings _ => true
  | .ctxShares _ => true
  | .ctxEnable _ lines => lines.length == 3 && lines.all (dmaLen 64)
  | .ctxDisable _ => true
  | .ctxStatus _ => true
  | .policyWrite _ => true
  | .policyRead _ => true
  | .profileWrite _ => true
  | .descWrite _ => true
  | .actionWrite _ => true
  | .banlistWrite _ _ => true
  | .replseqWrite _ => true
  | .bankConfig _ => true
  | .matchUpdate _ _ => true
  | .matchRead _ _ => true
  | .slotLoad _ _ => true
  | .slotPlace _ => true
  | .slotService _ => true
  | .slotUnload _ => true
  | .slotStatus _ _ => true
  | .streamOpen _ => true
  | .streamSampling _ => true
  | .streamCancel _ => true
  | .streamPause _ => true
  | .streamResume _ => true
  | .streamStatus _ => true
  | .pauseStatus _ => true
  | .jobCancel _ => true
  | .jobStatus _ => true
  | .windowImport _ => true
  | .windowExport _ => true
  | .windowDepart _ => true
  | .tier2Config _ => true
  | .tier1Area _ => true
  | .tierCopy _ _ => true
  | .tierStatus _ => true
  | .fwLoad _ _ => true
  | .fwActivate _ => true
  | .fwBootCfg _ => true
  | .fwWatchdog _ => true
  | .fwLogRead _ _ => true
  | .fwTrace _ => true
  | .fwFuse _ => true
  | .cntSelect _ => true
  | .cntRead _ _ => true
  | .clipRead _ _ => true
  | .refStart _ => true
  | .refReport _ _ => true
  | .queueRead _ _ => true
  | .pagemapRead _ _ => true
  | .repairRead _ _ => true
  | .temperStart _ => true
  | .temperStatus _ => true
  | .temperCommit _ => true
  | .temperAbort _ => true
  | .blkEnableRequest => true
  | .blockCheckDone => true
  | .blkDisable => true
  | .blkStop => true
  | .arbPlainWrite _ => true
  | .tickStart _ => true
  | .tickStopRequest _ => true
  | .tickPeriodWrite _ => true
  | .tickTimeWrite _ => true
  | .tickSlewWrite _ => true
  | .tickOffsetWrite _ => true
  | .nqPop _ _ _ => true
  | .nqFlush => true
  | .nqCritClear _ => true
  | .cntSnap => true
  | .cntClr => true
  | .pinFuncWrite _ _ => true
  | .pinParkEnd _ _ => true
  | .tickEdge => true
  | .tickStopEdge => true
  | .tickInEdge _ => true
  | .tickPacket _ pkt _ => pktOk pkt
  | .holdoverEdge => true
  | .srcFault => true
  | .phaseMark _ io => io.spill.length ≤ 3 && io.spill.all (fun x => x.2.1.val + x.2.2.val ≤ 4)
  | .armDeadline => true
  | .unitArm u table => tableOk u table
  | .tickHalt => true
  | .syncSend => true
  | .syncReceive _ pkt _ => pktOk pkt
  | .dreqReceive _ pkt _ => pktOk pkt
  | .drespReceive _ pkt _ => pktOk pkt
  | .timeLost => true
  | .qz _ op => op.src % 64 == 0 && rowOk op.n op.mask op.distr && op.recTo.all (· % 64 == 0)
  | .cf _ op => op.src % 64 == 0 && rowOk op.n op.mask op.distr
  | .bufferReady _ _ => true
  | .mx _ op => op.mask != 0 && op.chain.all (fun e => op.mask.getLsbD e)
  | .mxPassDone _ => true
  | .vectorLoad _ _ _ => true
  | .vectorStore _ _ _ lanes _ => 1 ≤ lanes && lanes ≤ 256
  | .vectorArith _ _ _ _ _ _ _ => true
  | .vectorTranscendental _ _ fmt _ _ => floatFmt fmt
  | .vectorSumReduce _ fmt _ va n => floatFmt fmt && 1 ≤ n && va.val + n ≤ 64
  | .vectorMaxReduce _ fmt _ _ va n => floatFmt fmt && 1 ≤ n && va.val + n ≤ 64
  | .vtop _ fmt _ va n k => floatFmt fmt && 1 ≤ n && va.val + n ≤ 64 && 1 ≤ k && k ≤ 64
  | .vdot8 _ _ _ _ => true
  | .vwide _ vd _ => vd.reg.val < 63
  | .vectorConvert _ _ _ _ _ => true
  | .scalarOp _ _ _ _ _ => true
  | .scalarLoad _ _ _ _ => true
  | .loop _ _ bound _ => bound ≤ 65535
  | .br _ _ _ _ => true
  | .wait _ _ n => n ≤ 65535
  | .mark _ _ => true
  | .ticknum _ _ => true
  | .sig _ _ _ n => n ≤ 65535
  | .sigLand _ => true
  | .swait _ _ n => n ≤ 65535
  | .endLaunch _ => true
  | .dm _ _ count _ => 1 ≤ count && count ≤ 64
  | .dmaDone _ => true
  | .dmFence _ => true
  | .mq _ op => 1 ≤ op.count && op.count ≤ 256
  | .mqResult _ => true
  | .arrayScrubRead _ _ _ _ _ => true
  | .weightRowWrite _ _ _ _ _ _ => true
  | .imageStaged _ => true
  | .placeLoadDone _ => true
  | .unitRetire _ _ _ => true
  | .spareTakeover _ => true
  | .replaceRetry _ => true
  | .refCompare _ _ _ _ => true
  | .refDone _ _ => true
  | .clipCheck => true
  | .matchSearch _ _ _ => true
  | .sliceSummary _ _ _ _ _ => true
  | .tokenSample _ => true
  | .matchSummaryDone _ _ => true
  | .checkLaunch _ => true
  | .checkVerdict _ _ _ _ _ => true
  | .checkTimeout _ => true
  | .rewindApply _ => true
  | .redactApply _ => true
  | .skipRun _ => true
  | .descriptorFetched _ d rec => dmaLen 64 d && dmaLen 64 rec
  | .jobDecision _ _ => true
  | .streamOpenDecision _ => true
  | .pauseDecision _ => true
  | .resumeDecision _ => true
  | .jobTokenCopy _ _ _ => true
  | .requestSweep _ _ _ _ => true
  | .jobCompose _ _ _ _ => true
  | .jobDeadline _ _ _ => true
  | .replan => true
  | .jobCancelEffect _ _ => true
  | .configChangeEffect => true
  | .oneSlotUpdate _ => true
  | .threeStepUpdate _ => true
  | .commitEffect => true
  | .automatonReplay _ => true
  | .matchScrubRead _ _ => true
  | .bankRetire _ => true
  | .streamStart _ => true
  | .seatAssign _ => true
  | .pageMigrate => true
  | .pageEviction => true
  | .pausingEnter _ => true
  | .pauseCopyDone _ _ => true
  | .pauseExpiry => true
  | .resumePageIn _ _ => true
  | .streamCancelEffect _ => true
  | .streamSlotFree _ => true
  | .windowDepartEdge _ => true
  | .pauseMigrate _ _ => true
  | .noticePacket _ prod words => words.length ≤ 8 && prod < 76
  | .packetRewind _ _ => true
  | .noticeCommit _ _ _ _ => true
  | .watchdogExpiry _ _ => true
  | .roleRestored _ _ => true
  | .mbxUpRestore => true
  | .resetRelease b => b.net.length ≤ 2 && b.badCores.length ≤ 12
  | .bootReady => true
  | .updateQuietTick => true
  | .updateSwitch _ _ _ => true
  | .updateDone => true
  | .updateRollback _ => true
  | .hstate _ pkt _ => pktOk pkt
  | .skipPacket _ pkt _ => pktOk pkt
  | .rdRequest _ pkt => pktOk pkt
  | .wrRequest _ pkt => pktOk pkt
  | .rdata _ pkt => pktOk pkt
  | .wack _ pkt => pktOk pkt
  | .nack _ pkt => pktOk pkt
  | .windowTimeout _ => true
  | .bgUrgent _ _ => true
  | .bgMissed _ _ => true
  | .wearCheck _ signal _ _ => 1 ≤ signal && signal ≤ 8
  | .channelCopyDone _ _ => true
  | .channelRetire _ _ => true
  | .rowRepair _ _ _ _ _ => true
  | .laneRetrain _ _ _ => true
  | .journalWrite type payload _ _ => 1 ≤ type && type ≤ 10 && payload.length ≤ 16352
  | .thermTrip _ _ _ => true
  | .thermalShutdown => true
  | .thermCritical _ _ => true
  | .resetAssert => true
  | .pwrGoodFall => true
  | .hostPortReset _ => true
  | .pcieErr _ _ => true
  | .cxlLinkDown _ _ => true
  | .mgmtPacket _ _ => true
  | .throttleOn _ _ => true
  | .throttleOff => true
  | .ident => true
  | .smbStatus => true
  | .temps x => x.rails.length == 6
  | .limits => true
  | .senseFwd vals _ => vals.length == 6
  | .senseStale => true
  | .sensePark _ _ => true
  | .senseParkEnd _ => true
  | .calBegin _ => true
  | .calPart data _ => 1 ≤ data.length && data.length ≤ 255
  | .calCommit _ _ => true
  | .calClear _ _ => true
  | .alertCause => true
  | .alertResponse => true
  | .jtagBypass _ => true
  | .jtagIdcode _ => true
  | .jtagSamplePreload _ _ => true
  | .jtagExtest _ _ => true
  | .jtagClamp _ => true
  | .jtagHighz _ => true
  | .jtagTapReset => true
  | .temperStep _ => true
  | .temperDone _ => true
  | .temperRequantise _ => true
  | .temperRebind _ => true
  | .updStateStaged _ => true
  | .patrolScrub _ _ _ => true
  | .configurationRequest _ _ => true
  | .fabCrc _ _ => true

end Sys2Proof
end

