-- ==== Sys2Proof/Tests/Slice0.lean ====
section
/-! SUPPORT. Tests: values from the manual's worked examples and from published check values, ill-formed commands that
wellFormed refuses, and for each obligation with hypotheses a state and operands that meet them (witness_…), clause by
clause, in the order of the obligation's clauses. -/
namespace Sys2Proof.Tests
open Sys2Proof Sys2Proof.Machine
set_option Elab.async false

/- States and bytes the tests use. -/
/-- The reset state with other units. -/
def st (u : Units) : State := { State.reset with u := u }
/-- The units at reset. -/
def u0 : Units := State.reset.u
/-- n bytes of 0 with fields put in: offset, width, value. -/
def pay (n : Nat) (l : List (Nat × Nat × Nat)) : Bytes :=
  l.foldl (fun b x => patch b x.1 (leBytes x.2.1 x.2.2)) (List.replicate n 0)
/-- A captured command. -/
def cmdMem (op mb : Nat) (p : Bytes) : Memory :=
  let h := pay 16 [(0, 2, 3), (2, 2, op), (4, 2, p.length / 8), (8, 1, mb), (12, 4, 1)] ++ p
  mwrite [] 0 (h ++ leBytes 4 (crc32c h))
/-- A command begun. -/
def begun (op : Nat) (p : Bytes) : Mbx := { phase := .begun, busy := true, cmd := mwrite [] 0 (pay 16 [(2, 2, op), (4, 2, p.length / 8)] ++ p) }
/-- Units with a command begun on a mailbox. -/
def ask (n op : Nat) (p : Bytes) (u : Units := u0) : Units := { u with mbx := [(n, begun op p)] }
/-- Whether a payload sets no reserved byte. -/
def clean (op : Nat) (p : Bytes) : Bool :=
  match layoutOf op p with
  | some (_, b, nm) => (reservedAt p b nm).isNone
  | none => false
theorem hd {u : Units} {n op : Nat} {p : Bytes} (h : begunWith u n op = some p) (k : clean op p = true) : heard u n op p := by
  refine ⟨h, ?_⟩
  unfold clean at k
  cases hl : layoutOf op p with
  | none => simp [hl] at k
  | some x => obtain ⟨a, b, c⟩ := x; simpa [hl] using k
theorem aw {s : State} {n : Nat} (h : (tgetD s.u.mbx n {}).phase = .waiting) : awaits s n := h
theorem an {s : State} {n : Nat} {a : Ans} (h : (tgetD s.u.mbx n {}).phase = .ready ∧ (tgetD s.u.mbx n {}).ans = some a) : answered s n a := h
theorem bo {u : Units} (h : isUp u = true ∧ u.fw.stage ≠ 5) : barOpen u := h
theorem nb {u : Units} (h : isUp u = false) : ¬ barOpen u := fun k => absurd k.1 (by simp [h])
theorem ar {u : Units} {cls : Nat} {rx : Rx} {p : Bytes}
    (h : isUp u = true ∧ rxBeyond (rxFlits rx u) rx p = false ∧ fabFault u rx.port p = none ∧ le p 0 1 = cls) : arrives u cls rx p := h
theorem pf {u : Units} {port vc n : Nat}
    (h : (tgetD u.fab.ports port {}).wait = [] ∧ tgetD (tgetD u.fab.ports port {}).spent vc 0 + n ≤ vcCredits vc) : portFree u port vc n := h
theorem qc {x : CoreSt} (h : x.qq = [] ∧ x.qf = [] ∧ x.qm = [] ∧ x.qv = [] ∧ x.qd = [] ∧ x.qh = []) : quietCore x := h
/-- A state whose core ⟨23, 15⟩ holds x. -/
def cs (x : CoreSt) : State := st { u0 with core := [(383, x)] }
/-- Units of which tick 7 runs. -/
def tk : Units := { u0 with tick := { u0.tick with st := .current, number := 7, en := true, anchor := some 0 } }
/-- Tick 7 after its mark M0. -/
def tb : Units := { tk with tick := { tk.tick with lastMark := 0 } }
/-- A stream of context 63 (kept in slot 4,095). -/
def sx : Str := { gen := 4095, ctx := 63 }
/-- Units whose one stream is x. -/
def us (x : Str) (u : Units := tb) : Units := { u with str := [(4095, x)] }
/-- A head slot in service whose image has one core. -/
def headSl : Slot := { st := .inService, nrep := 1, img := mwrite [] 0 (pay 32 [(6, 1, 1), (8, 2, 1)]), imgLen := 32 }
/-- A stream whose step has answered: one slice summary. -/
def stepped (sums : List Summary) : Str := { sx with st := .active, headSlot := 31, seat := some 0, entry := some 5, listed := true, sums := sums }
/-- The header and table of a hand-off record with one required section, of type 5, version 1 and no bytes. -/
def handHead : Bytes :=
  let b := pay 160 [(0, 4, 0x4F464448), (4, 2, 1), (6, 2, 1), (128, 2, 5), (130, 2, 1), (132, 4, 1), (152, 4, crc32c [])]
  patch b 24 (leBytes 4 (crc32c b))
/-- A read and a write request of 64 bytes at 8,128 as packets. -/
def rdPkt : Bytes := fabPkt 0x20 2 9 0 0 0 (pay 24 [(0, 8, 8128), (8, 4, 64)]) []
def wrPkt : Bytes := fabPkt 0x21 2 9 0 0 0 (pay 24 [(0, 8, 8128), (8, 4, 64)]) (List.replicate 64 5)
/-- Units that export 4 KiB of tier 1. -/
def exporting (w : Bool) : Units :=
  { u0 with tier := { u0.tier with exports := [(3, { base := 4096, len := 4096, tier := 1, loc := 65536, writable := w })] } }
/-- Units with one transaction outstanding. -/
def owing (t : Txn) : Units := { u0 with tier := { u0.tier with txns := [t] } }
/-- A core with a launch that runs. -/
def cl : CoreSt := { launch := some {} }
/-- The core the witnesses use. -/
abbrev c0 : CoreId := ⟨23, 15⟩
/-- A QZ, a CF and an MQ with given places. -/
def qzAt (src : Nat) (flag : Option (Fin 32)) : QzOp :=
  { src := src, n := 256, fmt := .int8, outMax := 0, outTau := 0, mask := 1, distr := .bcast, recTo := none, flag := flag }
def cfAt (src : Nat) (flag : Option (Fin 32)) : CfOp := { src := src, n := 256, fmt := .int8, mask := 1, distr := .bcast, flag := flag }
def mqAt (src dst : Nat) : MqOp := { profile := 0, byteForm := false, count := 1, src := src, dst := dst, flag := some 31 }
theorem below {n : Nat} {P : Nat → Prop} (k : n = 1) (h : P 0) (e : Nat) (he : e < n) : P e := by
  have : e = 0 := by omega
  exact this ▸ h
theorem no_stall {u : Units} (h : u.core.all (fun e => e.2.stalled.isNone) = true) (k : Nat) : (coreAt u k).stalled = none := by
  unfold coreAt tgetD
  cases hk : tget u.core k with
  | none => rfl
  | some c => simpa using List.all_eq_true.mp h _ (tget_mem hk)
/-- An image file with one weight section, of engine 15 of core 0, at 4,096. -/
def secImg : Memory := mwrite [] 0 (pay 160 [(12, 4, 1), (128, 1, 2), (129, 1, 15), (130, 2, 0), (136, 8, 4096), (144, 8, 2097216)])
/-- The bytes of an image: a header, two sections and one entry point. -/
def rawImg : Bytes := pay 272 [(0, 4, 0x5A484D49), (4, 2, 3), (8, 2, 1), (10, 2, 1), (12, 4, 2), (16, 8, 272), (128, 1, 1), (129, 1, 255), (136, 8, 192), (144, 8, 16), (160, 1, 5), (161, 1, 255), (168, 8, 256), (176, 8, 16), (260, 4, 1)]
/-- The image with its digest. -/
def testImg : Bytes := patch rawImg 48 (sha384 rawImg)
/-- An ARP request for an address. -/
def arp (ip : BitVec 32) : Bytes :=
  pay 38 [(12, 2, 0x0608), (14, 2, 0x0100), (16, 2, 0x0008), (18, 2, 0x0406), (20, 2, 0x0100)] ++ [ip.extractLsb' 24 8, ip.extractLsb' 16 8, ip.extractLsb' 8 8, ip.extractLsb' 0 8]
theorem arp_reply (mac : Nat) (ip : BitVec 32) :
    mgmtReply mac ip.toNat (arp ip) = some ((mgmtReply mac ip.toNat (arp ip)).getD []) := by
  have h : be (arp ip) 38 4 = ip.toNat := by
    simp only [be, arp]
    have e : (pay 38 [(12, 2, 0x0608), (14, 2, 0x0100), (16, 2, 0x0008), (18, 2, 0x0406), (20, 2, 0x0100)]).length = 38 := by decide +kernel
    rw [List.drop_append_of_le_length (by omega), List.drop_of_length_le (by omega)]
    simp [leVal, BitVec.extractLsb', Nat.shiftRight_eq_div_pow]
    omega
  have g : (be (arp ip) 12 2 == 0x0806 && be (arp ip) 14 2 == 1 && be (arp ip) 16 2 == 0x0800 && be (arp ip) 18 2 == 0x0604 && be (arp ip) 20 2 == 1) = true := by
    rfl
  have k : 42 ≤ (arp ip).length := by
    have : (arp ip).length = 42 := by rfl
    omega
  unfold mgmtReply
  simp only [g, h, k, Bool.true_and, beq_self_eq_true, decide_true, if_true, Option.getD_some]
/-- A descriptor with its CRC. -/
def descOf (l : List (Nat × Nat × Nat)) : Bytes := let b := pay 60 l; b ++ leBytes 4 (crc32c b)
/-- A boundary record of 256 zero channels for the stream in slot 4,095. -/
def testRec : Bytes :=
  let b := pay 192 [(0, 1, 1), (1, 1, 1), (2, 2, 1), (4, 4, 1073741823), (8, 8, 7), (26, 2, 3)]
  patch b 60 (leBytes 4 (crc32c b))
/-- An image that declares a head of one matrix of 256 inputs and one output. -/
def temperImg : Memory :=
  mwrite [] 0 (pay 256 [(8, 2, 1), (12, 4, 1), (128, 1, 9), (129, 1, 255), (130, 2, 0xFFFF), (136, 8, 192), (144, 8, 64), (192, 1, 1), (195, 1, 1), (196, 4, 256), (206, 2, 1)])
/-- A state with units and a feedback header, of one example, in tier 1. -/
def fed (k : Nat) (u : Units) : State :=
  { st u with m := { State.reset.m with t1 := mwrite [] 65536 (pay 64 [(0, 4, 0x50464254), (4, 1, 1), (6, 2, 1), (8, 4, 1), (12, 4, k), (16, 1, 1)]) } }
/-- A run whose one weight is 0. -/
def zeroRun : Temper := { state := 3, decl := pay 64 [(0, 1, 1), (3, 1, 1), (4, 4, 1)] }
theorem new_scale_zero (a : Nat) (b : Int) : newScale 0 a b = none := by
  have h0 : ∀ n, upNat 0 n = 0 := by
    intro n
    cases n with
    | zero => rfl
    | succ n => exact Nat.div_eq_of_lt (by omega)
  unfold newScale
  rw [List.find?_eq_none]
  intro x hx
  obtain ⟨rs, -, rfl⟩ := List.mem_map.mp hx
  simp [h0]
theorem requantise_zero : requantise [] 0 zeroRun = none := by
  have hp : tparams (tdecl zeroRun.decl) = 1 := by decide +kernel
  have hm : zeroRun.master = [] := rfl
  have ht : ∀ (x : Nat), tgetD ([] : Tbl Nat) x 0 = 0 := fun _ => rfl
  unfold requantise
  simp only [hp, hm, ht]
  generalize Config.headPlace (mle [] 40 8) = f
  have hb : (bfInt 0).natAbs = 0 := by decide +kernel
  simp [List.range_succ, hb, new_scale_zero]

/- Values from outside the model. -/
/-- CRC-32C of "123456789", the check value published for it. -/
theorem test_crc32c : crc32c [0x31, 0x32, 0x33, 0x34, 0x35, 0x36, 0x37, 0x38, 0x39] = 0xE3069283 := by decide +kernel
/-- SHA-384 of "abc" (FIPS 180-4), its first 8 bytes. -/
theorem test_sha384 : (sha384 [0x61, 0x62, 0x63]).take 8 = [0xCB, 0x00, 0x75, 0x3F, 0x45, 0xA3, 0x5E, 0x8B] := by decide +kernel
/-- The row of the worked example of 03: channels -0.75, 0.5, 1.5, 2.25, 0 and the outlier 40. -/
theorem test_quantise :
    quantiseWith .uint4 [(5, bfInt 0x4220)] [0xBF40, 0x3F00, 0x3FC0, 0x4010, 0x0000, 0x4220]
      = ({ fmt := .uint4, codes := [0, 6, 11, 15, 4, 4], z := 4, sMant := 52429, sExp := -18, lanes := [(5, 51200)] }, []) := by
  decide +kernel
/-- The column of the worked example of 03: weights 3, -2, 5, -8, 1 and 7, and what it accumulates. -/
theorem test_accumulate :
    ({ wfmt := .int4, cells := [(0, 3), (1, 14), (2, 5), (3, 8), (4, 1), (5, 7)] } : Weights).acc
      { fmt := .uint4, codes := [0, 6, 11, 15, 4, 4], z := 4, sMant := 52429, sExp := -18, lanes := [(5, 51200)] } 0 0 = 340736 := by
  decide +kernel
/-- The rescale of the worked example of 03, in both formats. -/
theorem test_rescale :
    (({ table := [(0, { rm := 32768, rs := 19 })] } : Weights).rescale .fp32 340736 52429 (-18) 0,
      ({ table := [(0, { rm := 32768, rs := 19 })] } : Weights).rescale .bf16 340736 52429 (-18) 0)
      = ((0x418519BB, false), (0x4185, false)) := by decide +kernel
/-- BLK_ID, BLK_GEOM and BLK_STACKMAP of the worked example of 19. -/
theorem test_identification :
    (regRead {} {} u0 0 0 4, regRead {} {} u0 0 0x10 4, (regRead {} {} u0 0 0x18 8))
      = (0x32010101, 0x02080418, 0x0FFFFFAC9EC49860) := by decide +kernel
/-- The stack of a tier-1 unit in the worked example of 19: byte address 0x12_3456_7000 lies in stack 7. -/
theorem test_stack : 0x1234567000 / 4096 % nStacks {} = 7 := by decide +kernel
/-- A sum wraps at 64 bits (R129). -/
theorem test_add_wraps :
    (match exec (.scalarOp ⟨23, 15⟩ .add 1 1 2) (st { u0 with core := [(383, { launch := some {}, s := [(1, 2 ^ 64 - 1), (2, 2)] })] }) with
     | .next t => (coreAt t.u 383).s | _ => []) = [(1, 1), (2, 2)] := by decide +kernel
/-- A pop takes severity 2 before an older severity 3 (worked example of 10). -/
theorem test_pop_order :
    (qPop { committed := [{ seq := 4999, sev := 3, words := [1] }, { seq := 5000, sev := 2, words := [2] }] }).map (·.1.seq)
      = some 5000 := by decide +kernel
/-- A handle of the worked example of 13: context 3, generation 1, slot 0xA42. -/
theorem test_handle : handleOf 0xA42 { ctx := 3, gen := 1 } = 0x03001A42 := by decide +kernel
/-- The length of a record with 16,384 channels and 200 outliers (worked example of 13): 142 units of 64 bytes. -/
theorem test_record_units : 1 + 2 * (16384 / 256) + ceilDiv 200 16 = 142 := by decide +kernel
/-- A limit of 105.0 degrees is 1,680 (worked example of 17). -/
theorem test_limits : ({} : Asm).critTemp.head? = some 1680 := by decide +kernel
/-- A temperature-sense output at 25.0 degrees: 0.500 V and 10 mV a degree are 0.750 V (R474). -/
theorem test_sense_level : tsLevel 400 = 750000 := by decide +kernel

/- Every check of wellFormed refuses an ill-formed command. -/
theorem test_refused_register_accesses :
    ([.regWrite 0 0 3 0 false, .regWrite 0 (2 ^ 24 - 4) 8 0 false, .regAccess 0 0 16 none, .regAccess 1 (2 ^ 24) 8 none, .rcRead 0 (2 ^ 24 - 2) 0]
      : List Instr).all (fun i => !wellFormed i) = true := by decide +kernel
theorem test_refused_packets :
    ([.tickPacket ⟨0, [], []⟩ [] 0, .syncReceive ⟨0, [], []⟩ (List.replicate 65 0) 0, .dreqReceive ⟨1, [], []⟩ [] 0
      , .drespReceive ⟨0, [], []⟩ (List.replicate 4224 0) 0, .hstate ⟨0, [], []⟩ [] 0, .skipPacket ⟨2, [], []⟩ [] 0, .rdRequest ⟨0, [], []⟩ []
      , .wrRequest ⟨3, [], []⟩ [], .rdata ⟨0, [], []⟩ [], .wack ⟨4, [], []⟩ [], .nack ⟨0, [], []⟩ []]
      : List Instr).all (fun i => !wellFormed i) = true := by decide +kernel
theorem test_refused_operands_of_rows :
    ([.qz ⟨0, 0⟩ { src := 1, n := 256, fmt := .int8, outMax := 0, outTau := 0, mask := 1, distr := .bcast, recTo := none, flag := none },
      .qz ⟨0, 0⟩ { src := 0, n := 256, fmt := .int8, outMax := 0, outTau := 0, mask := 0, distr := .bcast, recTo := none, flag := none },
      .qz ⟨0, 0⟩ { src := 0, n := 255, fmt := .int8, outMax := 0, outTau := 0, mask := 1, distr := .bcast, recTo := none, flag := none },
      .qz ⟨0, 0⟩ { src := 0, n := 256, fmt := .int8, outMax := 0, outTau := 0, mask := 1, distr := .bcast, recTo := some 1, flag := none },
      .cf ⟨0, 0⟩ { src := 0, n := 16640, fmt := .int8, mask := 1, distr := .split, flag := none },
      .mx ⟨0, 0⟩ { mask := 0, chain := none, group := 0, fmt := .int8, outFp32 := true, outAddr := 0, stride := 0, flag := none },
      .mx ⟨0, 0⟩ { mask := 1, chain := some 1, group := 0, fmt := .int8, outFp32 := true, outAddr := 0, stride := 0, flag := none }]
      : List Instr).all (fun i => !wellFormed i) = true := by decide +kernel
theorem test_refused_core_instructions :
    ([.vectorStore ⟨0, 0⟩ 0 0 0 none, .vectorStore ⟨0, 0⟩ 0 0 257 none, .vectorTranscendental ⟨0, 0⟩ .exp .int32 ⟨0, none⟩ 0
      , .vectorSumReduce ⟨0, 0⟩ .int32 ⟨0, none⟩ 0 1, .vectorSumReduce ⟨0, 0⟩ .fp32 ⟨0, none⟩ 63 2, .vectorMaxReduce ⟨0, 0⟩ .fp32 true ⟨0, none⟩ 0 0
      , .vtop ⟨0, 0⟩ .fp32 ⟨0, none⟩ 0 1 65, .vtop ⟨0, 0⟩ .fp32 ⟨0, none⟩ 0 1 0, .vwide ⟨0, 0⟩ ⟨63, none⟩ 0, .loop ⟨0, 0⟩ 0 65536 1, .wait ⟨0, 0⟩ 0 65536, .sig ⟨0, 0⟩ 0 0 65536, .swait ⟨0, 0⟩ 0 65536, .dm ⟨0, 0⟩ 0 0 none, .dm ⟨0, 0⟩ 0 65 none
      , .mq ⟨0, 0⟩ { profile := 0, byteForm := false, count := 257, src := 0, dst := 0, flag := none }]
      : List Instr).all (fun i => !wellFormed i) = true := by decide +kernel
theorem test_refused_events :
    ([.ctxEnable 0 [], .ctxEnable 0 [.data [], .fault, .fault], .descriptorFetched 0 (.data []) .fault, .descriptorFetched 0 .fault (.data [0])
      , .noticePacket 0 0 (List.replicate 9 0), .noticePacket 0 76 [], .wearCheck (.core ⟨0, 0⟩) 0 {} false, .journalWrite 0 [] .ok .ok
      , .journalWrite 1 (List.replicate 16353 0) .ok .ok, .temps {}, .phaseMark 0 { spill := [(0, 3, 2)] }, .senseFwd [] true, .calPart [] true, .calPart (List.replicate 256 0) true
      , .resetRelease { net := List.replicate 3 {} }, .resetRelease { badCores := List.replicate 13 0 }
      , .unitArm (.core ⟨0, 0⟩) [⟨0, .program 0 0 [] [], false⟩], .unitArm (.core ⟨0, 0⟩) (List.replicate 2 ⟨0, .program 0 0 (List.replicate 8 0) [], false⟩)]
      : List Instr).all (fun i => !wellFormed i) = true := by decide +kernel
/-- Well-formed commands pass. -/
theorem test_accepted :
    ([.regWrite 0 0x10000 8 1 true, .phaseMark 3 {}, .vtop ⟨0, 0⟩ .fp32 ⟨0, none⟩ 0 64 64, .dm ⟨0, 0⟩ 0 64 none, .temps ⟨[], List.replicate 6 0⟩, .vwide ⟨0, 0⟩ ⟨62, none⟩ 63, .thermalShutdown]
      : List Instr).all wellFormed = true := by decide +kernel

/- Witnesses for the hypotheses of the obligations. -/
theorem witness_step_runs_front_command :
    ∃ (s : State) (c : Instr) (r : List Instr), s.pending = c :: r :=
  ⟨{ State.reset with pending := [.cntSnap] }, .cntSnap, [], rfl⟩

theorem witness_idle_cycle_passes_one_engine_cycle :
    ∃ (s : State), s.pending = [] :=
  ⟨State.reset, rfl⟩

theorem witness_register_access_reaches_its_register :
    (∃ (off w : Nat), off < 2 ^ 24 ∧ accessOk off w = false) ∧
    (∃ (s : State), isUp s.u = true ∧ s.u.fw.stage ≠ 5) ∧
    (∃ (s : State), ∃ off get, isUp s.u = true ∧ s.u.fw.stage ≠ 5 ∧ (off, get) ∈ [(0x20090, QInst.flushed), (0x20098, QInst.rewound), (0x200A0,
      QInst.parErr), (0x200A8, QInst.eccCorr), (0x200B0, QInst.eccUnc)]) :=
  ⟨⟨0xFFFFFF, 1, by decide +kernel⟩,
   ⟨st u0, by decide +kernel⟩,
   ⟨st u0, 0x200B0, QInst.eccUnc, by decide +kernel, by decide +kernel, by simp⟩⟩

theorem witness_tick_registers_are_written_only_while_stopped :
    (∃ (s : State), barOpen s.u ∧ s.u.tick.st = .stopped ∧ s.u.blk.en = false) ∧
    (∃ (s : State), barOpen s.u ∧ s.u.tick.st = .stopped) ∧
    (∃ (s : State), barOpen s.u ∧ s.u.tick.st = .stopped ∧ disciplined s.u = false) ∧
    (∃ (s : State) (v : W32), barOpen s.u ∧ s.u.tick.st = .stopped ∧ v.toNat < s.u.tick.period * 1000) ∧
    (∃ (s : State), barOpen s.u ∧ s.u.tick.st ≠ .stopped) ∧
    (∃ (s : State), barOpen s.u ∧ s.u.tick.st ≠ .stopped ∧ disciplined s.u = false) ∧
    (∃ (s : State), ¬ barOpen s.u) :=
  ⟨⟨st u0, bo (by decide +kernel), by decide +kernel⟩,
   ⟨st u0, bo (by decide +kernel), by decide +kernel⟩,
   ⟨st u0, bo (by decide +kernel), by decide +kernel⟩,
   ⟨st u0, 99999, bo (by decide +kernel), by decide +kernel⟩,
   ⟨st tk, bo (by decide +kernel), by decide +kernel⟩,
   ⟨st tk, bo (by decide +kernel), by decide +kernel⟩,
   ⟨st { u0 with fw := { u0.fw with stage := 5 } }, fun h => absurd h.2 (by decide +kernel)⟩⟩

theorem witness_tick_start_stop_and_block_control :
    (∃ (s : State) (v : W32), barOpen s.u ∧ bitAt v.toNat 0 = true ∧ s.u.blk.en = true ∧ s.u.tick.en = false ∧ s.u.tick.stopReq = false ∧
      s.u.tick.st = .stopped ∧ 0 < s.u.tick.period) ∧
    (∃ (s : State) (v : W32), barOpen s.u ∧ bitAt v.toNat 0 = false ∧ s.u.blk.en = false ∧ s.u.tick.en = true ∧ bitsOf v.toNat 2 1 = s.u.tick.src ∧
      s.u.tick.src ≠ 3) ∧
    (∃ (s : State) (v : W32), barOpen s.u ∧ bitAt v.toNat 0 = false ∧ s.u.blk.en = true ∧ s.u.tick.en = true ∧ bitsOf v.toNat 2 1 = s.u.tick.src ∧
      s.u.tick.src ≠ 3) ∧
    (∃ (s : State), barOpen s.u ∧ s.u.blk.en = false ∧ s.u.blk.checking = false) ∧
    (∃ (s : State), barOpen s.u ∧ anyInService s.u = false) ∧
    (∃ (s : State), barOpen s.u ∧ s.u.blk.en = true ∧ s.u.tick.st ≠ .stopped) ∧
    (∃ (s : State), barOpen s.u ∧ s.u.blk.en = false) ∧
    (∃ (s : State), barOpen s.u ∧ anyInService s.u = true) ∧
    (∃ (s : State), s.u.blk.en = true) ∧
    (∃ (s : State), barOpen s.u) ∧
    (∃ (s : State) (n : Fin 16) (v : W32), barOpen s.u ∧ bitsOf v.toNat 3 0 ≤ 5 ∧ (tgetD s.u.pins.gpio n {}).func ≠ bitsOf v.toNat 3 0) ∧
    (∃ (s : State) (v : W32), barOpen s.u ∧ 5 < bitsOf v.toNat 3 0) :=
  ⟨⟨st { u0 with blk := { u0.blk with en := true } }, 1, bo (by decide +kernel), by decide +kernel⟩,
   ⟨st tk, 0, bo (by decide +kernel), by decide +kernel⟩,
   ⟨st { tk with blk := { u0.blk with en := true } }, 8, bo (by decide +kernel), by decide +kernel⟩,
   ⟨st u0, bo (by decide +kernel), by decide +kernel⟩,
   ⟨st u0, bo (by decide +kernel), by decide +kernel⟩,
   ⟨st { tk with blk := { u0.blk with en := true } }, bo (by decide +kernel), by decide +kernel⟩,
   ⟨st u0, bo (by decide +kernel), by decide +kernel⟩,
   ⟨st { u0 with ctx := [(63, { state := 3 })] }, bo (by decide +kernel), by decide +kernel⟩,
   ⟨st { u0 with blk := { u0.blk with en := true } }, by decide +kernel⟩,
   ⟨st u0, bo (by decide +kernel)⟩,
   ⟨st u0, 15, 5, bo (by decide +kernel), by decide +kernel⟩,
   ⟨st u0, 6, bo (by decide +kernel), by decide +kernel⟩⟩

theorem witness_pop_flush_and_clear :
    (∃ (s : State) (c : CPkt), barOpen s.u ∧ s.q.notice.eccCorr < 2 ^ 48 ∧ qFront s.q.notice.committed = some c) ∧
    (∃ (s : State), barOpen s.u ∧ s.q.notice.committed = []) ∧
    (∃ (l : List CPkt) (c : CPkt), (∀ d ∈ l, d.sev ≤ 3) ∧ qFront l = some c) ∧
    (∃ (l : List CPkt) (c : CPkt), ∃ d, (∀ d ∈ l, d.sev ≤ 3) ∧ qFront l = some c ∧ d ∈ l) ∧
    (∃ (l : List CPkt) (c : CPkt), ∃ x y d, (∀ d ∈ l, d.sev ≤ 3) ∧ qFront l = some c ∧ l = x ++ c :: y ∧ c ∉ x ∧ d ∈ x) ∧
    (∃ (s : State), barOpen s.u) :=
  ⟨⟨{ State.reset with q := { notice := { eccCorr := 2 ^ 48 - 1, committed := [({ seq := 0, sev := 2, words := [2] } : CPkt), { seq := 1, sev := 0, words := [1] }] } } },
    { seq := 1, sev := 0, words := [1] }, bo (by decide +kernel), by decide +kernel⟩,
   ⟨State.reset, bo (by decide +kernel), by decide +kernel⟩,
   ⟨[({ seq := 0, sev := 2, words := [2] } : CPkt), ({ seq := 1, sev := 0, words := [1] } : CPkt)], ({ seq := 1, sev := 0, words := [1] } : CPkt),
     by decide +kernel⟩,
   ⟨[({ seq := 0, sev := 2, words := [2] } : CPkt), ({ seq := 1, sev := 0, words := [1] } : CPkt)], ({ seq := 1, sev := 0, words := [1] } : CPkt),
     ({ seq := 0, sev := 2, words := [2] } : CPkt), by decide +kernel⟩,
   ⟨[({ seq := 0, sev := 2, words := [2] } : CPkt), ({ seq := 1, sev := 0, words := [1] } : CPkt)], ({ seq := 1, sev := 0, words := [1] } : CPkt),
     [({ seq := 0, sev := 2, words := [2] } : CPkt)], [], ({ seq := 0, sev := 2, words := [2] } : CPkt), by decide +kernel⟩,
   ⟨State.reset, bo (by decide +kernel)⟩⟩

theorem witness_packets_are_granted_or_vanish :
    (∃ (s : State) (n : Fin 3) (words : List W64), n ≠ 1 ∧ (pGet s.u n).wait = [] ∧ words ≠ [] ∧ words.length ≤ 8 ∧
      chainWords (qGet s.q n) + words.length ≤ 64) ∧
    (∃ (s : State) (w0 : W64) (rest : List W64), s.u.prodL.wait = [] ∧ rest.length ≤ 6 ∧ chainWords s.q.log + (rest.length + 2) ≤ 64 ∧
      s.u.fw.vis ≠ 0 ∧ 0x1000 ≤ bitsOf w0.toNat 63 48 ∧ bitsOf w0.toNat 63 48 ≤ 0x2FFF ∧ (0x2000 ≤ bitsOf w0.toNat 63 48 → s.u.fw.vis = 2 ∧
      (∃ r ∈ s.u.fw.traces, r.1 ≤ bitsOf w0.toNat 63 48 ∧ bitsOf w0.toNat 63 48 ≤ r.2) ∧
      (s.u.fw.traceTick = s.u.tick.number → s.u.fw.traceCount < 64))) ∧
    (∃ (s : State), s.u.prodL.wait = [] ∧ s.u.fw.vis = 0) ∧
    (∃ (s : State) (n : Fin 3) (cause : RewindCause) (l : List Pkt) (x : Pkt), (qGet s.q n).chain = l ++ [x] ∧ cause ≠ .tagParity) ∧
    (∃ (s : State) (n : Fin 3) (l : List Pkt) (x : Pkt), (qGet s.q n).chain = x :: l) ∧
    (∃ (prod : Nat) (u : Units), (tgetD u.prodN.wait prod []).length < 3) ∧
    (∃ (prod code ctx : Nat) (args : List Nat) (u : Units), sevOf code = 0 ∧ code < 2 ^ 16 ∧ ctx < 64 ∧ args.length ≤ 6 ∧
      (tgetD u.prodN.wait prod []).length < 4) ∧
    (∃ (prod code ctx : Nat) (args : List Nat) (u : Units), sevOf code ≠ 0 ∧ code < 2 ^ 16 ∧ ctx < 64 ∧ args.length ≤ 6 ∧
      (tgetD u.prodN.wait prod []).length = 3 ∧ (∀ x ∈ tgetD u.prodN.wait prod [], sevField x.words ≠ 0)) ∧
    (∃ (prod : Nat) (u : Units), 4 ≤ (tgetD u.prodN.wait prod []).length) ∧
    (∃ (prod code : Nat) (u : Units), 4 ≤ (tgetD u.prodN.wait prod []).length ∧ sevOf code = 0) :=
  ⟨⟨{ State.reset with q := { fab := { chain := List.replicate 7 { words := List.replicate 8 0 } } } }, 2, List.replicate 8 0, by decide +kernel⟩,
   ⟨{ State.reset with u := { tk with fw := { u0.fw with vis := 2, traces := [(0x2000, 0x2FFF)] } }, q := { log := { chain := List.replicate 7 { words := List.replicate 8 0 } } } },
     0x2FFF000000000000, List.replicate 6 0, by decide +kernel⟩,
   ⟨st u0, by decide +kernel⟩,
   ⟨{ State.reset with q := { log := { chain := [({ words := [5] } : Pkt), { words := [6] }] } } }, 1, .abort, [({ words := [5] } : Pkt)],
     { words := [6] }, by decide +kernel⟩,
   ⟨{ State.reset with q := { log := { chain := [({ words := [5] } : Pkt), { words := [6] }] } } }, 1, [{ words := [6] }], ({ words := [5] } : Pkt),
     by decide +kernel⟩,
   ⟨3, u0, by decide +kernel⟩,
   ⟨3, 1, 63, List.replicate 6 0, { u0 with prodN := { wait := [(3, List.replicate 3 {})] } }, by decide +kernel⟩,
   ⟨3, 0x301, 63, List.replicate 6 0, { u0 with prodN := { wait := [(3, List.replicate 3 { words := noticeWords 0x301 0 0 [] })] } },
     by decide +kernel⟩,
   ⟨3, { u0 with prodN := { wait := [(3, List.replicate 4 {})] } }, by decide +kernel⟩,
   ⟨3, 1, { u0 with prodN := { wait := [(3, List.replicate 4 {})] } }, by decide +kernel⟩⟩

theorem witness_commit_takes_the_front_of_the_chain :
    (∃ (s : State) (n : Fin 3) (x : Pkt) (r : List Pkt), (qGet s.q n).chain = x :: r ∧ x.poison = 0 ∧ x.hdrBad = false ∧ x.out = 0 ∧ x.words ≠ [] ∧
      x.words.length ≤ 8) ∧
    (∃ (s : State) (n : Fin 3) (x : Pkt) (r : List Pkt) (i : SpillIn), (qGet s.q n).chain = x :: r ∧ x.out + i.words < x.words.length) :=
  ⟨⟨{ State.reset with q := { log := { chain := [{ words := [5] }, { words := [6] }] } } }, 1, { words := [5] }, [{ words := [6] }],
    by decide +kernel⟩,
   ⟨{ State.reset with q := { fab := { chain := [{ words := List.replicate 8 5, out := 3 }] } } }, 2, { words := List.replicate 8 5, out := 3 }, [],
     { words := 4 }, by decide +kernel⟩⟩

theorem witness_mailbox_takes_a_command_and_answers_it :
    (∃ (s : State) (n : Fin 64), barOpen s.u ∧ (tgetD s.u.mbx n {}).busy = false ∧ s.u.fw.mbxUp = true) ∧
    (∃ (s : State) (n : Fin 64), barOpen s.u ∧ (tgetD s.u.mbx n {}).busy = true) ∧
    (∃ (s : State) (n : Nat), isUp s.u = true ∧ s.u.fw.mbxUp = true ∧ s.u.fw.stage ≠ 5 ∧ nextRung s.u = some n ∧
      (tgetD s.u.mbx n {}).touched = false ∧ commandCheck s.u.fw n (tgetD s.u.mbx n {}) = none ∧
      ((tgetD s.u.mbx n {}).stored = none ∨ (tgetD s.u.mbx n {}).lastSeq ≠ mle (tgetD s.u.mbx n {}).cmd 12 4) ∧ (∀ r,
      (tgetD s.u.fw.roles r {}).state ≠ 2)) ∧
    (∃ (s : State) (n : Nat), isUp s.u = true ∧ s.u.fw.mbxUp = true ∧ nextRung s.u = some n ∧ (tgetD s.u.mbx n {}).touched = true) ∧
    (∃ (s : State) (n : Fin 64) (a : Ans), mbxServes s.u = true ∧ answered s n a ∧ committedSince (tgetD s.u.mbx n {}) s.u = true ∧ a.whole = none ∧
      a.executed = true ∧ a.status < 2 ^ 16) ∧
    (∃ (s : State) (n : Fin 64), committedSince (tgetD s.u.mbx n {}) s.u = false) ∧
    (∃ (s : State) (n st : Nat), isUp s.u = true ∧ s.u.fw.mbxUp = true ∧ nextRung s.u = some n ∧ (tgetD s.u.mbx n {}).touched = false ∧
      commandCheck s.u.fw n (tgetD s.u.mbx n {}) = some st) :=
  ⟨⟨st { u0 with fw := { u0.fw with mbxUp := true } }, 63, bo (by decide +kernel), by decide +kernel⟩,
   ⟨st { u0 with mbx := [(5, { busy := true })] }, 5, bo (by decide +kernel), by decide +kernel⟩,
   ⟨st { u0 with fw := { u0.fw with stage := 4, mbxUp := true, roles := [], run := { ifMin := 0x0300, ifMax := 0x0302 } }, mbx := [(3, { phase := .rung, busy := true, cmd := cmdMem 0x0001 3 [] })] },
     3, by refine ⟨?_, ?_, ?_, ?_, ?_, ?_, Or.inl rfl, fun _ => (by decide : (0 : Nat) ≠ 2)⟩ <;> decide +kernel⟩,
   ⟨st { u0 with fw := { u0.fw with stage := 4, mbxUp := true, roles := [], run := { ifMin := 0x0300, ifMax := 0x0302 } }, mbx := [(3, { phase := .rung, busy := true, cmd := cmdMem 0x0001 3 [], touched := true })] },
     3, by decide +kernel⟩,
   ⟨st { u0 with mbx := [(5, { busy := true, phase := .ready, ans := some (ok []) })] }, 5, ok [], by decide +kernel, an (by decide +kernel),
     by decide +kernel⟩,
   ⟨st { tk with mbx := [(63, { busy := true, phase := .ready, ans := some (ok []), cmd := cmdMem 0x0201 63 [], doneAt := 9 })] }, 63,
     by decide +kernel⟩,
   ⟨st { u0 with fw := { u0.fw with stage := 4, mbxUp := true, roles := [], run := { ifMin := 0x0300, ifMax := 0x0302 } }, mbx := [(3, { phase := .rung, busy := true, cmd := mwrite [] 5 [2] })] },
     3, 2, by decide +kernel⟩⟩

theorem witness_tick_edge_exchanges_tables_or_coasts :
    ∃ (s : State) (t k : Nat), edgeDue s.u = some (t, k) ∧ s.u.tick.stopReq = false ∧ s.u.tick.forced = false :=
  ⟨st { u0 with tick := { u0.tick with st := .current, en := true, anchor := some 0 } }, 100000, 1, by decide +kernel⟩

theorem witness_arming_and_group_edges :
    (∃ (s : State) (x : UnitId) (table : List LaunchEntry), x ∉ s.u.tick.armed ∧ unitInService s.asm s.u x = true ∧
      (tgetD s.u.fw.roles (unitRole s.asm x) {}).state = 0 ∧ placeOk s.u x table = true ∧ table.length ≤ 64) ∧
    (∃ (s : State) (x : UnitId) (table : List LaunchEntry), (x ∈ s.u.tick.armed ∨ placeOk s.u x table = false)) ∧
    (∃ (s : State), running s.u = true ∧ s.u.tick.anchor.isSome = true ∧ s.u.tick.armSample = none) ∧
    (∃ (s : State), s.u.tick.armSample ≠ none) ∧
    (∃ (s : State), s.u.tick.haltNext = true) ∧
    (∃ (s : State) (t k : Nat), edgeDue s.u = some (t, k) ∧ s.u.tick.stopReq = false ∧ s.u.tick.forced = false ∧ s.u.tick.haltNext = true ∧
      s.u.tick.st = .coasting ∧ s.u.tick.armSample ≠ some true) ∧
    (∃ (s : State), s.u.tick.src = 1 ∧ running s.u = true ∧ s.u.tick.anchor = none ∧ s.u.tick.groupEdge = none) ∧
    (∃ (s : State) (a : Nat), s.u.tick.src = 1 ∧ running s.u = true ∧ s.u.tick.anchor = some a ∧ s.u.tick.groupEdge = none) ∧
    (∃ (s : State) (rx : Rx) (pkt : Bytes), s.u.tick.src = 2 ∧ running s.u = true ∧ s.u.tick.anchor = none ∧ s.u.tick.groupEdge = none ∧
      arrives s.u 0x01 rx pkt ∧ le pkt 32 8 = s.u.fab.groupId) ∧
    (∃ (s : State) (a : Nat), s.u.tick.src ≠ 0 ∧ running s.u = true ∧ s.u.tick.groupEdge = none ∧ s.u.tick.stopReq = false ∧
      s.u.tick.forced = false ∧ s.u.tick.anchor = some a) ∧
    (∃ (s : State), s.u.tick.holdover = 16) ∧
    (∃ (s : State), s.u.tick.holdover ≠ 16) :=
  ⟨⟨st u0, .sampling 1, List.replicate 64 { mark := 5, act := .samplePass [], once := true }, by decide +kernel⟩,
   ⟨st { u0 with tick := { u0.tick with armed := [.sampling 1] } }, .sampling 1, [], Or.inl (by decide +kernel)⟩,
   ⟨st tk, by decide +kernel⟩,
   ⟨st { tk with tick := { tk.tick with armSample := some false } }, by decide +kernel⟩,
   ⟨st { u0 with tick := { u0.tick with st := .coasting, en := true, anchor := some 0, haltNext := true } }, by decide +kernel⟩,
   ⟨st { u0 with tick := { u0.tick with st := .coasting, en := true, anchor := some 0, haltNext := true } }, 100000, 1, by decide +kernel⟩,
   ⟨st { u0 with tick := { u0.tick with st := .current, en := true, src := 1 } }, by decide +kernel⟩,
   ⟨st { u0 with tick := { u0.tick with st := .current, en := true, src := 1, anchor := some 0 } }, 0, by decide +kernel⟩,
   ⟨st { tk with tick := { tk.tick with src := 2, anchor := none } }, { port := 11 }, fabPkt 0x01 0 0 0 0 0 [] [],
     by refine ⟨?_, ?_, ?_, ?_, ar ?_, ?_⟩ <;> decide +kernel⟩,
   ⟨st { u0 with tick := { u0.tick with st := .current, en := true, src := 1, anchor := some 0 } }, 0, by decide +kernel⟩,
   ⟨st { u0 with tick := { u0.tick with holdover := 16 } }, by decide +kernel⟩,
   ⟨st u0, by decide +kernel⟩⟩

theorem witness_time_discipline :
    (∃ (s : State), isUp s.u = true ∧ s.u.blk.topoOk = true ∧ s.u.fab.masterId = s.u.fab.selfId ∧ s.u.fab.nbrs = []) ∧
    (∃ (s : State) (n : Nbr), isUp s.u = true ∧ s.u.blk.topoOk = true ∧ s.u.fab.masterId = s.u.fab.selfId ∧ s.u.fab.nbrs = [n] ∧
      portFree s.u (2 * n.xdie) 0 1) ∧
    (∃ (s : State) (rx : Rx) (pkt : Bytes) (at_ : Nat) (d : Int), arrives s.u 0x02 rx pkt ∧ disciplined s.u = true ∧ le pkt 16 8 = s.u.fab.masterId ∧
      s.u.fab.delay = some d ∧ s.u.tick.en = false ∧ s.u.tick.st = .stopped ∧ s.u.fab.syncs + 1 ≠ 16 ∧ s.u.tick.time < at_ ∧ at_ < 2 ^ 64) ∧
    (∃ (s : State) (rx : Rx) (pkt : Bytes) (d : Int), arrives s.u 0x02 rx pkt ∧ disciplined s.u = true ∧ le pkt 16 8 = s.u.fab.masterId ∧
      s.u.fab.delay = some d ∧ s.u.tick.en = true ∧ s.u.tick.st ≠ .stopped ∧ s.u.fab.syncs + 1 ≠ 16) ∧
    (∃ (s : State) (rx : Rx) (pkt : Bytes), arrives s.u 0x03 rx pkt ∧ s.u.blk.topoOk = true ∧ s.u.fab.masterId = s.u.fab.selfId ∧
      portFree (rxFlits rx s.u) rx.port 0 1) ∧
    (∃ (s : State) (rx : Rx) (pkt : Bytes) (t1 t2 no : Nat), arrives s.u 0x04 rx pkt ∧ disciplined s.u = true ∧ le pkt 16 8 = s.u.fab.masterId ∧
      s.u.fab.sync = some (t1, t2, no) ∧ le pkt 40 4 = no) ∧
    (∃ (s : State), disciplined s.u = true ∧ s.u.fab.lostNoted = false) :=
  ⟨⟨st { u0 with blk := { u0.blk with topoOk := true }, fab := { u0.fab with masterId := 0, selfId := 0, nbrs := [] } }, by decide +kernel⟩,
   ⟨st { u0 with blk := { u0.blk with topoOk := true }, fab := { u0.fab with masterId := 0, selfId := 0, nbrs := [{}] } }, {},
     by refine ⟨?_, ?_, ?_, ?_, pf ?_⟩ <;> decide +kernel⟩,
   ⟨st { u0 with blk := { u0.blk with topoOk := true }, fab := { u0.fab with masterId := 9, selfId := 0, delay := some 2 } }, { port := 0 },
     fabPkt 0x02 0 0 0 9 0 [] [], 5, 2, ar (by decide +kernel), by decide +kernel⟩,
   ⟨st { tk with blk := { u0.blk with topoOk := true }, fab := { u0.fab with masterId := 9, selfId := 0, delay := some 2 } }, { port := 0 },
     fabPkt 0x02 0 0 0 9 0 [] [], 2, ar (by decide +kernel), by decide +kernel⟩,
   ⟨st { u0 with blk := { u0.blk with topoOk := true }, fab := { u0.fab with masterId := 0, selfId := 0 } }, { port := 11 },
     fabPkt 0x03 0 0 0 0 0 [] [], ar (by decide +kernel), by decide +kernel, by decide +kernel, pf (by decide +kernel)⟩,
   ⟨st { u0 with blk := { u0.blk with topoOk := true }, fab := { u0.fab with masterId := 9, selfId := 0, sync := some (1, 2, 0) } }, { port := 0 },
     fabPkt 0x04 0 0 0 9 0 [] [], 1, 2, 0, ar (by decide +kernel), by decide +kernel⟩,
   ⟨st { u0 with blk := { u0.blk with topoOk := true }, fab := { u0.fab with masterId := 9, selfId := 0 } }, by decide +kernel⟩⟩

theorem witness_phase_marks_and_the_stopping_edge :
    (∃ (s : State) (io : MarkIo), io.credits = [] ∧ markNext s.u 2 = true ∧ dueEntries s.u 2 = [] ∧ (∀ k, (coreAt s.u k).stalled = none)) ∧
    (∃ (s : State) (role : Fin 10), markNext s.u 5 = true ∧ dueEntries s.u 5 = [] ∧ (∀ k, (coreAt s.u k).stalled = none) ∧
      tget s.u.fw.roles role ≠ none ∧ (tgetD s.u.fw.roles role {}).state = 0 ∧ Tsorted s.u.fw.roles = true) ∧
    (∃ (s : State) (m : Fin 6), markNext s.u m = false) ∧
    (∃ (s : State) (t k : Nat), (edgeDue s.u <|> holdoverDue s.u) = some (t, k) ∧ s.u.tick.stopReq = true ∧ s.u.tick.forced = false ∧
      inService s.u = []) ∧
    (∃ (s : State) (t k : Nat), (edgeDue s.u <|> holdoverDue s.u) = some (t, k) ∧ s.u.tick.forced = true ∧ inService s.u = []) ∧
    (∃ (s : State), s.u.tick.stopReq = false ∧ s.u.tick.forced = false) :=
  ⟨⟨st { tk with tick := { tk.tick with lastMark := 1 } }, {}, by refine ⟨?_, ?_, ?_, fun k => rfl⟩ <;> decide +kernel⟩,
   ⟨st { u0 with tick := { u0.tick with st := .current, en := true, anchor := some 0, lastMark := 4 } }, 9,
     by refine ⟨?_, ?_, fun k => rfl, ?_⟩ <;> decide +kernel⟩,
   ⟨st u0, 0, by decide +kernel⟩,
   ⟨st { tk with tick := { tk.tick with stopReq := true } }, 800000, 8, by decide +kernel⟩,
   ⟨st { tk with tick := { tk.tick with forced := true } }, 800000, 8, by decide +kernel⟩,
   ⟨st u0, by decide +kernel⟩⟩

theorem witness_scalar_instructions_write_their_register :
    (∃ (s : State) (c : CoreId), mayDispatch s c = true) ∧
    (∃ (b : W64), b.toNat < 64) ∧
    (∃ (b : W64), 64 ≤ b.toNat) ∧
    (∃ (addr n : Nat), addr + n ≤ 4194304) ∧
    (∃ (rd : Nat), ∃ r, r ≠ rd) :=
  ⟨⟨cs cl, c0, by decide +kernel⟩,
   ⟨63, by decide +kernel⟩,
   ⟨64, by decide +kernel⟩,
   ⟨4194296, 8, by decide +kernel⟩,
   ⟨15, 0, by decide +kernel⟩⟩

theorem witness_control_flow_and_semaphores :
    (∃ (s : State) (c : CoreId) (rs : Fin 16), mayDispatch s c = true ∧ rs.val ∉ (coreOf s c).spois) ∧
    (∃ (s : State) (c : CoreId) (rs : Fin 16) (bound len : Nat), mayDispatch s c = true ∧ rs.val ∉ (coreOf s c).spois ∧
      0 < (sreg (coreOf s c) rs).toNat ∧ 0 < bound ∧ 0 < len) ∧
    (∃ (s : State) (c : CoreId) (rs : Fin 16), mayDispatch s c = true ∧ rs.val ∉ (coreOf s c).spois ∧ sreg (coreOf s c) rs = 0) ∧
    (∃ (s : State) (c : CoreId) (f : Fin 32) (n : Nat), mayDispatch s c = true ∧ quietCore (coreOf s c) ∧ n ≤ tgetD (coreOf s c).flags f 0) ∧
    (∃ (s : State) (c : CoreId) (f : Fin 32) (n : Nat), mayDispatch s c = true ∧ (coreOf s c).qv = [] ∧ tgetD (coreOf s c).flags f 0 < n) ∧
    (∃ (s : State) (c : CoreId) (m : Fin 6), mayDispatch s c = true ∧ quietCore (coreOf s c) ∧ s.u.tick.lastMark ≠ 6 ∧ m.val ≤ s.u.tick.lastMark) ∧
    (∃ (s : State) (c : CoreId) (m : Fin 6), mayDispatch s c = true ∧ (coreOf s c).qv = [] ∧ (s.u.tick.lastMark = 6 ∨ s.u.tick.lastMark < m.val)) ∧
    (∃ (s : State) (c : CoreId) (idx : Fin 64) (n : Nat), mayDispatch s c = true ∧ quietCore (coreOf s c) ∧
      n ≤ tgetD s.u.sem (c.die.val * 64 + idx.val) 0) ∧
    (∃ (s : State) (c : CoreId) (idx : Fin 64) (n : Nat), mayDispatch s c = true ∧ (coreOf s c).qv = [] ∧
      tgetD s.u.sem (c.die.val * 64 + idx.val) 0 < n) ∧
    (∃ (s : State) (c : CoreId), mayDispatch s c = true ∧ quietCore (coreOf s c) ∧ (coreOf s c).passes = [] ∧ (coreOf s c).qFill = none ∧
      (coreOf s c).fFill = none ∧ (coreOf s c).sigs = []) ∧
    (∃ (s : State) (c : CoreId), mayDispatch s c = true) ∧
    (∃ (s : State) (c : CoreId) (g : Sig) (l r : List Sig), corePresent s.asm s.u c = true ∧ (coreOf s c).sigs = l ++ g :: r ∧ (∀ x,
      x ∈ l → x.dms ≠ 0) ∧ g.dms = 0 ∧ (∀ k, (coreAt s.u k).stalled = none)) :=
  ⟨⟨cs cl, c0, 0, by decide +kernel⟩,
   ⟨cs { cl with s := [(1, 100)] }, c0, 1, 99, 1, by decide +kernel⟩,
   ⟨cs cl, c0, 15, by decide +kernel⟩,
   ⟨cs { cl with flags := [(5, 65535)] }, c0, 5, 65535, by decide +kernel, qc (by decide +kernel), by decide +kernel⟩,
   ⟨cs cl, c0, 31, 1, by decide +kernel⟩,
   ⟨st { tk with core := [(383, cl)], tick := { tk.tick with lastMark := 5 } }, c0, 5, by decide +kernel, qc (by decide +kernel), by decide +kernel⟩,
   ⟨st { tk with core := [(383, cl)], tick := { tk.tick with lastMark := 4 } }, c0, 5, by decide +kernel⟩,
   ⟨st { u0 with core := [(383, cl)], sem := [(1535, 65535)] }, c0, 63, 65535, by decide +kernel, qc (by decide +kernel), by decide +kernel⟩,
   ⟨cs cl, c0, 63, 1, by decide +kernel⟩,
   ⟨cs cl, c0, by decide +kernel, qc (by decide +kernel), by decide +kernel⟩,
   ⟨cs cl, c0, by decide +kernel⟩,
   ⟨cs { cl with sigs := [{ die := 3, idx := 1, n := 1, dms := 2 }, { die := 3, idx := 2, n := 65535, dms := 0 }] }, c0,
     { die := 3, idx := 2, n := 65535, dms := 0 }, [{ die := 3, idx := 1, n := 1, dms := 2 }], [],
     by refine ⟨?_, ?_, ?_, ?_, no_stall ?_⟩ <;> decide +kernel⟩⟩

theorem witness_vector_instructions_and_stores :
    (∃ (s : State) (c : CoreId), mayDispatch s c = true ∧ quietCore (coreOf s c)) ∧
    (∃ (s : State) (c : CoreId) (vd : VDst) (addr : Nat) (r : List Instr), (coreOf s c).qv = .vectorLoad c vd addr :: r) ∧
    (∃ (s : State) (c : CoreId) (op : VOp) (fmt : VFmt) (vd : VDst) (va vb vc : Fin 64) (r : List Instr),
      (coreOf s c).qv = .vectorArith c op fmt vd va vb vc :: r) ∧
    (∃ (s : State) (c : CoreId) (g : VFun) (fmt : VFmt) (f : FF) (vd : VDst) (va : Fin 64) (r : List Instr), ffOf fmt = some f ∧
      (coreOf s c).qv = .vectorTranscendental c g fmt vd va :: r) ∧
    (∃ (s : State) (c : CoreId) (fmt : VFmt) (f : FF) (vd : VDst) (va : Fin 64) (n : Nat) (r : List Instr), ffOf fmt = some f ∧
      (coreOf s c).qv = .vectorSumReduce c fmt vd va n :: r) ∧
    (∃ (s : State) (c : CoreId) (fmt : VFmt) (f : FF) (isMin : Bool) (vd : VDst) (va : Fin 64) (n : Nat) (r : List Instr), ffOf fmt = some f ∧
      (coreOf s c).qv = .vectorMaxReduce c fmt isMin vd va n :: r) ∧
    (∃ (s : State) (c : CoreId) (fmt : VFmt) (f : FF) (vd : VDst) (va : Fin 64) (n k : Nat) (r : List Instr), ffOf fmt = some f ∧
      (coreOf s c).qv = .vtop c fmt vd va n k :: r) ∧
    (∃ (s : State) (c : CoreId) (vd : VDst) (va vb : Fin 64) (r : List Instr), (coreOf s c).qv = .vdot8 c vd va vb :: r) ∧
    (∃ (s : State) (c : CoreId) (vd : VDst) (va : Fin 64) (r : List Instr), (coreOf s c).qv = .vwide c vd va :: r ∧ vd.reg.val < 63) ∧
    (∃ (s : State) (c : CoreId) (src dst : VFmt) (vd : VDst) (va : Fin 64) (r : List Instr), (coreOf s c).qv = .vectorConvert c src dst vd va :: r) ∧
    (∃ (s : State) (c : CoreId) (vs : Fin 64) (addr n : Nat) (f : Option (Fin 32)) (r : List Instr),
      (coreOf s c).qv = .vectorStore c vs addr n f :: r ∧ n ≤ 256 ∧ addr + 4 * n ≤ 4194304 ∧ (sramOf s (coreKey c)).wf = true ∧
      (vreg (coreOf s c) vs).length = 256) ∧
    (∃ (s : State) (c : CoreId) (vs : Fin 64) (addr n : Nat) (f : Option (Fin 32)) (r : List Instr), ∃ a,
      (coreOf s c).qv = .vectorStore c vs addr n f :: r ∧ n ≤ 256 ∧ addr + 4 * n ≤ 4194304 ∧ (sramOf s (coreKey c)).wf = true ∧
      (vreg (coreOf s c) vs).length = 256 ∧ (a < addr ∨ addr + 4 * n ≤ a)) ∧
    (∃ (s : State) (c : CoreId) (vs : Fin 64) (addr n : Nat) (f : Option (Fin 32)) (r : List Instr), ∃ k,
      (coreOf s c).qv = .vectorStore c vs addr n f :: r ∧ n ≤ 256 ∧ addr + 4 * n ≤ 4194304 ∧ (sramOf s (coreKey c)).wf = true ∧
      (vreg (coreOf s c) vs).length = 256 ∧ k ≠ coreKey c) ∧
    (∃ (s : State) (c : CoreId) (vs : Fin 64) (addr n : Nat) (f : Option (Fin 32)) (r : List Instr), ∃ x,
      (coreOf s c).qv = .vectorStore c vs addr n f :: r ∧ n ≤ 256 ∧ addr + 4 * n ≤ 4194304 ∧ (sramOf s (coreKey c)).wf = true ∧
      (vreg (coreOf s c) vs).length = 256 ∧ vs.val ∉ (coreOf s c).vpois ∧ launchPois s.u (coreKey c) = false ∧ addr ≤ 64 * x ∧
      64 * x + 64 ≤ addr + 4 * n) :=
  ⟨⟨cs cl, c0, by decide +kernel, qc (by decide +kernel)⟩,
   ⟨cs { cl with qv := [.vectorLoad c0 ⟨63, none⟩ 4193280] }, c0, ⟨63, none⟩, 4193280, [], by decide +kernel⟩,
   ⟨cs { cl with qv := [.vectorArith c0 .fma .fp32 ⟨0, some 31⟩ 0 0 63] }, c0, .fma, .fp32, ⟨0, some 31⟩, 0, 0, 63, [], by decide +kernel⟩,
   ⟨cs { cl with qv := [.vectorTranscendental c0 .log .bf16 ⟨1, none⟩ 1] }, c0, .log, .bf16, .bf16, ⟨1, none⟩, 1, [], by decide +kernel⟩,
   ⟨cs { cl with qv := [.vectorSumReduce c0 .fp32 ⟨0, none⟩ 63 1] }, c0, .fp32, .fp32, ⟨0, none⟩, 63, 1, [], by decide +kernel⟩,
   ⟨cs { cl with qv := [.vectorMaxReduce c0 .bf16 true ⟨0, none⟩ 0 64] }, c0, .bf16, .bf16, true, ⟨0, none⟩, 0, 64, [], by decide +kernel⟩,
   ⟨cs { cl with qv := [.vtop c0 .fp32 ⟨0, none⟩ 62 2 64] }, c0, .fp32, .fp32, ⟨0, none⟩, 62, 2, 64, [], by decide +kernel⟩,
   ⟨cs { cl with qv := [.vdot8 c0 ⟨0, none⟩ 1 63] }, c0, ⟨0, none⟩, 1, 63, [], by decide +kernel⟩,
   ⟨cs { cl with qv := [.vwide c0 ⟨62, none⟩ 63] }, c0, ⟨62, none⟩, 63, [], by decide +kernel⟩,
   ⟨cs { cl with qv := [.vectorConvert c0 .fp32 .bf16 ⟨0, none⟩ 0, .mark c0 0] }, c0, .fp32, .bf16, ⟨0, none⟩, 0, [.mark c0 0], by decide +kernel⟩,
   ⟨cs { cl with qv := [.vectorStore c0 63 4193280 256 none] }, c0, 63, 4193280, 256, none, [], by decide +kernel⟩,
   ⟨cs { cl with qv := [.vectorStore c0 0 64 1 none] }, c0, 0, 64, 1, none, [], 68, by decide +kernel⟩,
   ⟨cs { cl with qv := [.vectorStore c0 0 64 1 none] }, c0, 0, 64, 1, none, [], 382, by decide +kernel⟩,
   ⟨cs { cl with qv := [.vectorStore c0 0 60 17 none] }, c0, 0, 60, 17, none, [], 1, by decide +kernel⟩⟩

theorem witness_rows_reach_their_engines :
    (∃ (s : State) (c : CoreId) (op : QzOp), mayDispatch s c = true ∧ quietCore (coreOf s c) ∧ (coreOf s c).qFill = none ∧
      (coreOf s c).fFill = none ∧ op.recTo = none ∧ op.distr = .bcast ∧ (∀ e, e < 16 → (engAt (coreOf s c) e).bufs = [])) ∧
    (∃ (s : State) (c : CoreId) (op : CfOp), mayDispatch s c = true ∧ quietCore (coreOf s c) ∧ (coreOf s c).qFill = none ∧
      (coreOf s c).fFill = none ∧ op.distr = .bcast ∧ (∀ e, e < 16 → (engAt (coreOf s c) e).bufs = [])) ∧
    (∃ (s : State) (c : CoreId) (e : Fin 16) (b : InBuf) (op : QzOp) (f : Fin 32), corePresent s.asm s.u c = true ∧
      quietCore { coreOf s c with qq := [] } ∧ (coreOf s c).qq = [op] ∧ (coreOf s c).stalled = none ∧
      (coreOf s c).qFill = some { engines := [e.val], flag := some f } ∧ (engAt (coreOf s c) e).bufs = [b]) ∧
    (∃ (s : State) (c : CoreId) (e : Fin 16) (b : InBuf) (op : CfOp) (f : Fin 32), corePresent s.asm s.u c = true ∧
      quietCore { coreOf s c with qf := [] } ∧ (coreOf s c).qf = [op] ∧ (coreOf s c).stalled = none ∧
      (coreOf s c).fFill = some { engines := [e.val], flag := some f } ∧ (engAt (coreOf s c) e).bufs = [b]) ∧
    (∃ (s : State) (c : CoreId), mayDispatch s c = true ∧ 4 ≤ (coreOf s c).qq.length ∧ (coreOf s c).qv = []) ∧
    (∃ (s : State) (c : CoreId), mayDispatch s c = true ∧ 4 ≤ (coreOf s c).qf.length ∧ (coreOf s c).qv = []) :=
  ⟨⟨cs cl, c0, qzAt 4193792 none, by decide +kernel, qc (by decide +kernel), by decide +kernel⟩,
   ⟨cs cl, c0, cfAt 4193984 none, by decide +kernel, qc (by decide +kernel), by decide +kernel⟩,
   ⟨cs { qq := [qzAt 0 (some 3)], qFill := some { engines := [15], flag := some 3 }, eng := [(15, { bufs := [{}] })] }, c0, 15, {}, qzAt 0 (some 3),
     3, by decide +kernel, qc (by decide +kernel), by decide +kernel⟩,
   ⟨cs { qf := [cfAt 0 (some 3)], fFill := some { engines := [0], flag := some 3 }, eng := [(0, { bufs := [{}] })] }, c0, 0, {}, cfAt 0 (some 3), 3,
     by decide +kernel, qc (by decide +kernel), by decide +kernel⟩,
   ⟨cs { cl with qq := List.replicate 4 (qzAt 0 none) }, c0, by decide +kernel⟩,
   ⟨cs { cl with qf := List.replicate 4 (cfAt 0 none) }, c0, by decide +kernel⟩⟩

theorem witness_passes_run_and_deliver :
    (∃ (s : State) (c : CoreId) (op : MxOp), mayDispatch s c = true ∧ quietCore (coreOf s c) ∧ (coreOf s c).loading = false ∧ (∀ e,
      e ∈ maskEngines op.mask → (engAt (coreOf s c) e).busy = false ∧ (nextBuf (coreOf s c) e).isSome = true) ∧ maskEngines op.mask ≠ [] ∧
      mxInvalid (coreOf s c) op = false ∧ (coreOf s c).passes = []) ∧
    (∃ (s : State) (c : CoreId) (e : Fin 16) (o : PassOut) (p : Pass), corePresent s.asm s.u c = true ∧ quietCore (coreOf s c) ∧
      (coreOf s c).stalled = none ∧ (coreOf s c).passes = [p] ∧ p.outs = [o] ∧ o.engine = e.val ∧ o.data ≠ [] ∧ o.addr + o.data.length ≤ 4194304 ∧
      (sramOf s (coreKey c)).wf = true) :=
  ⟨⟨cs { cl with eng := [(0, { bufs := [{ ready := true, row := { fmt := .int8 } }], w := { afmtMask := 15, groups := 1 } })] }, c0,
    { mask := 1, chain := none, group := 0, fmt := .int8, outFp32 := true, outAddr := 0, stride := 0, flag := some 1 }, by decide +kernel,
    qc (by decide +kernel), by decide +kernel⟩,
   ⟨cs { cl with passes := [{ outs := [{ engine := 15, addr := 4194303, data := [1] }] }] }, c0, 15, { engine := 15, addr := 4194303, data := [1] },
     { outs := [{ engine := 15, addr := 4194303, data := [1] }] }, by decide +kernel, qc (by decide +kernel), by decide +kernel⟩⟩

theorem witness_dma_queue_and_copies :
    (∃ (s : State) (c : CoreId) (list count : Nat), mayDispatch s c = true ∧ quietCore (coreOf s c) ∧ (coreOf s c).dStarted = false ∧
      sramPois s (coreKey c) list (32 * min count 64) = false) ∧
    (∃ (s : State) (c : CoreId) (list count : Nat), mayDispatch s c = true ∧ quietCore { coreOf s c with qd := [] } ∧ (coreOf s c).dStarted = true ∧
      (coreOf s c).qd.length < 16 ∧ sramPois s (coreKey c) list (32 * min count 64) = false) ∧
    (∃ (s : State) (c : CoreId) (list count : Nat) (f : Fin 32) (g : Sig), corePresent s.asm s.u c = true ∧ quietCore { coreOf s c with qd := [] } ∧
      (coreOf s c).qd = [.dm list count (some f)] ∧ (coreOf s c).dStarted = true ∧ (coreOf s c).stalled = none ∧ fabOut s.u (coreKey c) = 0 ∧
      (coreOf s c).sigs = [g]) ∧
    (∃ (s : State) (x : FenceOp), mayDispatch s x.core = true ∧ quietCore (coreOf s x.core) ∧ (coreOf s x.core).dStarted = false) ∧
    (∃ (s : State) (k src dst : Nat), (sramOf s k).wf = true ∧ src % 64 = 0 ∧ dst % 64 = 0 ∧ dst + 64 ≤ 4194304) ∧
    (∃ (s : State) (k src dst : Nat), ∃ a, (sramOf s k).wf = true ∧ src % 64 = 0 ∧ dst % 64 = 0 ∧ dst + 64 ≤ 4194304 ∧ (a < dst ∨ dst + 64 ≤ a)) :=
  ⟨⟨cs cl, c0, 4192256, 65, by decide +kernel, qc (by decide +kernel), by decide +kernel⟩,
   ⟨cs { cl with dStarted := true, qd := List.replicate 15 (.fence none) }, c0, 0, 1, by decide +kernel, qc (by decide +kernel), by decide +kernel⟩,
   ⟨cs { dStarted := true, qd := [.dm 0 1 (some 4)], sigs := [{ die := 0, idx := 0, n := 1, dms := 1 }] }, c0, 0, 1, 4,
     { die := 0, idx := 0, n := 1, dms := 1 }, by decide +kernel, qc (by decide +kernel), by decide +kernel⟩,
   ⟨cs cl, ⟨c0, some 31⟩, by decide +kernel, qc (by decide +kernel), by decide +kernel⟩,
   ⟨st u0, 415, 64, 4194240, by decide +kernel⟩,
   ⟨st u0, 0, 0, 64, 63, by decide +kernel⟩⟩

theorem witness_match_queries_of_a_core :
    (∃ (s : State) (c : CoreId) (slot : Nat), mayDispatch s c = true ∧ quietCore (coreOf s c) ∧ (coreOf s c).slot = some slot ∧
      (coreOf s c).hOut = 0) ∧
    (∃ (s : State) (c : CoreId) (op : MqOp) (f : Fin 32), corePresent s.asm s.u c = true ∧ quietCore { coreOf s c with qh := [] } ∧
      (coreOf s c).stalled = none ∧ (coreOf s c).qh = [op] ∧ op.flag = some f ∧ op.count = 1 ∧ (sramOf s (coreKey c)).wf = true ∧
      op.dst + 8 ≤ 4194304 ∧ op.profile.val ∉ slotProfiles s.u ((coreOf s c).slot.getD 0xFF)) ∧
    (∃ (s : State) (c : CoreId) (op : MqOp) (f : Fin 32), corePresent s.asm s.u c = true ∧ quietCore { coreOf s c with qh := [] } ∧
      (coreOf s c).stalled = none ∧ (coreOf s c).qh = [op] ∧ op.flag = some f ∧ op.count = 1 ∧ (coreOf s c).hOut = 1 ∧
      (sramOf s (coreKey c)).wf = true ∧ op.dst + 8 ≤ 4194304 ∧ op.profile.val ∈ slotProfiles s.u ((coreOf s c).slot.getD 0xFF) ∧
      allZero ((sramRead s (coreKey c) op.src 32).drop 20) = true ∧ sramPois s (coreKey c) op.src 32 = false) :=
  ⟨⟨cs { cl with slot := some 31 }, c0, 31, by decide +kernel, qc (by decide +kernel), by decide +kernel⟩,
   ⟨cs { qh := [mqAt 0 4194296] }, c0, mqAt 0 4194296, 31, by decide +kernel, qc (by decide +kernel), by decide +kernel⟩,
   ⟨st { u0 with core := [(383, { slot := some 255, hOut := 1, qh := [mqAt 0 64] })], pol := [(0, { cur := some (pay 288 [(16, 1, 255), (17, 1, 255), (18, 1, 255)], 1) })] },
     c0, mqAt 0 64, 31, by decide +kernel, qc (by decide +kernel), by decide +kernel⟩⟩

theorem witness_block_messages_and_check :
    (∃ (s : State) (mb : Fin 64) (p : Bytes), heard s.u mb 0x0001 p) ∧
    (∃ (s : State) (mb : Fin 64) (p : Bytes), heard s.u mb 0x0005 p) ∧
    (∃ (s : State) (mb : Fin 64) (p : Bytes), heard s.u mb 0x0006 p) ∧
    (∃ (s : State) (mb : Fin 64) (p : Bytes), heard s.u mb 0x0002 p ∧ le p 24 1 ≤ 64 ∧ (∀ k, k < le p 24 1 → le p (40 + 16 * k) 1 ≤ 3) ∧
      s.u.blk.en = false) ∧
    (∃ (s : State) (mb : Fin 64) (p : Bytes), heard s.u mb 0x0002 p ∧ le p 24 1 ≤ 64 ∧ (∀ k, k < le p 24 1 → le p (40 + 16 * k) 1 ≤ 3) ∧
      s.u.blk.en = true) ∧
    (∃ (s : State) (mb : Fin 64) (p : Bytes), heard s.u mb 0x0003 p ∧ le p 4 2 ≤ 1024 ∧ le p 6 2 < le p 4 2 ∧ 0 < le p 12 2 ∧ le p 12 2 ≤ 3600 ∧
      s.u.blk.en = false ∧ t1Need s.asm { s.u with tier := { s.u.tier with pageMain := le p 0 4, jobPool := le p 8 4 } } ≤ tier1Bytes s.asm) ∧
    (∃ (s : State) (mb : Fin 64) (p x y : Bytes) (idx pool : Dma), heard s.u mb 0x0004 p ∧ 0 < le p 0 4 ∧ le p 0 4 ≤ 1048575 ∧
      bufOk s.u mb (bufOf p 16) = true ∧ 4 * le p 0 4 ≤ (bufOf p 16).len ∧ bufOk s.u mb (bufOf p 32) = true ∧ (bufOf p 32).len ≤ 2 ^ 22 ∧
      s.u.blk.en = false ∧ anyInService s.u = false ∧ bufRead s mb (bufOf p 16) idx = some x ∧ bufRead s mb (bufOf p 32) pool = some y ∧ (∀ k,
      k < le p 0 4 → bitsOf (le x (4 * k) 4) 3 1 = 0 ∧ bitsOf (le x (4 * k) 4) 31 10 + bitsOf (le x (4 * k) 4) 9 4 ≤ (bufOf p 32).len)) ∧
    (∃ (s : State), s.u.blk.checking = true ∧ blockCheck s.asm s.u = []) ∧
    (∃ (s : State) (r : Nat × Nat) (l : List (Nat × Nat)), s.u.blk.checking = true ∧ blockCheck s.asm s.u = r :: l) :=
  ⟨⟨st (ask 0 0x0001 (pay 0 [])), 0, pay 0 [], hd (by decide +kernel) (by decide +kernel)⟩,
   ⟨st (ask 0 0x0005 (pay 0 [])), 0, pay 0 [], hd (by decide +kernel) (by decide +kernel)⟩,
   ⟨st (ask 0 0x0006 (pay 0 [])), 0, pay 0 [], hd (by decide +kernel) (by decide +kernel)⟩,
   ⟨st (ask 0 0x0002 (pay 64 [(24, 1, 2), (40, 1, 3), (56, 1, 1)])), 0, pay 64 [(24, 1, 2), (40, 1, 3), (56, 1, 1)],
     hd (by decide +kernel) (by decide +kernel), by decide +kernel⟩,
   ⟨st (ask 0 0x0002 (pay 64 [(24, 1, 2), (40, 1, 3), (56, 1, 1)]) { u0 with blk := { u0.blk with en := true } }), 0, pay 64 [(24, 1, 2), (40, 1, 3),
     (56, 1, 1)], hd (by decide +kernel) (by decide +kernel), by decide +kernel⟩,
   ⟨st (ask 0 0x0003 (pay 16 [(0, 4, 0), (4, 2, 1024), (6, 2, 1023), (12, 2, 3600)])), 0, pay 16 [(0, 4, 0), (4, 2, 1024), (6, 2, 1023), (12, 2,
     3600)], hd (by decide +kernel) (by decide +kernel), by decide +kernel⟩,
   ⟨st (ask 0 0x0004 (pay 48 [(0, 4, 1), (16, 1, 0), (20, 4, 64), (32, 1, 0), (36, 4,
     64)]) { u0 with port0 := { u0.port0 with busMaster := true } }), 0, pay 48 [(0, 4, 1), (16, 1, 0), (20, 4, 64), (32, 1, 0), (36, 4, 64)],
     List.replicate 64 0, List.replicate 64 0, .data [], .data [], hd (by decide +kernel) (by decide +kernel), by decide +kernel⟩,
   ⟨st { u0 with fw := { u0.fw with stage := 4 }, blk := { u0.blk with checking := true, topoOk := true, vocabOk := true, configOk := true }, fab := { u0.fab with groupId := 1, selfId := 2, masterId := 2 }, tier := { u0.tier with linkMask := 255 } },
     by decide +kernel⟩,
   ⟨st { u0 with blk := { u0.blk with checking := true } }, (0x0101, 0xFF), [(0x0103, 0), (0x0108, 0), (0x0109, 0), (0x010C, 0)], by decide +kernel⟩⟩

theorem witness_context_messages :
    (∃ (s : State) (mb : Fin 64) (p : Bytes), heard s.u mb 0x0101 p ∧ ctxConfigFault p = none ∧ (tgetD s.u.ctx (le p 0 1) {}).state ≠ 2 ∧
      (tgetD s.u.ctx (le p 0 1) {}).state ≠ 3 ∧ (tgetD s.u.ctx (le p 0 1) {}).enableAt = none) ∧
    (∃ (s : State) (mb : Fin 64) (p : Bytes), heard s.u mb 0x0102 p ∧ 0 < le p 0 1 ∧ le p 0 1 ≤ 63 ∧ 80 ≤ le p 2 2 ∧ le p 2 2 ≤ 2047 ∧
      ringOk s.u (bufOf p 16) 16 = true ∧ ringOk s.u (bufOf p 32) 16 = true ∧ ringOk s.u (bufOf p 48) 64 = true ∧
      (tgetD s.u.ctx (le p 0 1) {}).state ≠ 2 ∧ (tgetD s.u.ctx (le p 0 1) {}).state ≠ 3 ∧ (tgetD s.u.ctx (le p 0 1) {}).enableAt = none) ∧
    (∃ (s : State) (mb : Fin 64) (p : Bytes), heard s.u mb 0x0102 p ∧ 0 < le p 0 1 ∧ le p 0 1 ≤ 63 ∧ 80 ≤ le p 2 2 ∧ le p 2 2 ≤ 2047 ∧
      ringOk s.u (bufOf p 16) 16 = true ∧ ringOk s.u (bufOf p 32) 16 = true ∧ ringOk s.u (bufOf p 48) 64 = true ∧
      (tgetD s.u.ctx (le p 0 1) {}).state = 2) ∧
    (∃ (s : State) (mb : Fin 64) (p : Bytes), heard s.u mb 0x0103 p ∧ 0 < le p 0 1 ∧ le p 0 1 ≤ 63 ∧ le p 1 1 = 1 ∧ le p 8 1 ≤ 31 ∧ 0 < le p 10 2 ∧
      le p 10 2 ≤ 1024 ∧ le p 10 2 + ((s.u.ctx.filter (fun e => e.1 != le p 0 1)).map (fun e => tgetD (nextShares s.u e.1) (le p 8 1) 0)).sum ≤ 1024) ∧
    ((∀ k f, Config.planBreak k f = none) → ∃ (s : State) (mb : Fin 64) (p : Bytes) (lines : List Dma), heard s.u mb 0x0104 p ∧ 0 < le p 0 1 ∧
      le p 0 1 ≤ 63 ∧ (tgetD s.u.ctx (le p 0 1) {}).state ≠ 2 ∧ (tgetD s.u.ctx (le p 0 1) {}).state ≠ 3 ∧
      (tgetD s.u.ctx (le p 0 1) {}).enableAt = none ∧ contextCheck s.asm s.u (le p 0 1) lines none = [] ∧ bitAt (flagsOf s.u mb) 1 = false) ∧
    (∃ (s : State) (mb : Fin 64) (p : Bytes) (lines : List Dma), heard s.u mb 0x0104 p ∧ 0 < le p 0 1 ∧ le p 0 1 ≤ 63 ∧
      (tgetD s.u.ctx (le p 0 1) {}).state ≠ 2 ∧ (tgetD s.u.ctx (le p 0 1) {}).state ≠ 3 ∧ (tgetD s.u.ctx (le p 0 1) {}).enableAt = none ∧
      contextCheck s.asm s.u (le p 0 1) lines none ≠ []) ∧
    (∃ (s : State) (mb : Fin 64) (p : Bytes), heard s.u mb 0x0105 p ∧ 0 < le p 0 1 ∧ le p 0 1 ≤ 63 ∧ (tgetD s.u.ctx (le p 0 1) {}).state = 2) ∧
    (∃ (s : State) (mb : Fin 64) (p : Bytes), heard s.u mb 0x0106 p ∧ 0 < le p 0 1 ∧ le p 0 1 ≤ 63 ∧ (mb = 0 ∨ mb.val = le p 0 1)) :=
  ⟨⟨st (ask 0 0x0101 (pay 32 [(0, 1, 63), (1, 1, 1), (2, 1, 255), (3, 1, 1), (8, 4, 65536), (12, 4, 86400), (16, 1, 254), (24, 2, 32768), (26, 2,
    1024)])), 0, pay 32 [(0, 1, 63), (1, 1, 1), (2, 1, 255), (3, 1, 1), (8, 4, 65536), (12, 4, 86400), (16, 1, 254), (24, 2, 32768), (26, 2, 1024)],
    hd (by decide +kernel) (by decide +kernel), by decide +kernel⟩,
   ⟨st (ask 0 0x0102 (pay 64 [(0, 1, 63), (2, 2, 2047), (16, 1, 0), (20, 4, 1088), (32, 1, 1), (36, 4, 1088), (48, 1, 0), (52, 4, 4160)])), 0,
     pay 64 [(0, 1, 63), (2, 2, 2047), (16, 1, 0), (20, 4, 1088), (32, 1, 1), (36, 4, 1088), (48, 1, 0), (52, 4, 4160)],
     hd (by decide +kernel) (by decide +kernel), by decide +kernel⟩,
   ⟨st (ask 0 0x0102 (pay 64 [(0, 1, 63), (2, 2, 2047), (16, 1, 0), (20, 4, 1088), (32, 1, 1), (36, 4, 1088), (48, 1, 0), (52, 4,
     4160)]) { u0 with ctx := [(63, { state := 2 })] }), 0, pay 64 [(0, 1, 63), (2, 2, 2047), (16, 1, 0), (20, 4, 1088), (32, 1, 1), (36, 4, 1088),
     (48, 1, 0), (52, 4, 4160)], hd (by decide +kernel) (by decide +kernel), by decide +kernel⟩,
   ⟨st (ask 0 0x0103 (pay 16 [(0, 1, 63), (1, 1, 1), (8, 1, 31), (10, 2, 1024)])), 0, pay 16 [(0, 1, 63), (1, 1, 1), (8, 1, 31), (10, 2, 1024)],
     hd (by decide +kernel) (by decide +kernel), by decide +kernel⟩,
   fun h => ⟨st (ask 0 0x0104 (pay 8 [(0, 1, 63)]) ({ u0 with blk := { u0.blk with en := true }, tick := { u0.tick with en := true }, ctx := [(63, { state := 1, ringsSet := true, sub := { len := 4160 }, cpl := { len := 4160 }, bat := { len := 4160 } })], tier := { u0.tier with jobPool := 1 } })),
     0, pay 8 [(0, 1, 63)], [.data [], .data [], .data []], by refine ⟨hd ?_ ?_, ?_, ?_, ?_, ?_, ?_, by unfold contextCheck planLate; simp only [h]; decide +kernel, ?_⟩ <;> decide +kernel⟩,
   ⟨st (ask 0 0x0104 (pay 8 [(0, 1, 63)])), 0, pay 8 [(0, 1, 63)], [],
     by refine ⟨hd ?_ ?_, ?_, ?_, ?_, ?_, ?_, ne_of_apply_ne (fun l => l.head?) ?_⟩ <;> decide +kernel⟩,
   ⟨st (ask 0 0x0105 (pay 8 [(0, 1, 63)]) { u0 with ctx := [(63, { state := 2 })] }), 0, pay 8 [(0, 1, 63)],
     hd (by decide +kernel) (by decide +kernel), by decide +kernel⟩,
   ⟨st (ask 63 0x0106 (pay 8 [(0, 1, 63)])), 63, pay 8 [(0, 1, 63)], hd (by decide +kernel) (by decide +kernel), by decide +kernel⟩⟩

theorem witness_policy_messages_and_accepted_changes :
    (∃ (s : State) (mb : Fin 64) (p : Bytes), heard s.u mb 0x0201 p ∧ le p 0 2 ≤ 1023 ∧ policyFault s.u (sliceZ p 8 288) = none) ∧
    (∃ (s : State) (mb : Fin 64) (p : Bytes) (off : Nat), heard s.u mb 0x0201 p ∧ le p 0 2 ≤ 1023 ∧ policyFault s.u (sliceZ p 8 288) = some off) ∧
    (∃ (s : State) (mb : Fin 64) (p : Bytes), heard s.u mb 0x0202 p ∧ le p 0 2 ≤ 1023) ∧
    (∃ (s : State) (n id v : Nat) (r : Bytes), s.u.changes = [(n, .policy id r v)] ∧ running s.u = true ∧ n ≤ s.u.tick.number ∧ s.u.str = [] ∧ (∀ c,
      c ∈ s.u.ctx → c.2.state ≠ 2)) ∧
    (∃ (s : State) (n k : Nat), s.u.changes = [(n, .enable k)] ∧ running s.u = true ∧ n ≤ s.u.tick.number ∧ s.u.str = []) ∧
    (∃ (s : State) (n k : Nat) (sh : Tbl Nat), s.u.changes = [(n, .shares k sh)] ∧ running s.u = true ∧ n ≤ s.u.tick.number ∧ s.u.str = [] ∧ (∀ c,
      c ∈ s.u.ctx → c.2.state ≠ 2)) ∧
    (∃ (s : State) (n : Nat) (c : Change), s.u.changes = [(n, c)] ∧ running s.u = true ∧ s.u.tick.number < n ∧ (∀ a b r l, c ≠ .sampling a b r l)) :=
  ⟨⟨st (ask 0 0x0201 (pay 296 [(0, 2, 1023), (8, 2, 0xFFFF), (10, 2, 0xFFFF), (12, 2, 0xFFFF), (14, 2, 0xFFFF), (16, 2, 0xFFFF), (18, 2, 0xFFFF),
    (20, 2, 0xFFFF), (24, 1, 255), (25, 1, 255), (26, 1, 255), (30, 2, 1024)])), 0, pay 296 [(0, 2, 1023), (8, 2, 0xFFFF), (10, 2, 0xFFFF), (12, 2,
    0xFFFF), (14, 2, 0xFFFF), (16, 2, 0xFFFF), (18, 2, 0xFFFF), (20, 2, 0xFFFF), (24, 1, 255), (25, 1, 255), (26, 1, 255), (30, 2, 1024)],
    hd (by decide +kernel) (by decide +kernel), by decide +kernel⟩,
   ⟨st (ask 0 0x0201 (pay 296 [(0, 2, 0)])), 0, pay 296 [(0, 2, 0)], 0, hd (by decide +kernel) (by decide +kernel), by decide +kernel⟩,
   ⟨st (ask 0 0x0202 (pay 8 [(0, 2, 1023)])), 0, pay 8 [(0, 2, 1023)], hd (by decide +kernel) (by decide +kernel), by decide +kernel⟩,
   ⟨st { u0 with changes := [(0, .policy 5 [1] 2)], tick := { u0.tick with st := .current } }, 0, 5, 2, [1], by decide +kernel⟩,
   ⟨st { u0 with changes := [(0, .enable 5)], tick := { u0.tick with st := .current } }, 0, 5, by decide +kernel⟩,
   ⟨st { tk with changes := [(7, .shares 63 [(31, 4)])] }, 7, 63, [(31, 4)], by decide +kernel⟩,
   ⟨st { u0 with changes := [(1, .enable 5)], tick := { u0.tick with st := .current } }, 1, .enable 5,
     by refine ⟨?_, ?_, ?_, fun _ _ _ _ h => by cases h⟩ <;> decide +kernel⟩⟩

theorem witness_counter_messages :
    (∃ (s : State) (mb : Fin 64) (p : Bytes), heard s.u mb 0x0801 p ∧ dieFitted s.asm (le p 0 1) (le p 1 1) = true ∧ le p 2 1 ≤ 31 ∧
      sourceOk (le p 0 1) (le p 4 2) = true) ∧
    (∃ (s : State) (mb : Fin 64) (p : Bytes), heard s.u mb 0x0802 p ∧ bufOk s.u mb (bufOf p 16) = true ∧
      512 * (cntDies s.asm mb (le p 8 8)).length + 256 ≤ (bufOf p 16).len) ∧
    (∃ (i : Nat), ∃ j, j ≠ i) ∧
    (∃ (s : State) (mb : Fin 64) (p : Bytes), s.u.cnt.reads = [(mb.val, false)] ∧ awaits s mb ∧ p = payloadOf (tgetD s.u.mbx mb {}) ∧
      (bufOf p 16).space = 0 ∧ dmaUp s.u 0 = true ∧ 512 * (cntDies s.asm mb (le p 8 8)).length + 256 ≤ (bufOf p 16).len) ∧
    (∃ (u : Units) (die source k i : Nat) (c : DieCnt), 0 < k ∧ tget u.cnt.die i = some c ∧ i / 32 = die ∧ c.source = source) ∧
    (∃ (k : Nat), 0 < k) :=
  ⟨⟨st (ask 0 0x0801 (pay 8 [(0, 1, 3), (1, 1, 1), (2, 1, 31), (4, 2, 0x304)])), 0, pay 8 [(0, 1, 3), (1, 1, 1), (2, 1, 31), (4, 2, 0x304)],
    hd (by decide +kernel) (by decide +kernel), by decide +kernel⟩,
   ⟨st (ask 0 0x0802 (pay 32 [(8, 8, 0), (20, 4, 256)])), 0, pay 32 [(8, 8, 0), (20, 4, 256)], hd (by decide +kernel) (by decide +kernel),
     by decide +kernel⟩,
   ⟨0, 1, by decide +kernel⟩,
   ⟨st { u0 with cnt := { u0.cnt with reads := [(63, false)] }, port0 := { u0.port0 with busMaster := true }, mbx := [(63, { begun 0x0802 (pay 32 [(16, 1, 0), (20, 4, 256)]) with phase := .waiting })] },
     63, pay 32 [(16, 1, 0), (20, 4, 256)], by decide +kernel, aw (by decide +kernel), by decide +kernel⟩,
   ⟨{ u0 with cnt := { u0.cnt with die := [(33, { source := 5, value := 1 })] } }, 1, 5, 2 ^ 48, 33, { source := 5, value := 1 }, by decide +kernel⟩,
   ⟨1, by decide +kernel⟩⟩

theorem witness_match_configuration_messages :
    (∃ (s : State) (mb : Fin 64) (p : Bytes), heard s.u mb 0x0203 p ∧ profileFault s.u (sliceZ p 8 32) = none ∧ profValid (sliceZ p 8 32) = true) ∧
    (∃ (s : State) (mb : Fin 64) (p : Bytes), heard s.u mb 0x0203 p ∧ profileFault s.u (sliceZ p 8 32) = none ∧ profValid (sliceZ p 8 32) = false ∧
      profNamed s.u (le p 0 1) = false) ∧
    (∃ (s : State) (mb : Fin 64) (p : Bytes) (off : Nat), heard s.u mb 0x0203 p ∧ profileFault s.u (sliceZ p 8 32) = some off) ∧
    (∃ (s : State) (mb : Fin 64) (p : Bytes) (d : Desc), heard s.u mb 0x0204 p ∧ le p 0 1 ≤ 1 ∧ le p 2 2 ≤ 4095 ∧ le p 4 1 ≤ 1 ∧
      (if le p 0 1 = 0 then le p 8 4 < 524288 ∧ le p 12 4 < 262144 else le p 8 4 = 0 ∧ le p 12 4 = 0) ∧
      (le p 4 1 = 1 ∨ nextDefined s.u (le p 0 1 == 1) (le p 2 2) = false ∨ ∀ r,
      r ∈ nextProfiles s.u → profNames r (le p 0 1 == 1) (le p 2 2) = false) ∧
      d = { defined := le p 4 1 == 1, accept := le p 8 4, start := le p 12 4, classMap := if le p 0 1 = 0 then sliceZ p 16 256 else [] }) ∧
    (∃ (s : State) (mb : Fin 64) (p : Bytes), heard s.u mb 0x0205 p ∧ le p 0 4 < 524288 ∧ 0 < le p 4 2 ∧ le p 4 2 ≤ 500 ∧
      le p 0 4 + le p 4 2 ≤ 524288 ∧ (∀ k, k < le p 4 2 → actionBad (le p (8 + 8 * k) 8) = false)) ∧
    (∃ (s : State) (mb : Fin 64) (p x : Bytes) (d : Dma), heard s.u mb 0x0206 p ∧ le p 0 4 < 2 ^ 20 ∧ le p 0 4 + le p 4 4 ≤ 2 ^ 20 ∧
      bufOk s.u mb (bufOf p 16) = true ∧ 4 * le p 4 4 ≤ (bufOf p 16).len ∧ bufRead s mb (bufOf p 16) d = some x ∧ (∀ k,
      k < le p 4 4 → le x (4 * k) 4 < 2 ^ 20)) ∧
    (∃ (s : State) (mb : Fin 64) (p : Bytes), heard s.u mb 0x0207 p ∧ le p 0 2 ≤ 4095 ∧ replFault (sliceZ p 8 128) = none) ∧
    (∃ (s : State) (mb : Fin 64) (p : Bytes), heard s.u mb 0x0208 p ∧ le p 0 1 ≤ 1 ∧ le p 1 1 ≤ 31 ∧ le p 2 1 ≤ 3 ∧ le p 3 1 ≤ 1 ∧
      le p 4 2 ≤ s.u.tick.period * 1500 / 16 ∧ (le p 2 1 = nextMode s.u (le p 0 1 * 32 + le p 1 1) ∨ bankHolds s.u (le p 0 1 * 32 + le p 1 1) = false ∧ ∀ r,
      r ∈ nextProfiles s.u → bitAt (profBanks r) (le p 0 1 * 32 + le p 1 1) = false)) :=
  ⟨⟨st (ask 0 0x0203 (pay 40 [(0, 1, 255), (8, 8, 1), (16, 1, 128)])), 0, pay 40 [(0, 1, 255), (8, 8, 1), (16, 1, 128)],
    hd (by decide +kernel) (by decide +kernel), by decide +kernel⟩,
   ⟨st (ask 0 0x0203 (pay 40 [(0, 1, 255)])), 0, pay 40 [(0, 1, 255)], hd (by decide +kernel) (by decide +kernel), by decide +kernel⟩,
   ⟨st (ask 0 0x0203 (pay 40 [(0, 1, 255), (16, 1, 128)])), 0, pay 40 [(0, 1, 255), (16, 1, 128)], 0, hd (by decide +kernel) (by decide +kernel),
     by decide +kernel⟩,
   ⟨st (ask 0 0x0204 (pay 272 [(0, 1, 0), (2, 2, 4095), (4, 1, 1), (8, 4, 524287), (12, 4, 262143)])), 0, pay 272 [(0, 1, 0), (2, 2, 4095), (4, 1,
     1), (8, 4, 524287), (12, 4, 262143)], { defined := true, accept := 524287, start := 262143, classMap := List.replicate 256 0 },
     hd (by decide +kernel) (by decide +kernel), by decide +kernel⟩,
   ⟨st (ask 0 0x0205 (pay 16 [(0, 4, 524287), (4, 2, 1), (8, 8, 0x1000000000000000)])), 0, pay 16 [(0, 4, 524287), (4, 2, 1), (8, 8,
     0x1000000000000000)], hd (by decide +kernel) (by decide +kernel), by decide +kernel⟩,
   ⟨st (ask 0 0x0206 (pay 32 [(0, 4, 1048575), (4, 4, 1), (16, 1, 0), (20, 4, 64)]) { u0 with port0 := { u0.port0 with busMaster := true } }), 0,
     pay 32 [(0, 4, 1048575), (4, 4, 1), (16, 1, 0), (20, 4, 64)], leBytes 4 1048575 ++ List.replicate 60 0, .data (leBytes 4 1048575),
     hd (by decide +kernel) (by decide +kernel), by decide +kernel⟩,
   ⟨st (ask 0 0x0207 (pay 136 [(0, 2, 4095), (8, 1, 31), (9, 1, 8)])), 0, pay 136 [(0, 2, 4095), (8, 1, 31), (9, 1, 8)],
     hd (by decide +kernel) (by decide +kernel), by decide +kernel⟩,
   ⟨st (ask 0 0x0208 (pay 8 [(0, 1, 1), (1, 1, 31), (2, 1, 3), (3, 1, 1), (4, 2, 9375)])), 0, pay 8 [(0, 1, 1), (1, 1, 31), (2, 1, 3), (3, 1, 1), (4,
     2, 9375)], hd (by decide +kernel) (by decide +kernel), by decide +kernel⟩⟩

theorem witness_match_update_and_read_messages :
    (∃ (s : State) (mb : Fin 64) (p x : Bytes) (d : Dma), heard s.u mb 0x0209 p ∧ bufOk s.u mb (bufOf p 16) = true ∧ le p 0 4 = 0 ∧
      bufRead s mb (bufOf p 16) d = some x) ∧
    (∃ (s : State) (mb : Fin 64) (p x : Bytes) (d : Dma), heard s.u mb 0x0209 p ∧ bufOk s.u mb (bufOf p 16) = true ∧ le p 0 4 = 1 ∧
      64 ≤ (bufOf p 16).len ∧ bufRead s mb (bufOf p 16) d = some x ∧ updBad s.u (sliceZ x 0 64) = false ∧ bitsOf (le x 40 4) 23 20 = 1 ∧
      s.u.mat.updLists = [] ∧ (bankAt s.u (le x 40 4 % 2 ^ 20 / 16384)).queue.length < 64 ∧ x.length = (bufOf p 16).len) ∧
    (∃ (s : State) (mb : Fin 64) (p x : Bytes) (d : Dma), heard s.u mb 0x0209 p ∧ bufOk s.u mb (bufOf p 16) = true ∧ 0 < le p 0 4 ∧
      64 * le p 0 4 ≤ (bufOf p 16).len ∧ bufRead s mb (bufOf p 16) d = some x ∧ (∀ k, k < le p 0 4 → updBad s.u (sliceZ x (64 * k) 64) = false)) ∧
    (∃ (s : State) (mb : Fin 64) (p x : Bytes) (d : Dma) (k : Nat), heard s.u mb 0x0209 p ∧ bufOk s.u mb (bufOf p 16) = true ∧
      64 * le p 0 4 ≤ (bufOf p 16).len ∧ bufRead s mb (bufOf p 16) d = some x ∧ k < le p 0 4 ∧ updBad s.u (sliceZ x (64 * k) 64) = true) ∧
    (∃ (s : State) (mb : Fin 64) (p : Bytes), heard s.u mb 0x020A p ∧ le p 0 4 < 2 ^ 20 ∧ 0 < le p 4 2 ∧ le p 4 2 ≤ 4096 ∧
      le p 0 4 + le p 4 2 ≤ 2 ^ 20 ∧ bufOk s.u mb (bufOf p 16) = true ∧ 64 * le p 4 2 ≤ (bufOf p 16).len ∧ (bufOf p 16).space = 0 ∧
      dmaUp s.u 0 = true) :=
  ⟨⟨st (ask 0 0x0209 (pay 32 [(16, 1, 0), (20, 4, 64)]) { u0 with port0 := { u0.port0 with busMaster := true } }), 0, pay 32 [(16, 1, 0), (20, 4,
    64)], List.replicate 64 0, .data [], hd (by decide +kernel) (by decide +kernel), by decide +kernel⟩,
   ⟨st (ask 0 0x0209 (pay 32 [(0, 4, 1), (16, 1, 0), (20, 4, 64)]) { u0 with port0 := { u0.port0 with busMaster := true } }), 0, pay 32 [(0, 4, 1),
     (16, 1, 0), (20, 4, 64)], (sliceZ (pay 64 [(20, 20, 1), (40, 4, 1048576 + 1048575), (44, 4, 0x80000FFF)]) 0 64), .data (sliceZ (pay 64 [(20, 20,
     1), (40, 4, 1048576 + 1048575), (44, 4, 0x80000FFF)]) 0 64), hd (by decide +kernel) (by decide +kernel), by decide +kernel⟩,
   ⟨st (ask 0 0x0209 (pay 32 [(0, 4, 1), (16, 1, 0), (20, 4, 64)]) { u0 with port0 := { u0.port0 with busMaster := true } }), 0, pay 32 [(0, 4, 1),
     (16, 1, 0), (20, 4, 64)], pay 64 [(40, 4, 0x1FFFFF)], .data (pay 64 [(40, 4, 0x1FFFFF)]), hd (by decide +kernel) (by decide +kernel),
     by decide +kernel⟩,
   ⟨st (ask 0 0x0209 (pay 32 [(0, 4, 1), (16, 1, 0), (20, 4, 64)]) { u0 with port0 := { u0.port0 with busMaster := true } }), 0, pay 32 [(0, 4, 1),
     (16, 1, 0), (20, 4, 64)], pay 64 [(40, 4, 0x5FFFFF)], .data (pay 64 [(40, 4, 0x5FFFFF)]), 0, hd (by decide +kernel) (by decide +kernel),
     by decide +kernel⟩,
   ⟨st (ask 0 0x020A (pay 32 [(0, 4, 1044480), (4, 2, 4096), (16, 1, 0), (20, 4, 262144)]) { u0 with port0 := { u0.port0 with busMaster := true } }),
     0, pay 32 [(0, 4, 1044480), (4, 2, 4096), (16, 1, 0), (20, 4, 262144)], hd (by decide +kernel) (by decide +kernel), by decide +kernel⟩⟩

theorem witness_search_finds_the_winner :
    (∃ (l : List (Nat × MEntry)) (w : Nat × MEntry), winner l = some w) ∧
    (∃ (l : List (Nat × MEntry)) (w : Nat × MEntry), ∃ e, winner l = some w ∧ e ∈ l) ∧
    (∃ (l : List (Nat × MEntry)) (w : Nat × MEntry), ∃ x y e, winner l = some w ∧ l = x ++ w :: y ∧ w ∉ x ∧ e ∈ x) ∧
    (∃ (m : Match) (mode banks key : Nat) (w : Nat × MEntry), keyModeOk mode key = true ∧ winner (matching m banks mode key) = some w) ∧
    (∃ (m : Match) (mode banks key : Nat) (w e : Nat × MEntry), Tsorted m.entries = true ∧ winner (matching m banks mode key) = some w ∧
      e ∈ matching m banks mode key) ∧
    (∃ (s : State) (p : Fin 256) (key : Key), keyModeOk (profMode (profAt s.u p)) key.toNat = true ∧ (∀ w,
      winner (matching s.u.mat (profBanks (profAt s.u p)) (profMode (profAt s.u p)) key.toNat) = some w → parOk (entryAt s.u w.1) = true)) ∧
    (∃ (s : State) (p : Fin 256) (key : Key) (l : List Upset) (v : Units) (w : Nat × MEntry) (e : MEntry), v = upset l s.u ∧
      keyModeOk (profMode (profAt s.u p)) key.toNat = true ∧
      winner (matching v.mat (profBanks (profAt s.u p)) (profMode (profAt s.u p)) key.toNat) = some w ∧ parOk (entryAt v w.1) = false ∧
      tget s.u.mat.shadow w.1 = some e) :=
  ⟨⟨[(0, { prio := 1 }), (5, { prio := 3 }), (9, { prio := 3 })], (5, { prio := 3 }), by decide +kernel⟩,
   ⟨[(0, { prio := 1 }), (5, { prio := 3 }), (9, { prio := 3 })], (5, { prio := 3 }), (9, { prio := 3 }), by decide +kernel⟩,
   ⟨[(0, { prio := 1 }), (5, { prio := 3 }), (9, { prio := 3 })], (5, { prio := 3 }), [(0, { prio := 1 })], [(9, { prio := 3 })], (0, { prio := 1 }),
     by decide +kernel⟩,
   ⟨{ u0.mat with entries := [(1048575, { valid := true, prio := 3 })] }, 0, 2 ^ 63, 2 ^ 160 - 1, (1048575, { valid := true, prio := 3 }),
     by decide +kernel⟩,
   ⟨{ u0.mat with entries := [(1048575, { valid := true, prio := 3 })] }, 0, 2 ^ 63, 2 ^ 160 - 1, (1048575, { valid := true, prio := 3 }), (1048575,
     { valid := true, prio := 3 }), by decide +kernel⟩,
   ⟨st u0, 255, 0, by decide +kernel, fun w hw => False.elim (Option.some_ne_none w (hw.symm.trans rfl))⟩,
   ⟨st { u0 with mat := { u0.mat with entries := [(1048575, { valid := true, prio := 3 })], profiles := [(255, pay 32 [(0, 8, 2 ^ 63), (8, 1, 0x80)])], shadow := [(1048575, { prio := 9 })] } },
     255, 0, [], _, (1048575, { valid := true, prio := 3 }), { prio := 9 }, rfl, by decide +kernel⟩⟩

theorem witness_match_updates_and_scrub :
    (∃ (s : State) (b : Fin 64) (r : UpdRec), (bankAt s.u b).queue = [r] ∧ r.addr / 16384 = b.val ∧ r.step = 0 ∧ (r.op = 1 ∨ r.op = 3) ∧
      (bankAt s.u b).mode = 0 ∧ (bankAt s.u b).steal = true ∧ (bankAt s.u b).used < (bankAt s.u b).budget ∧ s.u.mat.updLists = []) ∧
    (∃ (s : State) (b : Fin 64) (r : UpdRec), (bankAt s.u b).queue = [r] ∧ r.addr / 16384 = b.val ∧ r.step = 0 ∧ r.op = 2) ∧
    (∃ (s : State) (b : Fin 64) (r : UpdRec), (bankAt s.u b).queue = [r] ∧ r.addr / 16384 = b.val ∧ r.step = 1 ∧ r.op ≠ 3) ∧
    (∃ (s : State) (b : Fin 64) (r : UpdRec), (bankAt s.u b).queue = [r] ∧ r.addr / 16384 = b.val ∧ r.step = 2 ∧ r.op ≠ 3 ∧ s.u.mat.updLists = []) ∧
    (∃ (s : State) (n : Fin 4096) (x : Str), tget s.u.str n = some x ∧ (s.u.mat.replay.filter (fun y => y.1 == n.val)) ≠ [] ∧
      profGroups (ansTrans s.u x) = []) ∧
    (∃ (s : State) (n : Fin 4096) (x : Str) (g : Nat), tget s.u.str n = some x ∧ s.u.mat.replay = [(n.val, g)] ∧ g ∈ profGroups (ansTrans s.u x) ∧
      x.ms.bytes = [] ∧ x.ms.autos = []) ∧
    (∃ (s : State) (ord g : Nat), s.u.mat.due = [(ord, 0, g)] ∧ (descAt s.u false g).defined = true ∧ s.u.str = [] ∧ s.u.mat.updLists = []) ∧
    (∃ (s : State) (a : BitVec 20), (bankAt s.u (a.toNat / 16384)).outOfService = false ∧ parOk (entryAt s.u a.toNat) = true) ∧
    (∃ (s : State) (a : BitVec 20) (l : List (Fin 360)) (e : MEntry), (bankAt s.u (a.toNat / 16384)).outOfService = false ∧
      parOk (entryAt (upset (l.map (fun i => (a, i))) s.u) a.toNat) = false ∧ tget s.u.mat.shadow a.toNat = some e) ∧
    (∃ (s : State) (b : Fin 64), RUnit.bank b ∈ s.u.svc.decided ∧ (bankAt s.u b).outOfService = false ∧ spareFree s.u.svc (.bank b) ≠ 0 ∧
      s.u.svc.decided.Nodup) :=
  ⟨⟨st { u0 with mat := { u0.mat with banks := [(63, { queue := [{ addr := 1048575, op := 3, step := 0 }] })] } }, 63,
    { addr := 1048575, op := 3, step := 0 }, by decide +kernel⟩,
   ⟨st { u0 with mat := { u0.mat with banks := [(63, { queue := [{ addr := 1048575, op := 2, step := 0 }] })] } }, 63,
     { addr := 1048575, op := 2, step := 0 }, by decide +kernel⟩,
   ⟨st { u0 with mat := { u0.mat with banks := [(63, { queue := [{ addr := 1048575, op := 2, step := 1 }] })] } }, 63,
     { addr := 1048575, op := 2, step := 1 }, by decide +kernel⟩,
   ⟨st { u0 with mat := { u0.mat with banks := [(63, { queue := [{ addr := 1048575, op := 1, step := 2 }] })] } }, 63,
     { addr := 1048575, op := 1, step := 2 }, by decide +kernel⟩,
   ⟨st { u0 with str := [(4095, {})], pol := [(0, { cur := some (pay 288 [(12, 2, 9)], 1) })], mat := { u0.mat with replay := [(4095, 4095)], profiles := [(9, pay 32 [])] } },
     4095, {}, by decide +kernel⟩,
   ⟨st { u0 with str := [(4095, {})], pol := [(0, { cur := some (pay 288 [(12, 2, 9)], 1) })], mat := { u0.mat with replay := [(4095, 4095)], profiles := [(9, pay 32 [(9, 1, 1), (16, 2, 4095)])] } },
     4095, {}, 4095, by decide +kernel⟩,
   ⟨st { u0 with mat := { u0.mat with due := [(7, 0, 4095)], groups := [(4095, { defined := true })] } }, 7, 4095, by decide +kernel⟩,
   ⟨st u0, 1048575, by decide +kernel⟩,
   ⟨st { u0 with mat := { u0.mat with shadow := [(1048575, {})], scrubFail := [1048575] } }, 1048575, [359], {}, by decide +kernel⟩,
   ⟨st { u0 with svc := { u0.svc with decided := [.bank 63] } }, 63, by decide +kernel⟩⟩

theorem witness_slot_messages :
    (∃ (s : State) (mb : Fin 64) (p x : Bytes) (d : Dma), heard s.u mb 0x0301 p ∧ le p 0 1 ≤ 31 ∧ bufOk s.u mb (bufOf p 16) = true ∧
      s.u.pins.throt = false ∧ updateClash s.u (ceilDiv (bufOf p 16).len (2 ^ 24)) = false ∧ (slotAt s.u (le p 0 1)).st = .empty ∧
      (slotAt s.u (le p 0 1)).bringing = false ∧ bufRead s mb (bufOf p 16) d = some x) ∧
    (∃ (s : State) (mb : Fin 64) (p : Bytes), heard s.u mb 0x0301 p ∧ le p 0 1 ≤ 31 ∧ bufOk s.u mb (bufOf p 16) = true ∧ s.u.pins.throt = false ∧
      updateClash s.u (ceilDiv (bufOf p 16).len (2 ^ 24)) = false ∧ ((slotAt s.u (le p 0 1)).st ≠ .empty ∨ (slotAt s.u (le p 0 1)).bringing = true)) ∧
    (∃ (s : State) (mb : Fin 64) (p : Bytes) (cores : List Nat), heard s.u mb 0x0302 p ∧ le p 0 1 ≤ 31 ∧ 0 < le p 1 1 ∧ le p 1 1 ≤ 32 ∧
      le p 2 2 ≤ 512 ∧ s.u.pins.throt = false ∧ updateClash s.u 8 = false ∧ (slotAt s.u (le p 0 1)).st = .staged ∧
      cores = (freeIn s.asm s.u (maskOf (le p 8 8))).take (le p 1 1 * imgNcore (slotAt s.u (le p 0 1)).img) ∧
      cores.length = le p 1 1 * imgNcore (slotAt s.u (le p 0 1)).img ∧ (le p 8 8 = 0 ∨ le p 8 8 % 2 ^ 26 ≠ 0) ∧
      secFind (imgSecs (slotAt s.u (le p 0 1)).img (slotAt s.u (le p 0 1)).imgLen) 6 0xFFFF 0xFF = none) ∧
    (∃ (s : State) (mb : Fin 64) (p : Bytes), heard s.u mb 0x0303 p ∧ le p 0 1 ≤ 31 ∧ le p 1 1 = 1 ∧ (slotAt s.u (le p 0 1)).st = .resident ∧
      (slotAt s.u (le p 0 1)).move = none ∧ (imgKind (slotAt s.u (le p 0 1)).img = 1 → le p 4 4 = 0 ∧ le p 8 2 = 0) ∧
      serviceReasons s.asm (modSlot (le p 0 1) (fun x => { x with u := le p 4 4, l := le p 8 2 }) s.u) (le p 0 1) = []) ∧
    (∃ (s : State) (mb : Fin 64) (p : Bytes), heard s.u mb 0x0303 p ∧ le p 0 1 ≤ 31 ∧ le p 1 1 = 0 ∧ (slotAt s.u (le p 0 1)).st = .inService ∧
      (slotAt s.u (le p 0 1)).move = none ∧ steppedUnder s.u (le p 0 1) = false) ∧
    (∃ (s : State) (mb : Fin 64) (p : Bytes), heard s.u mb 0x0304 p ∧ le p 0 1 ≤ 31 ∧
      ((slotAt s.u (le p 0 1)).st = .staged ∨ (slotAt s.u (le p 0 1)).st = .resident) ∧ (slotAt s.u (le p 0 1)).move = none ∧
      steppedUnder s.u (le p 0 1) = false) ∧
    (∃ (s : State) (mb : Fin 64) (p : Bytes), heard s.u mb 0x0305 p ∧ le p 0 1 ≤ 31 ∧ bufOk s.u mb (bufOf p 16) = true ∧ (bufOf p 16).len = 0) :=
  ⟨⟨st (ask 0 0x0301 (pay 80 [(0, 1, 31), (16, 1, 0), (20, 4, 64)]) { u0 with port0 := { u0.port0 with busMaster := true } }), 0, pay 80 [(0, 1, 31),
    (16, 1, 0), (20, 4, 64)], List.replicate 64 0, .data [], hd (by decide +kernel) (by decide +kernel), by decide +kernel⟩,
   ⟨st (ask 0 0x0301 (pay 80 [(0, 1, 31), (16, 1, 0), (20, 4,
     64)]) { u0 with slot := [(31, { st := .resident })], port0 := { u0.port0 with busMaster := true } }), 0, pay 80 [(0, 1, 31), (16, 1, 0), (20, 4,
     64)], hd (by decide +kernel) (by decide +kernel), by decide +kernel⟩,
   ⟨st (ask 0 0x0302 (pay 16 [(0, 1, 31), (1, 1, 32), (2, 2,
     512)]) { u0 with slot := [(31, { st := .staged, img := mwrite [] 0 (pay 16 [(8, 2, 12)]) })] }), 0, pay 16 [(0, 1, 31), (1, 1, 32), (2, 2,
     512)], (List.range 384).take 384, hd (by decide +kernel) (by decide +kernel), by decide +kernel⟩,
   ⟨st (ask 0 0x0303 (pay 16 [(0, 1, 31), (1, 1, 1)]) { u0 with slot := [(31, { st := .resident })] }), 0, pay 16 [(0, 1, 31), (1, 1, 1)],
     hd (by decide +kernel) (by decide +kernel), by decide +kernel⟩,
   ⟨st (ask 0 0x0303 (pay 16 [(0, 1, 31)]) { u0 with slot := [(31, { st := .inService })] }), 0, pay 16 [(0, 1, 31)],
     hd (by decide +kernel) (by decide +kernel), by decide +kernel⟩,
   ⟨st (ask 0 0x0304 (pay 8 [(0, 1, 31)]) { u0 with slot := [(31, { st := .staged })] }), 0, pay 8 [(0, 1, 31)],
     hd (by decide +kernel) (by decide +kernel), by decide +kernel⟩,
   ⟨st (ask 0 0x0305 (pay 32 [(0, 1, 31)])), 0, pay 32 [(0, 1, 31)], hd (by decide +kernel) (by decide +kernel), by decide +kernel⟩⟩

theorem witness_loads_end :
    (∃ (s : State) (n : Fin 32) (m : Nat), (slotAt s.u n).bringing = true ∧ onceRuns s.u = true ∧ moveDone s.u (.load n.val) = true ∧
      (slotAt s.u n).mb = some m ∧ awaits s m ∧ imageReasons s.asm (slotAt s.u n).img (bufOf (payloadOf (tgetD s.u.mbx m {})) 16).len (if (slotAt s.u n).imgLen = 0 then 0 else (bufOf (payloadOf (tgetD s.u.mbx m {})) 16).len) (sliceZ (payloadOf (tgetD s.u.mbx m {})) 32 48) = []) ∧
    (∃ (s : State) (n : Fin 32) (m r : Nat) (l : List Nat), (slotAt s.u n).bringing = true ∧ onceRuns s.u = true ∧
      moveDone s.u (.load n.val) = true ∧ (slotAt s.u n).mb = some m ∧ awaits s m ∧
      imageReasons s.asm (slotAt s.u n).img (bufOf (payloadOf (tgetD s.u.mbx m {})) 16).len (if (slotAt s.u n).imgLen = 0 then 0 else (bufOf (payloadOf (tgetD s.u.mbx m {})) 16).len) (sliceZ (payloadOf (tgetD s.u.mbx m {})) 32 48) = l ∧
      r ∈ l ∧ r < 255 ∧ (∀ x, x ∈ l → r ≤ x)) ∧
    (∃ (s : State) (n : Fin 32) (m : Nat), (slotAt s.u n).st = .loading ∧ onceRuns s.u = true ∧ (slotAt s.u n).mb = some m ∧ awaits s m ∧ (∀ b,
      b ∈ (slotAt s.u n).bind → (coreAt s.u (bindKey b)).slot = some n.val ∧
      (coreAt s.u (bindKey b)).eng.any (fun e => !e.2.marked.isEmpty) = false)) ∧
    (∃ (s : State) (n : Fin 32) (m : Nat) (b : Binding), (slotAt s.u n).st = .loading ∧ onceRuns s.u = true ∧ (slotAt s.u n).mb = some m ∧
      awaits s m ∧ b ∈ (slotAt s.u n).bind ∧ (coreAt s.u (bindKey b)).eng.any (fun e => !e.2.marked.isEmpty) = true) :=
  ⟨⟨st { u0 with slot := [(31, { mb := some 63, bringing := true, img := mwrite [] 0 testImg, imgLen := 272 })], mbx := [(63, { begun 0x0301 (patch (pay 80 [(20, 4, 272)]) 32 (sha384 rawImg)) with phase := .waiting })] },
    31, 63, by refine ⟨?_, ?_, ?_, ?_, aw ?_, ?_⟩ <;> decide +kernel⟩,
   ⟨st { u0 with slot := [(31, { mb := some 63, bringing := true })], mbx := [(63, { begun 0x0301 (pay 80 [(20, 4, 272)]) with phase := .waiting })] },
     31, 63, 1, [1, 2], by refine ⟨?_, ?_, ?_, ?_, aw ?_, ?_⟩ <;> decide +kernel⟩,
   ⟨st { u0 with slot := [(31, { mb := some 63, st := .loading, bind := [⟨0, 0, 0, 0⟩] })], mbx := [(63, { begun 0x0301 (pay 80 [(20, 4, 272)]) with phase := .waiting })], core := [(0, { slot := some 31 })] },
     31, 63, by refine ⟨?_, ?_, ?_, aw ?_, ?_⟩ <;> decide +kernel⟩,
   ⟨st { u0 with slot := [(31, { mb := some 63, st := .loading, bind := [⟨0, 0, 0, 0⟩] })], mbx := [(63, { begun 0x0301 (pay 80 [(20, 4, 272)]) with phase := .waiting })], core := [(0, { slot := some 31, eng := [(0, { marked := [0] })] })] },
     31, 63, ⟨0, 0, 0, 0⟩, by refine ⟨?_, ?_, ?_, aw ?_, ?_⟩ <;> decide +kernel⟩⟩

theorem witness_arrays_in_service :
    (∃ (s : State) (c : CoreId) (e : Fin 16), c.die.val < engineDies s.asm ∧ (coreOf s c).retired = false ∧ engIdle (coreOf s c) e = true) ∧
    (∃ (s : State) (c : CoreId) (e : Fin 16), engIdle (coreOf s c) e = false) ∧
    (∃ (s : State) (c : CoreId) (e a : Fin 16) (row : Fin 1024) (n addr : Nat), c.die.val < engineDies s.asm ∧ (coreOf s c).retired = false ∧
      engIdle (coreOf s c) e = true ∧ shadowRow s.u (coreKey c) e (a.val * 1024 + row.val) = some (n, addr) ∧ addr / 64 ∉ s.u.tier.pois1 ∧
      addr / 64 + 1 ∉ s.u.tier.pois1) ∧
    (∃ (s : State) (c : CoreId) (e a : Fin 16), c.die.val < engineDies s.asm ∧ (coreOf s c).slot ≠ none ∧ spareLoads s.u c e a = false ∧
      (engOf s.u (coreKey c) e).busy = false) ∧
    (∃ (s : State) (n : Nat) (x : Slot) (b : Binding) (e i v : Nat) (g : Eng), roleRuns s.u 8 = true ∧ clipDue s.u = true ∧ s.u.slot = [(n, x)] ∧
      x.bind = [b] ∧ (coreAt s.u (bindKey b)).eng = [(e, g)] ∧ g.clipHigh = [] ∧ 0 < x.clipPpm ∧ clipShares g x.clipPpm = [(i, v)]) ∧
    (∃ (s : State) (n : Nat) (x : Slot) (b : Binding) (e : Nat) (g : Eng), roleRuns s.u 8 = true ∧ clipDue s.u = true ∧ s.u.slot = [(n, x)] ∧
      x.bind = [b] ∧ (coreAt s.u (bindKey b)).eng = [(e, g)] ∧ (x.clipPpm = 0 ∨ clipShares g x.clipPpm = [])) ∧
    (∃ (s : State), clipDue s.u = false) ∧
    (∃ (g : Eng) (ppm i v : Nat), (i, v) ∈ clipShares g ppm) ∧
    (∃ (s : State) (mb : Fin 64) (p : Bytes), heard s.u mb 0x0803 p ∧ le p 0 1 ≤ 31 ∧ le p 1 1 = 0 ∧ bufOk s.u mb (bufOf p 16) = true ∧
      (bufOf p 16).space = 0 ∧ dmaUp s.u 0 = true) ∧
    (∃ (s : State) (mb : Fin 64) (p : Bytes), heard s.u mb 0x0803 p ∧ le p 0 1 ≤ 31 ∧ le p 1 1 = 1 ∧ bufOk s.u mb (bufOf p 16) = true ∧
      (bufOf p 16).space = 0 ∧ dmaUp s.u 0 = true) :=
  ⟨⟨st u0, c0, 15, by decide +kernel⟩,
   ⟨cs { eng := [(15, { busy := true })] }, c0, 15, by decide +kernel⟩,
   ⟨st { u0 with core := [(383, { slot := some 31 })], slot := [(31, { img := secImg, imgLen := 160, base := 65536 })] }, c0, 15, 15, 1023, 31,
     2166720, by decide +kernel⟩,
   ⟨cs { slot := some 31 }, c0, 15, 0, by decide +kernel⟩,
   ⟨st { tk with tick := { tk.tick with number := 1024 }, fw := { u0.fw with stage := 4 }, slot := [(31, { bind := [⟨0, 0, 23, 15⟩], clipPpm := 1 })], core := [(383, { eng := [(15, { span := [(15, (0, 1))] })] })] },
     31, { bind := [⟨0, 0, 23, 15⟩], clipPpm := 1 }, ⟨0, 0, 23, 15⟩, 15, 15, 1000000, { span := [(15, (0, 1))] }, by decide +kernel⟩,
   ⟨st { tk with tick := { tk.tick with number := 1024 }, fw := { u0.fw with stage := 4 }, slot := [(31, { bind := [⟨0, 0, 23, 15⟩] })], core := [(383, { eng := [(15, { span := [(15, (1, 1))] })] })] },
     31, { bind := [⟨0, 0, 23, 15⟩] }, ⟨0, 0, 23, 15⟩, 15, { span := [(15, (1, 1))] }, by decide +kernel⟩,
   ⟨st { tk with tick := { tk.tick with number := 1023 } }, by decide +kernel⟩,
   ⟨{ span := [(15, (0, 1))] }, 1, 15, 1000000, by decide +kernel⟩,
   ⟨st (ask 0 0x0803 (pay 32 [(0, 1, 31)]) { u0 with port0 := { u0.port0 with busMaster := true } }), 0, pay 32 [(0, 1, 31)],
     hd (by decide +kernel) (by decide +kernel), by decide +kernel⟩,
   ⟨st (ask 0 0x0803 (pay 32 [(0, 1, 31), (1, 1, 1), (16, 1, 0), (20, 4, 64)]) { u0 with port0 := { u0.port0 with busMaster := true } }), 0,
     pay 32 [(0, 1, 31), (1, 1, 1), (16, 1, 0), (20, 4, 64)], hd (by decide +kernel) (by decide +kernel), by decide +kernel⟩⟩

theorem witness_reference_mode :
    (∃ (s : State) (mb : Fin 64) (p : Bytes) (die core e : Nat), heard s.u mb 0x0804 p ∧ le p 0 1 ≤ 31 ∧ le p 1 1 ≤ 2 ∧ 0 < le p 2 2 ∧
      locEngine (le p 8 8) = (0, die, core, e) ∧ die < engineDies s.asm ∧ (coreAt s.u (die * 16 + core)).slot = some (le p 0 1) ∧
      (le p 1 1 = 0 ∨ imgKind (slotAt s.u (le p 0 1)).img ≠ 1) ∧ s.u.pins.throt = false ∧ s.u.ref = []) ∧
    (∃ (s : State) (c : CoreId) (e : Fin 16) (r : RefRun), s.u.ref = [r] ∧ r.running = true ∧ r.die * 16 + r.core = coreKey c ∧ r.engine = e.val ∧
      r.first ≤ s.u.tick.number ∧ s.u.tick.number < r.first + r.ticks) ∧
    (∃ (s : State) (c : CoreId) (e : Fin 16) (r : RefRun) (x : InBuf) (n : Nat) (f : FF), s.u.ref = [r] ∧ r.running = true ∧ r.mode = 0 ∧
      r.die * 16 + r.core = coreKey c ∧ r.engine = e.val ∧ r.first ≤ s.u.tick.number ∧ s.u.tick.number < r.first + r.ticks ∧
      (engOf s.u (coreKey c) e).last = some (x, n, f) ∧ x.row.poison = false ∧ s.u.pins.throt = false) ∧
    (∃ (s : State) (c : CoreId) (e : Fin 16) (r : RefRun) (x : InBuf) (n : Nat) (f : FF), s.u.ref = [r] ∧ r.running = true ∧ r.mode = 0 ∧
      r.die * 16 + r.core = coreKey c ∧ r.engine = e.val ∧ r.first ≤ s.u.tick.number ∧ s.u.tick.number < r.first + r.ticks ∧
      (engOf s.u (coreKey c) e).last = some (x, n, f) ∧ x.row.poison = false ∧ s.u.pins.throt = false ∧ r.skipAt ≠ some s.u.tick.number) ∧
    (∃ (s : State) (c : CoreId) (e : Fin 16) (r : RefRun), s.u.ref = [r] ∧ r.running = true ∧ r.stats = [] ∧ r.die * 16 + r.core = coreKey c ∧
      r.engine = e.val ∧ r.first + r.ticks ≤ s.u.tick.number) ∧
    (∃ (s : State) (mb : Fin 64) (p : Bytes) (r : RefRun), heard s.u mb 0x0805 p ∧ bufOk s.u mb (bufOf p 16) = true ∧ s.u.ref = [r] ∧ r.stats = [] ∧
      (bufOf p 16).space = 0 ∧ dmaUp s.u 0 = true) :=
  ⟨⟨st (ask 0 0x0804 (pay 16 [(0, 1, 31), (1, 1, 2), (2, 2, 1), (8, 8, 1729100781933559808)]) { u0 with core := [(383, { slot := some 31 })] }), 0,
    pay 16 [(0, 1, 31), (1, 1, 2), (2, 2, 1), (8, 8, 1729100781933559808)], 23, 15, 15, hd (by decide +kernel) (by decide +kernel),
    by decide +kernel⟩,
   ⟨st { u0 with ref := [{ die := 23, core := 15, engine := 15, first := 0, ticks := 1 }] }, ⟨23, 15⟩, 15,
     { die := 23, core := 15, engine := 15, first := 0, ticks := 1 }, by decide +kernel⟩,
   ⟨st { u0 with ref := [{ die := 23, core := 15, engine := 15, first := 0, ticks := 1 }], core := [(383, { eng := [(15, { last := some ({}, 0, .fp32) })] })] },
     ⟨23, 15⟩, 15, { die := 23, core := 15, engine := 15, first := 0, ticks := 1 }, {}, 0, .fp32, by decide +kernel⟩,
   ⟨st { u0 with ref := [{ die := 23, core := 15, engine := 15, first := 0, ticks := 1 }], core := [(383, { eng := [(15, { last := some ({}, 0, .fp32) })] })] },
     ⟨23, 15⟩, 15, { die := 23, core := 15, engine := 15, first := 0, ticks := 1 }, {}, 0, .fp32, by decide +kernel⟩,
   ⟨st { u0 with ref := [{ die := 23, core := 15, engine := 15, first := 0, ticks := 0 }] }, ⟨23, 15⟩, 15,
     { die := 23, core := 15, engine := 15, first := 0, ticks := 0 }, by decide +kernel⟩,
   ⟨st (ask 0 0x0805 (pay 32 [(0, 2, 0)]) { u0 with ref := [{ die := 23, core := 15, engine := 15, stats := [] }], port0 := { u0.port0 with busMaster := true } }),
     0, pay 32 [(0, 2, 0)], { die := 23, core := 15, engine := 15, stats := [] }, hd (by decide +kernel) (by decide +kernel), by decide +kernel⟩⟩

theorem witness_retirement_and_spares :
    (∃ (s : State) (c : CoreId) (e r : Fin 16), c.die.val < engineDies s.asm ∧ (coreAt s.u (coreKey c)).retired = false ∧ (∀ n, (RUnit.array c e r,
      n) ∉ s.u.svc.planned) ∧ 0 < spareFree s.u.svc (.array c e r) ∧ atEdge s.u = true) ∧
    (∃ (s : State) (c : CoreId), c.die.val < engineDies s.asm ∧ (coreOf s c).retired = false ∧ atEdge s.u = false) ∧
    (∃ (s : State) (c : CoreId), c.die.val < engineDies s.asm ∧ (coreAt s.u (coreKey c)).retired = false ∧ 0 < spareFree s.u.svc (.core c) ∧
      s.u.svc.planned = []) ∧
    (∃ (s : State) (c : CoreId) (n k : Nat), c.die.val < engineDies s.asm ∧ (coreAt s.u (coreKey c)).retired = false ∧ s.u.svc.planned = [] ∧
      spareFree s.u.svc (.core c) = 0 ∧ s.u.temper = [] ∧ (coreAt s.u (coreKey c)).slot = some n ∧
      (freeOrder s.asm s.u (slotAt s.u n).dieMask).head? = some k ∧ atEdge s.u = true) ∧
    (∃ (s : State) (c : CoreId) (e r : Fin 16) (reason : Nat), s.u.svc.planned = [(.array c e r, reason)] ∧ reason ≠ 1 ∧ atEdge s.u = true ∧
      loadPoisoned s.asm s.u (coreKey c) (some (e.val, r.val)) = none) ∧
    (∃ (s : State) (c : CoreId) (e r : Fin 16) (reason addr : Nat), s.u.svc.planned = [(.array c e r, reason)] ∧
      loadPoisoned s.asm s.u (coreKey c) (some (e.val, r.val)) = some addr ∧ atEdge s.u = true) ∧
    (∃ (s : State) (c : CoreId) (n reason : Nat), s.u.svc.planned = [(.core c, reason)] ∧ reason ≠ 1 ∧ atEdge s.u = true ∧
      loadPoisoned s.asm s.u (coreKey c) none = none ∧ (coreAt s.u (coreKey c)).slot = some n) ∧
    (∃ (s : State) (n : Fin 32) (rep lidx k : Nat) (b : Binding), (slotAt s.u n).wanting = [(rep, lidx)] ∧
      (slotAt s.u n).bind.find? (fun b => b.rep == rep && b.lidx == lidx) = some b ∧ (freeOrder s.asm s.u (slotAt s.u n).dieMask).head? = some k) ∧
    (∃ (s : State) (n : Fin 32), freeOrder s.asm s.u (slotAt s.u n).dieMask = []) ∧
    (∃ (s : State), atEdge s.u = false) :=
  ⟨⟨st u0, ⟨23, 15⟩, 15, 15, by refine ⟨?_, ?_, fun _ => List.not_mem_nil, ?_⟩ <;> decide +kernel⟩,
   ⟨st tb, c0, by decide +kernel⟩,
   ⟨st u0, ⟨23, 15⟩, by decide +kernel⟩,
   ⟨st { u0 with svc := { u0.svc with spares := [(2, 23)] }, core := [(383, { slot := some 31 })] }, ⟨23, 15⟩, 31, 0, by decide +kernel⟩,
   ⟨st { u0 with svc := { u0.svc with planned := [(.array ⟨23, 15⟩ 15 15, 4)] } }, ⟨23, 15⟩, 15, 15, 4, by decide +kernel⟩,
   ⟨st { u0 with svc := { u0.svc with planned := [(.array ⟨23, 15⟩ 15 15, 4)] }, core := [(383, { slot := some 31 })], slot := [(31, { img := secImg, imgLen := 160, base := 65536 })], tier := { u0.tier with pois1 := [31809] } },
     ⟨23, 15⟩, 15, 15, 4, 2035776, by decide +kernel⟩,
   ⟨st { u0 with svc := { u0.svc with planned := [(.core ⟨23, 15⟩, 4)] }, core := [(383, { slot := some 31 })] }, ⟨23, 15⟩, 31, 4, by decide +kernel⟩,
   ⟨st { u0 with slot := [(31, { wanting := [(1, 2)], bind := [⟨1, 2, 23, 15⟩] })] }, 31, 1, 2, 0, ⟨1, 2, 23, 15⟩, by decide +kernel⟩,
   ⟨st { u0 with core := (List.range 384).map (fun k => (k, { retired := true })) }, 31, by decide +kernel⟩,
   ⟨st tb, by decide +kernel⟩⟩

theorem witness_wear_and_repair :
    (∃ (s : State) (x : RUnit) (r : WearIn) (w : Wear), roleRuns s.u 8 = true ∧ unitFitted s.asm x = true ∧
      w = wearCount s.u x r (((s.u.svc.wear.find? (fun e => e.1 == x)).map (·.2)).getD {}) ∧ wearPlans x r w = false) ∧
    (∃ (s : State) (c : CoreId) (r : WearIn) (w : Wear), roleRuns s.u 8 = true ∧ unitFitted s.asm (.core c) = true ∧
      w = wearCount s.u (.core c) r (((s.u.svc.wear.find? (fun e => e.1 == RUnit.core c)).map (·.2)).getD {}) ∧ wearPlans (.core c) r w = true ∧
      wearFaults (.core c) w false = false ∧ (RUnit.core c, 2) ∉ s.u.svc.warned ∧ s.u.svc.planned = [] ∧ 0 < spareFree s.u.svc (.core c)) ∧
    (∃ (u : Units) (x : RUnit) (r : WearIn) (v f : Int), r.slack = some (v, f) ∧ slackCounts u x = true) ∧
    (∃ (s : State) (st : Fin 12) (ch : Fin 16), st.val * 16 + ch.val ∈ s.u.svc.copying ∧ st.val * 16 + ch.val ∉ s.u.svc.copyDone) ∧
    (∃ (s : State) (st : Fin 12) (ch : Fin 16), st.val < nStacks s.asm ∧ st.val * 16 + ch.val ∉ s.u.svc.chanFault ∧
      0 < spareFree s.u.svc (.channel st ch)) ∧
    (∃ (s : State) (st : Fin 12) (ch : Fin 16) (bank row : Nat), st.val < nStacks s.asm ∧ 0 < spareFree s.u.svc (.row st ch bank row) ∧
      s.u.svc.planned = [] ∧ s.u.svc.rowWait = [] ∧ running s.u = true) ∧
    (∃ (s : State) (st : Fin 12) (ch : Fin 16) (bank row : Nat), st.val < nStacks s.asm ∧ 0 < spareFree s.u.svc (.row st ch bank row) ∧
      s.u.svc.planned = [] ∧ s.u.svc.rowWait = [] ∧ running s.u = false) ∧
    (∃ (u : Units) (x : RUnit) (row : Nat), u.svc.rowWait = [(x, row, false)] ∧ u.svc.chanFault = [] ∧ u.svc.copyDone = [] ∧ 0 < spareFree u.svc x) ∧
    (∃ (s : State) (io : Fin 6) (g : Bool) (l : Fin 32), unitFitted s.asm (.lane io g l) = true ∧ 0 < spareFree s.u.svc (.lane io g l) ∧
      s.u.svc.planned = []) ∧
    (∃ (s : State) (mb : Fin 64) (p : Bytes), heard s.u mb 0x0808 p ∧ bufOk s.u mb (bufOf p 16) = true ∧ (bufOf p 16).space = 0 ∧
      dmaUp s.u 0 = true) :=
  ⟨⟨st { u0 with fw := { u0.fw with stage := 4 } }, .core c0, { corrected := 63 }, { corr := [(0, 63)] }, by decide +kernel⟩,
   ⟨st { u0 with fw := { u0.fw with stage := 4 } }, c0, { corrected := 64 }, { corr := [(0, 64)] }, by decide +kernel⟩,
   ⟨u0, .core c0, { slack := some (4, 9) }, 4, 9, by decide +kernel⟩,
   ⟨st { u0 with svc := { u0.svc with copying := [191] } }, 11, 15, by decide +kernel⟩,
   ⟨st u0, 7, 15, by decide +kernel⟩,
   ⟨st tk, 7, 15, 255, 1, by decide +kernel⟩,
   ⟨st u0, 7, 15, 255, 1, by decide +kernel⟩,
   ⟨{ u0 with svc := { u0.svc with rowWait := [(.row 7 15 255 1, 1, false)] } }, .row 7 15 255 1, 1, by decide +kernel⟩,
   ⟨st u0, 3, true, 31, by decide +kernel⟩,
   ⟨st (ask 0 0x0808 (pay 32 [(0, 2, 0)]) { u0 with port0 := { u0.port0 with busMaster := true } }), 0, pay 32 [(0, 2, 0)],
     hd (by decide +kernel) (by decide +kernel), by decide +kernel⟩⟩

theorem witness_background_work_and_journal :
    (∃ (s : State) (k : Fin 9) (l : W64), k.val ≠ 0 ∧ (k.val, l.toNat) ∉ s.u.svc.urgent) ∧
    (∃ (s : State) (k : Fin 9) (l : W64), (k.val, l.toNat) ∈ s.u.svc.urgent) ∧
    (∃ (k : Fin 9), k.val ≠ 0) ∧
    (∃ (s : State) (unit : Nat), 4096 * unit < tier1Bytes s.asm) ∧
    (∃ (s : State) (type : Nat) (b : Bytes), isUp s.u = true ∧ s.u.blk.tripped = false ∧ (tgetD s.u.fw.roles 0 {}).state = 0 ∧ 0 < type ∧
      type ≤ 0x0A ∧ type ≠ 3 ∧ b.length ≤ 16352 ∧ 0 < journalBlocks s.u.svc 0 ∧ 0 < journalBlocks s.u.svc 1 ∧
      (s.u.svc.journal.length + 1) * 4 < journalBlocks s.u.svc 0 * 16 * 3) :=
  ⟨⟨st u0, 8, 5, by decide +kernel⟩,
   ⟨st { u0 with svc := { u0.svc with urgent := [(8, 5)] } }, 8, 5, by decide +kernel⟩,
   ⟨8, by decide +kernel⟩,
   ⟨st u0, 1, by decide +kernel⟩,
   ⟨st u0, 10, List.replicate 16352 0, by decide +kernel⟩⟩

theorem witness_calibration_over_smbus :
    (∃ (s : State), smbLive s.u = true) ∧
    (∃ (s : State) (l : List CalEnt), smbLive s.u = true ∧ s.u.svc.calOpen = some l) ∧
    (∃ (s : State) (l : List CalEnt), smbLive s.u = true ∧ s.u.svc.calOpen = some l ∧ (∀ e, e ∈ l → ∃ lo hi, calUserRange e.item = some (lo, hi) ∧
      lo ≤ e.user ∧ e.user ≤ hi)) ∧
    (∃ (s : State) (l : List CalEnt) (e : CalEnt), smbLive s.u = true ∧ s.u.svc.calOpen = some l ∧ e ∈ l ∧ (∀ lo hi, calUserRange e.item = some (lo,
      hi) → e.user < lo ∨ hi < e.user)) ∧
    (∃ (s : State), smbLive s.u = true ∧ s.u.svc.calOpen = none) :=
  ⟨⟨st u0, by decide +kernel⟩,
   ⟨st { u0 with svc := { u0.svc with calOpen := some [{ item := 4, user := 5 }] } }, [{ item := 4, user := 5 }], by decide +kernel⟩,
   ⟨st { u0 with svc := { u0.svc with calOpen := some [{ item := 4, user := 5 }] } }, [{ item := 4, user := 5 }], by decide +kernel,
     by decide +kernel, fun e he => by simp at he; subst he; exact ⟨0, 5, by decide, by decide, by decide⟩⟩,
   ⟨st { u0 with svc := { u0.svc with calOpen := some [{ item := 4, user := 6 }] } }, [{ item := 4, user := 6 }], { item := 4, user := 6 },
     by refine ⟨?_, ?_, ?_, fun lo hi h => by simp [calUserRange] at h; right; show hi < 6; omega⟩ <;> decide +kernel⟩,
   ⟨st u0, by decide +kernel⟩⟩

theorem witness_sensing_and_throttle :
    (∃ (s : State), smbLive s.u = true) ∧
    (∃ (s : State), smbLive s.u = true ∧ s.u.pins.alert % 32 ≠ 0) ∧
    (∃ (s : State), s.u.pins.alert % 32 = 0) ∧
    (∃ (s : State), smbLive s.u = true ∧ (∀ k, k < 6 → tget s.u.pins.sensePark (8 + k) = none)) ∧
    (∃ (s : State), s.u.pins.senseStale = false) ∧
    (∃ (s : State) (w : BitVec 16), smbLive s.u = true ∧ bitsOf w.toNat 3 0 ≤ 13 ∧ 0 < bitsOf w.toNat 13 4 ∧ bitsOf w.toNat 13 4 ≤ 1000) ∧
    (∃ (s : State) (o : Fin 14) (x : Nat), tget s.u.pins.sensePark o = some x ∧ x ≤ s.u.tick.time) ∧
    (∃ (s : State) (g : Fin 8) (y : SensorIn), s.u.pins.throt = false ∧ atEdge s.u = true ∧ tsGroup s.asm y.kind y.die = g.val ∧
      s.asm.critTemp.getD g.val 0 - 128 ≤ tempReported s.u.svc y.reading.toInt y.scope.toNat) ∧
    (∃ (s : State) (k : Nat) (x : Gpio), s.u.pins.throt = false ∧ atEdge s.u = true ∧ (k, x) ∈ s.u.pins.gpio ∧ x.func = 4 ∧ parking x = false) ∧
    (∃ (s : State), s.u.pins.throt = true ∧ atEdge s.u = true) :=
  ⟨⟨st u0, by decide +kernel⟩,
   ⟨st { u0 with pins := { u0.pins with alert := 1 } }, by decide +kernel⟩,
   ⟨st u0, by decide +kernel⟩,
   ⟨st u0, by decide +kernel, fun _ _ => rfl⟩,
   ⟨st u0, by decide +kernel⟩,
   ⟨st u0, 0x3E8D, by decide +kernel⟩,
   ⟨st { u0 with pins := { u0.pins with sensePark := [(13, 0)] } }, 13, 0, by decide +kernel⟩,
   ⟨st u0, 0, { kind := 0, die := 5, reading := 1552, scope := 0 }, by decide +kernel⟩,
   ⟨st { u0 with pins := { u0.pins with gpio := [(15, { func := 4 })] } }, 15, { func := 4 }, by decide +kernel⟩,
   ⟨st { u0 with pins := { u0.pins with throt := true } }, by decide +kernel⟩⟩

theorem witness_reset_power_and_ports :
    (∃ (s : State), s.u.blk.tripped = false ∧ s.u.blk.shutdown = false ∧ s.u.fw.loading = none) ∧
    (∃ (s : State), s.u.fw.loading = none ∧ s.u.blk.tripped = false) ∧
    (∃ (s : State), s.u.blk.tripped = true) ∧
    (∃ (s : State) (l : Fin 12), l.val < nLinks s.asm ∧ l.val ∉ s.u.tier.linksOut) ∧
    (∃ (s : State) (n : Fin 16), (tgetD s.u.pins.gpio n {}).next ≠ none) ∧
    (∃ (s : State), isUp s.u = true ∧ s.u.fw.stage = 0) ∧
    (∃ (s : State), isUp s.u = true ∧ s.u.fw.stage ≠ 0) ∧
    (∃ (s : State) (v : Fin 2048), isUp s.u = true ∧ s.u.fw.stage ≠ 0 ∧ s.u.port0.msixEn = true ∧ s.u.port0.d3hot = false ∧
      s.u.port0.pend = [v.val]) :=
  ⟨⟨st u0, by decide +kernel⟩,
   ⟨st u0, by decide +kernel⟩,
   ⟨st { u0 with blk := { u0.blk with tripped := true } }, by decide +kernel⟩,
   ⟨st u0, 7, by decide +kernel⟩,
   ⟨st { u0 with pins := { u0.pins with gpio := [(15, { next := some 4 })] } }, 15, by decide +kernel⟩,
   ⟨st u0, by decide +kernel⟩,
   ⟨st { u0 with fw := { u0.fw with stage := 1 } }, by decide +kernel⟩,
   ⟨st { u0 with fw := { u0.fw with stage := 1 }, port0 := { u0.port0 with msixEn := true, pend := [2047] } }, 2047, by decide +kernel⟩⟩

theorem witness_management_ports_and_tap :
    (∃ (s : State) (d : Fin 2) (p r : Bytes), isUp s.u = true ∧ s.u.fw.stage = 4 ∧
      mgmtReply (if d = 0 then s.asm.mac0 else s.asm.mac1) (Config.mgmtAddr d).toNat p = some r) ∧
    (∃ (s : State) (d : Fin 2) (p : Bytes), (s.u.fw.stage ≠ 4 ∨ isUp s.u = false ∨ mgmtReply (if d = 0 then s.asm.mac0 else s.asm.mac1) (Config.mgmtAddr d).toNat p = none)) ∧
    (∃ (mac ip : Nat) (p r : Bytes), mgmtReply mac ip p = some r) ∧
    (∃ (l : List Bool), l.length = 32) ∧
    (∃ (s : State), (s.u.blk.resetLow = true ∨ s.u.blk.powerLow = true)) ∧
    (∃ (s : State), s.u.blk.resetLow = false ∧ s.u.blk.powerLow = false) :=
  ⟨⟨st { u0 with fw := { u0.fw with stage := 4 } }, 1, arp (Config.mgmtAddr 1),
    (mgmtReply 0 (Config.mgmtAddr 1).toNat (arp (Config.mgmtAddr 1))).getD [], by decide +kernel, by decide +kernel, arp_reply 0 (Config.mgmtAddr 1)⟩,
   ⟨st u0, 1, [], by decide +kernel⟩,
   ⟨5, 0x0A000001, arp 0x0A000001#32, (mgmtReply 5 0x0A000001 (arp 0x0A000001#32)).getD [], by decide +kernel⟩,
   ⟨List.replicate 32 true, by decide +kernel⟩,
   ⟨st { u0 with blk := { u0.blk with resetLow := true } }, by decide +kernel⟩,
   ⟨st u0, by decide +kernel⟩⟩

theorem witness_stream_messages :
    (∃ (s : State) (mb : Fin 64) (p : Bytes) (l : List (Nat × Nat)), heard s.u mb 0x0401 p ∧ le p 0 2 ≤ 1023 ∧
      (polCur s.u (le p 0 2)).isEmpty = false ∧ sampJudge s mb (le p 0 2) (tgetD s.u.ctx mb {}).headSlot (sliceZ p 8 64) = .inl l) ∧
    (∃ (s : State) (mb : Fin 64) (p : Bytes) (off : Nat), heard s.u mb 0x0401 p ∧ le p 0 2 ≤ 1023 ∧ (polCur s.u (le p 0 2)).isEmpty = false ∧
      sampJudge s mb (le p 0 2) (tgetD s.u.ctx mb {}).headSlot (sliceZ p 8 64) = .inr off) ∧
    (∃ (s : State) (mb : Fin 64) (p : Bytes) (k : Nat) (l : List (Nat × Nat)), heard s.u mb 0x0402 p ∧ handleSlotOf s.u mb (le p 0 4) = .inl k ∧
      sampJudge s mb (tgetD s.u.str k {}).policy (tgetD s.u.str k {}).headSlot (sliceZ p 8 64) = .inl l ∧
      lagOf (sliceZ p 8 64) = lagOf (tgetD s.u.str k {}).samp) ∧
    (∃ (s : State) (mb : Fin 64) (p : Bytes) (k : Nat) (x : Str), heard s.u mb 0x0403 p ∧ handleSlotOf s.u mb (le p 0 4) = .inl k ∧
      tget s.u.str k = some x ∧ x.st ≠ .closing ∧ x.cancelAt = none ∧ s.u.tick.st = .current ∧ (∀ r e,
      x.pause = some r → r.at_ = s.u.tick.number → e ∈ x.outEvts → isAck r.id e.2 = false)) ∧
    (∃ (s : State) (mb : Fin 64) (p : Bytes) (k : Nat) (x : Str) (r : PauseReq) (e : Nat × Bytes), heard s.u mb 0x0403 p ∧
      handleSlotOf s.u mb (le p 0 4) = .inl k ∧ tget s.u.str k = some x ∧ x.st ≠ .closing ∧ x.cancelAt = none ∧ s.u.tick.st = .current ∧
      x.pause = some r ∧ r.at_ = s.u.tick.number ∧ x.outEvts = [e] ∧ isAck r.id e.2 = true) ∧
    (∃ (s : State) (mb : Fin 64) (p : Bytes) (k : Nat), heard s.u mb 0x0404 p ∧ handleSlotOf s.u mb (le p 0 4) = .inl k ∧
      pauseFault s.u (le p 4 4) (le p 8 1) = none) ∧
    (∃ (s : State) (mb : Fin 64) (p : Bytes), heard s.u mb 0x0405 p ∧ le p 4 1 = 0) ∧
    (∃ (s : State) (mb : Fin 64) (p : Bytes) (k : Nat), heard s.u mb 0x0406 p ∧ handleSlotOf s.u mb (le p 0 4) = .inl k) ∧
    (∃ (s : State) (mb : Fin 64) (p : Bytes) (e : Nat) (v : Saved), heard s.u mb 0x0407 p ∧ savedOf s.u mb (le p 0 4) = some (e, v)) ∧
    (∃ (s : State) (mb : Fin 64) (p : Bytes), heard s.u mb 0x0407 p ∧ savedOf s.u mb (le p 0 4) = none) ∧
    (∃ (s : State) (mb : Fin 64) (p : Bytes), heard s.u mb 0x0406 p ∧ handleSlotOf s.u mb (le p 0 4) = .inr 7) :=
  ⟨⟨st (ask 63 0x0401 (pay 72 [(0, 2, 1023), (20, 4, 0x3F800000)]) { u0 with pol := [(1023, { cur := some (pay 288 [(16, 1, 255), (17, 1, 255), (18, 1, 255)], 1) })] }),
    63, pay 72 [(0, 2, 1023), (20, 4, 0x3F800000)], [], hd (by decide +kernel) (by decide +kernel), by decide +kernel⟩,
   ⟨st (ask 63 0x0401 (pay 72 [(0, 2, 1023)]) { u0 with pol := [(1023, { cur := some (pay 288 [(16, 1, 255), (17, 1, 255), (18, 1, 255)], 1) })] }),
     63, pay 72 [(0, 2, 1023)], 12, hd (by decide +kernel) (by decide +kernel), by decide +kernel⟩,
   ⟨st (ask 63 0x0402 (pay 72 [(0, 4, 1073741823), (20, 4, 0x3F800000)]) { u0 with str := [(4095, { gen := 4095, ctx := 63, st := .active })] }), 63,
     pay 72 [(0, 4, 1073741823), (20, 4, 0x3F800000)], 4095, [], hd (by decide +kernel) (by decide +kernel), by decide +kernel⟩,
   ⟨st (ask 63 0x0403 (pay 8 [(0, 4, 1073741823)]) (us { sx with st := .active })), 63, pay 8 [(0, 4, 1073741823)], 4095, { sx with st := .active },
     by refine ⟨hd ?_ ?_, ?_, ?_, ?_, ?_, ?_, nofun⟩ <;> decide +kernel⟩,
   ⟨st (ask 63 0x0403 (pay 8 [(0, 4, 1073741823)]) (us { sx with st := .active, pause := some { at_ := 7 }, outEvts := [(7, pay 32 [(0, 1, 0x21)])] })),
     63, pay 8 [(0, 4, 1073741823)], 4095, { sx with st := .active, pause := some { at_ := 7 }, outEvts := [(7, pay 32 [(0, 1, 0x21)])] },
     { at_ := 7 }, (7, pay 32 [(0, 1, 0x21)]), hd (by decide +kernel) (by decide +kernel), by decide +kernel⟩,
   ⟨st (ask 63 0x0404 (pay 16 [(0, 4, 1073741823), (4, 4, 86400)]) { u0 with str := [(4095, { gen := 4095, ctx := 63, st := .active })] }), 63,
     pay 16 [(0, 4, 1073741823), (4, 4, 86400)], 4095, hd (by decide +kernel) (by decide +kernel), by decide +kernel⟩,
   ⟨st (ask 63 0x0405 (pay 72 [(0, 4, 1), (20, 4, 0x3F800000)])), 63, pay 72 [(0, 4, 1), (20, 4, 0x3F800000)],
     hd (by decide +kernel) (by decide +kernel), by decide +kernel⟩,
   ⟨st (ask 63 0x0406 (pay 8 [(0, 4, 1073741823)]) { u0 with str := [(4095, { gen := 4095, ctx := 63, st := .active })] }), 63, pay 8 [(0, 4,
     1073741823)], 4095, hd (by decide +kernel) (by decide +kernel), by decide +kernel⟩,
   ⟨st (ask 63 0x0407 (pay 8 [(0, 4, 131071)]) { u0 with tier := { u0.tier with saved := [(65535, { id := 131071, expiry := 1, str := sx })] } }),
     63, pay 8 [(0, 4, 131071)], 65535, { id := 131071, expiry := 1, str := sx }, hd (by decide +kernel) (by decide +kernel), by decide +kernel⟩,
   ⟨st (ask 63 0x0407 (pay 8 [])), 63, pay 8 [], hd (by decide +kernel) (by decide +kernel), by decide +kernel⟩,
   ⟨st (ask 63 0x0406 (pay 8 [])), 63, pay 8 [], hd (by decide +kernel) (by decide +kernel), by decide +kernel⟩⟩

theorem witness_stream_decisions :
    (∃ (s : State) (c : Fin 64) (w : Waiting) (m k : Nat) (r : Bytes) (l : List (Nat × Nat)), decides s.u c 2 = some w ∧ w.mb = some m ∧ awaits s m ∧
      w.srec = some r ∧ le w.desc 2 2 ≤ 1023 ∧ (polCur s.u (le w.desc 2 2)).isEmpty = false ∧
      sampJudge s c (le w.desc 2 2) (tgetD s.u.ctx c {}).headSlot r = .inl l ∧ admissionHeld s.u c = false ∧
      ctxStreams s.u c < (tgetD s.u.ctx c {}).maxStreams ∧ allocSlot s.u (tgetD s.u.ctx c {}).cohort = some k ∧
      (openChunks r (tgetD s.u.ctx c {}).maxPos = [] ∨ (s.u.tier.mainUse + (openChunks r (tgetD s.u.ctx c {}).maxPos).length ≤ s.u.tier.pageMain ∧
      (s.u.tier.mainUse + (openChunks r (tgetD s.u.ctx c {}).maxPos).length) * 1024 ≤ s.u.tier.pageMain * s.u.tier.highWm))) ∧
    (∃ (s : State) (c : Fin 64) (w : Waiting) (m : Nat) (r : Bytes) (l : List (Nat × Nat)), decides s.u c 2 = some w ∧ w.mb = some m ∧ awaits s m ∧
      w.srec = some r ∧ le w.desc 2 2 ≤ 1023 ∧ (polCur s.u (le w.desc 2 2)).isEmpty = false ∧
      sampJudge s c (le w.desc 2 2) (tgetD s.u.ctx c {}).headSlot r = .inl l ∧ admissionHeld s.u c = false ∧
      (tgetD s.u.ctx c {}).maxStreams ≤ ctxStreams s.u c) ∧
    (∃ (s : State) (c : Fin 64) (w : Waiting) (m : Nat) (r : Bytes) (l : List (Nat × Nat)), decides s.u c 2 = some w ∧ w.mb = some m ∧ awaits s m ∧
      w.srec = some r ∧ le w.desc 2 2 ≤ 1023 ∧ (polCur s.u (le w.desc 2 2)).isEmpty = false ∧
      sampJudge s c (le w.desc 2 2) (tgetD s.u.ctx c {}).headSlot r = .inl l ∧ admissionHeld s.u c = true) ∧
    (∃ (s : State) (c : Fin 64), decides s.u c 2 = none) ∧
    (∃ (s : State) (c : Fin 64) (w : Waiting) (m k e : Nat) (x : Str), decides s.u c 3 = some w ∧ w.mb = some m ∧ awaits s m ∧ le w.desc 1 1 = 0 ∧
      pauseFault s.u (le w.desc 12 4) 0 = none ∧ handleSlotOf s.u c (le w.desc 8 4) = .inl k ∧ tget s.u.str k = some x ∧ heldPlain s.u c = false ∧
      x.pages.length + 1 ≤ roomAt s.u 0 ∧ freeEntry s.u = some e ∧ (x.st = .active ∨ x.st = .waiting) ∧ x.pause = none ∧ x.cancelAt = none ∧
      tgetD s.u.tier.useCount e 0 < 0xFFFF) ∧
    (∃ (s : State) (c : Fin 64) (w : Waiting) (m k e : Nat) (v : Saved), decides s.u c 4 = some w ∧ w.mb = some m ∧ awaits s m ∧ le w.desc 1 1 = 0 ∧
      savedOf s.u c (le w.desc 8 4) = some (e, v) ∧ tget s.u.tier.saved e = some v ∧ v.st = 1 ∧ lagOf v.str.samp = 0 ∧
      v.imageId = ansImage s.u v.str.policy 255 ∧ admissionHeld s.u c = false ∧ ctxStreams s.u c < (tgetD s.u.ctx c {}).maxStreams ∧
      allocSlot s.u (tgetD s.u.ctx c {}).cohort = some k) ∧
    (∃ (s : State) (c : Fin 64) (w : Waiting) (m : Nat), decides s.u c 4 = some w ∧ w.mb = some m ∧ awaits s m ∧ le w.desc 1 1 = 0 ∧
      savedOf s.u c (le w.desc 8 4) = none ∧ admissionHeld s.u c = false ∧ ctxStreams s.u c < (tgetD s.u.ctx c {}).maxStreams) ∧
    (∃ (s : State) (c : Fin 64) (w : Waiting) (m e : Nat) (v : Saved), decides s.u c 4 = some w ∧ w.mb = some m ∧ awaits s m ∧ le w.desc 1 1 = 0 ∧
      savedOf s.u c (le w.desc 8 4) = some (e, v) ∧ v.st = 1 ∧ lagOf v.str.samp = 0 ∧ v.imageId ≠ ansImage s.u v.str.policy 255 ∧
      admissionHeld s.u c = false ∧ ctxStreams s.u c < (tgetD s.u.ctx c {}).maxStreams) :=
  ⟨⟨st { u0 with fw := { u0.fw with stage := 4 }, tick := { u0.tick with st := .current, number := 7 }, ctx := [(63, { state := 2, maxStreams := 1, waiting := [{ desc := pay 64 [(0, 1, 2), (2, 2, 1023)], tick := 7, mb := some 63, srec := some (pay 64 [(12, 4, 0x3F800000)]) }] })], mbx := [(63, { phase := .waiting })], pol := [(1023, { cur := some (pay 288 [(16, 1, 255), (17, 1, 255), (18, 1, 255)], 1) })] },
    63, { desc := pay 64 [(0, 1, 2), (2, 2, 1023)], tick := 7, mb := some 63, srec := some (pay 64 [(12, 4, 0x3F800000)]) }, 63, 0, pay 64 [(12, 4,
    0x3F800000)], [], by refine ⟨?_, ?_, aw ?_, ?_⟩ <;> decide +kernel⟩,
   ⟨st { u0 with fw := { u0.fw with stage := 4 }, tick := { u0.tick with st := .current, number := 7 }, ctx := [(63, { state := 2, maxStreams := 1, waiting := [{ desc := pay 64 [(0, 1, 2), (2, 2, 1023)], tick := 7, mb := some 63, srec := some (pay 64 [(12, 4, 0x3F800000)]) }] })], mbx := [(63, { phase := .waiting })], pol := [(1023, { cur := some (pay 288 [(16, 1, 255), (17, 1, 255), (18, 1, 255)], 1) })], str := [(4095, { gen := 4095, ctx := 63, st := .active })] },
     63, { desc := pay 64 [(0, 1, 2), (2, 2, 1023)], tick := 7, mb := some 63, srec := some (pay 64 [(12, 4, 0x3F800000)]) }, 63, pay 64 [(12, 4,
     0x3F800000)], [], by refine ⟨?_, ?_, aw ?_, ?_⟩ <;> decide +kernel⟩,
   ⟨st { u0 with fw := { u0.fw with stage := 4 }, tick := { u0.tick with st := .current, number := 7, admitHold := true }, ctx := [(63, { state := 2, maxStreams := 1, waiting := [{ desc := pay 64 [(0, 1, 2), (2, 2, 1023)], tick := 7, mb := some 63, srec := some (pay 64 [(12, 4, 0x3F800000)]) }] })], mbx := [(63, { phase := .waiting })], pol := [(1023, { cur := some (pay 288 [(16, 1, 255), (17, 1, 255), (18, 1, 255)], 1) })] },
     63, { desc := pay 64 [(0, 1, 2), (2, 2, 1023)], tick := 7, mb := some 63, srec := some (pay 64 [(12, 4, 0x3F800000)]) }, 63, pay 64 [(12, 4,
     0x3F800000)], [], by refine ⟨?_, ?_, aw ?_, ?_⟩ <;> decide +kernel⟩,
   ⟨st u0, 63, by decide +kernel⟩,
   ⟨st { u0 with fw := { u0.fw with stage := 4 }, tick := { u0.tick with st := .current, number := 7 }, ctx := [(63, { state := 2, maxStreams := 1, waiting := [{ desc := pay 64 [(0, 1, 3), (8, 4, 1073741823), (12, 4, 60)], tick := 7, mb := some 63 }] })], mbx := [(63, { phase := .waiting })], str := [(4095, { gen := 4095, ctx := 63, st := .active })], tier := { u0.tier with pageLen := 65536 } },
     63, { desc := pay 64 [(0, 1, 3), (8, 4, 1073741823), (12, 4, 60)], tick := 7, mb := some 63 }, 63, 4095, 0,
     { gen := 4095, ctx := 63, st := .active }, by refine ⟨?_, ?_, aw ?_, ?_⟩ <;> decide +kernel⟩,
   ⟨st { tk with fw := { u0.fw with stage := 4 }, ctx := [(63, { state := 2, maxStreams := 1, waiting := [{ desc := pay 64 [(0, 1, 4), (8, 4, 65536)], tick := 7, mb := some 63 }] })], mbx := [(63, { phase := .waiting })], tier := { u0.tier with saved := [(0, { id := 65536, expiry := 1, str := { ctx := 63 } })] } },
     63, { desc := pay 64 [(0, 1, 4), (8, 4, 65536)], tick := 7, mb := some 63 }, 63, 0, 0, { id := 65536, expiry := 1, str := { ctx := 63 } },
     by refine ⟨?_, ?_, aw ?_, ?_⟩ <;> decide +kernel⟩,
   ⟨st { u0 with fw := { u0.fw with stage := 4 }, tick := { u0.tick with st := .current, number := 7 }, ctx := [(63, { state := 2, maxStreams := 1, waiting := [{ desc := pay 64 [(0, 1, 4), (8, 4, 65536)], tick := 7, mb := some 63 }] })], mbx := [(63, { phase := .waiting })] },
     63, { desc := pay 64 [(0, 1, 4), (8, 4, 65536)], tick := 7, mb := some 63 }, 63, by refine ⟨?_, ?_, aw ?_, ?_⟩ <;> decide +kernel⟩,
   ⟨st { tk with fw := { u0.fw with stage := 4 }, ctx := [(63, { state := 2, maxStreams := 1, waiting := [{ desc := pay 64 [(0, 1, 4), (8, 4, 65536)], tick := 7, mb := some 63 }] })], mbx := [(63, { phase := .waiting })], tier := { u0.tier with saved := [(0, { id := 65536, expiry := 1, imageId := 9, str := { ctx := 63 } })] } },
     63, { desc := pay 64 [(0, 1, 4), (8, 4, 65536)], tick := 7, mb := some 63 }, 63, 0,
     { id := 65536, expiry := 1, imageId := 9, str := { ctx := 63 } }, by refine ⟨?_, ?_, aw ?_, ?_⟩ <;> decide +kernel⟩⟩

theorem witness_stream_boundaries :
    (∃ (s : State) (c : Fin 2), atBoundary s.u c = false) ∧
    (∃ (s : State) (c : Fin 2) (n r : Nat) (x : Str), atBoundary s.u c = true ∧ s.u.str = [(n, x)] ∧ x.st = .waiting ∧ x.cohort = c.val ∧
      boundOk s.u x = true ∧ freeSeat s.u x.headSlot x.cohort = some r) ∧
    (∃ (s : State) (n : Fin 4096) (r : Nat) (x : Str), tget s.u.str n = some x ∧ x.st = .opening ∧ x.start ≤ boundTick s.u x.cohort ∧
      s.u.tick.st = .current ∧ atBoundary s.u x.cohort = true ∧ x.cancelAt = none ∧ seatAssign x.cohort s.u = s.u ∧ (∀ e,
      e ∈ s.u.str → e.1 < n.val → e.2.st ≠ .opening ∧ e.2.st ≠ .resuming) ∧ boundOk s.u x = true ∧ freeSeat s.u x.headSlot x.cohort = some r) ∧
    (∃ (s : State) (n : Fin 4096) (x : Str), tget s.u.str n = some x ∧ x.st = .opening ∧ x.start ≤ boundTick s.u x.cohort ∧ s.u.tick.st = .current ∧
      atBoundary s.u x.cohort = true ∧ x.cancelAt = none ∧ seatAssign x.cohort s.u = s.u ∧ (∀ e, e ∈ s.u.str → e.1 < n.val → e.2.st ≠ .opening ∧
      e.2.st ≠ .resuming) ∧ (boundOk s.u x = false ∨ freeSeat s.u x.headSlot x.cohort = none)) ∧
    (∃ (s : State) (n : Fin 4096) (k : Nat) (x : Str), tget s.u.str n = some x ∧ x.st ≠ .free ∧ x.st ≠ .closing ∧ x.st ≠ .resuming ∧
      x.st ≠ .opening ∧ x.pause = none ∧ x.cancelAt = some k ∧ k ≠ coastEnd ∧ k ≤ boundTick s.u x.cohort ∧ running s.u = true) ∧
    (∃ (s : State) (n : Fin 4096) (x : Str), tget s.u.str n = some x ∧ x.st = .closing ∧ x.closeAt ≤ boundTick s.u x.cohort) ∧
    (∃ (s : State) (n : Fin 4096) (x : Str), tget s.u.str n = some x ∧ x.closeAt > boundTick s.u x.cohort) ∧
    (∃ (s : State) (n : Fin 4096) (x : Str) (r : PauseReq), tget s.u.str n = some x ∧ x.pause = some r ∧ r.target = 0 ∧ x.st = .pauseDrain ∧
      drained x = true ∧ atBoundary s.u x.cohort = true ∧ x.pages = []) ∧
    (∃ (s : State) (n : Fin 4096) (x : Str) (r : PauseReq), tget s.u.str n = some x ∧ x.pause = some r ∧ x.st = .pausing ∧
      atBoundary s.u x.cohort = true ∧ r.entered < boundTick s.u x.cohort ∧ x.cancelAt = none ∧ x.copyFail = false ∧ copying s.u (.pause n) = false ∧
      moveDone s.u (.pause n) = true ∧ x.pages = []) ∧
    (∃ (s : State) (n : Fin 4096) (x : Str) (r : PauseReq), tget s.u.str n = some x ∧ x.pause = some r ∧ x.st = .pausing ∧
      atBoundary s.u x.cohort = true ∧ r.entered < boundTick s.u x.cohort ∧ x.cancelAt = none) ∧
    (∃ (s : State) (e : Nat) (v : Saved), s.u.tier.saved = [(e, v)] ∧ v.st ≠ 3 ∧ v.expiry ≤ s.u.tick.edgeAt) ∧
    (∃ (s : State), (∀ e, e ∈ s.u.tier.saved → s.u.tick.edgeAt < e.2.expiry)) ∧
    (∃ (s : State) (n : Fin 4096) (x : Str) (e : Nat) (v : Saved), tget s.u.str n = some x ∧ x.st = .resuming ∧ x.pages = [] ∧ s.u.tier.saved = [(e,
      v)] ∧ v.id = x.restoring ∧ v.st = 3 ∧ v.t2.length ≤ 1 ∧ x.copyFail = false ∧ x.start ≤ boundTick s.u x.cohort ∧
      atBoundary s.u x.cohort = true ∧ copying s.u (.resume n) = false ∧ moveDone s.u (.resume n) = true ∧ x.cancelAt = none) ∧
    (∃ (s : State) (n : Fin 4096) (x : Str) (e : Nat) (v : Saved), tget s.u.str n = some x ∧ x.st = .resuming ∧ s.u.tier.saved = [(e, v)] ∧
      v.id = x.restoring ∧ v.st = 3) :=
  ⟨⟨st u0, 1, by decide +kernel⟩,
   ⟨st { u0 with str := [(4095, { gen := 4095, ctx := 63, st := .waiting, headSlot := 31 })], tick := { u0.tick with st := .current, number := 7, lastMark := 0 }, slot := [(31, { st := .inService, nrep := 1 })] },
     0, 4095, 0, { gen := 4095, ctx := 63, st := .waiting, headSlot := 31 }, by decide +kernel⟩,
   ⟨st { us { sx with st := .opening, headSlot := 31 } with slot := [(31, { st := .inService, nrep := 1 })] }, 4095, 0,
     { sx with st := .opening, headSlot := 31 }, by decide +kernel⟩,
   ⟨st (us { sx with st := .opening, headSlot := 31 }), 4095, { sx with st := .opening, headSlot := 31 }, by decide +kernel⟩,
   ⟨st { u0 with str := [(4095, { gen := 4095, ctx := 63, st := .active, cancelAt := some 7 })], tick := { u0.tick with st := .current, number := 7, lastMark := 0 } },
     4095, 7, { gen := 4095, ctx := 63, st := .active, cancelAt := some 7 }, by decide +kernel⟩,
   ⟨st { u0 with str := [(4095, { gen := 4095, ctx := 63, st := .closing, closeAt := 7 })], tick := { u0.tick with st := .current, number := 7, lastMark := 0 } },
     4095, { gen := 4095, ctx := 63, st := .closing, closeAt := 7 }, by decide +kernel⟩,
   ⟨st { u0 with str := [(4095, { gen := 4095, ctx := 63, st := .closing, closeAt := 8 })], tick := { u0.tick with st := .current, number := 7, lastMark := 0 } },
     4095, { gen := 4095, ctx := 63, st := .closing, closeAt := 8 }, by decide +kernel⟩,
   ⟨st { u0 with str := [(4095, { gen := 4095, ctx := 63, st := .pauseDrain, pause := some { ttl := 60, room := 1 } })], tick := { u0.tick with st := .current, number := 7, lastMark := 0 } },
     4095, { gen := 4095, ctx := 63, st := .pauseDrain, pause := some { ttl := 60, room := 1 } }, { ttl := 60, room := 1 }, by decide +kernel⟩,
   ⟨st (us { sx with st := .pausing, pause := some { entered := 6 } }), 4095, { sx with st := .pausing, pause := some { entered := 6 } },
     { entered := 6 }, by decide +kernel⟩,
   ⟨st (us { sx with st := .pausing, pause := some { entered := 6 } }), 4095, { sx with st := .pausing, pause := some { entered := 6 } },
     { entered := 6 }, by decide +kernel⟩,
   ⟨st { u0 with tier := { u0.tier with saved := [(65535, {})] } }, 65535, {}, by decide +kernel⟩,
   ⟨st u0, by decide +kernel⟩,
   ⟨st { us { sx with st := .resuming, restoring := 65536 } with tier := { u0.tier with saved := [(0, { id := 65536, st := 3, str := sx })] } },
     4095, { sx with st := .resuming, restoring := 65536 }, 0, { id := 65536, st := 3, str := sx }, by decide +kernel⟩,
   ⟨st { u0 with str := [(4095, { gen := 4095, ctx := 63, st := .resuming, restoring := 65536 })], tick := { u0.tick with st := .current, number := 7, lastMark := 0 }, tier := { u0.tier with saved := [(0, { id := 65536, st := 3, str := { ctx := 63 } })] } },
     4095, { gen := 4095, ctx := 63, st := .resuming, restoring := 65536 }, 0, { id := 65536, st := 3, str := { ctx := 63 } }, by decide +kernel⟩⟩

theorem witness_sampling_of_a_token_is_as_stated :
    (∃ (s : State) (c : CoreId) (co : Fin 2) (entry slot n : Nat) (x : Str), coreLive s.asm s.u c = true ∧
      (coreAt s.u (coreKey c)).slot = some slot ∧ streamAt s.u slot (coreAt s.u (coreKey c)).rep co entry = some n ∧ tget s.u.str n = some x ∧
      imgKind (slotImg s.u slot) = 1 ∧ (∀ y, y ∈ x.sums → y.core ≠ (coreAt s.u (coreKey c)).lidx) ∧ x.noSample = false ∧ x.chosen = none) ∧
    (∃ (s : State) (n : Fin 4096) (x : Str), tget s.u.str n = some x ∧ x.entry ≠ none ∧ x.chosen = none ∧ x.noSample = false ∧ x.st = .active ∧
      x.listed = true ∧ s.u.tick.st ≠ .halted ∧ imgNcore (slotImg s.u x.headSlot) ≤ x.sums.length ∧ x.cont ≠ none ∧ (∀ y,
      y ∈ x.sums → y.poison = false) ∧ (∃ y, y ∈ x.sums ∧ y.unmasked ≠ 0)) ∧
    (∃ (s : State) (n : Fin 4096) (x : Str), tget s.u.str n = some x ∧ x.entry ≠ none ∧ x.chosen = none ∧ x.noSample = false ∧ x.st = .active ∧
      x.listed = true ∧ s.u.tick.st ≠ .halted ∧ imgNcore (slotImg s.u x.headSlot) ≤ x.sums.length ∧ (x.cont = none ∨ ∃ y, y ∈ x.sums ∧
      y.poison = true)) ∧
    (∃ (s : State) (n : Fin 4096) (x : Str), tget s.u.str n = some x ∧ x.entry ≠ none ∧ x.chosen = none ∧ x.noSample = false ∧ x.st = .active ∧
      x.listed = true ∧ s.u.tick.st ≠ .halted ∧ imgNcore (slotImg s.u x.headSlot) ≤ x.sums.length ∧ x.cont ≠ none ∧ (∀ y,
      y ∈ x.sums → y.poison = false) ∧ (∀ y, y ∈ x.sums → y.unmasked = 0)) ∧
    (∃ (s : State) (n : Fin 4096) (x : Str), tget s.u.str n = some x ∧ (x.listed = false ∨ s.u.tick.st = .halted)) ∧
    (∃ (samp : Bytes), le samp 8 4 = 0) ∧
    (∃ (samp : Bytes) (l : List Summary), le samp 8 4 = 0 ∧ (mergeAll l ≠ []) ∧ exactLen l (mergeAll l) ≠ 0) :=
  ⟨⟨st { us (stepped []) with slot := [(31, headSl)], core := [(383, { cl with slot := some 31 })] }, c0, 0, 5, 31, 4095, stepped [],
    by decide +kernel⟩,
   ⟨st { us (stepped [{ unmasked := 1, cand := [(0, 3)] }]) with slot := [(31, headSl)] }, 4095, stepped [{ unmasked := 1, cand := [(0, 3)] }],
     by decide +kernel⟩,
   ⟨st { us (stepped [{ unmasked := 1, cand := [(0, 3)], poison := true }]) with slot := [(31, headSl)] }, 4095,
     stepped [{ unmasked := 1, cand := [(0, 3)], poison := true }], by decide +kernel⟩,
   ⟨st { us (stepped [{}]) with slot := [(31, headSl)] }, 4095, stepped [{}], by decide +kernel⟩,
   ⟨st (us { stepped [] with listed := false }), 4095, { stepped [] with listed := false }, by decide +kernel⟩,
   ⟨[], by decide +kernel⟩,
   ⟨[], [{ unmasked := 1, cand := [(0, 3)] }], by decide +kernel⟩⟩

theorem witness_sweeps_and_checks :
    (∃ (s : State) (n : Fin 4096) (x : Str) (h : Held), tget s.u.str n = some x ∧ x.hold.find? (fun y => !y.swept) = some h ∧ (∀ c,
      c ∈ x.checks → c.scores = none)) ∧
    (∃ (s : State) (n : Fin 4096), (tgetD s.u.str n {}).hold.find? (fun y => !y.swept) = none ∧ (∀ c,
      c ∈ (tgetD s.u.str n {}).checks → c.scores = none)) ∧
    (∃ (s : State) (n : Fin 4096) (x : Str) (c : Check), tget s.u.str n = some x ∧ x.checks = [c] ∧ c.launched = false ∧ s.u.tick.st = .current ∧
      x.st ≠ .waiting ∧ slotServing s.u x.ansSlot = true ∧ checksOn s.u x.ansSlot < servingReps s.u x.ansSlot ∧
      (checkPages x c = 0 ∨ s.u.tier.checkRead + checkPages x c ≤ checkBudget s.u ∧ checkAhead s.u n c = false)) ∧
    (∃ (s : State) (n : Fin 4096) (x : Str) (c : Check) (l : List W32), tget s.u.str n = some x ∧ x.checks = [c] ∧ c.launched = true ∧
      c.epoch = x.rew ∧ x.rew < 256 ∧ unsweptIn x c = false ∧ checkJudge s.u x c l false = some true) ∧
    (∃ (s : State) (n : Fin 4096) (x : Str) (c : Check) (l : List W32), tget s.u.str n = some x ∧ x.checks = [c] ∧ c.launched = true ∧
      c.epoch = x.rew ∧ x.rew < 256 ∧ unsweptIn x c = false ∧ checkJudge s.u x c l false = some false) ∧
    (∃ (s : State) (n : Fin 4096) (x : Str) (c : Check), tget s.u.str n = some x ∧ x.checks = [c] ∧ c.launched = true ∧ c.epoch = x.rew ∧
      x.rew < 256 ∧ unsweptIn x c = false) ∧
    (∃ (s : State) (n : Fin 4096) (x : Str) (c : Check), tget s.u.str n = some x ∧ x.checks = [c] ∧ c.launched = true ∧ c.epoch = x.rew ∧
      x.rew < 256 ∧ unsweptIn x c = true) ∧
    (∃ (s : State) (n : Fin 4096) (x : Str) (e : Byte), tget s.u.str n = some x ∧ e.toNat ≠ x.rew) ∧
    (∃ (s : State) (n : Fin 4096) (x : Str) (c : Check), tget s.u.str n = some x ∧ x.checks = [c] ∧ c.late = false ∧ egressMark s.u x.cohort = true ∧
      c.queued + le c.pol 22 2 ≤ cohortTick s.u x.cohort ∧ le c.pol 21 1 / 16 = 0) ∧
    (∃ (s : State) (n : Fin 4096), egressMark s.u (tgetD s.u.str n {}).cohort = false) :=
  ⟨⟨st (us { sx with hold := [{ tok := 9 }] }), 4095, { sx with hold := [{ tok := 9 }] }, { tok := 9 }, by decide +kernel⟩,
   ⟨st u0, 4095, by decide +kernel⟩,
   ⟨st { us { sx with st := .active, checks := [{ pol := [] }], ansSlot := 31 } with slot := [(31, headSl)] }, 4095,
     { sx with st := .active, checks := [{ pol := [] }], ansSlot := 31 }, { pol := [] }, by decide +kernel⟩,
   ⟨st (us { sx with st := .active, checks := [{ launched := true, pol := pay 288 [] }] }), 4095,
     { sx with st := .active, checks := [{ launched := true, pol := pay 288 [] }] }, { launched := true, pol := pay 288 [] }, [], by decide +kernel⟩,
   ⟨st (us { sx with st := .active, checks := [{ launched := true, pol := pay 288 [(26, 1, 1), (32, 2, 36864), (34, 1, 0), (36, 4, 0)] }] }), 4095,
     { sx with st := .active, checks := [{ launched := true, pol := pay 288 [(26, 1, 1), (32, 2, 36864), (34, 1, 0), (36, 4, 0)] }] },
     { launched := true, pol := pay 288 [(26, 1, 1), (32, 2, 36864), (34, 1, 0), (36, 4, 0)] }, [0x7F800000], by decide +kernel⟩,
   ⟨st (us { sx with rew := 255, checks := [{ launched := true, epoch := 255, pol := [] }] }), 4095,
     { sx with rew := 255, checks := [{ launched := true, epoch := 255, pol := [] }] }, { launched := true, epoch := 255, pol := [] },
     by decide +kernel⟩,
   ⟨st (us { sx with hold := [{ tok := 9 }], checks := [{ launched := true, pol := [] }] }), 4095,
     { sx with hold := [{ tok := 9 }], checks := [{ launched := true, pol := [] }] }, { launched := true, pol := [] }, by decide +kernel⟩,
   ⟨st { u0 with str := [(4095, { gen := 4095, ctx := 63 })] }, 4095, { gen := 4095, ctx := 63 }, 1, by decide +kernel⟩,
   ⟨st { u0 with str := [(4095, { gen := 4095, ctx := 63, st := .active, checks := [{ pol := pay 288 [] }] })], tick := { u0.tick with st := .current, number := 7, lastMark := 3 } },
     4095, { gen := 4095, ctx := 63, st := .active, checks := [{ pol := pay 288 [] }] }, { pol := pay 288 [] }, by decide +kernel⟩,
   ⟨st u0, 4095, by decide +kernel⟩⟩

theorem witness_rewind_redaction_and_runs :
    (∃ (s : State) (n : Fin 4096) (x : Str) (r why : Nat), tget s.u.str n = some x ∧ x.redo = some (r, [], why) ∧ why ≠ 3 ∧ x.st = .active ∧
      atBoundary s.u x.cohort = true ∧ x.cancelAt = none) ∧
    (∃ (s : State) (n : Fin 4096) (x : Str) (r : Nat) (l : List Nat), tget s.u.str n = some x ∧ x.redo = some (r, l, 3) ∧ x.st = .active ∧
      atBoundary s.u x.cohort = true ∧ x.cancelAt = none) ∧
    (∃ (s : State) (n : Fin 4096), (tgetD s.u.str n {}).redo = none) ∧
    (∃ (s : State) (n : Fin 4096) (x : Str), tget s.u.str n = some x ∧ 3 ≤ x.misses ∧ x.missNoted = false) ∧
    (∃ (s : State) (n : Fin 4096), ((tgetD s.u.str n {}).misses < 3 ∨ (tgetD s.u.str n {}).missNoted = true)) :=
  ⟨⟨st { u0 with str := [(4095, { gen := 4095, ctx := 63, st := .active, redo := some (5, [], 1) })], tick := { u0.tick with st := .current, number := 7, lastMark := 0 } },
    4095, { gen := 4095, ctx := 63, st := .active, redo := some (5, [], 1) }, 5, 1, by decide +kernel⟩,
   ⟨st { u0 with str := [(4095, { gen := 4095, ctx := 63, st := .active, redo := some (5, [9], 3) })], tick := { u0.tick with st := .current, number := 7, lastMark := 0 } },
     4095, { gen := 4095, ctx := 63, st := .active, redo := some (5, [9], 3) }, 5, [9], by decide +kernel⟩,
   ⟨st u0, 4095, by decide +kernel⟩,
   ⟨st { u0 with str := [(4095, { gen := 4095, ctx := 63, misses := 3 })] }, 4095, { gen := 4095, ctx := 63, misses := 3 }, by decide +kernel⟩,
   ⟨st u0, 4095, by decide +kernel⟩⟩

theorem witness_pages_move_and_are_credited :
    (∃ (s : State) (n c : Nat) (g : Page), borrowedPages s.u = [(n, c, g)] ∧ backgroundRuns s.u = true ∧
      s.u.tier.mainUse * 1024 < s.u.tier.pageMain * s.u.tier.lowWm ∧ s.u.tier.mainUse < s.u.tier.pageMain ∧
      tier2Down s.u (pageAddr2 s.u g.page) 65536 = false ∧ tget (tgetD s.u.str n {}).pages c = some g) ∧
    (∃ (s : State), (s.u.tick.st = .coasting ∨ s.u.tick.st = .halted ∨ ∃ w, s.u.fw.upd = some w ∧
      (s.u.tick.number = w.q + 2 ∨ s.u.tick.number = w.q + 3))) ∧
    (∃ (s : State) (p : Nat), backgroundRuns s.u = true ∧ s.u.tier.freed = [p]) ∧
    (∃ (s : State) (e : BitVec 16) (v : Saved), s.u.tier.saved = [(e.toNat, v)] ∧ v.st = 2 ∧ v.to_ = none ∧ v.npages + 1 ≤ roomAt s.u 0 ∧
      backgroundRuns s.u = true) ∧
    (∃ (s : State) (e : BitVec 16) (v : Saved) (x : Nat × List Nat), s.u.tier.saved = [(e.toNat, v)] ∧ v.st = 2 ∧ v.to_ = some x ∧ v.fail = false ∧
      copying s.u (.saved e.toNat) = false ∧ moveDone s.u (.saved e.toNat) = true) ∧
    (∃ (s : State) (e : BitVec 16) (v : Saved) (x : Nat × List Nat), s.u.tier.saved = [(e.toNat, v)] ∧ v.st = 2 ∧ v.to_ = some x) ∧
    (∃ (s : State) (e : BitVec 16) (v : Saved), tget s.u.tier.saved e.toNat = some v ∧ v.to_ = none) ∧
    (∃ (s : State) (mb : Fin 64) (p : Bytes) (k : Nat), heard s.u mb 0x0807 p ∧ handleSlotOf s.u mb (le p 0 4) = .inl k ∧
      bufOk s.u mb (bufOf p 16) = true ∧ (bufOf p 16).space = 0 ∧ dmaUp s.u 0 = true) :=
  ⟨⟨st { us { sx with st := .active, pages := [(3, { tier2 := true, page := 1 })] } with tier := { u0.tier with pageMain := 10, linkMask := 1, pageLen := 655360, mainUse := 7 } },
    4095, 3, { tier2 := true, page := 1 }, by decide +kernel⟩,
   ⟨st { tk with fw := { u0.fw with upd := some { q := 4 } } }, Or.inr (Or.inr ⟨_, rfl, Or.inr rfl⟩)⟩,
   ⟨st { tk with tier := { u0.tier with freed := [9], t1 := [9], mainUse := 1 } }, 9, by decide +kernel⟩,
   ⟨st { tk with tier := { u0.tier with saved := [(65535, { st := 2 })], pageLen := 65536 } }, 65535, { st := 2 }, by decide +kernel⟩,
   ⟨st { u0 with tier := { u0.tier with saved := [(65535, { st := 2, to_ := some (0, [1]) })] } }, 65535, { st := 2, to_ := some (0, [1]) }, (0,
     [1]), by decide +kernel⟩,
   ⟨st { u0 with tier := { u0.tier with saved := [(65535, { st := 2, to_ := some (0, [1]) })] } }, 65535, { st := 2, to_ := some (0, [1]) }, (0,
     [1]), by decide +kernel⟩,
   ⟨st { u0 with tier := { u0.tier with saved := [(65535, { st := 2 })] } }, 65535, { st := 2 }, by decide +kernel⟩,
   ⟨st (ask 63 0x0807 (pay 32 [(0, 4, 1073741823)]) { u0 with str := [(4095, { gen := 4095, ctx := 63, st := .active })], port0 := { u0.port0 with busMaster := true } }),
     63, pay 32 [(0, 4, 1073741823)], 4095, hd (by decide +kernel) (by decide +kernel), by decide +kernel⟩⟩

theorem witness_job_messages_and_descriptors :
    (∃ (s : State) (mb : Fin 64) (p : Bytes) (j : Job), heard s.u mb 0x0501 p ∧ jobAt s.u mb (le p 0 2) = some j ∧ j.cancelAt = none ∧
      jobLive j = true ∧ j.emitted = false ∧ s.u.tick.number + 1 < j.admitAt + j.delay - 1) ∧
    (∃ (s : State) (mb : Fin 64) (p : Bytes) (j : Job), heard s.u mb 0x0501 p ∧ jobAt s.u mb (le p 0 2) = some j ∧ j.cancelAt = none ∧
      (jobLive j = false ∨ j.emitted = true ∨ j.admitAt + j.delay - 1 ≤ s.u.tick.number + 1)) ∧
    (∃ (s : State) (mb : Fin 64) (p : Bytes), heard s.u mb 0x0501 p ∧ jobAt s.u mb (le p 0 2) = none) ∧
    (∃ (s : State) (mb : Fin 64) (p : Bytes), heard s.u mb 0x0502 p ∧ jobAt s.u mb (le p 0 2) = none) ∧
    (∃ (s : State) (mb : Fin 64) (p : Bytes) (j : Job), heard s.u mb 0x0502 p ∧ jobAt s.u mb (le p 0 2) = some j) ∧
    (∃ (s : State) (c : Fin 64) (b : Bytes) (r : Dma) (x : Option Bytes), 1 < (tgetD s.u.ctx c {}).fetchLeft ∧ running s.u = true ∧
      ringUp s.u (tgetD s.u.ctx c {}).sub = true ∧ descSampling s c (sliceZ b 0 64) r = some x ∧
      descReject (tgetD s.u.ctx c {}) (sliceZ b 0 64) = 0 ∧ tickHolds s.u = false) ∧
    (∃ (s : State) (c : Fin 64) (b : Bytes) (r : Dma) (x : Option Bytes), 1 < (tgetD s.u.ctx c {}).fetchLeft ∧ running s.u = true ∧
      ringUp s.u (tgetD s.u.ctx c {}).sub = true ∧ descSampling s c (sliceZ b 0 64) r = some x ∧
      descReject (tgetD s.u.ctx c {}) (sliceZ b 0 64) ≠ 0) ∧
    (∃ (s : State) (c : Fin 64), (tgetD s.u.ctx c {}).fetchLeft = 0) ∧
    (∃ (b : Bytes) (c : Ctx), descReject c b = 0) :=
  ⟨⟨st (ask 63 0x0501 (pay 8 [(0, 2, 65535)]) { u0 with job := [{ ctx := 63, tag := 65535, admitAt := 8, delay := 5 }], tick := { u0.tick with st := .current, number := 7 } }),
    63, pay 8 [(0, 2, 65535)], { ctx := 63, tag := 65535, admitAt := 8, delay := 5 }, hd (by decide +kernel) (by decide +kernel), by decide +kernel⟩,
   ⟨st (ask 63 0x0501 (pay 8 [(0, 2, 65535)]) { u0 with job := [{ ctx := 63, tag := 65535, emitted := true }] }), 63, pay 8 [(0, 2, 65535)],
     { ctx := 63, tag := 65535, emitted := true }, hd (by decide +kernel) (by decide +kernel), by decide +kernel⟩,
   ⟨st (ask 63 0x0501 (pay 8 [(0, 2, 65535)])), 63, pay 8 [(0, 2, 65535)], hd (by decide +kernel) (by decide +kernel), by decide +kernel⟩,
   ⟨st (ask 63 0x0502 (pay 8 [(0, 2, 65535)])), 63, pay 8 [(0, 2, 65535)], hd (by decide +kernel) (by decide +kernel), by decide +kernel⟩,
   ⟨st (ask 63 0x0502 (pay 8 [(0, 2, 65535)]) { u0 with job := [{ ctx := 63, tag := 65535 }] }), 63, pay 8 [(0, 2, 65535)],
     { ctx := 63, tag := 65535 }, hd (by decide +kernel) (by decide +kernel), by decide +kernel⟩,
   ⟨st { u0 with ctx := [(63, { state := 2, fetchLeft := 2 })], tick := { u0.tick with st := .current, number := 7 }, port0 := { u0.port0 with busMaster := true } },
     63, descOf [(0, 1, 3)], .data [], none, by decide +kernel⟩,
   ⟨st { u0 with ctx := [(63, { state := 2, fetchLeft := 2 })], tick := { u0.tick with st := .current, number := 7 }, port0 := { u0.port0 with busMaster := true } },
     63, [], .data [], none, by decide +kernel⟩,
   ⟨st u0, 63, by decide +kernel⟩,
   ⟨descOf [(0, 1, 3)], {}, by decide +kernel⟩⟩

theorem witness_job_decisions :
    (∃ (s : State) (c : Fin 64) (w : Waiting) (d : Dma) (tab : Bytes) (lim delay n : Nat) (cells : List Cell), decides s.u c 1 = some w ∧
      loseDead s.u = s.u ∧ admissionHeld s.u c = false ∧ 1 ≤ le w.desc 44 1 ∧ le w.desc 44 1 ≤ 64 ∧ 8 * le w.desc 44 1 ≤ (bufOf w.desc 8).len ∧
      descBufOk (decided c w s.u) c (bufOf w.desc 8) = true ∧ bufRead s c { bufOf w.desc 8 with len := 8 * le w.desc 44 1 } d = some tab ∧
      segsBad tab (le w.desc 44 1) = false ∧ n = ((segTable tab (le w.desc 44 1)).map (·.2)).sum ∧
      8 * le w.desc 44 1 + 4 * n ≤ (bufOf w.desc 8).len ∧ (tgetD s.u.ctx c {}).classes[le w.desc 1 1]? = some (lim, delay) ∧ n ≤ lim ∧
      screens (polCur s.u (le w.desc 4 4 % 1024)) = true ∧ (∀ k, k ∈ reqSlots (polCur s.u (le w.desc 4 4 % 1024)) → slotServing s.u k = true) ∧
      s.u.job.length < 8192 ∧ ctxJobs s.u c < (tgetD s.u.ctx c {}).jobQuota ∧
      s.u.tier.poolUse + poolUnits (decided c w s.u) (reqSlots (polCur s.u (le w.desc 4 4 % 1024))) n (le w.desc 44 1) ≤ s.u.tier.jobPool ∧
      placeAll (decided c w s.u) (polCur s.u (le w.desc 4 4 % 1024)) c (s.u.tick.number + 2) (s.u.tick.number + delay - 2) true ((reqSlots (polCur s.u (le w.desc 4 4 % 1024))).map (fun k => (k,
      n, none)) ++ [(tokCell, if profBanks (polProf s.u (polCur s.u (le w.desc 4 4 % 1024)) 0) = 0 then 0 else n, none), (byteCell, le w.desc 40 4,
      none)]) = some cells) ∧
    (∃ (s : State) (c : Fin 64) (w : Waiting), decides s.u c 1 = some w ∧ loseDead s.u = s.u ∧ admissionHeld s.u c = true) ∧
    (∃ (s : State) (c : Fin 64), decides s.u c 1 = none) :=
  ⟨⟨st { tk with fw := { u0.fw with stage := 4 }, port0 := { u0.port0 with busMaster := true }, ctx := [(63, { state := 2, jobQuota := 1, classes := [(1, 5)], waiting := [{ desc := pay 64 [(0, 1, 1), (2, 2, 65535), (4, 4, 1023), (12, 4, 64), (44, 1, 1)], tick := 7 }] })], pol := [(1023, { cur := some (pay 288 [(16, 1, 255), (17, 1, 255), (18, 1, 255)], 1) })], tier := { u0.tier with jobPool := 1 } },
    63, { desc := pay 64 [(0, 1, 1), (2, 2, 65535), (4, 4, 1023), (12, 4, 64), (44, 1, 1)], tick := 7 }, .data (pay 8 [(2, 2, 1)]), pay 8 [(2, 2,
    1)], 1, 5, 1, [], by decide +kernel, rfl, by decide +kernel⟩,
   ⟨st { u0 with fw := { u0.fw with stage := 4 }, tick := { u0.tick with st := .current, number := 7, admitHold := true }, port0 := { u0.port0 with busMaster := true }, ctx := [(63, { state := 2, jobQuota := 1, classes := [(1, 5)], waiting := [{ desc := pay 64 [(0, 1, 1), (2, 2, 65535), (4, 4, 1023), (12, 4, 64), (44, 1, 1)], tick := 7 }] })], pol := [(1023, { cur := some (pay 288 [(16, 1, 255), (17, 1, 255), (18, 1, 255)], 1) })], tier := { u0.tier with jobPool := 1 } },
     63, { desc := pay 64 [(0, 1, 1), (2, 2, 65535), (4, 4, 1023), (12, 4, 64), (44, 1, 1)], tick := 7 }, by decide +kernel, rfl, by decide +kernel⟩,
   ⟨st u0, 63, by decide +kernel⟩⟩

theorem witness_job_work_and_records :
    (∃ (s : State) (c : Fin 64) (g : BitVec 16) (d : Dma) (j : Job) (b : Bytes), jobAt s.u c g.toNat = some j ∧ jobLive j = true ∧ j.tokens = none ∧
      0x18 ∉ j.faults ∧ s.u.tick.number = j.copyAt ∧ j.copyLost = false ∧ s.u.tick.st = .current ∧
      bufRead s c { j.tokbuf with addr := j.tokbuf.addr + 8 * j.segs.length, len := 4 * j.ntok } d = some b) ∧
    (∃ (s : State) (c : Fin 64) (g : BitVec 16) (d : Dma) (j : Job), jobAt s.u c g.toNat = some j ∧ jobLive j = true ∧ j.tokens = none ∧
      0x18 ∉ j.faults ∧ s.u.tick.number = j.copyAt ∧ j.copyLost = false ∧ s.u.tick.st = .current ∧
      bufRead s c { j.tokbuf with addr := j.tokbuf.addr + 8 * j.segs.length, len := 4 * j.ntok } d = none) ∧
    (∃ (s : State) (c : Fin 64) (g : BitVec 16) (seg : Nat) (j : Job) (l : List Nat), s.u.job = [j] ∧ j.ctx = c.val ∧ j.tag = g.toNat ∧
      j.tokens = some l ∧ jobLive j = true ∧ seg < j.segs.length ∧ seg ∉ j.swept ∧ s.u.tick.st = .current ∧ sweepListed s.u j.pol = true ∧
      j.lost = none ∧ j.undone = [] ∧ j.admitAt + 2 ≤ s.u.tick.number ∧ s.u.tick.number ≤ j.admitAt + j.delay - 2) ∧
    (∃ (s : State) (c : Fin 64) (g : BitVec 16) (seg : Nat) (j : Job), jobAt s.u c g.toNat = some j ∧
      (seg ∈ j.swept ∨ sweepListed s.u j.pol = false)) ∧
    (∃ (s : State) (j : Job), s.u.job = [j] ∧ loseDead s.u = s.u ∧ wantsReplan j = true ∧ j.cancelAt = none ∧ j.copyLost = false ∧
      s.u.tick.st = .current ∧ roleRuns s.u 1 = true) ∧
    (∃ (s : State) (c : Fin 64) (g : BitVec 16) (l : List ScoreVec) (j : Job), s.u.job = [j] ∧ j.ctx = c.val ∧ j.tag = g.toNat ∧ jobLive j = true ∧
      running s.u = true ∧ s.u.tick.number = j.admitAt + j.delay - 1 ∧ j.cancelAt = none ∧ j.tokens ≠ none ∧ matchDone j = true ∧
      clsDone j l = true ∧ wantsReplan j = false ∧ j.lost = none ∧ j.faults = [] ∧ jobPoison j l = false ∧ (∀ k,
      k < j.segs.length → (judgeSeg s.u j l k).block = false ∧ (judgeSeg s.u j l k).fails = [] ∧ (judgeSeg s.u j l k).spans = [] ∧
      (judgeSeg s.u j l k).scores = [] ∧ (judgeSeg s.u j l k).hits = [])) ∧
    (∃ (s : State) (c : Fin 64) (g : BitVec 16) (l : List ScoreVec) (j : Job), s.u.job = [j] ∧ j.ctx = c.val ∧ j.tag = g.toNat ∧ jobLive j = true ∧
      running s.u = true ∧ s.u.tick.number = j.admitAt + j.delay - 1 ∧ j.cancelAt = none ∧ j.faults ≠ [] ∧ jobPoison j l = false ∧ (∀ x,
      x ∈ j.faults → x < 256)) ∧
    (∃ (s : State) (c : Fin 64) (g : BitVec 16) (l : List ScoreVec) (j : Job), s.u.job = [j] ∧ j.ctx = c.val ∧ j.tag = g.toNat ∧ jobLive j = true ∧
      running s.u = true ∧ s.u.tick.number = j.admitAt + j.delay - 1 ∧ j.cancelAt = none ∧ j.faults ≠ [] ∧ jobPoison j l = false ∧ (∀ x,
      x ∈ j.faults → x < 256) ∧ (∀ k, k < j.segs.length → (judgeSeg s.u j l k).block = false ∧ (judgeSeg s.u j l k).fails = [] ∧
      (judgeSeg s.u j l k).spans = [] ∧ (judgeSeg s.u j l k).scores = [] ∧ (judgeSeg s.u j l k).hits = [])) ∧
    (∃ (s : State) (c : Fin 64) (g : BitVec 16) (j : Job), s.u.job = [j] ∧ j.ctx = c.val ∧ j.tag = g.toNat ∧ jobLive j = true ∧
      egressMark s.u (tgetD s.u.ctx c {}).cohort = true ∧ j.admitAt + j.delay ≤ cohortTick s.u (tgetD s.u.ctx c {}).cohort ∧ j.cancelAt = none ∧
      le j.pol 21 1 % 16 = 0) ∧
    (∃ (s : State) (c : Fin 64) (g : BitVec 16) (j : Job) (k : Nat), s.u.job = [j] ∧ j.ctx = c.val ∧ j.tag = g.toNat ∧ jobLive j = true ∧
      running s.u = true ∧ j.cancelAt = some k ∧ k ≤ s.u.tick.number) ∧
    (∃ (s : State) (c : Fin 64) (g : BitVec 16), jobAt s.u c g.toNat = none) :=
  ⟨⟨st { tk with job := [{ ctx := 63, tag := 65535, admitAt := 6, copyAt := 7, segs := [(0, 1)], ntok := 1, tokbuf := { len := 64 } }], port0 := { u0.port0 with busMaster := true } },
    63, 65535, .data [1], { ctx := 63, tag := 65535, admitAt := 6, copyAt := 7, segs := [(0, 1)], ntok := 1, tokbuf := { len := 64 } }, [1, 0, 0, 0],
    by decide +kernel⟩,
   ⟨st { tk with job := [{ ctx := 63, tag := 65535, admitAt := 6, copyAt := 7, segs := [(0, 1)], ntok := 1, tokbuf := { len := 64 } }], port0 := { u0.port0 with busMaster := true } },
     63, 65535, .fault, { ctx := 63, tag := 65535, admitAt := 6, copyAt := 7, segs := [(0, 1)], ntok := 1, tokbuf := { len := 64 } },
     by decide +kernel⟩,
   ⟨st { tk with tick := { tk.tick with sweeps := [0] }, job := [{ ctx := 63, tag := 65535, admitAt := 5, delay := 4, segs := [(0, 1)], tokens := some [9] }] },
     63, 65535, 0, { ctx := 63, tag := 65535, admitAt := 5, delay := 4, segs := [(0, 1)], tokens := some [9] }, [9], by decide +kernel⟩,
   ⟨st { u0 with job := [{ ctx := 63, tag := 65535, swept := [0] }] }, 63, 65535, 0, { ctx := 63, tag := 65535, swept := [0] }, by decide +kernel⟩,
   ⟨st { u0 with job := [{ ctx := 63, tag := 65535, undone := [{}] }], tick := { u0.tick with st := .current, number := 7 }, fw := { u0.fw with stage := 4 } },
     { ctx := 63, tag := 65535, undone := [{}] }, by decide +kernel, rfl, by decide +kernel⟩,
   ⟨st { u0 with job := [{ ctx := 63, tag := 65535, admitAt := 3, delay := 5, segs := [(0, 1)], tokens := some [9], swept := [0], pol := pay 288 [(16, 1, 255), (17, 1, 255), (18, 1, 255)] }], tick := { u0.tick with st := .current, number := 7 } },
     63, 65535, [], { ctx := 63, tag := 65535, admitAt := 3, delay := 5, segs := [(0, 1)], tokens := some [9], swept := [0], pol := pay 288 [(16, 1, 255), (17, 1, 255), (18, 1, 255)] },
     by refine ⟨?_, ?_, ?_, ?_, ?_, ?_, ?_, ?_, ?_, ?_, ?_, ?_, ?_, ?_, fun k h => by cases k with | zero => decide +kernel | succ n => exact absurd (Nat.lt_of_succ_lt_succ h) (Nat.not_lt_zero _)⟩ <;> decide +kernel⟩,
   ⟨st { u0 with job := [{ ctx := 63, tag := 65535, admitAt := 3, delay := 5, faults := [0x18] }], tick := { u0.tick with st := .current, number := 7 } },
     63, 65535, [], { ctx := 63, tag := 65535, admitAt := 3, delay := 5, faults := [0x18] },
     by refine ⟨?_, ?_, ?_, ?_, ?_, ?_, ?_, ?_, ?_, fun x h => by simp at h; omega⟩ <;> decide +kernel⟩,
   ⟨st { tk with job := [{ ctx := 63, tag := 65535, admitAt := 6, delay := 2, segs := [(0, 1)], faults := [0x18] }] }, 63, 65535, [],
     { ctx := 63, tag := 65535, admitAt := 6, delay := 2, segs := [(0, 1)], faults := [0x18] }, by decide +kernel⟩,
   ⟨st { u0 with job := [{ ctx := 63, tag := 65535, admitAt := 2, delay := 5, pol := pay 288 [] }], tick := { u0.tick with st := .current, number := 7, lastMark := 3 } },
     63, 65535, { ctx := 63, tag := 65535, admitAt := 2, delay := 5, pol := pay 288 [] }, by decide +kernel⟩,
   ⟨st { u0 with job := [{ ctx := 63, tag := 65535, cancelAt := some 7 }], tick := { u0.tick with st := .current, number := 7 } }, 63, 65535,
     { ctx := 63, tag := 65535, cancelAt := some 7 }, 7, by decide +kernel⟩,
   ⟨st u0, 63, 65535, by decide +kernel⟩⟩

theorem witness_window_and_tier_messages :
    (∃ (s : State) (mb : Fin 64) (p : Bytes), heard s.u mb 0x0601 p ∧ 1 ≤ le p 0 1 ∧ le p 0 1 ≤ 254 ∧ le p 1 1 ≤ 1 ∧
      tget s.u.tier.imports (le p 0 1) = none ∧ importDue s.u (le p 0 1) = false) ∧
    (∃ (s : State) (mb : Fin 64) (p : Bytes), heard s.u mb 0x0601 p ∧ 1 ≤ le p 0 1 ∧ le p 0 1 ≤ 254 ∧ le p 1 1 ≤ 1 ∧
      tget s.u.tier.imports (le p 0 1) ≠ none) ∧
    (∃ (s : State) (mb : Fin 64) (p : Bytes), heard s.u mb 0x0602 p ∧ (le p 1 1 = 1 ∨ le p 1 1 = 2) ∧ le p 2 1 ≤ 1) ∧
    (∃ (s : State) (mb : Fin 64) (p : Bytes) (d : Win), heard s.u mb 0x0603 p ∧ tget s.u.tier.imports (le p 0 1) = some d) ∧
    (∃ (s : State) (w : Fin 256) (d : Win) (k : Nat), tget s.u.tier.imports w = some d ∧ d.depart = some k ∧ k ≤ s.u.tick.number) ∧
    (∃ (s : State) (w : Fin 256) (d : Win) (k : Nat), tget s.u.tier.imports w = some d ∧ d.depart = some k ∧ s.u.tick.number < k) ∧
    (∃ (s : State) (mb : Fin 64) (p : Bytes), heard s.u mb 0x0604 p ∧ s.u.blk.en = false) ∧
    (∃ (s : State) (mb : Fin 64) (p : Bytes), heard s.u mb 0x0604 p ∧ s.u.blk.en = true) ∧
    (∃ (s : State) (mb : Fin 64) (p : Bytes) (base : Nat), heard s.u mb 0x0605 p ∧ 1 ≤ le p 0 1 ∧ le p 0 1 ≤ 63 ∧ 0 < le p 4 4 ∧
      (tgetD s.u.ctx (le p 0 1) {}).state < 2 ∧ (tgetD s.u.ctx (le p 0 1) {}).enableAt = none ∧
      t1Fit s.asm { s.u with tier := { s.u.tier with areas := s.u.tier.areas.filter (fun x => x.1 != le p 0 1) } } (65536 * le p 4 4) = some base) ∧
    (∃ (s : State) (mb : Fin 64) (p x : Bytes) (d : Dma) (base : Nat), heard s.u mb 0x0606 p ∧ le p 0 1 = 0 ∧ (bufOf p 16).space ≤ 1 ∧
      bufOk s.u mb { space := 2, len := (bufOf p 16).len, addr := le p 8 8 } = true ∧ bufOk s.u mb (bufOf p 16) = true ∧ s.u.pins.throt = false ∧
      updateClash s.u (ceilDiv (bufOf p 16).len (2 ^ 24)) = false ∧ bufRead s mb (bufOf p 16) d = some x ∧
      base = (tgetD s.u.ctx mb {}).areaBase + le p 8 8) ∧
    (∃ (s : State) (mb : Fin 64) (p : Bytes) (base : Nat), heard s.u mb 0x0606 p ∧ le p 0 1 = 1 ∧ (bufOf p 16).space ≤ 1 ∧
      bufOk s.u mb { space := 2, len := (bufOf p 16).len, addr := le p 8 8 } = true ∧ bufOk s.u mb (bufOf p 16) = true ∧ s.u.pins.throt = false ∧
      updateClash s.u (ceilDiv (bufOf p 16).len (2 ^ 24)) = false ∧ dmaUp s.u (bufOf p 16).space = true ∧
      base = (tgetD s.u.ctx mb {}).areaBase + le p 8 8 ∧ (areaRead s base (bufOf p 16).len).2 = false) ∧
    (∃ (s : State) (mb : Fin 64) (p : Bytes), heard s.u mb 0x0607 p) :=
  ⟨⟨st (ask 0 0x0601 (pay 24 [(0, 1, 254), (1, 1, 1)])), 0, pay 24 [(0, 1, 254), (1, 1, 1)], hd (by decide +kernel) (by decide +kernel),
    by decide +kernel⟩,
   ⟨st (ask 0 0x0601 (pay 24 [(0, 1, 254), (1, 1, 1)]) ({ u0 with tier := { u0.tier with imports := [(254, {})] } })), 0, pay 24 [(0, 1, 254), (1, 1,
     1)], hd (by decide +kernel) (by decide +kernel), by decide +kernel⟩,
   ⟨st (ask 0 0x0602 (pay 32 [(1, 1, 2), (2, 1, 1)])), 0, pay 32 [(1, 1, 2), (2, 1, 1)], hd (by decide +kernel) (by decide +kernel),
     by decide +kernel⟩,
   ⟨st (ask 0 0x0603 (pay 16 [(0, 1, 254)]) ({ u0 with tier := { u0.tier with imports := [(254, {})] } })), 0, pay 16 [(0, 1, 254)], {},
     hd (by decide +kernel) (by decide +kernel), by decide +kernel⟩,
   ⟨st { u0 with tier := { u0.tier with imports := [(254, { depart := some 0 })] } }, 254, { depart := some 0 }, 0, by decide +kernel⟩,
   ⟨st { u0 with tier := { u0.tier with imports := [(254, { depart := some 1 })] } }, 254, { depart := some 1 }, 1, by decide +kernel⟩,
   ⟨st (ask 0 0x0604 (pay 40 [])), 0, pay 40 [], hd (by decide +kernel) (by decide +kernel), by decide +kernel⟩,
   ⟨st (ask 0 0x0604 (pay 40 []) { u0 with blk := { u0.blk with en := true } }), 0, pay 40 [], hd (by decide +kernel) (by decide +kernel),
     by decide +kernel⟩,
   ⟨st (ask 0 0x0605 (pay 8 [(0, 1, 63), (4, 4, 1)])), 0, pay 8 [(0, 1, 63), (4, 4, 1)], 4530044928, hd (by decide +kernel) (by decide +kernel),
     by decide +kernel⟩,
   ⟨st (ask 63 0x0606 (pay 32 [(0, 1, 0), (8, 8, 65472), (16, 1, 0), (20, 4,
     64)]) { u0 with ctx := [(63, { areaBase := 65536, areaUnits := 1 })], port0 := { u0.port0 with busMaster := true } }), 63, pay 32 [(0, 1, 0),
     (8, 8, 65472), (16, 1, 0), (20, 4, 64)], List.replicate 64 5, .data (List.replicate 64 5), 131008, hd (by decide +kernel) (by decide +kernel),
     by decide +kernel⟩,
   ⟨st (ask 63 0x0606 (pay 32 [(0, 1, 1), (8, 8, 65472), (16, 1, 0), (20, 4,
     64)]) { u0 with ctx := [(63, { areaBase := 65536, areaUnits := 1 })], port0 := { u0.port0 with busMaster := true } }), 63, pay 32 [(0, 1, 1),
     (8, 8, 65472), (16, 1, 0), (20, 4, 64)], 131008, hd (by decide +kernel) (by decide +kernel), by decide +kernel⟩,
   ⟨st (ask 63 0x0607 (pay 0 [])), 63, pay 0 [], hd (by decide +kernel) (by decide +kernel)⟩⟩

theorem witness_window_transactions :
    (∃ (u : Units) (x : Txn), 1024 ≤ winSent (winDie (tgetD u.tier.imports x.win {})) u.tier) ∧
    (∃ (u : Units) (e : Txn × Bytes) (l : List (Txn × Bytes)), u.tier.waitTx = e :: l ∧
      winSent (winDie (tgetD u.tier.imports e.1.win {})) u.tier < 1024) ∧
    (∃ (u : Units) (e : Txn × Bytes) (l : List (Txn × Bytes)), u.tier.waitTx = e :: l ∧
      winSent (winDie (tgetD u.tier.imports e.1.win {})) u.tier < 1024 ∧
      portFree u (Config.windowPort (tgetD u.tier.imports e.1.win {}).base) 2 (1 + ceilDiv e.2.length 64)) ∧
    (∃ (u : Units), u.tier.waitTx = []) ∧
    (∃ (s : State) (rx : Rx) (p : Bytes) (a : Nat), arrives s.u 0x20 rx p ∧ portFree (rxFlits rx s.u) rx.port 3 (1 + le p 40 4 / 64) ∧
      reqFault s.u (le p 32 8) (le p 40 4) false = none ∧ reqPlace s.u (le p 32 8) (le p 40 4) = (2, a) ∧ (∀ k,
      k < le p 40 4 / 64 → t1Pois s.asm s.u.tier (a / 64 + k) = false)) ∧
    (∃ (s : State) (rx : Rx) (p : Bytes) (st : Nat), arrives s.u 0x20 rx p ∧ portFree (rxFlits rx s.u) rx.port 3 1 ∧
      reqFault s.u (le p 32 8) (le p 40 4) false = some st) ∧
    (∃ (s : State) (rx : Rx) (p : Bytes) (a : Nat), arrives s.u 0x21 rx p ∧ portFree (rxFlits rx s.u) rx.port 3 1 ∧ (p.drop 64).length = le p 40 4 ∧
      reqFault s.u (le p 32 8) (le p 40 4) true = none ∧ reqPlace s.u (le p 32 8) (le p 40 4) = (2, a)) ∧
    (∃ (s : State) (rx : Rx) (p : Bytes) (st : Nat), arrives s.u 0x21 rx p ∧ portFree (rxFlits rx s.u) rx.port 3 1 ∧ (p.drop 64).length = le p 40 4 ∧
      reqFault s.u (le p 32 8) (le p 40 4) true = some st) ∧
    (∃ (s : State) (rx : Rx) (p : Bytes) (x : Txn), arrives s.u 0x28 rx p ∧ txnOf s.u p false = some x ∧ x.dspace = 0 ∧ x.bytes % 64 = 0 ∧
      x.dst + x.bytes ≤ sramBytes ∧ (∀ c r, x.own ≠ some (.ring c r))) ∧
    (∃ (s : State) (rx : Rx) (p : Bytes) (x : Txn), arrives s.u 0x29 rx p ∧ txnOf s.u p true = some x ∧ (∀ c r, x.own ≠ some (.ring c r))) ∧
    (∃ (s : State) (rx : Rx) (p : Bytes), arrives s.u 0x29 rx p ∧ txnOf s.u p true = none) ∧
    (∃ (s : State) (rx : Rx) (p : Bytes) (x : Txn) (n : Nat), arrives s.u 0x2F rx p ∧ txnOf s.u p true = some x ∧ x.core = none ∧
      (x.own = some (.pause n) ∨ x.own = some (.resume n))) ∧
    (∃ (s : State) (tag : W32) (x : Txn) (n : Nat), s.u.tier.txns.find? (fun y => y.tag == tag.toNat) = some x ∧ x.core = none ∧
      (x.own = some (.pause n) ∨ x.own = some (.resume n))) ∧
    (∃ (s : State) (rx : Rx) (p : Bytes) (code : Nat) (l : List Nat), isUp s.u = true ∧ rxBeyond (rxFlits rx s.u) rx p = false ∧
      fabFault s.u rx.port p = some (code, l)) ∧
    (∃ (s : State) (rx : Rx) (p : Bytes), isUp s.u = true ∧ rxBeyond (rxFlits rx s.u) rx p = true) ∧
    (∃ (s : State) (rx : Rx) (p : Bytes) (cls : Nat), arrives s.u cls rx p) :=
  ⟨⟨{ u0 with tier := { u0.tier with txns := List.replicate 1024 {} } }, {},
    Nat.le_of_eq (List.length_replicate.symm.trans (congrArg List.length (List.filter_eq_self.mpr (fun y h => by rw [List.eq_of_mem_replicate h]; exact beq_self_eq_true _)).symm))⟩,
   ⟨{ u0 with tier := { u0.tier with waitTx := [({}, [])] } }, ({}, []), [], by decide +kernel⟩,
   ⟨{ u0 with tier := { u0.tier with waitTx := [({ tag := 9, bytes := 64 }, [])] } }, ({ tag := 9, bytes := 64 }, []), [], by decide +kernel,
     by decide +kernel, pf (by decide +kernel)⟩,
   ⟨u0, by decide +kernel⟩,
   ⟨st (exporting false), { port := 11 }, rdPkt, 69568, ar (by decide +kernel), pf (by decide +kernel), by decide +kernel, by decide +kernel,
     fun _ _ => rfl⟩,
   ⟨st u0, { port := 11 }, rdPkt, 1, ar (by decide +kernel), pf (by decide +kernel), by decide +kernel⟩,
   ⟨st (exporting true), { port := 11 }, wrPkt, 69568, ar (by decide +kernel), pf (by decide +kernel), by decide +kernel⟩,
   ⟨st (exporting false), { port := 11 }, wrPkt, 2, ar (by decide +kernel), pf (by decide +kernel), by decide +kernel⟩,
   ⟨st (owing { tag := 9, addr := 4096, bytes := 64, dkey := 383, dst := 4194240 }), { port := 11 }, fabPkt 0x28 3 9 0 0 0 (pay 24 [(0, 8, 4096), (8,
     4, 64)]) (List.replicate 64 5), { tag := 9, addr := 4096, bytes := 64, dkey := 383, dst := 4194240 },
     by refine ⟨ar ?_, ?_, ?_, ?_, ?_, fun _ _ => nofun⟩ <;> decide +kernel⟩,
   ⟨st (owing { tag := 9, addr := 4096, bytes := 64, write := true }), { port := 11 }, fabPkt 0x29 3 9 0 0 0 (pay 24 [(0, 8, 4096), (8, 4, 64)]) [],
     { tag := 9, addr := 4096, bytes := 64, write := true }, ar (by decide +kernel), by decide +kernel, fun _ _ => nofun⟩,
   ⟨st u0, { port := 11 }, fabPkt 0x29 3 9 0 0 0 (pay 24 [(0, 8, 4096), (8, 4, 64)]) [], ar (by decide +kernel), by decide +kernel⟩,
   ⟨st (owing { tag := 9, addr := 4096, bytes := 64, write := true, own := some (.pause 4095) }), { port := 11 }, fabPkt 0x2F 3 9 0 0 0 (pay 24 [(0,
     8, 4096), (8, 4, 64), (12, 1, 1)]) [], { tag := 9, addr := 4096, bytes := 64, write := true, own := some (.pause 4095) }, 4095,
     ar (by decide +kernel), by decide +kernel⟩,
   ⟨st (owing { tag := 9, addr := 4096, bytes := 64, own := some (.resume 4095) }), 9,
     { tag := 9, addr := 4096, bytes := 64, own := some (.resume 4095) }, 4095, by decide +kernel⟩,
   ⟨st u0, { port := 11 }, [], 0x0D20, [11, 0], by decide +kernel⟩,
   ⟨st { u0 with fab := { u0.fab with ports := [(11, { held := [(2, 1024)] })] } }, { port := 11 }, rdPkt, by decide +kernel⟩,
   ⟨st { u0 with fab := { u0.fab with ports := [(11, { held := [(2, 1024)] })] } }, { port := 11, freed := [(2, 1)] }, rdPkt, 0x20,
     ar (by decide +kernel)⟩⟩

theorem witness_step_traffic_reaches_its_stream :
    (∃ (s : State) (rx : Rx) (p : Bytes) (at_ : Nat), at_ ≤ s.u.tick.time ∧ arrives s.u 0x10 rx p ∧ s.u.fab.reasm = [] ∧
      fragBad s.u (rx.port.val / 2) (le p 32 4) (le p 24 8) (le p 36 4) (le p 40 4) (p.drop 64) = false ∧ (p.drop 64).length < le p 40 4) ∧
    (∃ (s : State) (rx : Rx) (p : Bytes) (at_ n r : Nat) (x : Str), at_ ≤ s.u.tick.time ∧ arrives s.u 0x10 rx p ∧ s.u.fab.reasm = [] ∧
      fragBad s.u (rx.port.val / 2) (le p 32 4) (le p 24 8) (le p 36 4) (le p 40 4) (p.drop 64) = false ∧ (p.drop 64).length = le p 40 4 ∧
      streamOf s.u (le p 32 4) = some n ∧ tget s.u.str n = some x ∧ le p 24 8 = cohortTick s.u x.cohort ∧
      recordOk s.u (p.drop 64) (le p 32 4) (le p 24 8) x = true ∧ ingressOpen s.u x.cohort = true ∧ x.seat = some r ∧ x.st = .active ∧
      x.recIn = false ∧ x.skipIn = false) ∧
    (∃ (s : State) (rx : Rx) (p : Bytes) (at_ n why : Nat) (x : Str) (l : List Nat), at_ ≤ s.u.tick.time ∧ arrives s.u 0x10 rx p ∧
      s.u.fab.reasm = [] ∧ fragBad s.u (rx.port.val / 2) (le p 32 4) (le p 24 8) (le p 36 4) (le p 40 4) (p.drop 64) = false ∧
      (p.drop 64).length = le p 40 4 ∧ streamOf s.u (le p 32 4) = some n ∧ tget s.u.str n = some x ∧ le p 24 8 = cohortTick s.u x.cohort ∧
      recordFaults s.u (p.drop 64) (le p 32 4) (le p 24 8) x = why :: l) ∧
    (∃ (s : State) (rx : Rx) (p : Bytes) (at_ : Nat), at_ ≤ s.u.tick.time ∧ arrives s.u 0x10 rx p ∧ s.u.fab.reasm = [] ∧
      fragBad s.u (rx.port.val / 2) (le p 32 4) (le p 24 8) (le p 36 4) (le p 40 4) (p.drop 64) = false ∧ (p.drop 64).length = le p 40 4 ∧
      streamOf s.u (le p 32 4) = none) ∧
    (∃ (s : State) (rx : Rx) (p : Bytes) (at_ n : Nat) (x : Str), at_ ≤ s.u.tick.time ∧ arrives s.u 0x11 rx p ∧ le p 32 2 = 1 ∧
      (p.drop 64).length = 64 ∧ allZero ((p.drop 64).drop 4) = true ∧ streamOf s.u (le (p.drop 64) 0 4) = some n ∧ tget s.u.str n = some x ∧
      le p 24 8 = cohortTick s.u x.cohort ∧ ingressOpen s.u x.cohort = true ∧ x.recIn = false) ∧
    (∃ (s : State) (rx : Rx) (p : Bytes) (at_ : Nat), at_ ≤ s.u.tick.time ∧ arrives s.u 0x11 rx p ∧ le p 32 2 = 0) :=
  ⟨⟨st u0, { port := 11 }, fabPkt 0x10 1 0 0 0 0 (pay 24 [(0, 4, 1073741823), (4, 4, 0), (8, 4, 128)]) (List.replicate 64 5), 0, by decide +kernel,
    ar (by decide +kernel), by decide +kernel⟩,
   ⟨st { us { sx with st := .active, headSlot := 31, seat := some 0 } with slot := [(31, { st := .inService, nrep := 1, bind := [⟨0, 0, 23, 15⟩], img := mwrite [] 0 (pay 32 [(24, 4, 256)]), imgLen := 32 })] },
     { port := 11 }, fabPkt 0x10 1 0 0 0 7 (pay 24 [(0, 4, 1073741823), (4, 4, 0), (8, 4, 192)]) testRec, 0, 4095, 0,
     { sx with st := .active, headSlot := 31, seat := some 0 }, by decide +kernel, ar (by decide +kernel), by decide +kernel⟩,
   ⟨st (us { sx with st := .active, seat := some 0 }), { port := 11 }, fabPkt 0x10 1 0 0 0 7 (pay 24 [(0, 4, 1073741823), (4, 4, 0), (8, 4,
     64)]) (List.replicate 64 0), 0, 4095, 0, { sx with st := .active, seat := some 0 }, [3, 9, 11], by decide +kernel, ar (by decide +kernel),
     by decide +kernel⟩,
   ⟨st u0, { port := 11 }, fabPkt 0x10 1 0 0 0 7 (pay 24 [(0, 4, 1073741823), (4, 4, 0), (8, 4, 192)]) testRec, 0, by decide +kernel,
     ar (by decide +kernel), by decide +kernel⟩,
   ⟨st (us { sx with st := .active, headSlot := 31, seat := some 0 }), { port := 11 }, fabPkt 0x11 1 0 0 0 7 (pay 24 [(0, 2, 1)]) (pay 64 [(0, 4,
     1073741823)]), 0, 4095, { sx with st := .active, headSlot := 31, seat := some 0 }, by decide +kernel, ar (by decide +kernel), by decide +kernel⟩,
   ⟨st u0, { port := 11 }, fabPkt 0x11 1 0 0 0 0 (pay 24 []) [], 0, by decide +kernel, ar (by decide +kernel), by decide +kernel⟩⟩

theorem witness_firmware_messages :
    (∃ (s : State) (mb : Fin 64) (p x : Bytes) (d : Dma), heard s.u mb 0x0701 p ∧ s.u.fw.updState ≠ 1 ∧ s.u.fw.updState ≠ 3 ∧ s.u.fw.loading = none ∧
      bufOk s.u 0 (bufOf p 16) = true ∧ (s.u.fw.stage ≠ 5 ∨ (bufOf p 16).space = 0) ∧ bufRead s 0 (bufOf p 16) d = some x) ∧
    (∃ (s : State) (mb : Fin 64) (p : Bytes), heard s.u mb 0x0701 p ∧ (s.u.fw.updState = 1 ∨ s.u.fw.updState = 3)) ∧
    (∃ (s : State) (n : Nat) (i : FwImg) (st : Nat), s.u.fw.loading = some (n, i, 0, st) ∧ awaits s n ∧ s.u.fw.stage = 4) ∧
    (∃ (s : State) (n r st : Nat) (i : FwImg), s.u.fw.loading = some (n, i, r, st) ∧ r ≠ 0 ∧ awaits s n) ∧
    (∃ (s : State) (mb : Fin 64) (p : Bytes), heard s.u mb 0x0702 p ∧ s.u.fw.updState = 2) ∧
    (∃ (s : State) (mb : Fin 64) (p : Bytes), heard s.u mb 0x0702 p ∧ s.u.fw.updState ≠ 2) ∧
    (∃ (s : State) (mb : Fin 64) (p : Bytes), heard s.u mb 0x0703 p ∧ le p 0 4 < 128) ∧
    (∃ (s : State) (mb : Fin 64) (p : Bytes) (r : Role), heard s.u mb 0x0704 p ∧ le p 0 1 ≤ 9 ∧ 0 < le p 2 2 ∧ le p 2 2 ≤ 1000 ∧
      tget s.u.fw.roles (le p 0 1) = some r) ∧
    (∃ (s : State) (mb : Fin 64) (p : Bytes), heard s.u mb 0x0706 p ∧ 2 ≤ s.u.fw.vis ∧ 0x2000 ≤ le p 0 2 ∧ le p 0 2 ≤ le p 2 2 ∧ le p 2 2 ≤ 0x2FFF ∧
      le p 4 1 = 1) ∧
    (∃ (s : State) (mb : Fin 64) (p : Bytes), heard s.u mb 0x0706 p ∧ s.u.fw.vis < 2) ∧
    (∃ (s : State) (mb : Fin 64) (p : Bytes), heard s.u mb 0x0707 p ∧ le p 0 1 = 1 ∧ le p 1 1 ≤ 3 ∧ le p 8 8 = s.asm.serial ∧
      keyOk s.u.fw (le p 1 1) (sliceZ p 16 96) = true ∧ ecdsaVerify (sliceZ p 16 96) (sliceZ p 112 96) (sha384 (sliceZ p 0 16)) = true ∧
      le p 2 2 ≤ s.u.fw.run.svn) ∧
    (∃ (s : State) (mb : Fin 64) (p : Bytes), heard s.u mb 0x0707 p ∧ (le p 0 1 = 1 ∨ le p 0 1 = 2 ∧ le p 2 2 ≤ 3) ∧ le p 1 1 ≤ 3 ∧
      le p 8 8 ≠ s.asm.serial) ∧
    (∃ (s : State) (mb : Fin 64) (p : Bytes), heard s.u mb 0x0705 p ∧ s.u.fw.vis = 0) ∧
    (∃ (s : State) (mb : Fin 64) (p : Bytes) (c : CPkt) (g : QInst) (i : PopIn) (a d : Nat), heard s.u mb 0x0705 p ∧ s.u.fw.vis ≠ 0 ∧ le p 0 2 = 1 ∧
      bufOk s.u mb (bufOf p 16) = true ∧ (bufOf p 16).space = 0 ∧ dmaUp s.u 0 = true ∧ qPop s.q.log = some (c, g) ∧ c.words ≠ [] ∧
      8 * c.words.length ≤ (bufOf p 16).len ∧ i.flt = false ∧ a = (i.ecc.headD (0, 0)).1.toNat % 2 ^ c.words.length ∧ d = (i.ecc.headD (0,
      0)).2.toNat % 2 ^ c.words.length) ∧
    (∃ (s : State) (mb : Fin 64) (p : Bytes), heard s.u mb 0x0705 p ∧ s.u.fw.vis ≠ 0 ∧ 1 ≤ le p 0 2 ∧ le p 0 2 ≤ 512 ∧
      bufOk s.u mb (bufOf p 16) = true ∧ qPop s.q.log = none) ∧
    (∃ (s : State) (mb : Fin 64) (p : Bytes) (c : CPkt) (g : QInst) (i : PopIn) (a d : Nat), heard s.u mb 0x0806 p ∧ le p 0 1 = 2 ∧ le p 1 1 = 1 ∧
      bufOk s.u mb (bufOf p 16) = true ∧ (bufOf p 16).space = 0 ∧ dmaUp s.u 0 = true ∧ qPop s.q.fab = some (c, g) ∧ c.words ≠ [] ∧
      8 * c.words.length ≤ (bufOf p 16).len ∧ i.flt = false ∧ a = (i.ecc.headD (0, 0)).1.toNat % 2 ^ c.words.length ∧ d = (i.ecc.headD (0,
      0)).2.toNat % 2 ^ c.words.length) :=
  ⟨⟨st (ask 0 0x0701 (pay 80 [(16, 1, 0), (20, 4, 64)]) { u0 with port0 := { u0.port0 with busMaster := true } }), 0, pay 80 [(16, 1, 0), (20, 4,
    64)], List.replicate 64 0, .data [], hd (by decide +kernel) (by decide +kernel), by decide +kernel⟩,
   ⟨st (ask 0 0x0701 (pay 80 []) { u0 with fw := { u0.fw with updState := 3 } }), 0, pay 80 [], hd (by decide +kernel) (by decide +kernel),
     by decide +kernel⟩,
   ⟨st { u0 with fw := { u0.fw with stage := 4, loading := some (63, {}, 0, 0) }, mbx := [(63, { phase := .waiting })] }, 63, {}, 0,
     by decide +kernel, aw (by decide +kernel), by decide +kernel⟩,
   ⟨st { u0 with fw := { u0.fw with loading := some (63, {}, 2, 0xA) }, mbx := [(63, { phase := .waiting })] }, 63, 2, 0xA, {}, by decide +kernel,
     by decide +kernel, aw (by decide +kernel)⟩,
   ⟨st (ask 0 0x0702 (pay 8 [(0, 8, 5000)]) { u0 with fw := { u0.fw with updState := 2 } }), 0, pay 8 [(0, 8, 5000)],
     hd (by decide +kernel) (by decide +kernel), by decide +kernel⟩,
   ⟨st (ask 0 0x0702 (pay 8 [(0, 8, 5000)])), 0, pay 8 [(0, 8, 5000)], hd (by decide +kernel) (by decide +kernel), by decide +kernel⟩,
   ⟨st (ask 0 0x0703 (pay 8 [(0, 4, 127)])), 0, pay 8 [(0, 4, 127)], hd (by decide +kernel) (by decide +kernel), by decide +kernel⟩,
   ⟨st (ask 0 0x0704 (pay 8 [(0, 1, 9), (2, 2, 1000)]) { u0 with fw := { u0.fw with roles := [(9, {})] } }), 0, pay 8 [(0, 1, 9), (2, 2, 1000)], {},
     hd (by decide +kernel) (by decide +kernel), by decide +kernel⟩,
   ⟨st (ask 0 0x0706 (pay 8 [(0, 2, 0x2000), (2, 2, 0x2FFF), (4, 1, 1)]) { u0 with fw := { u0.fw with vis := 2 } }), 0, pay 8 [(0, 2, 0x2000), (2, 2,
     0x2FFF), (4, 1, 1)], hd (by decide +kernel) (by decide +kernel), by decide +kernel⟩,
   ⟨st (ask 0 0x0706 (pay 8 [(0, 2, 0x2000), (2, 2, 0x2FFF), (4, 1, 1)]) { u0 with fw := { u0.fw with vis := 1 } }), 0, pay 8 [(0, 2, 0x2000), (2, 2,
     0x2FFF), (4, 1, 1)], hd (by decide +kernel) (by decide +kernel), by decide +kernel⟩,
   ⟨st (ask 0 0x0707 (pay 208 [(0, 1, 1), (1, 1, 3), (16, 96,
     0xc1717b63be46c0bdf24512a56225f71af2079ec283fb1ede149156cdacb809105cb6cf897892367b9c539313e42d69076d37395e0051f24c3ea287238327bc3f7bde353fcd032ab4bf34f725062fd1be306eba50c2efb85f642e413aea911e35),
     (112, 96, 0xd975a73e39aff226be9a297912b6215b973e82680b5163266bc833dd4e093bd75732989c419a9c4aedd7605f2be16457d975a73e39aff226be9a297912b6215b973e82680b5163266bc833dd4e093bd75732989c419a9c4aedd7605f2be16457)]) { u0 with fw := { u0.fw with keys := [(3, sha384 (leBytes 96 0xc1717b63be46c0bdf24512a56225f71af2079ec283fb1ede149156cdacb809105cb6cf897892367b9c539313e42d69076d37395e0051f24c3ea287238327bc3f7bde353fcd032ab4bf34f725062fd1be306eba50c2efb85f642e413aea911e35))] } }),
     0, pay 208 [(0, 1, 1), (1, 1, 3), (16, 96, 0xc1717b63be46c0bdf24512a56225f71af2079ec283fb1ede149156cdacb809105cb6cf897892367b9c539313e42d69076d37395e0051f24c3ea287238327bc3f7bde353fcd032ab4bf34f725062fd1be306eba50c2efb85f642e413aea911e35),
     (112, 96, 0xd975a73e39aff226be9a297912b6215b973e82680b5163266bc833dd4e093bd75732989c419a9c4aedd7605f2be16457d975a73e39aff226be9a297912b6215b973e82680b5163266bc833dd4e093bd75732989c419a9c4aedd7605f2be16457)],
     hd (by decide +kernel) (by decide +kernel), by decide +kernel⟩,
   ⟨st (ask 0 0x0707 (pay 208 [(0, 1, 1), (1, 1, 3), (8, 8, 1)])), 0, pay 208 [(0, 1, 1), (1, 1, 3), (8, 8, 1)],
     hd (by decide +kernel) (by decide +kernel), by decide +kernel⟩,
   ⟨st (ask 0 0x0705 (pay 32 [(0, 2, 1), (16, 1, 0), (20, 4, 64)])), 0, pay 32 [(0, 2, 1), (16, 1, 0), (20, 4, 64)],
     hd (by decide +kernel) (by decide +kernel), by decide +kernel⟩,
   ⟨{ st (ask 0 0x0705 (pay 32 [(0, 2, 1), (16, 1, 0), (20, 4, 64)]) { u0 with fw := { u0.fw with vis := 1 }, port0 := { u0.port0 with busMaster := true } }) with q := { log := { committed := [{ seq := 1, words := [5] }] } } },
     0, pay 32 [(0, 2, 1), (16, 1, 0), (20, 4, 64)], { seq := 1, words := [5] }, {}, { ecc := [(1, 1)] }, 1, 1,
     hd (by decide +kernel) (by decide +kernel), by decide +kernel⟩,
   ⟨st (ask 0 0x0705 (pay 32 [(0, 2, 1), (16, 1, 0), (20, 4, 64)]) { u0 with fw := { u0.fw with vis := 1 } }), 0, pay 32 [(0, 2, 1), (16, 1, 0), (20,
     4, 64)], hd (by decide +kernel) (by decide +kernel), by decide +kernel⟩,
   ⟨{ st (ask 0 0x0806 (pay 32 [(0, 1, 2), (1, 1, 1), (16, 1, 0), (20, 4, 64)]) { u0 with port0 := { u0.port0 with busMaster := true } }) with q := { fab := { committed := [{ seq := 1, words := [5] }] } } },
     0, pay 32 [(0, 1, 2), (1, 1, 1), (16, 1, 0), (20, 4, 64)], { seq := 1, words := [5] }, {}, { ecc := [(2, 3)] }, 0, 1,
     hd (by decide +kernel) (by decide +kernel), by decide +kernel⟩⟩

theorem witness_boot_watchdogs_and_update :
    (∃ (s : State) (b : BootIn), b.powerOn = true ∧ b.badCores = [] ∧ s.u.fw.badCores = [] ∧ s.u.fw.bank = 0 ∧ b.journalBad = [] ∧ (∀ r,
      r ∈ s.u.svc.journal → r.type < 5 ∨ 8 < r.type) ∧ bankFail s.u.fw b.bankRead 0 s.u.fw.bankA = 0 ∧
      bitAt (bootNorm s.u.fw.bootCfgNext) 3 = false ∧ journalGone [] s.u = false) ∧
    (∃ (s : State) (b : BootIn), b.powerOn = true ∧ b.badCores = [] ∧ s.u.fw.badCores = [] ∧ b.journalBad = [] ∧ (∀ r,
      r ∈ s.u.svc.journal → r.type < 5 ∨ 8 < r.type) ∧ s.u.fw.bankA.valid = false ∧ s.u.fw.bankB.valid = false ∧
      bitAt (bootNorm s.u.fw.bootCfgNext) 2 = false ∧ journalGone [] s.u = false) ∧
    (∃ (s : State) (b : BootIn), b.powerOn = false ∧ s.u.blk.powerLow = true) ∧
    (∃ (s : State), s.u.fw.stage = 3 ∧ s.u.fw.calOk = true) ∧
    (∃ (s : State), s.u.fw.calOk = false) ∧
    (∃ (s : State) (r : Fin 10) (x : Role), isUp s.u = true ∧ s.u.fw.stage = 4 ∧ tget s.u.fw.roles r = some x ∧ x.state ≠ 2 ∧ x.lastExpiry = none ∧
      r ≠ 9 ∧ kicksMissed s.u x = true) ∧
    (∃ (s : State) (r : Fin 10) (x : Role), tget s.u.fw.roles r = some x ∧ kicksMissed s.u x = false) ∧
    (∃ (s : State) (x : Role), isUp s.u = true ∧ s.u.fw.stage = 4 ∧ tget s.u.fw.roles 9 = some x ∧ x.state ≠ 2 ∧ x.lastExpiry = none ∧
      kicksMissed s.u x = true ∧ s.u.fw.mbxUp = true) ∧
    (∃ (s : State) (r : Fin 10) (x : Role) (c : Nat), isUp s.u = true ∧ s.u.fw.stage = 4 ∧ tget s.u.fw.roles r = some x ∧ x.state ≠ 2 ∧ r ≠ 9 ∧
      kicksMissed s.u x = true ∧ freeSpare { s.u.fw with roles := tset s.u.fw.roles r { voidHalf x with state := 1, restarts := satN 16 (x.restarts + 1), lastExpiry := some s.u.tick.time } } (x.core / 6) = some c) ∧
    (∃ (s : State) (r : Fin 10) (x : Role), tget s.u.fw.roles r = some x ∧ x.state = 1) ∧
    (∃ (s : State), s.u.fw.stage = 4 ∧ s.u.fw.mbxUp = false ∧ (tgetD s.u.fw.roles 9 {}).state = 0 ∧ s.u.fw.upd = none ∧
      (s.u.fw.rolled = false ∨ s.u.tick.st = .current ∨ running s.u = false) ∧ atEdge s.u = true) ∧
    (∃ (s : State), atEdge s.u = false) ∧
    (∃ (s : State) (w : Update), s.u.fw.upd = some w ∧ w.stage = 0 ∧ s.u.tick.number = w.q ∧ running s.u = true ∧ (∀ r,
      r ∈ s.u.fw.roles → r.2.state = 0)) ∧
    (∃ (s : State) (w : Update), s.u.fw.upd = some w ∧ w.stage = 0 ∧ s.u.tick.number = w.q ∧ running s.u = true ∧ (∃ r, r ∈ s.u.fw.roles ∧
      r.2.state ≠ 0)) ∧
    (∃ (s : State) (w : Update), s.u.fw.upd = some w ∧ w.stage = 1 ∧ s.u.tick.number = w.q + 1) ∧
    (∃ (i : FwImg) (h : Hand) (c : List (Nat × Nat)), handAdopted i h c = true) ∧
    (∃ (i : FwImg) (h : Hand) (c : List (Nat × Nat)), ∃ e, handAdopted i h c = true ∧ e ∈ handEntries h.head) ∧
    (∃ (i : FwImg) (h : Hand) (c : List (Nat × Nat)), ∃ e, handAdopted i h c = true ∧ e ∈ handEntries h.head ∧ e.2.2.1 = true) ∧
    (∃ (s : State) (w : Update), s.u.fw.upd = some w ∧ w.stage = 2 ∧ w.refused = false ∧ w.expired = false ∧ s.u.tick.st = .current ∧
      w.q + 2 ≤ s.u.tick.number ∧ s.u.tick.number ≤ w.q + 4) ∧
    (∃ (s : State) (w : Update), s.u.fw.upd = some w ∧ w.stage = 2 ∧ w.refused = true) ∧
    (∃ (s : State) (w : Update), s.u.fw.upd = some w ∧ w.stage ≠ 0 ∧ w.expired = true) :=
  ⟨⟨st u0, {}, by decide +kernel⟩,
   ⟨st { u0 with fw := { u0.fw with bankA := {}, bootCfgNext := 0 } }, {}, by decide +kernel⟩,
   ⟨st { u0 with blk := { u0.blk with powerLow := true } }, { powerOn := false }, by decide +kernel⟩,
   ⟨st { u0 with fw := { u0.fw with stage := 3 } }, by decide +kernel⟩,
   ⟨st { u0 with fw := { u0.fw with calOk := false } }, by decide +kernel⟩,
   ⟨st { u0 with fw := { u0.fw with stage := 4, roles := [(8, { core := 3 })] } }, 8, { core := 3 }, by decide +kernel⟩,
   ⟨st { tk with fw := { u0.fw with stage := 4, roles := [(8, { kickAt := 1 })] } }, 8, { kickAt := 1 }, by decide +kernel⟩,
   ⟨st { u0 with fw := { u0.fw with stage := 4, mbxUp := true, roles := [(9, { core := 3 })] } }, { core := 3 }, by decide +kernel⟩,
   ⟨st { u0 with fw := { u0.fw with stage := 4, roles := [(8, { core := 3 })] } }, 8, { core := 3 }, 5, by decide +kernel⟩,
   ⟨st { u0 with fw := { u0.fw with roles := [(9, { state := 1 })] } }, 9, { state := 1 }, by decide +kernel⟩,
   ⟨st { u0 with fw := { u0.fw with stage := 4, rolled := true } }, by decide +kernel⟩,
   ⟨st tb, by decide +kernel⟩,
   ⟨st { tk with fw := { u0.fw with upd := some { q := 7 } } }, { q := 7 }, by decide +kernel⟩,
   ⟨st { tk with fw := { u0.fw with upd := some { q := 7 }, roles := [(9, { state := 2 })] } }, { q := 7 }, by decide +kernel⟩,
   ⟨st { u0 with fw := { u0.fw with upd := some { q := 6, stage := 1 } }, tick := { u0.tick with st := .current, number := 7 } },
     { q := 6, stage := 1 }, by decide +kernel⟩,
   ⟨{ hoMin := 1, hoOut := 1 }, { head := handHead }, [(5, 1)], by decide +kernel⟩,
   ⟨{ hoMin := 1, hoOut := 1 }, { head := handHead }, [(5, 1)], (5, 1, true, crc32c []), by decide +kernel⟩,
   ⟨{ hoMin := 1, hoOut := 1 }, { head := handHead }, [(5, 1)], (5, 1, true, crc32c []), by decide +kernel⟩,
   ⟨st { u0 with fw := { u0.fw with upd := some { q := 3, stage := 2 } }, tick := { u0.tick with st := .current, number := 7 } },
     { q := 3, stage := 2 }, by decide +kernel⟩,
   ⟨st { u0 with fw := { u0.fw with upd := some { stage := 2, refused := true } } }, { stage := 2, refused := true }, by decide +kernel⟩,
   ⟨st { u0 with fw := { u0.fw with upd := some { stage := 3, expired := true } } }, { stage := 3, expired := true }, by decide +kernel⟩⟩

theorem witness_tempering_runs :
    (∃ (s : State) (mb : Fin 64) (p : Bytes) (h : Bytes × Bool) (base : Nat), heard s.u mb 0x0901 p ∧ le p 0 1 ≤ 31 ∧ le p 1 1 ≤ 3 ∧ 1 ≤ le p 2 2 ∧
      le p 2 2 ≤ 1024 ∧ 1 ≤ le p 4 4 ∧ le p 4 4 ≤ 1048576 ∧ 1 ≤ le p 8 4 ∧ le p 8 4 ≤ 0x3F800000 ∧
      ((bufOf p 16).space = 2 ∨ (bufOf p 16).space = 3) ∧ bufOk s.u (feedbackCtx (bufOf p 16)) (bufOf p 16) = true ∧ 64 ≤ (bufOf p 16).len ∧
      s.u.pins.throt = false ∧ ((slotAt s.u (le p 0 1)).st = .resident ∨ (slotAt s.u (le p 0 1)).st = .inService) ∧
      tdeclOk (imgTemper (slotAt s.u (le p 0 1)).img (slotAt s.u (le p 0 1)).imgLen) (imgNcore (slotAt s.u (le p 0 1)).img) = true ∧
      s.u.temper = [] ∧ feedbackRead s (bufOf p 16) 0 64 = some h ∧
      feedbackOk h.1 (tdecl (imgTemper (slotAt s.u (le p 0 1)).img (slotAt s.u (le p 0 1)).imgLen)) (bufOf p 16).len = true ∧
      workCores (tparams (tdecl (imgTemper (slotAt s.u (le p 0 1)).img (slotAt s.u (le p 0 1)).imgLen))) ≤ (freeOrder s.asm s.u (slotAt s.u (le p 0 1)).dieMask).length ∧
      t1Fit s.asm s.u (momentBytes (tparams (tdecl (imgTemper (slotAt s.u (le p 0 1)).img (slotAt s.u (le p 0 1)).imgLen)))) = some base) ∧
    (∃ (s : State) (mb : Fin 64) (p : Bytes), heard s.u mb 0x0902 p ∧ le p 0 1 ≤ 3) ∧
    (∃ (s : State) (mb : Fin 64) (p : Bytes), heard s.u mb 0x0903 p ∧ le p 0 1 ≤ 3 ∧ (tgetD s.u.temper (le p 0 1) {}).state = 2 ∧ s.u.fw.upd = none) ∧
    (∃ (s : State) (mb : Fin 64) (p : Bytes), heard s.u mb 0x0903 p ∧ le p 0 1 ≤ 3 ∧ (tgetD s.u.temper (le p 0 1) {}).state ≠ 2) ∧
    (∃ (s : State) (mb : Fin 64) (p : Bytes), heard s.u mb 0x0904 p ∧ le p 0 1 ≤ 3 ∧
      ((tgetD s.u.temper (le p 0 1) {}).state = 1 ∨ (tgetD s.u.temper (le p 0 1) {}).state = 2)) ∧
    (∃ (s : State) (n : Fin 4) (h : Bytes), (tgetD s.u.temper n {}).state = 1 ∧ (tgetD s.u.temper n {}).done < (tgetD s.u.temper n {}).steps ∧
      temperMay s.u (tgetD s.u.temper n {}) = true ∧ feedbackRead s (tgetD s.u.temper n {}).buf 0 64 = some (h, false) ∧ (∀ e, e < le h 6 2 → ∃ x,
      feedbackRead s (tgetD s.u.temper n {}).buf (64 + (64 + 2 * (tdecl (tgetD s.u.temper n {}).decl).k) * (((tgetD s.u.temper n {}).done * le h 6 2 + e) % max (le h 8 4) 1)) (64 + 2 * (tdecl (tgetD s.u.temper n {}).decl).k) = some (x,
      false))) ∧
    (∃ (s : State) (n : Fin 4), (tgetD s.u.temper n {}).state = 1 ∧ (tgetD s.u.temper n {}).done < (tgetD s.u.temper n {}).steps ∧
      temperMay s.u (tgetD s.u.temper n {}) = true ∧ feedbackRead s (tgetD s.u.temper n {}).buf 0 64 = none) ∧
    (∃ (s : State) (n : Fin 4) (h : Bytes), (tgetD s.u.temper n {}).state = 1 ∧ (tgetD s.u.temper n {}).done < (tgetD s.u.temper n {}).steps ∧
      temperMay s.u (tgetD s.u.temper n {}) = true ∧ feedbackRead s (tgetD s.u.temper n {}).buf 0 64 = some (h, true) ∧ (∀ e, e < le h 6 2 → ∃ x,
      feedbackRead s (tgetD s.u.temper n {}).buf (64 + (64 + 2 * (tdecl (tgetD s.u.temper n {}).decl).k) * (((tgetD s.u.temper n {}).done * le h 6 2 + e) % max (le h 8 4) 1)) (64 + 2 * (tdecl (tgetD s.u.temper n {}).decl).k) = some x)) ∧
    (∃ (s : State) (n : Fin 4), (tgetD s.u.temper n {}).state = 1 ∧ (tgetD s.u.temper n {}).done < (tgetD s.u.temper n {}).steps ∧
      temperMay s.u (tgetD s.u.temper n {}) = true) ∧
    (∃ (s : State) (x : StepRun), temperMay s.u (tgetD s.u.temper x.run {}) = false) ∧
    (∃ (s : State) (n : Fin 4), (tgetD s.u.temper n {}).state = 1 ∧ (tgetD s.u.temper n {}).steps ≤ (tgetD s.u.temper n {}).done) ∧
    (∃ (s : State) (n : Fin 4) (r : Temper) (m : Memory) (base : Nat), tgetD s.u.temper n {} = r ∧ r.state = 3 ∧ r.ready = none ∧
      r.accepted < s.u.tick.number ∧ onceRuns s.u = true ∧ requantise (slotAt s.u r.slot).img (slotAt s.u r.slot).imgLen r = some m ∧
      t1Fit s.asm s.u (slotAt s.u r.slot).imgLen = some base ∧
      (tdecl r.decl).nhc * (slotAt s.u r.slot).nrep ≤ r.cores.length + (freeOrder s.asm s.u (slotAt s.u r.slot).dieMask).length) ∧
    (∃ (s : State) (n : Fin 4) (r : Temper), tgetD s.u.temper n {} = r ∧ r.state = 3 ∧ r.ready = none ∧ r.accepted < s.u.tick.number ∧
      onceRuns s.u = true ∧ requantise (slotAt s.u r.slot).img (slotAt s.u r.slot).imgLen r = none) ∧
    (∃ (s : State) (n : Fin 4) (r : Temper) (m : Memory), tgetD s.u.temper n {} = r ∧ r.state = 3 ∧ r.ready = some m ∧ running s.u = true ∧
      r.edge ≤ s.u.tick.number ∧ s.u.tick.lastMark = 6) ∧
    (∃ (s : State), s.u.tick.lastMark ≠ 6) :=
  ⟨⟨fed 256 (ask 0 0x0901 (pay 32 [(0, 1, 31), (1, 1, 3), (2, 2, 1024), (4, 4, 1048576), (8, 4, 0x3F800000), (16, 1, 2), (17, 1, 63), (20, 4,
    640)]) { u0 with ctx := [(63, { areaBase := 65536, areaUnits := 1 })], slot := [(31, { st := .inService, img := temperImg, imgLen := 256 })] }),
    0, pay 32 [(0, 1, 31), (1, 1, 3), (2, 2, 1024), (4, 4, 1048576), (8, 4, 0x3F800000), (16, 1, 2), (17, 1, 63), (20, 4, 640)], ((pay 64 [(0, 4,
    0x50464254), (4, 1, 1), (6, 2, 1), (8, 4, 1), (12, 4, 256), (16, 1, 1)]), false), 4530044928, hd (by decide +kernel) (by decide +kernel),
    by decide +kernel⟩,
   ⟨st (ask 0 0x0902 (pay 8 [(0, 1, 3)])), 0, pay 8 [(0, 1, 3)], hd (by decide +kernel) (by decide +kernel), by decide +kernel⟩,
   ⟨st (ask 0 0x0903 (pay 16 [(0, 1, 3), (8, 8, 99999)]) { u0 with temper := [(3, { state := 2 })] }), 0, pay 16 [(0, 1, 3), (8, 8, 99999)],
     hd (by decide +kernel) (by decide +kernel), by decide +kernel⟩,
   ⟨st (ask 0 0x0903 (pay 16 [(0, 1, 3)])), 0, pay 16 [(0, 1, 3)], hd (by decide +kernel) (by decide +kernel), by decide +kernel⟩,
   ⟨st (ask 0 0x0904 (pay 8 [(0, 1, 3)]) { u0 with temper := [(3, { state := 1 })] }), 0, pay 8 [(0, 1, 3)],
     hd (by decide +kernel) (by decide +kernel), by decide +kernel⟩,
   ⟨fed 0 { tk with temper := [(3, { state := 1, steps := 1, buf := { space := 2, win := 63, len := 128 } })], ctx := [(63, { areaBase := 65536, areaUnits := 1 })] },
     3, pay 64 [(0, 4, 0x50464254), (4, 1, 1), (6, 2, 1), (8, 4, 1), (16, 1, 1)],
     by refine ⟨?_, ?_, ?_, ?_, below ?_ ⟨List.replicate 64 0, by decide +kernel⟩⟩ <;> decide +kernel⟩,
   ⟨st { u0 with temper := [(3, { state := 1, steps := 1, buf := { space := 2, win := 63, len := 128 } })], tick := { u0.tick with st := .current, number := 7 } },
     3, by decide +kernel⟩,
   ⟨fed 0 { tk with temper := [(3, { state := 1, steps := 1, buf := { space := 2, win := 63, len := 128 } })], ctx := [(63, { areaBase := 65536, areaUnits := 1 })], tier := { u0.tier with pois1 := [1024] } },
     3, pay 64 [(0, 4, 0x50464254), (4, 1, 1), (6, 2, 1), (8, 4, 1), (16, 1, 1)],
     by refine ⟨?_, ?_, ?_, ?_, below ?_ ⟨(List.replicate 64 0, false), by decide +kernel⟩⟩ <;> decide +kernel⟩,
   ⟨st { tk with temper := [(3, { state := 1, steps := 1 })] }, 3, by decide +kernel⟩,
   ⟨st u0, { run := 3 }, by decide +kernel⟩,
   ⟨st { u0 with temper := [(3, { state := 1 })] }, 3, by decide +kernel⟩,
   ⟨st { tk with temper := [(3, { state := 3 })] }, 3, { state := 3 }, [], 4530044928, by refine ⟨?_, ?_, ?_, ?_, ?_, rfl, ?_⟩ <;> decide +kernel⟩,
   ⟨st { tk with temper := [(3, zeroRun)] }, 3, zeroRun, by refine ⟨?_, ?_, ?_, ?_, ?_, requantise_zero⟩ <;> decide +kernel⟩,
   ⟨st { u0 with temper := [(3, { state := 3, ready := some [] })], tick := { u0.tick with st := .current, number := 7, lastMark := 6 } }, 3,
     { state := 3, ready := some [] }, [], by decide +kernel⟩,
   ⟨st u0, by decide +kernel⟩⟩

theorem witness_step_keeps_memories_canonical :
    ∃ (s t : State), step s = .next t ∧ memsWf s.m = true :=
  ⟨{ State.reset with pending := [.mbxCommandBegin] }, State.reset, rfl, by decide +kernel⟩

theorem witness_step_keeps_queues_within_bounds :
    ∃ (s t : State), step s = .next t ∧ queuesWf s.q = true :=
  ⟨{ State.reset with pending := [.mbxCommandBegin] }, State.reset, rfl, by decide +kernel⟩

theorem witness_only_two_conditions_stop :
    (∃ (c : Instr) (s : State), exec c s = .fault .outsideBar) ∧
    (∃ (off : Nat), 2 ^ 24 ≤ off) ∧
    (∃ (c : Instr) (s : State), exec c s = .fault .commandAreaOverwritten) :=
  ⟨⟨.regAccess 1 (2 ^ 24) 8 none, st u0, rfl⟩,
   ⟨2 ^ 24, by decide +kernel⟩,
   ⟨.mbxCommandBegin, st { u0 with mbx := [(63, { phase := .rung, touched := true })], fw := { u0.fw with stage := 4, mbxUp := true } }, rfl⟩⟩

end Sys2Proof.Tests
end

section
/-! PROOFS. The register window (00): what a host access of the control BAR does, by the form of the access, and the
registers that O4 names. -/
namespace Sys2Proof.Machine

variable {s : State} {u : Units} {port off w val events : Nat} {bad : Bool}

/- The commands that access the window. -/
theorem exec_regWrite (p : Fin 2) (off w : Nat) (v : W64) (bad : Bool) (s : State) :
    exec (.regWrite p off w v bad) s = hostWrite p off w v.toNat bad s := rfl
theorem exec_regAccess_write (p : Fin 2) (off w : Nat) (v : W64) (s : State) :
    exec (.regAccess p off w (some v)) s = hostWrite p off w v.toNat false s := rfl
theorem exec_regAccess_read (p : Fin 2) (off w : Nat) (s : State) :
    exec (.regAccess p off w none) s = hostRead p off w 0 s := rfl
theorem exec_rcRead (p : Fin 2) (off events : Nat) (s : State) :
    exec (.rcRead p off events) s = hostRead p off 8 events s := rfl

/- An open BAR. -/
theorem barLive_of_barOpen (ho : barOpen u) (port off : Nat) : barLive u port off = true := by
  obtain ⟨hup, hstage⟩ := ho
  simp [barLive, hup, hstage]
theorem barTakes_of_barOpen (ho : barOpen u) (port off : Nat) : barTakes u port off = true := by
  simp [barTakes, barLive_of_barOpen ho, ho.2]

/- An access of a wrong width or alignment (R12). -/
theorem hostWrite_illFormed (hoff : off < 2 ^ 24) (hacc : accessOk off w = false) :
    hostWrite port off w val bad s = .next (onUnits (notice (dieKey 3 0) 0x0801 0 [off, w, port]) s) := by
  rw [hostWrite, if_neg (Nat.not_le.mpr hoff), if_pos (by simp [hacc])]
  rfl
theorem hostRead_illFormed (hoff : off < 2 ^ 24) (hacc : accessOk off w = false) :
    hostRead port off w events s =
      .next (onUnits (fun u => emit (.read port 0) (notice (dieKey 3 0) 0x0801 0 [off, w, port] u)) s) := by
  rw [hostRead, if_neg (Nat.not_le.mpr hoff), if_pos (by simp [hacc])]
  rfl

/- A well-formed access of an open BAR (R10). -/
theorem hostWrite_wellFormed (ho : barOpen s.u) (hoff : off < 2 ^ 24) (hacc : accessOk off w = true) :
    hostWrite port off w val false s = .next { s with
      u := unitsWrite off w (val % 2 ^ (8 * w)) s.u
      q := { s.q with notice := nqWrite off (val % 2 ^ (8 * w)) s.q.notice } } := by
  rw [hostWrite, if_neg (Nat.not_le.mpr hoff), if_neg (by simp [hacc]), if_neg (by simp [barTakes_of_barOpen ho])]

/-- A write of a register that is none of the notice queue's acts on the units alone. -/
theorem hostWrite_units (ho : barOpen s.u) (hoff : off < 2 ^ 24) (hacc : accessOk off w = true)
    (hq : off ∉ [0x20000, 0x20008, 0x20010]) :
    hostWrite port off w val false s = .next (onUnits (unitsWrite off w (val % 2 ^ (8 * w))) s) := by
  have hnq (x : Nat) (q : QInst) : nqWrite off x q = q := by
    simp only [List.mem_cons, List.not_mem_nil, or_false, not_or] at hq
    obtain ⟨h0, h8, h10⟩ := hq
    simp [nqWrite, h0, h8, h10]
  rw [hostWrite_wellFormed ho hoff hacc, hnq]
  rfl

theorem rcClear_of_not_rcRegs (h : rcRegs.contains off = false) : rcClear off events s = s := by
  simp only [rcRegs, List.contains_cons, List.contains_nil, Bool.or_false, Bool.or_eq_false_iff] at h
  obtain ⟨h1, h2, h3, h4, h5, h6⟩ := h
  simp [rcClear, h1, h2, h3, h4, h5, h6]

/-- NQ_POP apart, a read answers the register as it was, and an RC register is left at the events of its cycle (R11). -/
theorem hostRead_wellFormed (ho : barOpen s.u) (hoff : off < 2 ^ 24) (hacc : accessOk off w = true)
    (hpop : off ≠ 0x20018) :
    hostRead port off w events s =
      .next (answerRead port (regRead s.asm s.q.notice s.u port off w) (rcClear off events s)) := by
  rw [hostRead, if_neg (Nat.not_le.mpr hoff), if_neg (by simp [hacc]), if_neg (by simpa using hpop)]
  cases hrc : rcRegs.contains off with
  | true => simp [barLive_of_barOpen ho]
  | false => simp [rcClear_of_not_rcRegs hrc]

/-- A read that is of no RC register puts out the value and changes nothing else. -/
theorem hostRead_plain (ho : barOpen s.u) (hoff : off < 2 ^ 24) (hacc : accessOk off w = true)
    (hpop : off ≠ 0x20018) (hrc : rcRegs.contains off = false) :
    hostRead port off w events s =
      .next (onUnits (emit (.read port (regRead s.asm s.q.notice s.u port off w))) s) := by
  rw [hostRead_wellFormed ho hoff hacc hpop, rcClear_of_not_rcRegs hrc]
  rfl

/- What the window holds at the registers of O4 (R338, R500, R503, R505, R506). -/
theorem unitsWrite_tickInlat (w val : Nat) (u : Units) :
    unitsWrite 0x10048 w val u = { u with tick := { u.tick with inlat := val % 2 ^ 16 } } := rfl
theorem unitsWrite_pinOut (w val : Nat) (u : Units) :
    unitsWrite 0x30040 w val u = { u with pins := { u.pins with out := val % 2 ^ 16 } } := rfl

/-- BAR offset of the MBX_INT_EN of mailbox n. -/
def mbxIntEnOff (n : Nat) : Nat := 0x100000 + 0x2000 * n + 0xFC8

theorem mbxIntEnOff_window (n : Nat) : (mbxIntEnOff n - 0x100000) / 0x2000 = n := by unfold mbxIntEnOff; omega
theorem mbxIntEnOff_offset (n : Nat) : (mbxIntEnOff n - 0x100000) % 0x2000 = 0xFC8 := by unfold mbxIntEnOff; omega
theorem accessOk_mbxIntEn : ∀ n : Fin 64, accessOk (mbxIntEnOff n) 4 = true := by decide

theorem unitsWrite_mbxIntEn (n : Fin 64) (w val : Nat) (u : Units) :
    unitsWrite (mbxIntEnOff n) w val u =
      { u with mbx := tset u.mbx n { tgetD u.mbx n {} with intEn := bitAt val 0 } } := by
  have hlo : 0x100000 ≤ mbxIntEnOff n := by unfold mbxIntEnOff; omega
  rw [unitsWrite, if_pos hlo]
  simp only [mbxWindowWrite, mbxIntEnOff_window, mbxIntEnOff_offset]
  rw [if_neg (Nat.not_le.mpr n.isLt)]
  rfl

theorem bitAt_zero_mod_word (v : Nat) : bitAt (v % 2 ^ (8 * 4)) 0 = bitAt v 0 := by
  have hbit : v % 2 ^ (8 * 4) / 2 ^ 0 % 2 = v / 2 ^ 0 % 2 := by omega
  rw [bitAt, hbit, bitAt]

theorem regRead_tickNumber (ho : barOpen u) (a : Asm) (q : QInst) (port w : Nat) :
    regRead a q u port 0x10030 w = u.tick.number := by
  simp [regRead, readTick, barLive_of_barOpen ho]
theorem regRead_tickPeriod (ho : barOpen u) (a : Asm) (q : QInst) (port w : Nat) :
    regRead a q u port 0x10008 w = u.tick.period := by
  simp [regRead, readTick, barLive_of_barOpen ho]
theorem regRead_bootCfg (ho : barOpen u) (a : Asm) (q : QInst) (port w : Nat) :
    regRead a q u port 0x10C w = u.fw.bootCfg := by
  simp [regRead, readIdent, barLive_of_barOpen ho]

theorem rcRegs_wellFormed : ∀ off ∈ rcRegs, off < 2 ^ 24 ∧ accessOk off 8 = true ∧ off ≠ 0x20018 ∧
    0x20000 ≤ off ∧ off < 0x30000 := by decide

/-- RC_READ of an RC register answers the notice queue's counter and leaves it at the events of its cycle (R11, R305). -/
theorem exec_rcRead_rcRegs (ho : barOpen s.u) (hrc : off ∈ rcRegs) (p : Fin 2) (events : Nat) :
    exec (.rcRead p off events) s =
      .next (answerRead p (readNq s.q.notice s.u.prodN p off) (rcClear off events s)) := by
  obtain ⟨hoff, hacc, hpop, hlo, hhi⟩ := rcRegs_wellFormed off hrc
  have hread : regRead s.asm s.q.notice s.u p off 8 = readNq s.q.notice s.u.prodN p off := by
    rw [regRead, if_neg (by simp [barLive_of_barOpen ho]), if_neg (by omega), if_neg (by omega), if_pos hhi]
  rw [exec_rcRead, hostRead_wellFormed ho hoff hacc hpop, hread]

/- The three clauses of O4. -/
theorem illFormed_access_raises_regAccess (s : State) (port : Fin 2) (off w : Nat) (v : W64) (hoff : off < 2 ^ 24)
    (hacc : accessOk off w = false) :
    (∀ bad, exec (.regWrite port off w v bad) s =
      .next (onUnits (notice (dieKey 3 0) 0x0801 0 [off, w, port]) s)) ∧
    exec (.regAccess port off w (some v)) s = .next (onUnits (notice (dieKey 3 0) 0x0801 0 [off, w, port]) s) ∧
    exec (.regAccess port off w none) s =
      .next (onUnits (fun u => emit (.read port 0) (notice (dieKey 3 0) 0x0801 0 [off, w, port] u)) s) :=
  ⟨fun _ => (exec_regWrite ..).trans (hostWrite_illFormed hoff hacc),
    (exec_regAccess_write ..).trans (hostWrite_illFormed hoff hacc),
    (exec_regAccess_read ..).trans (hostRead_illFormed hoff hacc)⟩

theorem regWrite_tickInlat (ho : barOpen s.u) (port : Fin 2) (v : W64) :
    exec (.regWrite port 0x10048 4 v false) s =
      .next (onUnits (fun u => { u with tick := { u.tick with inlat := v.toNat % 2 ^ 16 } }) s) := by
  have hw : v.toNat % 2 ^ (8 * 4) % 2 ^ 16 = v.toNat % 2 ^ 16 := by omega
  rw [exec_regWrite, hostWrite_units ho (by decide) (by decide) (by decide), funext (unitsWrite_tickInlat 4 _), hw]
theorem regWrite_pinOut (ho : barOpen s.u) (port : Fin 2) (v : W64) :
    exec (.regWrite port 0x30040 4 v false) s =
      .next (onUnits (fun u => { u with pins := { u.pins with out := v.toNat % 2 ^ 16 } }) s) := by
  have hw : v.toNat % 2 ^ (8 * 4) % 2 ^ 16 = v.toNat % 2 ^ 16 := by omega
  rw [exec_regWrite, hostWrite_units ho (by decide) (by decide) (by decide), funext (unitsWrite_pinOut 4 _), hw]
theorem regAccess_mbxIntEn (ho : barOpen s.u) (port : Fin 2) (v : W64) (n : Fin 64) :
    exec (.regAccess port (mbxIntEnOff n) 4 (some v)) s = .next (onUnits (fun u => { u with
      mbx := tset u.mbx n { tgetD u.mbx n {} with intEn := bitAt v.toNat 0 } }) s) := by
  have hoff : mbxIntEnOff n < 2 ^ 24 := by unfold mbxIntEnOff; omega
  have hq : mbxIntEnOff n ∉ [0x20000, 0x20008, 0x20010] := by unfold mbxIntEnOff; simp; omega
  rw [exec_regAccess_write, hostWrite_units ho hoff (accessOk_mbxIntEn n) hq, funext (unitsWrite_mbxIntEn n 4 _),
    bitAt_zero_mod_word]

theorem regAccess_tickNumber (ho : barOpen s.u) (port : Fin 2) :
    exec (.regAccess port 0x10030 8 none) s = .next (onUnits (emit (.read port s.u.tick.number)) s) := by
  rw [exec_regAccess_read, hostRead_plain ho (by decide) (by decide) (by decide) (by decide), regRead_tickNumber ho]
theorem regAccess_tickPeriod (ho : barOpen s.u) (port : Fin 2) :
    exec (.regAccess port 0x10008 4 none) s = .next (onUnits (emit (.read port s.u.tick.period)) s) := by
  rw [exec_regAccess_read, hostRead_plain ho (by decide) (by decide) (by decide) (by decide), regRead_tickPeriod ho]
theorem regAccess_bootCfg (ho : barOpen s.u) (port : Fin 2) :
    exec (.regAccess port 0x10C 4 none) s = .next (onUnits (emit (.read port s.u.fw.bootCfg)) s) := by
  rw [exec_regAccess_read, hostRead_plain ho (by decide) (by decide) (by decide) (by decide), regRead_bootCfg ho]

theorem rcRead_lost (ho : barOpen s.u) (port : Fin 2) (events : Nat) :
    ∃ t, exec (.rcRead port 0x20080 events) s = .next t ∧ t.u.out = s.u.out ++ [.read port s.u.prodN.lost] ∧
      t.u.prodN = { s.u.prodN with lost := satN 48 events } ∧
      t = { s with u := { s.u with prodN := t.u.prodN, out := t.u.out } } :=
  ⟨_, exec_rcRead_rcRegs ho (by decide) port events, rfl, rfl, rfl⟩

theorem rcRead_queueCounter (ho : barOpen s.u) (port : Fin 2) (events off : Nat) (get : QInst → Nat)
    (h : (off, get) ∈ [(0x20090, QInst.flushed), (0x20098, QInst.rewound), (0x200A0, QInst.parErr),
        (0x200A8, QInst.eccCorr), (0x200B0, QInst.eccUnc)]) :
    ∃ t, exec (.rcRead port off events) s = .next t ∧ t.u.out = s.u.out ++ [.read port (get s.q.notice)] ∧
      get t.q.notice = satN 48 events ∧
      t = { s with u := { s.u with out := t.u.out }, q := { s.q with notice := t.q.notice } } ∧
      t.q.notice.committed = s.q.notice.committed ∧ t.q.notice.chain = s.q.notice.chain := by
  simp only [List.mem_cons, List.not_mem_nil, or_false] at h
  obtain ⟨rfl, rfl⟩ | ⟨rfl, rfl⟩ | ⟨rfl, rfl⟩ | ⟨rfl, rfl⟩ | ⟨rfl, rfl⟩ := h <;>
    exact ⟨_, exec_rcRead_rcRegs ho (by decide) port events, rfl, rfl, rfl, rfl, rfl⟩

/-- Settles O4: ill-formed accesses by the check that stands before every effect, the others by the register's own rule. -/
theorem registerAccessReachesItsRegister : Obligations.RegisterAccessReachesItsRegister := by
  refine ⟨illFormed_access_raises_regAccess, fun s port v hup hstage => ?_, fun s port events hup hstage => ?_⟩
  · have ho : barOpen s.u := ⟨hup, hstage⟩
    exact ⟨regWrite_tickInlat ho port v, regWrite_pinOut ho port v, regAccess_mbxIntEn ho port v,
      regAccess_tickNumber ho port, regAccess_tickPeriod ho port, regAccess_bootCfg ho port⟩
  · have ho : barOpen s.u := ⟨hup, hstage⟩
    exact ⟨rcRead_lost ho port events, rcRead_queueCounter ho port events⟩

end Sys2Proof.Machine
end

section
/-! PROOFS. A search of the match banks (06): the winner, the result record, and the parity check of the winner. -/
namespace Sys2Proof.Machine

variable {l : List (Nat × MEntry)} {w e : Nat × MEntry} {m : Match} {mode banks key : Nat} {u v c : Units}

/- The winner (R172). -/
@[simp] theorem winner_nil : winner [] = none := rfl

/-- The winner of a longer list: its head, unless the rest has a winner of higher PRIO. -/
theorem winner_cons_eq_some (h : winner (e :: l) = some w) :
    (w = e ∧ ∀ x, winner l = some x → x.2.prio ≤ e.2.prio) ∨ (winner l = some w ∧ e.2.prio < w.2.prio) := by
  rw [winner] at h
  cases hl : winner l with
  | none =>
    rw [hl] at h
    cases h
    exact .inl ⟨rfl, nofun⟩
  | some x =>
    rw [hl] at h
    dsimp only at h
    split at h
    · rename_i hlt
      cases h
      exact .inr ⟨rfl, hlt⟩
    · rename_i hge
      cases h
      exact .inl ⟨rfl, fun y hy => by cases hy; omega⟩

theorem winner_cons_ne_none (e : Nat × MEntry) (l : List (Nat × MEntry)) : winner (e :: l) ≠ none := by
  rw [winner]
  cases winner l with
  | none => nofun
  | some x => dsimp only; split <;> nofun

theorem winner_eq_none_iff (l : List (Nat × MEntry)) : winner l = none ↔ l = [] := by
  cases l with
  | nil => simp
  | cons e r => simpa using winner_cons_ne_none e r

theorem winner_mem (h : winner l = some w) : w ∈ l := by
  induction l with
  | nil => cases h
  | cons e r ih =>
    obtain ⟨rfl, -⟩ | ⟨hr, -⟩ := winner_cons_eq_some h
    · exact List.mem_cons_self
    · exact List.mem_cons_of_mem _ (ih hr)

theorem prio_le_of_winner (h : winner l = some w) (he : e ∈ l) : e.2.prio ≤ w.2.prio := by
  induction l generalizing w with
  | nil => cases he
  | cons a r ih =>
    obtain ⟨rfl, hmax⟩ | ⟨hr, hlt⟩ := winner_cons_eq_some h
    · obtain rfl | her := List.mem_cons.mp he
      · exact Nat.le_refl _
      · obtain ⟨x, hx⟩ := Option.ne_none_iff_exists'.mp
          (mt (winner_eq_none_iff r).mp (List.ne_nil_of_mem her))
        exact Nat.le_trans (ih hx her) (hmax x hx)
    · obtain rfl | her := List.mem_cons.mp he
      · exact Nat.le_of_lt hlt
      · exact ih hr her

/-- What stands before the winner's first place has a lower PRIO. -/
theorem prio_lt_of_before_winner {x y : List (Nat × MEntry)} (h : winner (x ++ w :: y) = some w) (hw : w ∉ x)
    (he : e ∈ x) : e.2.prio < w.2.prio := by
  induction x with
  | nil => cases he
  | cons a x ih =>
    obtain ⟨rfl, -⟩ | ⟨hr, hlt⟩ := winner_cons_eq_some h
    · exact absurd List.mem_cons_self hw
    · obtain rfl | hex := List.mem_cons.mp he
      · exact hlt
      · exact ih hr (fun hm => hw (List.mem_cons_of_mem _ hm)) hex

theorem tsorted_pairwise {α : Type} {t : Tbl α} (h : Tsorted t = true) : t.Pairwise (fun a b => a.1 < b.1) := by
  induction t with
  | nil => exact .nil
  | cons a r ih =>
    simp only [Tsorted, Bool.and_eq_true, List.all_eq_true, decide_eq_true_eq] at h
    obtain ⟨hlt, hr⟩ := h
    exact .cons hlt (ih hr)

/-- In rising addresses, the winner stands below every other entry of its PRIO. -/
theorem winner_lowest (hs : l.Pairwise (fun a b => a.1 < b.1)) (h : winner l = some w) (he : e ∈ l)
    (hp : e.2.prio = w.2.prio) : w.1 ≤ e.1 := by
  obtain ⟨x, y, rfl, hw⟩ := List.eq_append_cons_of_mem (winner_mem h)
  obtain ⟨-, hafter, -⟩ := List.pairwise_append.mp hs
  obtain hx | hy := List.mem_append.mp he
  · exact absurd hp (Nat.ne_of_lt (prio_lt_of_before_winner h hw hx))
  · obtain rfl | hy := List.mem_cons.mp hy
    · exact Nat.le_refl _
    · exact Nat.le_of_lt (List.rel_of_pairwise_cons hafter hy)

/- The matching entries and the result of a search (R171 to R173). -/
theorem mem_matching : e ∈ matching m banks mode key ↔ e ∈ m.entries ∧ e.2.valid = true ∧
    Nat.land (Nat.xor key e.2.key) e.2.mask = 0 ∧ bankTaken m banks mode (e.1 / 16384) = true := by
  simp [matching, entryMatch, bankSize, and_assoc]

theorem matching_pairwise (hs : Tsorted m.entries = true) :
    (matching m banks mode key).Pairwise (fun a b => a.1 < b.1) := (tsorted_pairwise hs).filter _

theorem searchRes_of_winner (hk : keyModeOk mode key = true) (hw : winner (matching m banks mode key) = some w) :
    (searchRes m mode banks key).hit = true ∧ (searchRes m mode banks key).addr = w.1 ∧
      (searchRes m mode banks key).action = w.2.action ∧ (searchRes m mode banks key).prio = w.2.prio ∧
      (searchRes m mode banks key).count = min 15 (matching m banks mode key).length ∧
      (searchRes m mode banks key).multi = decide (2 ≤ (matching m banks mode key).length) := by
  simp [searchRes, hk, hw]

theorem searchRes_hit_of_no_winner (hw : winner (matching m banks mode key) = none) :
    (searchRes m mode banks key).hit = false := by
  cases hk : keyModeOk mode key <;> simp [searchRes, hk, hw]

/- What counting, upsets and notices leave unchanged. -/
/-- The die counters alone differ. -/
def dieCounted (u v : Units) : Prop := ∃ d, v = { u with cnt := { u.cnt with die := d } }

theorem dieCounted_refl (u : Units) : dieCounted u u := ⟨_, rfl⟩
theorem dieCounted_trans (h : dieCounted u v) (k : dieCounted v c) : dieCounted u c := by
  obtain ⟨_, rfl⟩ := h
  obtain ⟨d, rfl⟩ := k
  exact ⟨d, rfl⟩
theorem dieCounted_dieBump (d n k : Nat) (u : Units) : dieCounted u (dieBump d n k u) := ⟨_, dieBump_eq d n k u⟩
theorem dieCounted_countSearch (m : Match) (banks mode : Nat) (u : Units) : dieCounted u (countSearch m banks mode u) :=
  forAll_keeps (dieCounted u) _ _ _ (dieCounted_refl u) (fun _ _ h => dieCounted_trans h (dieCounted_dieBump ..))

@[simp] theorem upset_nil (u : Units) : upset [] u = u := rfl
/-- Upsets change the stored entries alone. -/
theorem upset_eq (l : List Upset) (u : Units) : ∃ es, upset l u = { u with mat := { u.mat with entries := es } } :=
  forAll_keeps (fun v => ∃ es, v = { u with mat := { u.mat with entries := es } }) _ _ _ ⟨_, rfl⟩
    (fun _ _ ⟨_, h⟩ => h ▸ ⟨_, rfl⟩)

/-- The producers' side after a notice (R295, R304): the packet waits, or is lost and its losses are recorded. -/
def noticeProd (prod code ctx tick : Nat) (args : List Nat) (p : Prod) : Prod :=
  match prodPush p prod (noticeWords code ctx tick args) with
  | some q => q
  | none =>
    if sevOf code = 0 then
      mirrorPut (prodLost p (sevOf code)) (code % 16) tick [noticeHeader code ctx 2, BitVec.ofNat 64 tick]
    else prodLost p (sevOf code)

@[simp] theorem msix_prodN (k : Nat) (u : Units) : (msix k u).prodN = u.prodN := by rw [msix_eq]
@[simp] theorem dieBump_prodN (d n k : Nat) (u : Units) : (dieBump d n k u).prodN = u.prodN := by rw [dieBump_eq]
@[simp] theorem dieBump_tick (d n k : Nat) (u : Units) : (dieBump d n k u).tick = u.tick := by rw [dieBump_eq]

theorem notice_prodN (prod code ctx : Nat) (args : List Nat) (u : Units) :
    (notice prod code ctx args u).prodN = noticeProd prod code ctx u.tick.number args u.prodN := by
  unfold notice noticeProd
  dsimp only
  cases prodPush u.prodN prod (noticeWords code ctx u.tick.number args) with
  | some q => rfl
  | none => dsimp only; split <;> simp

/- The parity check of a winner (R174). -/
/-- Whether a search finds a winner whose stored bits disagree with their PAR. -/
def winnerBad (u : Units) (r : SRes) : Bool := r.hit && !parOk (entryAt u r.addr)
theorem winnerBad_of_winner (hk : keyModeOk mode key = true) (hw : winner (matching u.mat banks mode key) = some w) :
    winnerBad u (searchRes u.mat mode banks key) = !parOk (entryAt u w.1) := by
  obtain ⟨hhit, haddr, -⟩ := searchRes_of_winner hk hw
  rw [winnerBad, hhit, haddr, Bool.true_and]
theorem winnerBad_of_no_winner (hw : winner (matching u.mat banks mode key) = none) :
    winnerBad u (searchRes u.mat mode banks key) = false := by
  rw [winnerBad, searchRes_hit_of_no_winner hw, Bool.false_and]

/-- The result of a search after the check of its winner. -/
def checkedRes (u : Units) (r : SRes) : SRes := { r with poison := r.poison || winnerBad u r }

theorem checkedRes_of_good {r : SRes} (h : winnerBad u r = false) : checkedRes u r = r := by simp [checkedRes, h]
theorem checkedRes_of_bad {r : SRes} (h : winnerBad u r = true) : checkedRes u r = { r with poison := true } := by
  simp [checkedRes, h]

/-- A search counts, repairs a bad winner, counts again, and writes the checked record. -/
theorem searchU_shape (die mode banks key : Nat) (u : Units) : ∃ c v,
    dieCounted u c ∧
    dieCounted (if winnerBad u (searchRes u.mat mode banks key) then parityFail (searchRes u.mat mode banks key).addr c
      else c) v ∧
    (searchU die mode banks key u).2 =
      { v with mat := { v.mat with result := recWord (checkedRes u (searchRes u.mat mode banks key)) } } := by
  have hcount : dieCounted u (if keyModeOk mode key then countSearch u.mat banks mode u else u) := by
    split
    · exact dieCounted_countSearch ..
    · exact dieCounted_refl u
  have hmerge (v : Units) : dieCounted v
      (dieBump (dieKey 1 die) 0x125 (b2n (checkedRes u (searchRes u.mat mode banks key)).poison)
        (dieBump (dieKey 1 die) 0x126 (b2n (checkedRes u (searchRes u.mat mode banks key)).multi) v)) :=
    dieCounted_trans (dieCounted_dieBump ..) (dieCounted_dieBump ..)
  cases hbad : winnerBad u (searchRes u.mat mode banks key) with
  | false =>
    refine ⟨_, _, hcount, hmerge _, ?_⟩
    rw [searchU, checkedRes, hbad]
    rw [winnerBad] at hbad
    rw [hbad]
    rfl
  | true =>
    refine ⟨_, _, dieCounted_trans hcount (dieCounted_dieBump (matchDie (searchRes u.mat mode banks key).addr) 0x123 1 _),
      hmerge _, ?_⟩
    rw [searchU, checkedRes, hbad]
    rw [winnerBad] at hbad
    rw [hbad]
    rfl

/-- A search with no bad winner writes its record and counts. -/
theorem searchU_of_good (die : Nat) (hgood : winnerBad u (searchRes u.mat mode banks key) = false) :
    ∃ d, (searchU die mode banks key u).2 = { u with
      mat := { u.mat with result := recWord (searchRes u.mat mode banks key) }
      cnt := { u.cnt with die := d } } := by
  obtain ⟨c, v, hc, hv, h⟩ := searchU_shape die mode banks key u
  rw [hgood, if_neg Bool.false_ne_true] at hv
  obtain ⟨d, rfl⟩ := dieCounted_trans hc hv
  exact ⟨d, by rw [h, checkedRes_of_good hgood]⟩

theorem parityFail_mat {addr : Nat} {x : MEntry} (h : tget u.mat.shadow addr = some x) :
    (parityFail addr u).mat = { u.mat with entries := tset u.mat.entries addr (shadowEntry u addr x) } := by
  rw [parityFail, h, notice_frame]
theorem parityFail_prodN (addr : Nat) (u : Units) :
    (parityFail addr u).prodN = (notice (matchDie addr) 0x0401 0 [addr] u).prodN := by
  rw [parityFail, notice_prodN, notice_prodN]

/-- A search with a bad winner poisons its record, rewrites the entry from the shadow and raises the notice. -/
theorem searchU_of_bad (die : Nat) {x : MEntry} (hbad : winnerBad u (searchRes u.mat mode banks key) = true)
    (hx : tget u.mat.shadow (searchRes u.mat mode banks key).addr = some x) :
    (searchU die mode banks key u).2.mat = { u.mat with
      entries := tset u.mat.entries (searchRes u.mat mode banks key).addr
        (shadowEntry u (searchRes u.mat mode banks key).addr x)
      result := recWord { searchRes u.mat mode banks key with poison := true } } ∧
    (searchU die mode banks key u).2.prodN = (notice (matchDie (searchRes u.mat mode banks key).addr) 0x0401 0
      [(searchRes u.mat mode banks key).addr] u).prodN := by
  obtain ⟨c, v, hc, hv, h⟩ := searchU_shape die mode banks key u
  rw [hbad, if_pos rfl] at hv
  obtain ⟨d, rfl⟩ := hc
  obtain ⟨d', rfl⟩ := hv
  rw [h, checkedRes_of_bad hbad]
  constructor
  · dsimp only
    rw [parityFail_mat (x := x)]
    · rfl
    · exact hx
  · dsimp only
    rw [parityFail_prodN, notice_prodN, notice_prodN]

/- MATCH_SEARCH (R172). -/
theorem exec_matchSearch (p : Fin 256) (key : Key) (l : List Upset) (s : State) :
    exec (.matchSearch p key l) s = .next { s with
      u := (searchU 0 (profMode (profAt s.u p)) (profBanks (profAt s.u p)) key.toNat (upset l s.u)).2 } := rfl

theorem matchSearch_writes_result (s : State) (p : Fin 256) (key : Key)
    (hk : keyModeOk (profMode (profAt s.u p)) key.toNat = true)
    (hpar : ∀ w, winner (matching s.u.mat (profBanks (profAt s.u p)) (profMode (profAt s.u p)) key.toNat) = some w →
      parOk (entryAt s.u w.1) = true) :
    ∃ t, exec (.matchSearch p key []) s = .next t ∧
      t.u.mat = { s.u.mat with
        result := recWord (searchRes s.u.mat (profMode (profAt s.u p)) (profBanks (profAt s.u p)) key.toNat) } ∧
      t = { s with u := { s.u with mat := t.u.mat, cnt := { s.u.cnt with die := t.u.cnt.die } } } := by
  have hgood : winnerBad s.u
      (searchRes s.u.mat (profMode (profAt s.u p)) (profBanks (profAt s.u p)) key.toNat) = false := by
    cases hw : winner (matching s.u.mat (profBanks (profAt s.u p)) (profMode (profAt s.u p)) key.toNat) with
    | none => exact winnerBad_of_no_winner hw
    | some w => rw [winnerBad_of_winner hk hw, hpar w hw, Bool.not_true]
  obtain ⟨d, hd⟩ := searchU_of_good 0 hgood
  exact ⟨_, by rw [exec_matchSearch, upset_nil, hd], rfl, rfl⟩

theorem matchSearch_repairs_bad_winner (s : State) (p : Fin 256) (key : Key) (l : List Upset) (v : Units)
    (w : Nat × MEntry) (e : MEntry) (hv : v = upset l s.u)
    (hk : keyModeOk (profMode (profAt s.u p)) key.toNat = true)
    (hw : winner (matching v.mat (profBanks (profAt s.u p)) (profMode (profAt s.u p)) key.toNat) = some w)
    (hbad : parOk (entryAt v w.1) = false) (hx : tget s.u.mat.shadow w.1 = some e) :
    ∃ t, exec (.matchSearch p key l) s = .next t ∧
      t.u.mat.result = recWord
        { searchRes v.mat (profMode (profAt s.u p)) (profBanks (profAt s.u p)) key.toNat with poison := true } ∧
      tget t.u.mat.entries w.1 = some (shadowEntry s.u w.1 e) ∧
      (∀ a, a ≠ w.1 → tget t.u.mat.entries a = tget v.mat.entries a) ∧
      t.u.prodN = (notice (matchDie w.1) 0x0401 0 [w.1] s.u).prodN ∧ t.q = s.q ∧ t.m = s.m := by
  obtain ⟨-, haddr, -⟩ := searchRes_of_winner hk hw
  have hwb : winnerBad v
      (searchRes v.mat (profMode (profAt s.u p)) (profBanks (profAt s.u p)) key.toNat) = true := by
    rw [winnerBad_of_winner hk hw, hbad, Bool.not_false]
  obtain ⟨es, hes⟩ := upset_eq l s.u
  have hshadow : tget v.mat.shadow w.1 = some e := by rw [hv, hes]; exact hx
  have hrepair : shadowEntry v w.1 e = shadowEntry s.u w.1 e := by rw [hv, hes]; rfl
  have hnotice : (notice (matchDie w.1) 0x0401 0 [w.1] v).prodN = (notice (matchDie w.1) 0x0401 0 [w.1] s.u).prodN := by
    rw [notice_prodN, notice_prodN, hv, hes]
  obtain ⟨hmat, hprod⟩ := searchU_of_bad 0 hwb (haddr.symm ▸ hshadow)
  rw [haddr] at hmat hprod
  refine ⟨_, exec_matchSearch p key l s, ?_⟩
  rw [← hv]
  dsimp only
  rw [hmat, hprod, hrepair, hnotice]
  exact ⟨rfl, tget_tset_self .., fun a ha => tget_tset_other _ _ ha, rfl, rfl, rfl⟩

/-- Settles O28: the winner by induction on the list of matches, the repair by the shape of a search. -/
theorem searchFindsTheWinner : Obligations.SearchFindsTheWinner := by
  refine ⟨⟨fun l w h => ⟨winner_mem h, fun e he => prio_le_of_winner h he, ?_⟩, winner_eq_none_iff,
    fun m mode banks key w hk hw => searchRes_of_winner hk hw, ?_, fun m banks mode key e => mem_matching,
    matchSearch_writes_result⟩, matchSearch_repairs_bad_winner⟩
  · rintro x y rfl hw e he
    exact prio_lt_of_before_winner h hw he
  · intro m mode banks key w e hs hw he
    obtain hlt | heq := Nat.lt_or_eq_of_le (prio_le_of_winner hw he)
    · exact .inl hlt
    · exact .inr ⟨heq, winner_lowest (matching_pairwise hs) hw he heq⟩

end Sys2Proof.Machine
end

section
/-! PROOFS. The commands that are the host's write of one register (02, 15, 17, 19): what a write of TICK_CTL, BLK_ENABLE,
BLK_CTL, CNT_CTL and PIN_FUNC does to the units, by the value written, and the blocks of O6. -/
namespace Sys2Proof.Machine

variable {s : State} {u : Units} {off val n : Nat} {f g : Units → Units}

/- A register write as a command. -/
/-- Through an open BAR the register's own rule acts on the units, and on nothing else. -/
theorem onReg_of_barOpen (ho : barOpen s.u) : onReg off f s = .next (onUnits f s) := by
  rw [onReg, if_pos (barTakes_of_barOpen ho 0 off)]
  rfl

/-- Two rules that agree on the units of the state give the same command. -/
theorem onReg_eq_of_barOpen (ho : barOpen s.u) (h : f s.u = g s.u) : onReg off f s = .next (onUnits g s) := by
  rw [onReg_of_barOpen ho, onUnits, onUnits, h]

/-- A rule that leaves the units as they are makes the command void, be the BAR open or not. -/
theorem onReg_of_ignored (h : f s.u = s.u) : onReg off f s = .next s := by
  rw [onReg, h, ite_self]

/- TICK_CTL (R42, R47, R53, R54). -/
theorem periodNs_pos (hp : 0 < u.tick.period) : 0 < periodNs u := by
  rw [periodNs]
  omega

theorem tickRuns_eq_false (h : u.tick.st = .stopped) : tickRuns u = false := by simp [tickRuns, h]

/-- The least multiple k of p that covers a is counted by the ceiling of a / p. -/
theorem le_ceilDiv_mul {a p : Nat} (hp : 0 < p) : a ≤ ceilDiv a p * p := by
  rw [ceilDiv]
  have hlt := Nat.lt_div_mul_add (a := a + p - 1) hp
  omega

theorem pred_ceilDiv_mul_lt {a p : Nat} (h : 0 < ceilDiv a p) : (ceilDiv a p - 1) * p < a := by
  have hp : 0 < p := Nat.pos_of_ne_zero (by rintro rfl; simp [ceilDiv] at h)
  have hle : p ≤ ceilDiv a p * p := Nat.le_mul_of_pos_left p h
  have hdiv : ceilDiv a p * p ≤ a + p - 1 := Nat.div_mul_le_self ..
  rw [Nat.sub_mul, Nat.one_mul]
  omega

/-- The first edge lies on the epoch's grid, 2 P away or more, and no earlier edge of the grid does (R53). -/
theorem firstEdge_first_of_grid (hp : 0 < u.tick.period) :
    ∃ k, firstEdge u = u.tick.epoch + u.tick.offset + k * periodNs u ∧
      u.tick.time + 2 * periodNs u ≤ firstEdge u ∧
      (0 < k → u.tick.epoch + u.tick.offset + (k - 1) * periodNs u < u.tick.time + 2 * periodNs u) := by
  refine ⟨_, rfl, ?_, fun hk => ?_⟩
  · have hle := le_ceilDiv_mul (a := u.tick.time + 2 * periodNs u - (u.tick.epoch + u.tick.offset)) (periodNs_pos hp)
    rw [firstEdge]
    omega
  · have hlt := pred_ceilDiv_mul_lt hk
    omega

/-- What a TICK_CTL write that starts the tick makes of the tick registers. -/
def tickStarted (val : Nat) (u : Units) : Tick :=
  { u.tick with
    outEn := bitAt val 3, src := if bitsOf val 2 1 = 3 then u.tick.src else bitsOf val 2 1
    en := true, st := .starting, startAt := firstEdge u, anchor := none, groupEdge := none, groupNum := none
    holdover := 0, armed := [], next := [], cur := [], armSample := none, coastRun := 0, haltNext := false
    lastMark := 5 }

theorem tickCtlWrite_starts (hval : bitAt val 0 = true) (hblk : u.blk.en = true) (hen : u.tick.en = false)
    (hreq : u.tick.stopReq = false) (hst : u.tick.st = .stopped) :
    tickCtlWrite val u = { u with tick := tickStarted val u } := by
  rw [tickCtlWrite, tickRuns_eq_false hst, Bool.false_and, if_neg Bool.false_ne_true]
  have hset : (bitAt val 0 && !u.tick.en) = true := by simp [hval, hen]
  have hgo : (u.blk.en && !u.tick.stopReq) = true := by simp [hblk, hreq]
  exact (if_pos hset).trans (if_pos hgo)

/-- A TICK_CTL write that keeps SRC and clears EN reaches its fields, OUT_EN first; EN then goes by BLK_ENABLE. -/
theorem tickCtlWrite_clears_en (hval : bitAt val 0 = false) (hen : u.tick.en = true)
    (hsrc : bitsOf val 2 1 = u.tick.src) (h3 : u.tick.src ≠ 3) :
    tickCtlWrite val u =
      if u.blk.en then tickLocked 0x10000 val { u with tick := { u.tick with outEn := bitAt val 3 } }
      else { u with tick := { u.tick with outEn := bitAt val 3, en := false, stopReq := true } } := by
  rw [tickCtlWrite, hsrc, bne_self_eq_false, Bool.and_false, if_neg Bool.false_ne_true]
  simp [tickCtlFields, hval, hen, hsrc, h3]

theorem tickCtlWrite_stops (hval : bitAt val 0 = false) (hblk : u.blk.en = false) (hen : u.tick.en = true)
    (hsrc : bitsOf val 2 1 = u.tick.src) (h3 : u.tick.src ≠ 3) :
    tickCtlWrite val u = { u with tick := { u.tick with outEn := bitAt val 3, en := false, stopReq := true } } := by
  rw [tickCtlWrite_clears_en hval hen hsrc h3, hblk, if_neg Bool.false_ne_true]

theorem tickCtlWrite_locked_while_enabled (hval : bitAt val 0 = false) (hblk : u.blk.en = true)
    (hen : u.tick.en = true) (hsrc : bitsOf val 2 1 = u.tick.src) (h3 : u.tick.src ≠ 3) :
    tickCtlWrite val u = tickLocked 0x10000 val { u with tick := { u.tick with outEn := bitAt val 3 } } := by
  rw [tickCtlWrite_clears_en hval hen hsrc h3, if_pos hblk]

/- BLK_ENABLE (R412, R413). -/
theorem blkEnableRequest_starts_check (hen : u.blk.en = false) (hchk : u.blk.checking = false) :
    blkEnableRequest u = { u with blk := { u.blk with checking := true } } := by simp [blkEnableRequest, hen, hchk]

theorem blkDisable_of_none_in_service (h : anyInService u = false) :
    blkDisable val u = { u with blk := { u.blk with en := false } } := by simp [blkDisable, h]

theorem blkDisable_of_in_service (h : anyInService u = true) :
    blkDisable val u = notice (dieKey 3 0) 0x0F04 0 [val] u := by simp [blkDisable, h]

theorem blkStop_of_disabled (hen : u.blk.en = false) : blkStop u = u := by simp [blkStop, hen]

theorem blkStop_waits_for_edge (hen : u.blk.en = true) (hrun : running u = true) :
    blkStop u = { u with blk := { u.blk with stopping := true }, tick := { u.tick with forced := true } } := by
  simp [blkStop, hen, hrun]

theorem running_of_barOpen (ho : barOpen u) (hst : u.tick.st ≠ .stopped) : running u = true := by
  simp [running, hst, ho.1]

/- BLK_CTL (R399, R501). -/
theorem arbPlainWrite_of_enabled (v : Bool) (hen : u.blk.en = true) : arbPlainWrite v u = u := if_pos hen

theorem arbPlainWrite_of_disabled (v : Bool) (hen : u.blk.en = false) :
    arbPlainWrite v u =
      if v then notice (dieKey 3 0) 0x0E04 0 [] { u with blk := { u.blk with arbPlain := v } }
      else { u with blk := { u.blk with arbPlain := v } } := by simp [arbPlainWrite, hen]

/- PIN_FUNC (R468). -/
theorem pinFuncWrite_switches (hf : bitsOf val 3 0 ≤ 5) (hne : (tgetD u.pins.gpio n {}).func ≠ bitsOf val 3 0) :
    pinFuncWrite n val u = { u with pins := { u.pins with
      gpio := tset u.pins.gpio n { func := bitsOf val 3 0, park := bitsOf val 15 8,
                                   next := some (bitsOf val 3 0), level := false } } } := by
  simp [pinFuncWrite, Nat.not_lt.mpr hf, hne]

theorem pinFuncWrite_of_undefined (hf : 5 < bitsOf val 3 0) :
    pinFuncWrite n val u = notice (dieKey 3 0) 0x0965 0 [n, val] u := if_pos hf

/- The commands. -/
theorem exec_tickStart (v : W32) (s : State) :
    exec (.tickStart v) s = onReg 0x10000 (tickCtlWrite v.toNat) s := rfl
theorem exec_tickStopRequest (v : W32) (s : State) :
    exec (.tickStopRequest v) s = onReg 0x10000 (tickCtlWrite v.toNat) s := rfl
theorem exec_blkEnableRequest (s : State) : exec .blkEnableRequest s = onReg 0x40 blkEnableRequest s := rfl
theorem exec_blkDisable (s : State) : exec .blkDisable s = onReg 0x40 (blkDisable 0) s := rfl
theorem exec_blkStop (s : State) : exec .blkStop s = onReg 0x40 blkStop s := rfl
theorem exec_arbPlainWrite (v : Bool) (s : State) :
    exec (.arbPlainWrite v) s = onReg 0x30 (arbPlainWrite v) s := rfl
theorem exec_cntSnap (s : State) :
    exec .cntSnap s = onReg 0x40000 (fun u => { u with cnt := { u.cnt with snapReq := true } }) s := rfl
theorem exec_cntClr (s : State) :
    exec .cntClr s = onReg 0x40000 (fun u => { u with cnt := { u.cnt with clrReq := true } }) s := rfl
theorem exec_pinFuncWrite (n : Fin 16) (v : W32) (s : State) :
    exec (.pinFuncWrite n v) s = onReg (0x30000 + 4 * n.val) (pinFuncWrite n v.toNat) s := rfl

/-- TICK_START with the tick stopped and the block enabled: the tick registers become those of `tickStarted`. -/
theorem exec_tickStart_starts (v : W32) (ho : barOpen s.u) (hval : bitAt v.toNat 0 = true) (hblk : s.u.blk.en = true)
    (hen : s.u.tick.en = false) (hreq : s.u.tick.stopReq = false) (hst : s.u.tick.st = .stopped) :
    exec (.tickStart v) s = .next { s with u := { s.u with tick := tickStarted v.toNat s.u } } := by
  rw [exec_tickStart, onReg_of_barOpen ho, onUnits, tickCtlWrite_starts hval hblk hen hreq hst]

/-- Settles O6: each command is the write of one register, so each clause is the register's own rule at the value written;
the first edge is that of the epoch's grid by the ceiling that counts it. -/
theorem tickStartStopAndBlockControl : Obligations.TickStartStopAndBlockControl := by
  refine ⟨⟨?start, ?stop, ?stopLocked⟩, ?enable, ?disable, ?forcedStop, ?plainOff, ?plainOn, ?stopDisabled,
    ?disableInService, ?plainLocked, ?snap, ?clear, ?pin, ?pinUndefined⟩
  case start =>
    intro s v ho hval hblk hen hreq hst hp
    exact ⟨_, exec_tickStart_starts v ho hval hblk hen hreq hst,
      rfl, rfl, rfl, rfl, rfl, firstEdge_first_of_grid hp, rfl⟩
  case stop =>
    intro s v ho hval hblk hen hsrc h3
    exact (exec_tickStopRequest ..).trans (onReg_eq_of_barOpen ho (tickCtlWrite_stops hval hblk hen hsrc h3))
  case stopLocked =>
    intro s v ho hval hblk hen hsrc h3
    exact (exec_tickStopRequest ..).trans
      (onReg_eq_of_barOpen ho (tickCtlWrite_locked_while_enabled hval hblk hen hsrc h3))
  case enable =>
    intro s ho hen hchk
    exact (exec_blkEnableRequest ..).trans (onReg_eq_of_barOpen ho (blkEnableRequest_starts_check hen hchk))
  case disable =>
    intro s ho hserv
    exact (exec_blkDisable ..).trans (onReg_eq_of_barOpen ho (blkDisable_of_none_in_service hserv))
  case forcedStop =>
    intro s ho hen hst
    exact (exec_blkStop ..).trans (onReg_eq_of_barOpen ho (blkStop_waits_for_edge hen (running_of_barOpen ho hst)))
  case plainOff =>
    intro s ho hen
    exact (exec_arbPlainWrite ..).trans (onReg_eq_of_barOpen ho (arbPlainWrite_of_disabled false hen))
  case plainOn =>
    intro s ho hen
    exact (exec_arbPlainWrite ..).trans (onReg_eq_of_barOpen ho (arbPlainWrite_of_disabled true hen))
  case stopDisabled =>
    intro s _ hen
    exact (exec_blkStop ..).trans (onReg_of_ignored (blkStop_of_disabled hen))
  case disableInService =>
    intro s ho hserv
    exact (exec_blkDisable ..).trans (onReg_eq_of_barOpen ho (blkDisable_of_in_service hserv))
  case plainLocked =>
    intro s v hen
    exact (exec_arbPlainWrite ..).trans (onReg_of_ignored (arbPlainWrite_of_enabled v hen))
  case snap =>
    intro s ho
    exact (exec_cntSnap ..).trans (onReg_of_barOpen ho)
  case clear =>
    intro s ho
    exact (exec_cntClr ..).trans (onReg_of_barOpen ho)
  case pin =>
    intro s n v ho hf hne
    exact (exec_pinFuncWrite ..).trans (onReg_eq_of_barOpen ho (pinFuncWrite_switches hf hne))
  case pinUndefined =>
    intro s n v ho hf
    exact (exec_pinFuncWrite ..).trans (onReg_eq_of_barOpen ho (pinFuncWrite_of_undefined hf))

end Sys2Proof.Machine
end

section
/-! PROOFS. What every state operation keeps (01, 04, 10): memories in their canonical form, queues within their bounds. One
lemma for each operation that writes a memory or a queue, up to the commands themselves. -/
namespace Sys2Proof.Machine

/-- From s to t, canonical memories stay canonical and queues within their bounds stay within them. -/
def Keeps (s t : State) : Prop :=
  (memsWf s.m = true → memsWf t.m = true) ∧ (queuesWf s.q = true → queuesWf t.q = true)

/- How the relation composes. -/
theorem Keeps.refl (s : State) : Keeps s s := ⟨id, id⟩
theorem Keeps.trans {s t r : State} (h : Keeps s t) (k : Keeps t r) : Keeps s r := ⟨k.1 ∘ h.1, k.2 ∘ h.2⟩
theorem Keeps.of_eq {s t : State} (hm : t.m = s.m) (hq : t.q = s.q) : Keeps s t :=
  ⟨fun h => hm ▸ h, fun h => hq ▸ h⟩
/-- A change of the units is no matter. -/
theorem Keeps.units (s : State) (u : Units) : Keeps s { s with u := u } := .of_eq rfl rfl
theorem Keeps.ite {s t r : State} (c : Prop) [Decidable c] (ht : Keeps s t) (hr : Keeps s r) :
    Keeps s (if c then t else r) := by
  split
  · exact ht
  · exact hr
theorem Keeps.foldl {α : Type} {f : State → α → State} (hf : ∀ t a, Keeps t (f t a)) (l : List α) (s : State) :
    Keeps s (l.foldl f s) :=
  foldl_keeps (Keeps s) f l s (.refl s) (fun t a h => h.trans (hf t a))

/- Writes of the memories. -/
theorem sramWrite_keeps (k addr : Nat) (data : Bytes) (p : Bool) (s : State) : Keeps s (sramWrite k addr data p s) :=
  ⟨sramWrite_wf k addr data p, id⟩
theorem outWrite_keeps (k addr : Nat) (data : Bytes) (p : Bool) (s : State) : Keeps s (outWrite k addr data p s) :=
  ⟨outWrite_wf k addr data p, id⟩
theorem unitWrite_keeps (space key addr : Nat) (data : Bytes) (p : Bool) (s : State) :
    Keeps s (unitWrite space key addr data p s) :=
  ⟨unitWrite_wf space key addr data p, fun h => by rwa [unitWrite_q]⟩
theorem unitCopy_keeps (src dst : Nat × Nat × Nat) (n : Nat) (s : State) : Keeps s (unitCopy src dst n s) :=
  ⟨unitCopy_wf src dst n, fun h => by rwa [unitCopy_q]⟩
theorem bufWrite_keeps (s : State) (ctx : Nat) (b : Buf) (data : Bytes) (flt : Bool) :
    Keeps s (bufWrite s ctx b data flt).1 :=
  ⟨bufWrite_wf ctx b data flt, fun h => by rwa [bufWrite_q]⟩

/-- A message over the memories keeps what its own effect keeps. -/
theorem messageS_keeps {op n : Nat} {f : Bytes → State → State × Option Ans} (hf : ∀ p s, Keeps s (f p s).1) (s : State) :
    Keeps s (messageS op n f s) := by
  unfold messageS
  split
  · exact .refl s
  · split
    · exact .refl s
    · split
      · exact .units s _
      · dsimp only
        split
        · exact (hf _ s).trans (.units _ _)
        · exact (hf _ s).trans (.units _ _)

/- The queue instances. -/
theorem queuesWf_iff (q : Queues) :
    queuesWf q = true ↔ queueWf q.notice = true ∧ queueWf q.log = true ∧ queueWf q.fab = true := by
  simp only [queuesWf, Bool.and_eq_true, and_assoc]

theorem queueWf_qGet {q : Queues} (h : queuesWf q = true) (n : Fin 3) : queueWf (qGet q n) = true := by
  obtain ⟨hn, hl, hf⟩ := (queuesWf_iff q).mp h
  unfold qGet
  split
  · exact hn
  · exact hl
  · exact hf

theorem queuesWf_qPut {q : Queues} (h : queuesWf q = true) (n : Fin 3) {x : QInst} (hx : queueWf x = true) :
    queuesWf (qPut q n x) = true := by
  obtain ⟨hn, hl, hf⟩ := (queuesWf_iff q).mp h
  unfold qPut
  split
  · exact (queuesWf_iff _).mpr ⟨hx, hl, hf⟩
  · exact (queuesWf_iff _).mpr ⟨hn, hx, hf⟩
  · exact (queuesWf_iff _).mpr ⟨hn, hl, hx⟩

/-- One queue replaced by one within its bounds. -/
theorem Keeps.qPut (s : State) (u : Units) (n : Fin 3) {x : QInst}
    (hx : queueWf (qGet s.q n) = true → queueWf x = true) : Keeps s { s with u := u, q := qPut s.q n x } :=
  ⟨id, fun h => queuesWf_qPut h n (hx (queueWf_qGet h n))⟩
/-- The notice queue replaced by one within its bounds. -/
theorem Keeps.notice (s : State) (u : Units) {x : QInst} (hx : queueWf s.q.notice = true → queueWf x = true) :
    Keeps s { s with u := u, q := { s.q with notice := x } } := .qPut s u 0 hx

/-- Queues without a packet, a count or a threshold lie within their bounds. -/
theorem queuesWf_empty : queuesWf {} = true := by decide

/- The queue primitive's commands (R293 to R305). -/
theorem execNoticePacket_keeps (n : Fin 3) (prod : Nat) (words : List W64) (s : State) :
    ∃ t, execNoticePacket n prod words s = .next t ∧ Keeps s t :=
  ⟨_, rfl, .qPut s _ n qGrant_wf⟩


/-- Packets that leave the chain at either end leave the rest with its room (R294, R296). -/
theorem openFits_drop {q : QInst} (h : openFits q = true) (n : Nat) : openFits { q with chain := q.chain.drop n } = true := by
  cases hq : q.chain with
  | nil => simp [openFits]
  | cons x r =>
    obtain ⟨hx, hr⟩ := (openFits_cons hq).mp h
    cases n with
    | zero => exact (openFits_cons rfl).mpr ⟨hx, hr⟩
    | succ n =>
      cases hd : r.drop n with
      | nil => simp [openFits, hd]
      | cons y l =>
        have hmem : ∀ z ∈ y :: l, z.out = 0 := fun z hz => hr z (List.mem_of_mem_drop (hd ▸ hz))
        exact (openFits_cons (x := y) (r := l) (by simp [hd])).mpr
          ⟨.inl (hmem y (by simp)), fun z hz => hmem z (by simp [hz])⟩
theorem openFits_dropLast {q : QInst} (h : openFits q = true) :
    openFits { q with chain := q.chain.dropLast } = true := by
  cases hq : q.chain with
  | nil => simp [openFits]
  | cons x r =>
    obtain ⟨hx, hr⟩ := (openFits_cons hq).mp h
    cases r with
    | nil => simp [openFits]
    | cons y l => exact (openFits_cons rfl).mpr ⟨hx, fun z hz => hr z ((List.dropLast_sublist _).subset hz)⟩

theorem sum_le_of_sublist {l r : List Nat} (h : l.Sublist r) : l.sum ≤ r.sum := by
  induction h with
  | slnil => exact Nat.le_refl _
  | cons a _ ih =>
    rw [List.sum_cons]
    omega
  | cons_cons a _ ih =>
    rw [List.sum_cons, List.sum_cons]
    omega

/-- A rewind keeps the bounds (R294, R296). -/
theorem queueWf_rewind {q : QInst} (h : queueWf q = true) {l : List Pkt} (hl : l.Sublist q.chain)
    (hfits : openFits { q with chain := l } = true) (a b : Nat) :
    queueWf { q with chain := l, rewound := satN 48 a, parErr := satN 48 b } = true := by
  rw [queueWf_iff] at h ⊢
  obtain ⟨_, hlen, hwords, hfill, hcommits, hseq, hthresh, hflushed, _, _, hcorr, hunc⟩ := h
  have hsum : (l.map (fun c => c.words.length - c.out)).sum ≤ chainWords q :=
    sum_le_of_sublist (hl.map _)
  exact ⟨hfits, fun x hx => hlen x (hl.subset hx), Nat.le_trans hsum hwords, hfill, hcommits, hseq, hthresh, hflushed,
    satN_lt _ _, satN_lt _ _, hcorr, hunc⟩

theorem execPacketRewind_keeps (n : Fin 3) (cause : RewindCause) (s : State) :
    ∃ t, execPacketRewind n cause s = .next t ∧ Keeps s t := by
  unfold execPacketRewind
  dsimp only
  split
  · exact ⟨s, rfl, .refl s⟩
  · refine ⟨_, rfl, .qPut s s.u n fun h => ?_⟩
    have hfits := ((queueWf_iff _).mp h).1
    split
    · exact queueWf_rewind h (List.drop_sublist _ _) (openFits_drop hfits 1) _ _
    · exact queueWf_rewind h (List.dropLast_sublist _) (openFits_dropLast hfits) _ _

theorem execNoticeCommit_keeps (n : Fin 3) (spill : SpillIn) (a b : Nat) (s : State) :
    ∃ t, execNoticeCommit n spill a b s = .next t ∧ Keeps s t := by
  unfold execNoticeCommit
  dsimp only
  split
  · exact ⟨s, rfl, .refl s⟩
  · next r hr => exact ⟨_, rfl, .qPut s _ n fun h => qEcc_wf _ _ (qSpill_wf h hr)⟩

theorem execNqPop_keeps (port : Fin 2) (a b : BitVec 8) (s : State) :
    ∃ t, execNqPop port a b s = .next t ∧ Keeps s t := by
  unfold execNqPop
  dsimp only
  split
  · exact ⟨_, rfl, .units s _⟩
  · exact ⟨_, rfl, .notice s _ (qPopPort_wf _ _ _)⟩

theorem execNqFlush_keeps (s : State) : ∃ t, execNqFlush s = .next t ∧ Keeps s t :=
  ⟨_, rfl, .ite _ (.notice s s.u qFlush_wf) (.refl s)⟩

/-- Packets popped into a buffer keep the bounds (R300, R335). -/
theorem popMany_wf (f room : Nat) (ecc : List (BitVec 8 × BitVec 8)) {q : QInst} (h : queueWf q = true) :
    queueWf (popMany f room ecc q).2.2 = true := by
  induction f generalizing room ecc q with
  | zero => exact h
  | succ f ih =>
    unfold popMany
    cases hp : qPop q with
    | none => exact h
    | some x =>
      dsimp only
      split
      · exact h
      · exact ih _ _ (qEcc_wf _ _ (qPop_wf h hp))

theorem popInto_keeps (inst : Fin 3) (max : Nat) (mb : Nat) (b : Buf) (i : PopIn) (s : State) :
    Keeps s (popInto inst max mb b i s).1 := by
  unfold popInto
  dsimp only
  split
  · exact .refl s
  · have hw := bufWrite_keeps s mb b (popMany max b.len i.ecc (qGet s.q inst)).1 i.flt
    split
    · refine hw.trans (.qPut _ _ inst fun h => popMany_wf _ _ _ ?_)
      rwa [bufWrite_q] at h
    · exact hw

theorem spillScrub_keeps (x : Fin 3 × Fin 5 × Fin 5) (s : State) : Keeps s (spillScrub x s) := by
  have hq : Keeps s { s with q := qPut s.q x.1 (qEcc (qGet s.q x.1) x.2.1.val x.2.2.val) } := .qPut s s.u x.1 (qEcc_wf _ _)
  exact .ite _ hq (hq.trans (.units _ _))

/- The control BAR (R10 to R12, R303, R505). -/
theorem nqWrite_wf (off val : Nat) {q : QInst} (h : queueWf q = true) : queueWf (nqWrite off val q) = true := by
  unfold nqWrite
  split
  · dsimp only
    split
    · exact qFlush_wf (q := { q with intEn := bitAt val 0 }) h
    · exact h
  · split
    · exact h
    · split
      · rw [queueWf_iff] at h ⊢
        obtain ⟨hfits, hlen, hwords, hfill, hcommits, hseq, _, hrest⟩ := h
        exact ⟨hfits, hlen, hwords, hfill, hcommits, hseq, Nat.mod_lt _ (by decide), hrest⟩
      · exact h

theorem rcClear_keeps (off events : Nat) (s : State) : Keeps s (rcClear off events s) := by
  have put {x : QInst} (hx : queueWf s.q.notice = true → queueWf x = true) :
      Keeps s { s with q := { s.q with notice := x } } := .notice s s.u hx
  unfold rcClear
  dsimp only
  refine .ite _ (.units s _) (.ite _ (put fun h => ?_) (.ite _ (put fun h => ?_) (.ite _ (put fun h => ?_)
    (.ite _ (put fun h => ?_) (.ite _ (put fun h => ?_) (.refl s))))))
  all_goals
    rw [queueWf_iff] at h ⊢
    obtain ⟨hfits, hlen, hwords, hfill, hcommits, hseq, hthresh, hflushed, hrewound, hpar, hcorr, hunc⟩ := h
    exact ⟨hfits, hlen, hwords, hfill, hcommits, hseq, hthresh,
      by simp only [satN_lt, hflushed, hrewound, hpar, hcorr, hunc, and_self]⟩

/-- A host read answers, or stops beyond the BAR (R17). -/
theorem hostRead_keeps {port off w events : Nat} (s : State) (h : ¬ 2 ^ 24 ≤ off) :
    ∃ t, hostRead port off w events s = .next t ∧ Keeps s t := by
  unfold hostRead
  rw [if_neg h]
  dsimp only
  split
  · exact ⟨_, rfl, .units s _⟩
  · split
    · split
      · exact ⟨_, rfl, .notice s _ (qPopPort_wf _ _ _)⟩
      · exact ⟨_, rfl, .units s _⟩
    · split
      · exact ⟨_, rfl, (rcClear_keeps off events s).trans (.units _ _)⟩
      · exact ⟨_, rfl, .units s _⟩
theorem hostWrite_keeps {port off w val : Nat} {bad : Bool} (s : State) (h : ¬ 2 ^ 24 ≤ off) :
    ∃ t, hostWrite port off w val bad s = .next t ∧ Keeps s t := by
  unfold hostWrite
  rw [if_neg h]
  dsimp only
  split
  · exact ⟨_, rfl, .units s _⟩
  · split
    · exact ⟨s, rfl, .refl s⟩
    · exact ⟨_, rfl, .notice s _ (nqWrite_wf off _)⟩

/- Cores (04, 05). -/
theorem startQz_keeps (k : Nat) (s : State) : Keeps s (startQz k s) := by
  unfold startQz
  dsimp only
  split
  · exact .refl s
  · split
    · exact .refl s
    · split
      · exact .units s _
      · exact (Keeps.units s _).trans (outWrite_keeps _ _ _ _ _)
theorem startCf_keeps (k : Nat) (s : State) : Keeps s (startCf k s) := by
  unfold startCf
  dsimp only
  split
  · exact .refl s
  · exact .ite _ (.refl s) (.units s _)
theorem startMx_keeps (k : Nat) (s : State) : Keeps s (startMx k s) := by
  unfold startMx
  dsimp only
  split
  · exact .refl s
  · exact .ite _ (.units s _) (.ite _ (.refl s) (.ite _ (.units s _) (.units s _)))
theorem passEnd_keeps (k : Nat) (s : State) : Keeps s (passEnd k s) := by
  unfold passEnd
  dsimp only
  split
  · exact .refl s
  · exact (Keeps.units s _).trans (.foldl (fun t o => outWrite_keeps _ _ _ _ t) _ _)

theorem blockLocal_keeps (k n : Nat) (b : DmaEnd × DmaEnd) (s : State) : Keeps s (blockLocal k n b s) := by
  have hcopy := unitCopy_keeps (localEnd k b.1) (localEnd k b.2) n s
  refine .ite _ (.units s _) (Keeps.trans ?_ (.units _ _))
  exact .ite _ (hcopy.trans (.foldl (fun t i => unitWrite_keeps _ _ _ _ _ t) _ _)) hcopy
theorem blockRemote_keeps (k n : Nat) (b : DmaEnd × DmaEnd) (s : State) : Keeps s (blockRemote k n b s) :=
  .ite _ (.ite _ (.units s _) (.ite _ (.units s _) (.units s _))) (.units s _)
theorem startD_keeps (k : Nat) (s : State) : Keeps s (startD k s) := by
  unfold startD
  dsimp only
  split
  · exact .refl s
  · split
    · exact .refl s
    · exact .ite _ (.units s _) (.refl s)
    · refine (Keeps.units s _).trans (.foldl (fun t d => ?_) _ _)
      exact .ite _ (.units t _) (.ite _ (.foldl (fun r b => blockRemote_keeps k _ b r) _ t) (.refl t))
theorem dmaEnd_keeps (k : Nat) (s : State) : Keeps s (dmaEnd k s) := by
  unfold dmaEnd
  dsimp only
  split
  · refine .ite _ (.refl s) (Keeps.trans ?_ (.units _ _))
    exact .foldl (fun t d => .foldl (fun r b => blockLocal_keeps k _ b r) _ t) _ s
  · exact .refl s

theorem vEffect_keeps (k : Nat) (i : Instr) (s : State) : Keeps s (vEffect k i s) := by
  unfold vEffect
  dsimp only
  split
  case h_2 => exact outWrite_keeps _ _ _ _ s
  case h_9 => exact .ite _ (.units s _) (.refl s)
  all_goals exact .units s _
theorem vHead_keeps (k : Nat) (s : State) : Keeps s (vHead k s) := by
  unfold vHead
  split
  · exact .refl s
  · exact ((Keeps.units s _).trans (vEffect_keeps k _ _)).trans (.units _ _)
theorem vRun_keeps (k n : Nat) (s : State) : Keeps s (vRun k n s) := by
  induction n generalizing s with
  | zero => exact .refl s
  | succ n ih => exact (vHead_keeps k s).trans (ih _)
theorem vAdvance_keeps (k : Nat) (s : State) : Keeps s (vAdvance k s) :=
  .ite _ (.refl s) ((Keeps.units s _).trans (vRun_keeps k _ _))
theorem kick_keeps (k : Nat) (s : State) : Keeps s (kick k s) := by
  have hmx : Keeps s ((List.range 17).foldl (fun s _ => startMx k s) s) := .foldl (fun t _ => startMx_keeps k t) _ s
  have hrows := (hmx.trans (startQz_keeps k _)).trans (startCf_keeps k _)
  exact (hrows.trans (.foldl (fun t _ => startD_keeps k t) _ _)).trans (.units _ _)

/-- Dispatch proper puts an instruction into its queue, on the units alone. -/
theorem tryDispatch_keeps {i : Instr} {k : Nat} {s t : State} (h : tryDispatch i k s = some t) : Keeps s t := by
  have hsome {c : Prop} [Decidable c] {u : Units} (h : (if c then some { s with u := u } else none) = some t) :
      Keeps s t := by
    split at h
    · exact Option.some.inj h ▸ .units s u
    · exact absurd h (by simp)
  unfold tryDispatch at h
  dsimp only at h
  split at h
  case h_11 =>
    split at h
    · exact Option.some.inj h ▸ .refl s
    · exact hsome h
  all_goals exact hsome h
theorem whileStalled_keeps {i : Instr} {k n : Nat} {s t : State} (h : whileStalled i k n s = some t) : Keeps s t := by
  induction n generalizing s with
  | zero => exact tryDispatch_keeps h
  | succ n ih =>
    unfold whileStalled at h
    split at h
    · next hd => exact Option.some.inj h ▸ tryDispatch_keeps hd
    · exact (vHead_keeps k s).trans (ih h)
theorem afterDispatch_keeps (k : Nat) (s : State) : Keeps s (afterDispatch k s) :=
  ((Keeps.units s _).trans (kick_keeps k _)).trans (vAdvance_keeps k _)
theorem dispatch_keeps (i : Instr) (c : CoreId) (s : State) : Keeps s (dispatch i c s) := by
  unfold dispatch
  dsimp only
  split
  · exact .refl s
  · split
    · exact (vRun_keeps _ _ s).trans (.units _ _)
    · next hw => exact (whileStalled_keeps hw).trans (afterDispatch_keeps _ _)
theorem retry_keeps (k : Nat) (s : State) : Keeps s (retry k s) := by
  unfold retry
  split
  · exact .refl s
  · split
    · exact .refl s
    · next hd => exact (tryDispatch_keeps hd).trans (afterDispatch_keeps k _)
theorem settle_keeps (k : Nat) (s : State) : Keeps s (settle k s) :=
  ((kick_keeps k s).trans (vAdvance_keeps k _)).trans (retry_keeps k _)
theorem dispatchCore_keeps (c : CoreId) (f : CoreSt → CoreSt) (s : State) : Keeps s (dispatchCore c f s) :=
  .ite _ (.refl s) (.units s _)
theorem sigLand_keeps (k : Nat) (s : State) : Keeps s (sigLand k s) := by
  unfold sigLand
  dsimp only
  split
  · exact .refl s
  · exact (Keeps.units s _).trans (.foldl (fun t j => retry_keeps j t) _ _)
theorem bufferReady_keeps (k : Nat) (isQ : Bool) (s : State) : Keeps s (bufferReady k isQ s) := by
  unfold bufferReady
  dsimp only
  split
  · exact .refl s
  · exact (Keeps.units s _).trans (settle_keeps k _)
theorem mqKey_keeps (k : Nat) (op : MqOp) (i : Nat) (s : State) : Keeps s (mqKey k op i s) :=
  (Keeps.units s _).trans (outWrite_keeps _ _ _ _ _)
theorem mqResult_keeps (k : Nat) (s : State) : Keeps s (mqResult k s) := by
  unfold mqResult
  dsimp only
  split
  · exact .refl s
  · refine .ite _ (.refl s) (Keeps.trans (Keeps.trans (Keeps.trans ?_ (.units _ _)) (settle_keeps k _)) (.units _ _))
    exact .ite _ (.trans (.foldl (fun t i => mqKey_keeps k _ i t) _ s) (.units _ _))
      ((outWrite_keeps _ _ _ _ s).trans (.units _ _))

end Sys2Proof.Machine
end

section
/-! PROOFS. What every command can answer (01, 04, 10; R17, R314): a state that keeps memories and queues in their proper
form, or one of the two stops. The invariants of a step follow. -/
namespace Sys2Proof.Machine

/- Edges (R507, R46). -/
theorem cntLatch_keeps (k : Nat) (s : State) : Keeps s (cntLatch k s) :=
  (Keeps.units s _).trans (.foldl (fun t _ => (bufWrite_keeps t _ _ _ _).trans (.units _ _)) _ _)
theorem edge_keeps (t k : Nat) (s : State) : Keeps s (edge t k s) := by
  unfold edge
  refine Keeps.trans (Keeps.trans ?_ (cntLatch_keeps k _)) (.units _ _)
  exact Keeps.trans (.ite _ (.units s _) (.units s _)) (.units _ _)
theorem tickEdge_keeps (s : State) : Keeps s (tickEdge s) := by
  unfold tickEdge
  split
  · exact .refl s
  · exact .ite _ (.refl s) ((Keeps.units s _).trans (edge_keeps _ _ _))
theorem holdoverEdge_keeps (s : State) : Keeps s (holdoverEdge s) := by
  unfold holdoverEdge
  split
  · exact .refl s
  · exact .ite _ (.refl s) ((edge_keeps _ _ s).trans (.units _ _))

/- Slots (R165, R433, R496). -/
theorem coreLoaded_keeps (k : Nat) (s : State) : Keeps s (coreLoaded k s) := by
  unfold coreLoaded
  dsimp only
  split
  · exact .refl s
  · split
    · exact .units s _
    · exact (Keeps.units s _).trans (sramWrite_keeps _ _ _ _ _)
theorem placeLoadDone_keeps (n : Nat) (s : State) : Keeps s (placeLoadDone n s) :=
  .ite _ (.refl s) (.ite _ (.units s _) (.trans (.foldl (fun t _ => coreLoaded_keeps _ t) _ s) (.units _ _)))
theorem coreTakeover_keeps (a : Asm) (c : CoreId) (reason : Nat) (s : State) : Keeps s (coreTakeover a c reason s) := by
  have hclear (u : Units) : Keeps s { s with u := u, m := { s.m with sram := tset s.m.sram (coreKey c) [] } } :=
    ⟨fun h => memsWf_tset _ h rfl, id⟩
  have hload (u : Units) := (hclear u).trans (coreLoaded_keeps (coreKey c) _)
  exact .ite _ (hload _) ((hload _).trans (.units _ _))
theorem spareTakeover_keeps (a : Asm) (x : RUnit) (s : State) : Keeps s (spareTakeover a x s) := by
  unfold spareTakeover
  dsimp only
  split
  · split
    · exact .refl s
    · split
      · exact .units s _
      · exact .units s _
  · split
    · exact .units s _
    · exact (Keeps.units s _).trans (coreTakeover_keeps _ _ _ _)
    · exact .ite _ (.units s _) (.refl s)
    · exact .ite _ ((coreLoaded_keeps _ s).trans (.units _ _)) (.refl s)
  · exact .refl s
theorem rebindOne_keeps (slot : Nat) (l : Nat × Nat × Nat × Nat) (s : State) : Keeps s (rebindOne slot l s) := by
  unfold rebindOne
  dsimp only
  split
  · exact .refl s
  · exact (Keeps.units s _).trans (coreLoaded_keeps _ _)
theorem temperRebind_keeps (run : Nat) (s : State) : Keeps s (temperRebind run s) := by
  unfold temperRebind
  dsimp only
  split
  · exact .refl s
  · exact .ite _ (.refl s) (((Keeps.units s _).trans (.foldl (fun t l => rebindOne_keeps _ l t) _ _)).trans (.units _ _))
theorem temperStep_keeps (run : Nat) (cut : Bool) (s : State) : Keeps s (temperStep run cut s) := by
  unfold temperStep
  dsimp only
  refine .ite _ (.refl s) (.ite _ (.units s _) ?_)
  split
  · exact .units s _
  · exact .ite _ (.units s _) (.ite _ (.units s _) (.units s _))

/- Messages over the memories (R180, R195, R350 to R360). -/
theorem Keeps.iteFst {α : Type} {s : State} {x y : State × α} (c : Prop) [Decidable c] (hx : Keeps s x.1)
    (hy : Keeps s y.1) : Keeps s (if c then x else y).1 := by
  split
  · exact hx
  · exact hy

theorem banlistWrite_keeps (n : Nat) (d : Dma) (s : State) : Keeps s (banlistWrite n d s) := by
  refine messageS_keeps (fun p t => .iteFst _ (.refl t) (.iteFst _ (.refl t) (.iteFst _ (.refl t) ?_))) s
  split
  · exact .refl t
  · exact .iteFst _ (.refl t) (.units t _)
theorem matchUpdate_keeps (n : Nat) (d : Dma) (s : State) : Keeps s (matchUpdate n d s) := by
  refine messageS_keeps (fun p t => .iteFst _ (.refl t) ?_) s
  split
  · exact .refl t
  · exact .iteFst _ (.refl t) (.iteFst _ (.refl t) (.units t _))
theorem matchRead_keeps (n : Nat) (flt : Bool) (s : State) : Keeps s (matchRead n flt s) :=
  messageS_keeps (fun _ t => .iteFst _ (.refl t) (.iteFst _ (.refl t) (.iteFst _ (.refl t) (bufWrite_keeps t _ _ _ _)))) s
theorem repairRead_keeps (n : Fin 64) (flt : Bool) (s : State) : ∃ t, execRepairRead n flt s = .next t ∧ Keeps s t :=
  ⟨_, rfl, messageS_keeps (fun _ t => .iteFst _ (.refl t) (bufWrite_keeps t _ _ _ _)) s⟩
theorem blkVocab_keeps (n : Nat) (idx pool : Dma) (s : State) : Keeps s (blkVocab n idx pool s) := by
  refine messageS_keeps (fun p t => .iteFst _ (.refl t) (.iteFst _ (.refl t) (.iteFst _ (.refl t) (.iteFst _ (.refl t) ?_)))) s
  split
  · exact .refl t
  · exact .refl t
  · exact .iteFst _ (.refl t) (.units t _)
theorem slotLoad_keeps (n : Nat) (d : Dma) (s : State) : Keeps s (slotLoad n d s) := by
  refine messageS_keeps (fun p t => .iteFst _ (.refl t) (.iteFst _ (.refl t) (.iteFst _ (.refl t) (.iteFst _ (.refl t) ?_)))) s
  split
  · exact .refl t
  · exact .units t _
theorem slotStatus_keeps (n : Nat) (flt : Bool) (s : State) : Keeps s (slotStatus n flt s) :=
  messageS_keeps (fun _ t => .iteFst _ (.refl t) (.iteFst _ (.refl t) (.iteFst _ (.refl t) (bufWrite_keeps t _ _ _ _)))) s
theorem clipRead_keeps (n : Nat) (flt : Bool) (s : State) : Keeps s (clipRead n flt s) := by
  refine messageS_keeps (fun p t => .iteFst _ (.refl t) (.iteFst _ (.refl t) (.iteFst _ (.refl t) ?_))) s
  have hw := bufWrite_keeps t n (bufOf p 16) ((clipRecords t.u (slotAt t.u (le p 0 1))).take ((bufOf p 16).len / 16 * 16)) flt
  exact .iteFst _ hw (hw.trans (.units _ _))
theorem refReport_keeps (n : Nat) (flt : Bool) (s : State) : Keeps s (refReport n flt s) :=
  messageS_keeps (fun _ t => .iteFst _ (.refl t) ((Keeps.units t _).trans (bufWrite_keeps _ _ _ _ _))) s
theorem tierCopy_keeps (n : Nat) (d : Dma) (s : State) : Keeps s (tierCopy n d s) := by
  refine messageS_keeps (fun p t => .iteFst _ (.refl t) (.iteFst _ (.refl t) (.iteFst _ (.refl t) (.iteFst _ (.refl t)
    (.iteFst _ ?_ ?_))))) s
  · split
    · exact (Keeps.units t _).trans (bufWrite_keeps _ _ _ _ _)
    · exact bufWrite_keeps t _ _ _ _
  · have hw (b : Buf) (x : Bytes) (f : Bool) := bufWrite_keeps t n b x f
    exact .ite _ ((hw _ _ _).trans (.units _ _)) (hw _ _ _)
theorem pagemapRead_keeps (n : Nat) (flt : Bool) (s : State) : Keeps s (pagemapRead n flt s) := by
  refine messageS_keeps (fun p t => ?_) s
  dsimp only
  split
  · exact .refl t
  · exact .iteFst _ (.refl t) (bufWrite_keeps t _ _ _ _)
theorem streamOpen_keeps (n : Nat) (s : State) : Keeps s (streamOpen n s) := by
  refine messageS_keeps (fun p t => .iteFst _ (.refl t) ?_) s
  split
  · exact .refl t
  · exact .units t _
theorem streamSampling_keeps (n : Nat) (s : State) : Keeps s (streamSampling n s) := by
  refine messageS_keeps (fun p t => ?_) s
  dsimp only
  split
  · exact .refl t
  · split
    · exact .refl t
    · exact .iteFst _ (.refl t) (.units t _)
theorem streamResume_keeps (n : Nat) (s : State) : Keeps s (streamResume n s) := by
  refine messageS_keeps (fun p t => ?_) s
  dsimp only
  refine .iteFst _ (.refl t) (.iteFst _ (.units t _) ?_)
  split
  · exact .iteFst _ (.units t _) (.refl t)
  · exact .units t _
theorem fwLoad_keeps (n : Nat) (d : Dma) (s : State) : Keeps s (fwLoad n d s) := by
  refine messageS_keeps (fun p t => .iteFst _ (.refl t) (.iteFst _ (.refl t) (.iteFst _ (.refl t) ?_))) s
  split
  · exact .refl t
  · exact .units t _
theorem fwLogRead_keeps (n : Fin 64) (pops : PopIn) (s : State) : ∃ t, execFwLogRead n pops s = .next t ∧ Keeps s t :=
  ⟨_, rfl, messageS_keeps (fun _ t => .iteFst _ (.refl t) (.iteFst _ (.refl t) (.iteFst _ (.refl t)
    (popInto_keeps _ _ _ _ _ t)))) s⟩
theorem queueRead_keeps (n : Fin 64) (pops : PopIn) (s : State) : ∃ t, execQueueRead n pops s = .next t ∧ Keeps s t := by
  unfold execQueueRead
  refine ⟨_, rfl, messageS_keeps (fun p t => ?_) s⟩
  dsimp only
  split
  · exact .refl t
  · split
    · exact .refl t
    · split
      · exact .refl t
      · exact popInto_keeps _ _ _ _ _ t
/-- What the state of a pair keeps. Stated of the pair, its decisions are compared as they stand and never evaluated. -/
def KeepsFst {α : Type} (s : State) (x : State × α) : Prop := Keeps s x.1
theorem KeepsFst.ite {α : Type} {s : State} {x y : State × α} (c : Prop) [Decidable c] (hx : KeepsFst s x)
    (hy : KeepsFst s y) : KeepsFst s (if c then x else y) := Keeps.iteFst c hx hy
theorem KeepsFst.refl {α : Type} (s : State) (a : α) : KeepsFst s (s, a) := Keeps.refl s
theorem temperStart_keeps (n : Nat) (s : State) : Keeps s (temperStart n s) := by
  refine messageS_keeps (fun p t => ?_) s
  change KeepsFst t _
  refine .ite _ (.refl t _) (.ite _ (.refl t _) (.ite _ (.refl t _) (.ite _ (.refl t _) (.ite _ (.refl t _)
    (.ite _ (.refl t _) (.ite _ (.refl t _) (.ite _ (.refl t _) (.ite _ (.refl t _) (.ite _ (.refl t _) ?_)))))))))
  split
  · exact .refl t _
  · refine .ite _ (.refl t _) (.ite _ (.refl t _) ?_)
    split
    · exact .refl t _
    · exact Keeps.units t _

/- Packets whose effect reaches memory (R374, R378, R382, R383). -/
theorem fabReceiveS_keeps {cls : Nat} {r : Rx} {p : Bytes} {f : State → State} (hf : ∀ t, Keeps t (f t)) (s : State) :
    Keeps s (fabReceiveS cls r p f s) := .ite _ ((Keeps.units s _).trans (hf _)) (.units s _)
theorem rdRequest_keeps (rx : Rx) (p : Bytes) (s : State) : Keeps s (rdRequest rx p s) := by
  refine fabReceiveS_keeps (fun t => ?_) s
  dsimp only
  split
  · exact .units t _
  · exact .ite _ (.units t _) (.units t _)
theorem wrRequest_keeps (rx : Rx) (p : Bytes) (s : State) : Keeps s (wrRequest rx p s) := by
  refine fabReceiveS_keeps (fun t => ?_) s
  dsimp only
  split
  · exact .units t _
  · exact .ite _ (.units t _) (((Keeps.units t _).trans (.foldl (fun r i => unitWrite_keeps _ _ _ _ _ r) _ _)).trans
      (.units _ _))
theorem rdata_keeps (rx : Rx) (p : Bytes) (s : State) : Keeps s (rdata rx p s) := by
  refine fabReceiveS_keeps (fun t => ?_) s
  dsimp only
  split
  · exact .units t _
  · refine .ite _ (.units t _) (.ite _ (.units t _) (Keeps.trans ?_ (.units _ _)))
    exact .foldl (fun r i => unitWrite_keeps _ _ _ _ _ r) _ t
theorem ringIn_keeps (k handle tick : Nat) (data : Bytes) (sat : List Nat) (s : State) :
    Keeps s (ringIn k handle tick data sat s) := (Keeps.units s _).trans (sramWrite_keeps _ _ _ _ _)
theorem recordIn_keeps (die handle tick : Nat) (b : Bytes) (s : State) : Keeps s (recordIn die handle tick b s) := by
  unfold recordIn
  dsimp only
  split
  · exact .units s _
  · refine .ite _ (.units s _) (.ite _ (.units s _) (.ite _ (.units s _) ?_))
    split
    · exact .units s _
    · exact .ite _ (.units s _) (.trans (.foldl (fun t k => ringIn_keeps k _ _ _ _ t) _ s) (.units _ _))
theorem hstate_keeps (rx : Rx) (p : Bytes) (at_ : Nat) (s : State) : Keeps s (hstate rx p at_ s) := by
  refine (Keeps.units s _).trans (fabReceiveS_keeps (fun t => ?_) _)
  exact .ite _ (.units t _) (.ite _ (.units t _) (.ite _ (.units t _) ((Keeps.units t _).trans (recordIn_keeps _ _ _ _ _))))

/- Streams (R265, R272, R281, R285, R289). -/
theorem arriveOne_keeps (n chunk : Nat) (s : State) : Keeps s (arriveOne n chunk s) := by
  unfold arriveOne
  split
  · exact .ite _ (.refl s) ((unitCopy_keeps _ _ _ s).trans (.units _ _))
  · exact .refl s
theorem arrivePages_keeps (n : Nat) (s : State) : Keeps s (arrivePages n s) := .foldl (fun t c => arriveOne_keeps n c t) _ s
theorem openDecide_keeps (ctx : Nat) (w : Waiting) (s : State) : Keeps s (openDecide ctx w s) := by
  unfold openDecide
  dsimp only
  refine .ite _ (.units s _) ?_
  split
  · exact .units s _
  · split
    · exact .units s _
    · refine .ite _ (.units s _) (.ite _ (.units s _) ?_)
      split
      · exact .units s _
      · exact .units s _
theorem streamOpenDecision_keeps (ctx : Nat) (s : State) : Keeps s (streamOpenDecision ctx s) := by
  unfold streamOpenDecision
  split
  · exact .refl s
  · exact openDecide_keeps _ _ s
theorem resumeDecide_keeps (ctx : Nat) (w : Waiting) (s : State) : Keeps s (resumeDecide ctx w s) := by
  unfold resumeDecide
  dsimp only
  split
  · exact .units s _
  · refine .ite _ (.units s _) (.ite _ (.units s _) ?_)
    split
    · exact .units s _
    · split
      · exact .units s _
      · exact .units s _
theorem resumeDecision_keeps (ctx : Nat) (s : State) : Keeps s (resumeDecision ctx s) := by
  unfold resumeDecision
  split
  · exact .refl s
  · exact resumeDecide_keeps _ _ s
theorem pausingEnter_keeps (n : Nat) (s : State) : Keeps s (pausingEnter n s) := by
  unfold pausingEnter
  dsimp only
  split
  · exact .refl s
  · exact .ite _ (.refl s) (.ite _ (.units s _) (.units s _))
theorem localWrite_keeps (addr : Nat) (b : Bytes) (s : State) : Keeps s (localWrite addr b s) :=
  .foldl (fun t _ => unitWrite_keeps _ _ _ _ _ t) _ s
theorem pauseCopyDone_keeps (n : Nat) (ok_ : Bool) (s : State) : Keeps s (pauseCopyDone n ok_ s) := by
  unfold pauseCopyDone
  dsimp only
  split
  · exact .refl s
  · refine .ite _ (.refl s) (.ite _ (.ite _ (.refl s) (Keeps.trans (.ite _ (.refl s) ?_) (.units _ _))) (.units s _))
    exact Keeps.trans (.foldl (fun t _ => .ite _ (.refl t) (unitCopy_keeps _ _ _ t)) _ s) (localWrite_keeps _ _ _)
theorem resumePageIn_keeps (n : Nat) (ok_ : Bool) (s : State) : Keeps s (resumePageIn n ok_ s) := by
  unfold resumePageIn
  dsimp only
  split
  · exact .refl s
  · refine .ite _ (.refl s) (.ite _ (.units s _) (.ite _ (.refl s) (Keeps.trans (.ite _ (.refl s) ?_) (.units _ _))))
    exact .foldl (fun t _ => unitCopy_keeps _ _ _ t) _ s
theorem sliceSummary_keeps (k buf cohort entry : Nat) (poison : Bool) (s : State) :
    Keeps s (sliceSummary k buf cohort entry poison s) := by
  unfold sliceSummary
  dsimp only
  split
  · exact .refl s
  · split
    · exact .refl s
    · exact .ite _ (.refl s) (.units s _)

/- Jobs (R239 to R252). -/
theorem jobDecide_keeps (ctx : Nat) (w : Waiting) (segs : Dma) (s : State) : Keeps s (jobDecide ctx w segs s) := by
  unfold jobDecide
  extract_lets
  refine .ite _ (.units s _) (.ite _ (.units s _) (.ite _ (.units s _) (.ite _ (.units s _) (.ite _ (.units s _) ?_))))
  split
  · exact .units s _
  · exact .units s _
theorem jobDecision_keeps (ctx : Nat) (segs : Dma) (s : State) : Keeps s (jobDecision ctx segs s) := by
  unfold jobDecision
  split
  · exact .refl s
  · exact jobDecide_keeps _ _ _ s
theorem jobTokenCopy_keeps (ctx tag : Nat) (d : Dma) (s : State) : Keeps s (jobTokenCopy ctx tag d s) := by
  unfold jobTokenCopy
  split
  · exact .refl s
  · refine .ite _ (.refl s) ?_
    dsimp only
    split
    · exact .units s _
    · exact .units s _
theorem withDetail_keeps (j : Job) (f : JRecF) (spans scores hits : List Bytes) (late flt : Bool) (s : State) :
    Keeps s (withDetail j f spans scores hits late flt s).2 := by
  unfold withDetail
  dsimp only
  split
  · exact .refl s
  · split
    · exact .refl s
    · split
      · exact .refl s
      · split
        · exact bufWrite_keeps s _ _ _ _
        · exact bufWrite_keeps s _ _ _ _
theorem composeJob_keeps (j : Job) (scores : List ScoreVec) (late : Option Nat) (flt : Bool) (s : State) :
    Keeps s (composeJob j scores late flt s).2 := by
  unfold composeJob
  extract_lets
  split
  dsimp only
  split
  · exact .units s _
  · exact withDetail_keeps _ _ _ _ _ _ _ s
theorem jobCompose_keeps (ctx tag : Nat) (scores : List ScoreVec) (flt : Bool) (s : State) :
    Keeps s (jobCompose ctx tag scores flt s) := by
  unfold jobCompose
  split
  · exact .refl s
  · exact .ite _ (.refl s) (.ite _ (.units s _) ((composeJob_keeps _ _ _ _ s).trans (.units _ _)))
theorem jobLate_keeps (j : Job) (flt : Bool) (s : State) : Keeps s (jobLate j flt s) := by
  unfold jobLate
  dsimp only
  split
  · exact .units s _
  · exact (composeJob_keeps _ _ _ _ s).trans (.units _ _)
theorem jobDeadline_keeps (ctx tag : Nat) (flt : Bool) (s : State) : Keeps s (jobDeadline ctx tag flt s) := by
  unfold jobDeadline
  split
  · exact .refl s
  · exact .ite _ (.refl s) (jobLate_keeps _ _ s)

/- Rings (R363 to R371). -/
theorem ringPut_keeps (b : Buf) (off : Nat) (data : Bytes) (s : State) : Keeps s (ringPut b off data s) :=
  bufWrite_keeps s _ _ _ _
theorem ringEntries_keeps (b : Buf) (index : Nat) (l : List Bytes) (s : State) : Keeps s (ringEntries b index l s) :=
  .foldl (fun t _ => ringPut_keeps _ _ _ t) _ s
theorem ringCons_keeps (b : Buf) (prod cons : Nat) (s : State) : Keeps s (ringCons b prod cons s) :=
  .ite _ (ringPut_keeps _ _ _ s) (ringPut_keeps _ _ _ s)
theorem ringWrite_keeps (ctx ring : Nat) (b : Buf) (index : Nat) (ents : List Bytes) (cons : Nat) (s : State) :
    Keeps s (ringWrite ctx ring b index ents cons s) :=
  .ite _ (.units s _) (((ringEntries_keeps b index ents s).trans (ringPut_keeps _ _ _ _)).trans (.units _ _))
theorem fetchEnd_keeps (ctx : Nat) (s : State) : Keeps s (fetchEnd ctx s) := by
  unfold fetchEnd
  extract_lets c t prod
  have ht : Keeps s t := .ite _ (.refl s) (.ite _ (.units s _) ((ringWrite_keeps _ _ _ _ _ _ s).trans (.units _ _)))
  exact .ite _ ht (.ite _ (ht.trans (.units _ _)) ((ht.trans (ringCons_keeps _ _ _ _)).trans (.units _ _)))
theorem submissionReads_keeps (io : MarkIo) (s : State) : Keeps s (submissionReads io s) := by
  have hend (t : State) (l : List Nat) :
      Keeps t (l.foldl (fun s k => if fetchOwed (tgetD s.u.ctx k {}) then fetchEnd k s else s) t) :=
    .foldl (fun r k => .ite _ (fetchEnd_keeps k r) (.refl r)) l t
  exact ((Keeps.units s _).trans (hend _ _)).trans (.units _ _)
theorem descriptorFetched_keeps (ctx : Nat) (d r : Dma) (s : State) : Keeps s (descriptorFetched ctx d r s) := by
  unfold descriptorFetched
  extract_lets c raw b srec rej held a type id w die u₁ t₁ u₂ u₃ s₁ s₂
  have h₁ : Keeps s s₁ := .units s _
  have h₂ : Keeps s₁ s₂ := by
    have hdecide : ∀ n, Keeps s₁ (match n with
        | 1 => jobDecide ctx w r s₁
        | 2 => openDecide ctx w s₁
        | 3 => { s₁ with u := pauseDecide ctx w s₁.u }
        | _ => resumeDecide ctx w s₁) := by
      intro n
      split
      · exact jobDecide_keeps _ _ _ s₁
      · exact openDecide_keeps _ _ s₁
      · exact .units s₁ _
      · exact resumeDecide_keeps _ _ s₁
    exact .ite _ (.refl s₁) (hdecide type)
  exact .ite _ (.refl s) (.ite _ ((h₁.trans h₂).trans (fetchEnd_keeps _ _)) (h₁.trans h₂))
theorem stepBatch_keeps (ctx t : Nat) (bad final : Bool) (s : State) : Keeps s (stepBatch ctx t bad final s) := by
  unfold stepBatch
  dsimp only
  exact .ite _ (.units s _) (.ite _ (.units s _)
    (((Keeps.units s _).trans (ringWrite_keeps _ _ _ _ _ _ _)).trans (.units _ _)))

/- Marks and the stopping edge (R36, R54). -/
theorem launchDma_keeps (m : Nat) (s : State) : Keeps s (launchDma m s) := by
  refine .foldl (fun t e => ?_) _ s
  dsimp only
  split
  · exact (Keeps.units t _).trans (startD_keeps _ _)
  · exact .refl t
theorem retryAll_keeps (s : State) : Keeps s (retryAll s) := .foldl (fun t k => retry_keeps k t) _ s
theorem guardMark_keeps (io : MarkIo) (s : State) : Keeps s (guardMark io s) :=
  .trans (.foldl (fun t x => spillScrub_keeps x t) _ s) (.units _ _)
theorem ingressOpens_keeps (cohort : Nat) (s : State) : Keeps s (ingressOpens cohort s) :=
  (Keeps.units s _).trans (.foldl (fun t n => (arrivePages_keeps n t).trans (.units _ _)) _ _)
theorem writeArea_keeps (u : Units) (cohort k core : Nat) (p : Placed) (s : State) :
    Keeps s (writeArea u cohort k core p s) := by
  unfold writeArea
  extract_lets ents lists s₁
  have h₁ : Keeps s s₁ := .ite _ (.refl s) (sramWrite_keeps _ _ _ _ s)
  exact .ite _ h₁ (h₁.trans (sramWrite_keeps _ _ _ _ _))
theorem buildReplica_keeps (cohort slot rep : Nat) (s : State) : Keeps s (buildReplica cohort slot rep s) := by
  refine .ite _ (.refl s) (Keeps.trans ?_ (.units _ _))
  exact .foldl (fun t b => writeArea_keeps _ _ _ _ _ t) _ s
theorem buildLists_keeps (cohort : Nat) (s : State) : Keeps s (buildLists cohort s) := by
  refine .ite _ (.refl s) (Keeps.trans ?_ (.units _ _))
  exact .foldl (fun t k => .foldl (fun t r => buildReplica_keeps _ _ _ t) _ t) _ s
theorem ingressCloses_keeps (io : MarkIo) (cohort : Nat) (s : State) : Keeps s (ingressCloses io cohort s) := by
  refine Keeps.trans (Keeps.trans ?_ (.units _ _)) (buildLists_keeps _ _)
  exact .foldl (fun t n => .ite _ (.refl t) ((arrivePages_keeps n t).trans (.units _ _))) _ s
theorem jobsDue_keeps (io : MarkIo) (cohort t : Nat) (s : State) : Keeps s (jobsDue io cohort t s) := by
  refine .foldl (fun r k => ?_) _ s
  extract_lets stopped s₁ s₂
  have h₁ : Keeps r s₁ := by
    unfold s₁
    split
    · exact .ite _ (.units r _) (.refl r)
    · exact .refl r
  have h₂ : Keeps s₁ s₂ := by
    unfold s₂
    split
    · exact .ite _ (jobLate_keeps _ _ s₁) (.refl s₁)
    · exact .refl s₁
  split
  · exact (h₁.trans h₂).trans (.units _ _)
  · exact h₁.trans h₂
theorem egressOpens_keeps (io : MarkIo) (cohort m : Nat) (s : State) : Keeps s (egressOpens io cohort m s) := by
  unfold egressOpens
  extract_lets t s₁ strs quiet s₂ s₃
  have h₁ : Keeps s s₁ := by
    unfold s₁
    split
    · exact .units s _
    · exact .refl s
  have h₂ : Keeps s₁ s₂ := by
    unfold s₂
    split
    · exact .units s₁ _
    · exact .refl s₁
    · exact .units s₁ _
  have h₃ : Keeps s₁ s₃ := .ite _ (.units s₁ _) (h₂.trans (jobsDue_keeps io cohort t s₂))
  exact (h₁.trans h₃).trans (.foldl (fun r c => stepBatch_keeps _ _ _ _ r) _ _)
theorem phaseMark_keeps (m : Nat) (io : MarkIo) (s : State) : Keeps s (phaseMark m io s) := by
  unfold phaseMark
  extract_lets u₁ u₂ t₂ u₃ s₁ u₄ t₄ u₅ u₆ s₂
  have h₁ : Keeps s s₁ := (Keeps.units s u₃).trans (launchDma_keeps m _)
  have h₂ : Keeps s₁ s₂ := by
    unfold s₂
    split
    · exact ((Keeps.units s₁ u₆).trans (submissionReads_keeps io _)).trans (ingressOpens_keeps 0 _)
    · exact (egressOpens_keeps io 1 1 s₁).trans (ingressCloses_keeps io 0 _)
    · exact (submissionReads_keeps io s₁).trans (ingressOpens_keeps 1 _)
    · exact (egressOpens_keeps io 0 4 s₁).trans (ingressCloses_keeps io 1 _)
    · exact guardMark_keeps io s₁
    · exact .refl s₁
  exact .ite _ (.refl s) ((h₁.trans h₂).trans (retryAll_keeps s₂))
theorem refuseWaiting_keeps (ctx : Nat) (w : Waiting) (s : State) : Keeps s (refuseWaiting ctx w s) := by
  unfold refuseWaiting
  dsimp only
  split
  · exact (Keeps.units s _).trans (jobDecide_keeps _ _ _ _)
  · exact (Keeps.units s _).trans (openDecide_keeps _ _ _)
  · exact .units s _
  · exact (Keeps.units s _).trans (resumeDecide_keeps _ _ _)
theorem stopCtx_keeps (ctx : Nat) (s : State) : Keeps s (stopCtx ctx s) :=
  ((Keeps.ite _ (fetchEnd_keeps ctx s) (.refl s)).trans (.units _ _)).trans (stepBatch_keeps _ _ _ _ _)
theorem tickStopEdge_keeps (s : State) : Keeps s (tickStopEdge s) := by
  unfold tickStopEdge
  split
  · exact .refl s
  · extract_lets forced ctxs u₁ t₁ s₁ s₂ s₃ s₄ u
    have h₂ : Keeps s s₂ := (Keeps.units s _).trans
      (.foldl (fun r c => .foldl (fun r w => refuseWaiting_keeps c w r) _ r) _ s₁)
    have h₄ : Keeps s s₄ := (h₂.trans (edge_keeps _ _ s₂)).trans (.foldl (fun r c => stopCtx_keeps c r) _ s₃)
    exact .ite _ (.refl s) (h₄.trans (.units s₄ _))

/- Resets (R457, R452, R464). -/
theorem memsWf_empty : memsWf {} = true := by decide
theorem resetState_keeps (s : State) : Keeps s (resetState s) :=
  ⟨fun _ => memsWf_empty, fun _ => queuesWf_empty⟩
theorem execResetRelease_keeps (b : BootIn) (s : State) : ∃ t, execResetRelease b s = .next t ∧ Keeps s t := by
  unfold execResetRelease
  dsimp only
  split
  · exact ⟨s, rfl, .refl s⟩
  · exact ⟨_, rfl, (resetState_keeps s).trans (.units _ _)⟩
theorem execThermalShutdown_keeps (s : State) : ∃ t, execThermalShutdown s = .next t ∧ Keeps s t := by
  unfold execThermalShutdown
  split
  · exact ⟨_, rfl, (resetState_keeps s).1, id⟩
  · exact ⟨s, rfl, .refl s⟩
theorem execHostPortReset_keeps (p : Fin 2) (s : State) : ∃ t, execHostPortReset p s = .next t ∧ Keeps s t := by
  refine ⟨_, rfl, .notice s _ fun h => ?_⟩
  split
  · exact h
  · exact h

end Sys2Proof.Machine
end

section
/-! PROOFS. Every command answers with a next state that keeps memories and queues well formed, but for the two stops (O58, O59,
O60). -/
namespace Sys2Proof.Machine

/-- The commands that reach beyond the 16 MiB of the control BAR. -/
def BeyondBar (c : Instr) : Prop :=
  ∃ (p : Fin 2) (off w : Nat), 2 ^ 24 ≤ off ∧
    ((∃ v b, c = .regWrite p off w v b) ∨ (∃ v, c = .regAccess p off w v) ∨ (∃ e, c = .rcRead p off e))
/-- A begin that finds the command area of the next mailbox written since its doorbell. -/
def BeginsTouched (c : Instr) (s : State) : Prop :=
  c = .mbxCommandBegin ∧ ∃ n, nextRung s.u = some n ∧ (tgetD s.u.mbx n {}).touched = true

/-- What a command's outcome says of it. -/
def Answers (c : Instr) (s : State) : Res → Prop
  | .next t => Keeps s t
  | .fault .outsideBar => BeyondBar c
  | .fault .commandAreaOverwritten => BeginsTouched c s
  | .refused _ => False

theorem Answers.of {c : Instr} {s : State} {r : Res} (h : ∃ t, r = .next t ∧ Keeps s t) : Answers c s r := by
  obtain ⟨t, rfl, h⟩ := h
  exact h
theorem Answers.ite {c : Instr} {s : State} {r r' : Res} (p : Prop) [Decidable p] (h : Answers c s r) (h' : Answers c s r') :
    Answers c s (if p then r else r') := by
  split
  · exact h
  · exact h'
theorem onReg_answers (c : Instr) (off : Nat) (f : Units → Units) (s : State) : Answers c s (onReg off f s) :=
  Keeps.ite _ (.units s _) (.refl s)
theorem hostWrite_outside {port off w val : Nat} {bad : Bool} {s : State} (h : 2 ^ 24 ≤ off) :
    hostWrite port off w val bad s = .fault .outsideBar := if_pos h
theorem hostRead_outside {port off w e : Nat} {s : State} (h : 2 ^ 24 ≤ off) :
    hostRead port off w e s = .fault .outsideBar := if_pos h
theorem hostWrite_answers {c : Instr} {port off w val : Nat} {bad : Bool} {s : State} (hc : 2 ^ 24 ≤ off → BeyondBar c) :
    Answers c s (hostWrite port off w val bad s) := by
  by_cases h : 2 ^ 24 ≤ off
  · rw [hostWrite_outside h]
    exact hc h
  · exact .of (hostWrite_keeps s h)
theorem hostRead_answers {c : Instr} {port off w e : Nat} {s : State} (hc : 2 ^ 24 ≤ off → BeyondBar c) :
    Answers c s (hostRead port off w e s) := by
  by_cases h : 2 ^ 24 ≤ off
  · rw [hostRead_outside h]
    exact hc h
  · exact .of (hostRead_keeps s h)
theorem regAccess_answers (p : Fin 2) (off w : Nat) (v : Option W64) (s : State) :
    Answers (.regAccess p off w v) s (execRegAccess p off w v s) := by
  have hc (h : 2 ^ 24 ≤ off) : BeyondBar (.regAccess p off w v) := ⟨p, off, w, h, .inr (.inl ⟨v, rfl⟩)⟩
  cases v with
  | none => exact hostRead_answers hc
  | some v => exact hostWrite_answers hc
theorem mbxCommandBegin_answers (s : State) : Answers .mbxCommandBegin s (execMbxCommandBegin s) := by
  unfold execMbxCommandBegin
  refine .ite _ (Keeps.refl s) ?_
  split
  · exact Keeps.refl s
  · next n hn =>
    split
    · next ht => exact ⟨rfl, n, hn, ht⟩
    · exact Keeps.units s _
/-- A command for one core does nothing where the core is not fitted. -/
theorem Keeps.guarded {s t : State} (c : Bool) (h : Keeps s t) : Keeps s (if c then t else s) := .ite _ h (.refl s)

theorem exec_answers (c : Instr) (s : State) : Answers c s (exec c s) := by
  cases c with
  | regWrite p off w v b => exact hostWrite_answers fun h => ⟨p, off, w, h, .inl ⟨v, b, rfl⟩⟩
  | regAccess p off w v => exact regAccess_answers p off w v s
  | rcRead p off e => exact hostRead_answers fun h => ⟨p, off, 8, h, .inr (.inr ⟨e, rfl⟩)⟩
  | mbxCommandBegin => exact mbxCommandBegin_answers s
  | mbxDoorbell | blkEnableRequest | blkDisable | blkStop | arbPlainWrite | tickStart | tickStopRequest | tickPeriodWrite
  | tickTimeWrite | tickSlewWrite | tickOffsetWrite | nqCritClear | pinFuncWrite => exact onReg_answers _ _ _ s
  | cntSnap | cntClr => exact Keeps.guarded _ (.units s _)
  | noticePacket n prod ws => exact .of (execNoticePacket_keeps n prod ws s)
  | packetRewind n cause => exact .of (execPacketRewind_keeps n cause s)
  | noticeCommit n x a b => exact .of (execNoticeCommit_keeps n x a b s)
  | nqPop p a b => exact .of (execNqPop_keeps p a b s)
  | nqFlush => exact .of (execNqFlush_keeps s)
  | fwLogRead n x => exact .of (fwLogRead_keeps n x s)
  | queueRead n x => exact .of (queueRead_keeps n x s)
  | repairRead n x => exact .of (repairRead_keeps n x s)
  | resetRelease b => exact .of (execResetRelease_keeps b s)
  | thermalShutdown => exact .of (execThermalShutdown_keeps s)
  | hostPortReset p => exact .of (execHostPortReset_keeps p s)
  | resetAssert | pwrGoodFall => exact (resetState_keeps s).trans (.units _ _)
  | banlistWrite n d => exact banlistWrite_keeps n d s
  | matchUpdate n d => exact matchUpdate_keeps n d s
  | matchRead n x => exact matchRead_keeps n x s
  | blkVocab n i p => exact blkVocab_keeps n i p s
  | slotLoad n d => exact slotLoad_keeps n d s
  | slotStatus n x => exact slotStatus_keeps n x s
  | clipRead n x => exact clipRead_keeps n x s
  | refReport n x => exact refReport_keeps n x s
  | tierCopy n d => exact tierCopy_keeps n d s
  | pagemapRead n x => exact pagemapRead_keeps n x s
  | streamOpen n => exact streamOpen_keeps n s
  | streamSampling n => exact streamSampling_keeps n s
  | streamResume n => exact streamResume_keeps n s
  | fwLoad n d => exact fwLoad_keeps n d s
  | temperStart n => exact temperStart_keeps n s
  | temperStep x => exact temperStep_keeps x.run x.cut s
  | temperRebind n => exact temperRebind_keeps n s
  | scalarOp | scalarLoad | ticknum | sig => exact dispatchCore_keeps _ _ s
  | loop | br => exact .ite _ (Keeps.units s _) (Keeps.refl s)
  | dm => exact .ite _ (Keeps.units s _) (dispatch_keeps _ _ s)
  | wait | mark | swait | endLaunch | qz | cf | mx | dmFence | mq | vectorLoad | vectorStore | vectorArith
  | vectorTranscendental | vectorSumReduce | vectorMaxReduce | vtop | vdot8 | vwide | vectorConvert =>
    exact dispatch_keeps _ _ s
  | sigLand c => exact Keeps.guarded _ (sigLand_keeps (coreKey c) s)
  | bufferReady c q => exact Keeps.guarded _ (bufferReady_keeps (coreKey c) q s)
  | mxPassDone c => exact Keeps.guarded _ ((passEnd_keeps (coreKey c) s).trans (settle_keeps (coreKey c) _))
  | dmaDone c => exact Keeps.guarded _ ((dmaEnd_keeps (coreKey c) s).trans (settle_keeps (coreKey c) _))
  | mqResult c => exact Keeps.guarded _ (mqResult_keeps (coreKey c) s)
  | sliceSummary c b h e p => exact Keeps.guarded _ (sliceSummary_keeps (coreKey c) b h e p s)
  | tickEdge => exact tickEdge_keeps s
  | tickHalt => exact Keeps.guarded _ (tickEdge_keeps s)
  | holdoverEdge => exact holdoverEdge_keeps s
  | tickStopEdge => exact tickStopEdge_keeps s
  | phaseMark m io => exact phaseMark_keeps m io s
  | placeLoadDone n => exact placeLoadDone_keeps n s
  | spareTakeover x => exact Keeps.guarded _ (spareTakeover_keeps s.asm x s)
  | rdRequest r p => exact rdRequest_keeps r p s
  | wrRequest r p => exact wrRequest_keeps r p s
  | rdata r p => exact rdata_keeps r p s
  | hstate r p t => exact hstate_keeps r p t s
  | streamOpenDecision n => exact streamOpenDecision_keeps n s
  | resumeDecision n => exact resumeDecision_keeps n s
  | pausingEnter n => exact pausingEnter_keeps n s
  | pauseCopyDone n x => exact pauseCopyDone_keeps n x s
  | resumePageIn n x => exact resumePageIn_keeps n x s
  | jobDecision n x => exact jobDecision_keeps n x s
  | jobTokenCopy n t x => exact jobTokenCopy_keeps n t.toNat x s
  | jobCompose n t x f => exact jobCompose_keeps n t.toNat x f s
  | jobDeadline n t f => exact jobDeadline_keeps n t.toNat f s
  | descriptorFetched n d r => exact descriptorFetched_keeps n d r s
  | _ => exact Keeps.units s _

/-- A step is the idle cycle or one command, and keeps what the command keeps. -/
theorem step_keeps {s t : State} (h : step s = .next t) : Keeps s t := by
  unfold step at h
  split at h
  · cases h
    exact .units s _
  · next c r _ =>
    have ha := exec_answers c { s with pending := r }
    rw [h] at ha
    exact ha

/-- Settles O58: by the case of the command, each writes memories through writes that keep them canonical. -/
theorem stepKeepsMemoriesCanonical : Obligations.StepKeepsMemoriesCanonical := fun _ _ h => (step_keeps h).1

/-- Settles O59: by the case of the command, each changes a queue through operations that keep its bounds. -/
theorem stepKeepsQueuesWithinBounds : Obligations.StepKeepsQueuesWithinBounds := fun _ _ h => (step_keeps h).2

/-- Settles O60: an outcome other than a next state comes from an access beyond the BAR or from a touched command area. -/
theorem onlyTwoConditionsStop : Obligations.OnlyTwoConditionsStop := by
  refine ⟨fun c s r h => ?_, fun c s h => ?_, fun s p off w e v b o h => ?_, fun c s h => ?_⟩
  · have ha := exec_answers c s
    rwa [h] at ha
  · have ha := exec_answers c s
    rwa [h] at ha
  · refine ⟨hostWrite_outside h, ?_, hostRead_outside h⟩
    cases o with
    | none => exact hostRead_outside h
    | some v => exact hostWrite_outside h
  · have ha := exec_answers c s
    rwa [h] at ha

end Sys2Proof.Machine
end

section
/-! PROOFS. What reset leaves, what a step is, the tick registers of O5, and the pop, flush and clear of the notice queue. -/
namespace Sys2Proof.Machine

variable {s : State} {u : Units} {off val n : Nat} {f g : Units → Units}

/-- Settles O1: the step takes the front of the queue. -/
theorem stepRunsFrontCommand : Obligations.StepRunsFrontCommand := by
  intro s c r h
  rw [step, h]

/-- Time passes by one nanosecond: the counter takes it within 64 bits. -/
theorem advTo_succ_time (u : Units) :
    (advTo (u.tick.time + 1) u).tick.time = (u.tick.time + 1) % 2 ^ 64 ∧
      (advTo (u.tick.time + 1) u).svc.poweredNs = u.svc.poweredNs + 1 := by
  rw [advTo, if_neg (by omega)]
  exact ⟨rfl, by dsimp only; omega⟩

/-- While the fraction stays within a nanosecond, an idle cycle is one nanosecond. -/
theorem idleCycle_within (hlo : -1000000000 < u.tick.slewFrac + u.tick.slew)
    (hhi : u.tick.slewFrac + u.tick.slew < 1000000000) :
    idleCycle u = { advTo (u.tick.time + 1) u with
      tick := { (advTo (u.tick.time + 1) u).tick with slewFrac := u.tick.slewFrac + u.tick.slew } } := by
  simp only [idleCycle, if_neg (Int.not_le.mpr hlo), if_neg (Int.not_le.mpr hhi)]

/-- Settles O2: passing time changes the time, what counts it and the fraction. -/
theorem idleCyclePassesOneEngineCycle : Obligations.IdleCyclePassesOneEngineCycle := by
  intro s h
  refine ⟨{ s with u := idleCycle s.u }, by rw [step, h], ?_, fun hlo hhi _ => ?_⟩
  · rw [idleCycle, advTo_eq]
  · dsimp only
    rw [idleCycle_within hlo hhi]
    exact advTo_succ_time s.u

/-- Settles O3: the reset state evaluated. -/
theorem resetLeavesTheSpecsValues : Obligations.ResetLeavesTheSpecsValues :=
  ⟨rfl, rfl, rfl, rfl, rfl, rfl, fun _ => ⟨rfl, rfl, rfl⟩, rfl, rfl, rfl, rfl, rfl, rfl, rfl, rfl, fun _ => rfl, fun _ => rfl,
    fun _ => rfl, fun _ => rfl⟩

/-- Settles O57: the reset state's memories and queues are empty. -/
theorem resetStateIsWellFormed : Obligations.ResetStateIsWellFormed := ⟨memsWf_empty, queuesWf_empty⟩

/- The tick registers (R35, R38 to R40, R42). -/
/-- A BAR that is not open takes no write below the mailbox windows (R328, R464). -/
theorem onReg_of_not_barOpen (h : ¬ barOpen s.u) (hoff : off < 0x100000) : onReg off f s = .next s := by
  have ht : barTakes s.u 0 off = false := by
    simp only [barOpen, Classical.not_and_iff_not_or_not, Bool.not_eq_true, Classical.not_not] at h
    obtain hup | hstage := h
    · simp [barTakes, barLive, hup]
    · simp [barTakes, hstage, hoff]
  rw [onReg, ht, if_neg Bool.false_ne_true]

theorem tickRuns_eq_true (h : u.tick.st ≠ .stopped) : tickRuns u = true := by simp [tickRuns, h]

theorem tickPeriodWrite_stopped (hst : u.tick.st = .stopped) (hen : u.blk.en = false) :
    tickPeriodWrite val u = { u with tick := { u.tick with
      period := val % 2048, ingress := 35 * (val % 2048) / 100, egress := max 4 (7 * (val % 2048) / 100) } } := by
  have hp : val % 2048 < 2048 := Nat.mod_lt _ (by decide)
  have hi : 35 * (val % 2048) / 100 % 2 ^ 10 = 35 * (val % 2048) / 100 := Nat.mod_eq_of_lt (by omega)
  have he : max 4 (7 * (val % 2048) / 100) % 2 ^ 10 = max 4 (7 * (val % 2048) / 100) := Nat.mod_eq_of_lt (by omega)
  have h11 : val % 2 ^ 11 = val % 2048 := rfl
  simp only [tickPeriodWrite, tickRuns_eq_false hst, hen, Bool.false_eq_true, false_and, or_self, if_false, h11, hi, he]
theorem tickTimeWrite_stopped (hst : u.tick.st = .stopped) (hval : val < 2 ^ 64) :
    tickTimeWrite val u = { u with tick := { u.tick with time := val } } := by
  rw [tickTimeWrite, tickRuns_eq_false hst, if_neg Bool.false_ne_true, Nat.mod_eq_of_lt hval]
theorem tickOffsetWrite_stopped (hst : u.tick.st = .stopped) (hval : val < periodNs u) :
    tickOffsetWrite val u = { u with tick := { u.tick with offset := val } } :=
  if_neg (by simp [tickRuns_eq_false hst, hval])
theorem setSlew_stopped (hst : u.tick.st = .stopped) (v : Int) :
    setSlew v u = { u with tick := { u.tick with slew := max (-200000) (min 200000 v), slewNext := none } } :=
  if_neg (by simp [tickRuns_eq_false hst])
theorem setSlew_running (hst : u.tick.st ≠ .stopped) (v : Int) :
    setSlew v u = { u with tick := { u.tick with slewNext := some (max (-200000) (min 200000 v)) } } :=
  if_pos (tickRuns_eq_true hst)

/-- The value of a 32-bit register in two's complement. -/
theorem signed_toNat (v : W32) : signed 32 v.toNat = v.toInt := by
  rw [signed, BitVec.toInt_eq_toNat_cond, Nat.mod_eq_of_lt v.isLt]
  have hv := v.isLt
  split <;> split <;> omega
theorem tickSlewWrite_of_free (hd : disciplined u = false) (v : W32) : tickSlewWrite v.toNat u = setSlew v.toInt u := by
  rw [tickSlewWrite, hd, if_neg Bool.false_ne_true, signed_toNat]

/- While the tick runs the stopped registers are locked (R42). -/
theorem tickPeriodWrite_running (hst : u.tick.st ≠ .stopped) : tickPeriodWrite val u = tickLocked 0x10008 val u :=
  if_pos (.inl (tickRuns_eq_true hst))
theorem tickTimeWrite_running (hst : u.tick.st ≠ .stopped) : tickTimeWrite val u = tickLocked 0x10028 val u :=
  if_pos (tickRuns_eq_true hst)
theorem tickOffsetWrite_running (hst : u.tick.st ≠ .stopped) : tickOffsetWrite val u = tickLocked 0x10020 val u :=
  if_pos (.inl (tickRuns_eq_true hst))

theorem exec_tickPeriodWrite (v : W32) (s : State) :
    exec (.tickPeriodWrite v) s = onReg 0x10008 (tickPeriodWrite v.toNat) s := rfl
theorem exec_tickTimeWrite (v : W64) (s : State) :
    exec (.tickTimeWrite v) s = onReg 0x10028 (tickTimeWrite v.toNat) s := rfl
theorem exec_tickSlewWrite (v : W32) (s : State) :
    exec (.tickSlewWrite v) s = onReg 0x10040 (tickSlewWrite v.toNat) s := rfl
theorem exec_tickOffsetWrite (v : W32) (s : State) :
    exec (.tickOffsetWrite v) s = onReg 0x10020 (tickOffsetWrite v.toNat) s := rfl

/-- Settles O5: each command is the write of one register, whose rule goes by whether the tick runs. -/
theorem tickRegistersAreWrittenOnlyWhileStopped : Obligations.TickRegistersAreWrittenOnlyWhileStopped := by
  refine ⟨⟨?period, ?time, ?slew, ?offset⟩, ?running, ?closed⟩
  case period =>
    intro s v ho hst hen
    exact (exec_tickPeriodWrite ..).trans (onReg_eq_of_barOpen ho (tickPeriodWrite_stopped hst hen))
  case time =>
    intro s v ho hst
    exact (exec_tickTimeWrite ..).trans (onReg_eq_of_barOpen ho (tickTimeWrite_stopped hst v.isLt))
  case slew =>
    intro s v ho hst hd
    exact (exec_tickSlewWrite ..).trans
      (onReg_eq_of_barOpen ho ((tickSlewWrite_of_free hd v).trans (setSlew_stopped hst _)))
  case offset =>
    intro s v ho hst hv
    exact (exec_tickOffsetWrite ..).trans (onReg_eq_of_barOpen ho (tickOffsetWrite_stopped hst hv))
  case running =>
    intro s v w ho hst
    exact ⟨(exec_tickPeriodWrite ..).trans (onReg_eq_of_barOpen ho (tickPeriodWrite_running hst)),
      (exec_tickTimeWrite ..).trans (onReg_eq_of_barOpen ho (tickTimeWrite_running hst)),
      (exec_tickOffsetWrite ..).trans (onReg_eq_of_barOpen ho (tickOffsetWrite_running hst)),
      fun hd => (exec_tickSlewWrite ..).trans
        (onReg_eq_of_barOpen ho ((tickSlewWrite_of_free hd v).trans (setSlew_running hst _)))⟩
  case closed =>
    intro s v w h
    exact ⟨(exec_tickPeriodWrite ..).trans (onReg_of_not_barOpen h (by decide)),
      (exec_tickTimeWrite ..).trans (onReg_of_not_barOpen h (by decide)),
      (exec_tickSlewWrite ..).trans (onReg_of_not_barOpen h (by decide)),
      (exec_tickOffsetWrite ..).trans (onReg_of_not_barOpen h (by decide))⟩

/- Pops of the notice queue (R300, R301). -/
theorem satN_of_lt {w n : Nat} (h : n < 2 ^ w) : satN w n = n := by
  rw [satN]
  omega
theorem ones8_zero : ones8 0 = 0 := by decide

/-- What stands before the first place of what is found does not satisfy the test. -/
theorem not_of_before_find {p : CPkt → Bool} {x y : List CPkt} {c d : CPkt} (h : (x ++ c :: y).find? p = some c)
    (hc : c ∉ x) (hd : d ∈ x) : p d = false := by
  induction x with
  | nil => cases hd
  | cons a x ih =>
    rw [List.mem_cons, not_or] at hc
    obtain ⟨hca, hcx⟩ := hc
    rw [List.cons_append, List.find?_cons] at h
    cases hp : p a with
    | true =>
      rw [hp] at h
      cases h
      exact absurd rfl hca
    | false =>
      rw [hp] at h
      obtain rfl | hd := List.mem_cons.mp hd
      · exact hp
      · exact ih h hcx hd
theorem sev_of_find {l : List CPkt} {c : CPkt} {k : Nat} (h : l.find? (fun c => c.sev == k) = some c) : c.sev = k := by
  simpa using List.find?_some h
theorem sev_ne_of_find_none {l : List CPkt} {k : Nat} (h : l.find? (fun c => c.sev == k) = none) {d : CPkt}
    (hd : d ∈ l) : d.sev ≠ k := by
  simpa using List.find?_eq_none.mp h d hd

/-- The front packet: some severity k that no packet undercuts, and the first packet of it. -/
theorem qFront_spec {l : List CPkt} {c : CPkt} (hl : ∀ d ∈ l, d.sev ≤ 3) (h : qFront l = some c) :
    ∃ k, (∀ d ∈ l, k ≤ d.sev) ∧ l.find? (fun d => d.sev == k) = some c := by
  unfold qFront at h
  split at h
  case h_1 h0 => exact ⟨0, fun _ _ => Nat.zero_le _, by rw [h0, h]⟩
  case h_2 h0 h1 =>
    refine ⟨1, fun d hd => ?_, by rw [h1, h]⟩
    have := sev_ne_of_find_none h0 hd
    omega
  case h_3 h0 h1 h2 =>
    refine ⟨2, fun d hd => ?_, by rw [h2, h]⟩
    have := sev_ne_of_find_none h0 hd
    have := sev_ne_of_find_none h1 hd
    omega
  case h_4 h0 h1 h2 =>
    have h3 (d : CPkt) (hd : d ∈ l) : d.sev = 3 := by
      have := hl d hd
      have := sev_ne_of_find_none h0 hd
      have := sev_ne_of_find_none h1 hd
      have := sev_ne_of_find_none h2 hd
      omega
    refine ⟨3, fun d hd => Nat.le_of_eq (h3 d hd).symm, ?_⟩
    cases l with
    | nil => cases h
    | cons a r => rw [List.find?_cons_of_pos (by simp [h3 a List.mem_cons_self]), ← h, List.head?_cons]

/-- The packet a pop takes is the oldest of the most severe severity. -/
theorem qFront_oldest {l : List CPkt} {c : CPkt} (hl : ∀ d ∈ l, d.sev ≤ 3) (h : qFront l = some c) :
    c ∈ l ∧ (∀ d ∈ l, c.sev ≤ d.sev) ∧ ∀ x y, l = x ++ c :: y → c ∉ x → ∀ d ∈ x, c.sev < d.sev := by
  obtain ⟨k, hmin, hk⟩ := qFront_spec hl h
  have hc := sev_of_find hk
  refine ⟨List.mem_of_find?_eq_some hk, fun d hd => hc ▸ hmin d hd, ?_⟩
  rintro x y rfl hx d hd
  have hne : d.sev ≠ k := by simpa using not_of_before_find hk hx hd
  have hle := hmin d (List.mem_append_left _ hd)
  omega

theorem qPop_of_front {q : QInst} {c : CPkt} (h : qFront q.committed = some c) :
    qPop q = some (c, { q with committed := q.committed.erase c }) := by rw [qPop, h]
theorem qPop_of_empty {q : QInst} (h : q.committed = []) : qPop q = none := by rw [qPop, h]; rfl

/-- A read buffer of the port replaced. -/
def rbufPut (q : QInst) (port : Nat) (b : RBuf) : QInst := if port = 0 then { q with rbuf0 := b } else { q with rbuf1 := b }
theorem qPopPort_of_front {q : QInst} {c : CPkt} (port : Nat) (h : qFront q.committed = some c) :
    qPopPort q port 0 0 = (rbufPut (qEcc { q with committed := q.committed.erase c } 0 0) port
      { valid := true, sev := c.sev, words := c.words, poison := c.poison }, (c.words.headD 0).toNat) := by
  have hor : Nat.lor c.poison 0 = c.poison := Nat.or_zero _
  simp only [qPopPort, qPop_of_front h, Nat.zero_mod, ones8_zero, hor]
  rfl
theorem qPopPort_of_empty {q : QInst} (port a b : Nat) (h : q.committed = []) :
    qPopPort q port a b = (rbufPut q port {}, 0) := by
  simp only [qPopPort, qPop_of_empty h]
  rfl
@[simp] theorem rbufPut_committed (q : QInst) (port : Nat) (b : RBuf) : (rbufPut q port b).committed = q.committed := by
  unfold rbufPut
  split <;> rfl
@[simp] theorem rbufPut_chain (q : QInst) (port : Nat) (b : RBuf) : (rbufPut q port b).chain = q.chain := by
  unfold rbufPut
  split <;> rfl
@[simp] theorem rbufPut_eccCorr (q : QInst) (port : Nat) (b : RBuf) : (rbufPut q port b).eccCorr = q.eccCorr := by
  unfold rbufPut
  split <;> rfl
/-- The port's own buffer takes the packet, and the other stands. -/
theorem rbufPut_rbuf (q : QInst) (port : Fin 2) (b : RBuf) :
    (if port = 0 then (rbufPut q port b).rbuf0 else (rbufPut q port b).rbuf1) = b ∧
    (if port = 0 then (rbufPut q port b).rbuf1 = q.rbuf1 else (rbufPut q port b).rbuf0 = q.rbuf0) := by
  obtain rfl | rfl : port = 0 ∨ port = 1 := by omega
  · exact ⟨rfl, rfl⟩
  · exact ⟨rfl, rfl⟩

/-- A pop without a SECDED event puts out the header and changes the queue. -/
theorem exec_nqPop (ho : barOpen s.u) (port : Fin 2) (hecc : (qPopPort s.q.notice port 0 0).1.eccCorr = s.q.notice.eccCorr) :
    exec (.nqPop port 0 0) s = .next { s with
      u := emit (.read port (qPopPort s.q.notice port 0 0).2) s.u
      q := { s.q with notice := (qPopPort s.q.notice port 0 0).1 } } := by
  have hu : (if (qPopPort s.q.notice port 0 0).1.eccCorr = s.q.notice.eccCorr then s.u else setCorr s.u) = s.u := if_pos hecc
  exact (if_neg (by simp [barLive_of_barOpen ho])).trans (congrArg (fun u => Host.Outcome.next { s with
    u := emit (.read port (qPopPort s.q.notice port 0 0).2) u
    q := { s.q with notice := (qPopPort s.q.notice port 0 0).1 } }) hu)

theorem nqPop_of_front (ho : barOpen s.u) (port : Fin 2) {c : CPkt} (hecc : s.q.notice.eccCorr < 2 ^ 48)
    (h : qFront s.q.notice.committed = some c) :
    ∃ t, exec (.nqPop port 0 0) s = .next t ∧ t.u = emit (.read port (c.words.headD 0).toNat) s.u ∧
      t.q.notice.committed = s.q.notice.committed.erase c ∧ t.q.notice.chain = s.q.notice.chain ∧
      (if port = 0 then t.q.notice.rbuf0 else t.q.notice.rbuf1) =
        { valid := true, sev := c.sev, words := c.words, poison := c.poison } ∧
      (if port = 0 then t.q.notice.rbuf1 = s.q.notice.rbuf1 else t.q.notice.rbuf0 = s.q.notice.rbuf0) ∧
      t = { s with u := t.u, q := { s.q with notice := t.q.notice } } := by
  have hpop := qPopPort_of_front port h
  refine ⟨_, exec_nqPop ho port ?_, ?_⟩
  · rw [hpop]
    simpa [qEcc] using satN_of_lt hecc
  · dsimp only
    rw [hpop]
    exact ⟨rfl, by simp [qEcc], by simp [qEcc], (rbufPut_rbuf ..).1, (rbufPut_rbuf ..).2, rfl⟩

theorem nqPop_of_empty (ho : barOpen s.u) (port : Fin 2) (h : s.q.notice.committed = []) :
    ∃ t, exec (.nqPop port 0 0) s = .next t ∧ t.u = emit (.read port 0) s.u ∧
      (if port = 0 then t.q.notice.rbuf0 else t.q.notice.rbuf1) = {} ∧ t.q.notice.committed = [] ∧
      t = { s with u := t.u, q := { s.q with notice := t.q.notice } } := by
  have hpop := qPopPort_of_empty port 0 0 h
  refine ⟨_, exec_nqPop ho port (by rw [hpop]; simp), ?_⟩
  dsimp only
  rw [hpop]
  exact ⟨rfl, (rbufPut_rbuf ..).1, by simpa using h, rfl⟩

/-- A table without the keys of a mask. -/
theorem tget_filter_key {α : Type} (t : Tbl α) (p : Nat → Bool) (k : Nat) :
    tget (t.filter (fun e => p e.1)) k = if p k then tget t k else none := by
  induction t with
  | nil => simp [tget]
  | cons e r ih =>
    obtain ⟨i, a⟩ := e
    rw [List.filter_cons]
    by_cases hi : i = k
    · subst hi
      by_cases hp : p i = true
      · simp [tget, hp]
      · simp [hp, ih]
    · have hk : tget ((i, a) :: r) k = tget r k := if_neg (Ne.symm hi)
      rw [hk, ← ih]
      split
      · exact if_neg (Ne.symm hi)
      · rfl

theorem nqCritClear_clears (ho : barOpen s.u) (mask : BitVec 16) :
    ∃ t, exec (.nqCritClear mask) s = .next t ∧
    t = { s with u := { s.u with prodN := { s.u.prodN with mirror := t.u.prodN.mirror } } } ∧
    (∀ k, bitAt mask.toNat k = true → tget t.u.prodN.mirror k = none) ∧
    (∀ k, bitAt mask.toNat k = false → tget t.u.prodN.mirror k = tget s.u.prodN.mirror k) := by
  refine ⟨onUnits (critClear mask.toNat) s, onReg_of_barOpen ho, rfl, fun k hk => ?_, fun k hk => ?_⟩
  · exact (tget_filter_key s.u.prodN.mirror (fun i => !bitAt mask.toNat i) k).trans (by simp [hk])
  · exact (tget_filter_key s.u.prodN.mirror (fun i => !bitAt mask.toNat i) k).trans (by simp [hk])

/-- Settles O7: a pop by the packet it takes, a flush and a clear by their definitions. -/
theorem popFlushAndClear : Obligations.PopFlushAndClear :=
  ⟨⟨fun _ port _ ho hecc h => nqPop_of_front ho port hecc h, fun _ port ho h => nqPop_of_empty ho port h,
    fun _ _ hl h => qFront_oldest hl h⟩,
    fun _ ho => congrArg Host.Outcome.next (if_pos (barTakes_of_barOpen ho 0 _)), fun _ mask ho => nqCritClear_clears ho mask⟩

end Sys2Proof.Machine
end

section
/-! PROOFS. Packets into the queues (10): what a notice does at its producer, what the entry port grants, what a rewind takes
back, and the blocks of O8. -/
namespace Sys2Proof.Machine

variable {s : State} {u : Units} {p : Prod} {prod code ctx tick : Nat} {args : List Nat} {words : List W64}

/- The producers' side of a queue, and the queue, by number. -/
@[simp] theorem pGet_pPut (u : Units) (n : Fin 3) (p : Prod) : pGet (pPut u n p) n = p := by
  obtain rfl | rfl | rfl : n = 0 ∨ n = 1 ∨ n = 2 := by omega
  all_goals rfl
@[simp] theorem pPut_pPut (u : Units) (n : Fin 3) (p r : Prod) : pPut (pPut u n p) n r = pPut u n r := by
  obtain rfl | rfl | rfl : n = 0 ∨ n = 1 ∨ n = 2 := by omega
  all_goals rfl
@[simp] theorem pPut_pGet (u : Units) (n : Fin 3) : pPut u n (pGet u n) = u := by
  obtain rfl | rfl | rfl : n = 0 ∨ n = 1 ∨ n = 2 := by omega
  all_goals rfl
@[simp] theorem qGet_qPut (q : Queues) (n : Fin 3) (x : QInst) : qGet (qPut q n x) n = x := by
  obtain rfl | rfl | rfl : n = 0 ∨ n = 1 ∨ n = 2 := by omega
  all_goals rfl
@[simp] theorem qPut_qGet (q : Queues) (n : Fin 3) : qPut q n (qGet q n) = q := by
  obtain rfl | rfl | rfl : n = 0 ∨ n = 1 ∨ n = 2 := by omega
  all_goals rfl

/- A packet joins its producer's (R295). -/
theorem prodPush_some (hlen : (tgetD p.wait prod []).length < 4)
    (hsev : sevField words = 0 ∨ ((tgetD p.wait prod []).filter (fun x => sevField x.words != 0)).length < 3) :
    prodPush p prod words =
      some { p with wait := tset p.wait prod (tgetD p.wait prod [] ++ [{ prod := prod, words := words }]) } := by
  rw [prodPush, if_pos]
  simpa [hlen] using hsev
theorem prodPush_none (h : 4 ≤ (tgetD p.wait prod []).length ∨
      (sevField words ≠ 0 ∧ 3 ≤ ((tgetD p.wait prod []).filter (fun x => sevField x.words != 0)).length)) :
    prodPush p prod words = none := by
  rw [prodPush, if_neg]
  obtain h | ⟨hsev, hlow⟩ := h
  · simp [Nat.not_lt.mpr h]
  · simp [hsev, Nat.not_lt.mpr hlow]

/-- A producer with nothing waiting has its packet wait alone. -/
theorem prodPush_of_empty (h : p.wait = []) (prod : Nat) (words : List W64) :
    prodPush p prod words = some { p with wait := [(prod, [{ prod := prod, words := words }])] } := by
  rw [prodPush_some] <;> simp [h, tgetD, tget, tset]

/-- The entry port grants the one packet that waits, whole (R293, R296). -/
theorem qGrant_one {x : Pkt} (q : QInst) (h : p.wait = [(prod, [x])]) (h8 : x.words.length ≤ 8)
    (h64 : chainWords q + x.words.length ≤ 64) :
    qGrant p q = ({ p with wait := [(prod, [])] },
      { q with grantLast := prod, chain := q.chain ++ [{ prod := x.prod, words := x.words }] }) := by
  have hnext : nextProd p q.grantLast = some prod := by
    by_cases hl : q.grantLast < prod <;> simp [nextProd, h, hl]
  simp only [qGrant, hnext, h, tgetD, tget, tset, if_pos, Option.getD_some, Nat.lt_irrefl, if_false,
    if_neg (Nat.not_lt.mpr h8), if_pos h64]
theorem qGrant_none (q : QInst) (h : p.wait = []) : qGrant p q = (p, q) := by
  simp [qGrant, nextProd, h]
/-- One producer listed, and it has nothing waiting. -/
theorem tgetD_lone_empty (prod k : Nat) : tgetD [(prod, ([] : List Pkt))] k [] = [] := by
  by_cases h : k = prod <;> simp [tgetD, tget, h]

/- NOTICE_PACKET (R293, R335, R336). -/
/-- What an offered packet that waits alone becomes of the producers' side. -/
theorem prodOffer_of_empty (n : Fin 3) (h : (pGet u n).wait = []) (prod : Nat) (words : List W64) :
    prodOffer n prod words u =
      pPut u n { pGet u n with wait := [(prod, [{ prod := prod, words := words }])] } := by
  rw [prodOffer, prodPush_of_empty h]

theorem noticePacket_grants (n : Fin 3) (hn : n ≠ 1) (hw : (pGet s.u n).wait = []) (hne : words ≠ [])
    (h8 : words.length ≤ 8) (h64 : chainWords (qGet s.q n) + words.length ≤ 64) :
    ∃ t, exec (.noticePacket n prod words) s = .next t ∧
      (qGet t.q n).chain = (qGet s.q n).chain ++ [{ prod := prod, words := words }] ∧
      (qGet t.q n).committed = (qGet s.q n).committed ∧ (qGet t.q n).grantLast = prod ∧
      (∀ k, tgetD (pGet t.u n).wait k [] = []) ∧ (pGet t.u n).lost = (pGet s.u n).lost ∧
      t = { s with u := pPut s.u n (pGet t.u n), q := qPut s.q n (qGet t.q n) } := by
  have hemp : words.isEmpty = false := by simpa using hne
  have he : exec (.noticePacket n prod words) s = .next { s with
      u := pPut s.u n { pGet s.u n with wait := [(prod, [])] }
      q := qPut s.q n { qGet s.q n with
        grantLast := prod, chain := (qGet s.q n).chain ++ [{ prod := prod, words := words }] } } := by
    change execNoticePacket n prod words s = _
    simp only [execNoticePacket, hemp, Bool.false_eq_true, if_false, if_neg hn, prodOffer_of_empty n hw, pGet_pPut, pPut_pPut]
    rw [qGrant_one (x := { prod := prod, words := words }) (qGet s.q n) rfl h8 h64]
  exact ⟨_, he, by simp, by simp, by simp, by simpa using tgetD_lone_empty prod, by simp, by simp⟩

/-- A packet of the log queue with its word 1 (R335). -/
theorem noticePacket_log_of_offer {ws : List W64} {v : Units} {tt tc : Nat} (hne : words ≠ [])
    (hv : v = { s.u with fw := { s.u.fw with traceTick := tt, traceCount := tc } })
    (ho : logOffer prod words s.u = prodOffer 1 prod ws v) (hw : s.u.prodL.wait = []) (h8 : ws.length ≤ 8) (h64 : chainWords s.q.log + ws.length ≤ 64) :
    ∃ t, exec (.noticePacket 1 prod words) s = .next t ∧
      t.q.log.chain = s.q.log.chain ++ [{ prod := prod, words := ws }] ∧
      t.q.log.committed = s.q.log.committed ∧ (∀ k, tgetD t.u.prodL.wait k [] = []) ∧
      t = { s with
        u := { s.u with prodL := t.u.prodL
                        fw := { s.u.fw with traceTick := t.u.fw.traceTick, traceCount := t.u.fw.traceCount } }
        q := { s.q with log := t.q.log } } := by
  have hemp : words.isEmpty = false := by simpa using hne
  have he : exec (.noticePacket 1 prod words) s = .next { s with
      u := { s.u with prodL := { s.u.prodL with wait := [(prod, [])] }
                      fw := { s.u.fw with traceTick := tt, traceCount := tc } }
      q := { s.q with log := { s.q.log with
        grantLast := prod, chain := s.q.log.chain ++ [{ prod := prod, words := ws }] } } } := by
    change execNoticePacket 1 prod words s = _
    simp only [execNoticePacket, hemp, Bool.false_eq_true, if_false, if_true, ho]
    rw [prodOffer_of_empty (n := 1) (u := v) (by rw [hv]; exact hw), pGet_pPut,
      qGrant_one (x := { prod := prod, words := ws }) (qGet s.q 1) rfl h8 h64, hv]
    rfl
  exact ⟨_, he, rfl, rfl, tgetD_lone_empty prod, rfl⟩

/-- What the log queue takes: a log event while the queue is visible, an enabled trace point in mode 2 within the 64 of its
tick. -/
theorem logOffer_taken {w0 w1 : W64} {rest : List W64} (hvis : u.fw.vis ≠ 0) (hlo : 0x1000 ≤ bitsOf w0.toNat 63 48)
    (hhi : bitsOf w0.toNat 63 48 ≤ 0x2FFF)
    (htrace : 0x2000 ≤ bitsOf w0.toNat 63 48 → u.fw.vis = 2 ∧
      (∃ r ∈ u.fw.traces, r.1 ≤ bitsOf w0.toNat 63 48 ∧ bitsOf w0.toNat 63 48 ≤ r.2) ∧
      (u.fw.traceTick = u.tick.number → u.fw.traceCount < 64)) :
    ∃ tt tc, logOffer prod (w0 :: w1 :: rest) u = prodOffer 1 prod (w0 :: BitVec.ofNat 64 u.tick.time :: rest)
      { u with fw := { u.fw with traceTick := tt, traceCount := tc } } := by
  have hin : ¬ (u.fw.vis = 0 ∨ bitsOf w0.toNat 63 48 < 0x1000 ∨ 0x2FFF < bitsOf w0.toNat 63 48) := by omega
  have hstart : logOffer prod (w0 :: w1 :: rest) u = _ := if_neg hin
  rw [hstart]
  by_cases ht : 0x2000 ≤ bitsOf w0.toNat 63 48
  · obtain ⟨h2, ⟨r, hr, hr1, hr2⟩, hcount⟩ := htrace ht
    have hen : ¬ (u.fw.vis ≠ 2 ∨ (!u.fw.traces.any (fun r => r.1 ≤ bitsOf w0.toNat 63 48 && bitsOf w0.toNat 63 48 ≤ r.2)) = true) := by
      have hany : u.fw.traces.any (fun r => r.1 ≤ bitsOf w0.toNat 63 48 && bitsOf w0.toNat 63 48 ≤ r.2) = true :=
        List.any_eq_true.mpr ⟨r, hr, by simp [hr1, hr2]⟩
      simp [h2, hany]
    have hn : ¬ 64 ≤ (if u.fw.traceTick = u.tick.number then u.fw.traceCount else 0) := by
      split
      · next h => exact Nat.not_le.mpr (hcount h)
      · decide
    exact ⟨_, _, (if_pos ht).trans ((if_neg hen).trans (if_neg hn))⟩
  · exact ⟨_, _, if_neg ht⟩

theorem noticePacket_log_taken (s : State) (prod : Nat) (w0 w1 : W64) (rest : List W64) (hw : s.u.prodL.wait = [])
    (h6 : rest.length ≤ 6) (h64 : chainWords s.q.log + (rest.length + 2) ≤ 64) (hvis : s.u.fw.vis ≠ 0)
    (hlo : 0x1000 ≤ bitsOf w0.toNat 63 48) (hhi : bitsOf w0.toNat 63 48 ≤ 0x2FFF)
    (htrace : 0x2000 ≤ bitsOf w0.toNat 63 48 → s.u.fw.vis = 2 ∧
      (∃ r ∈ s.u.fw.traces, r.1 ≤ bitsOf w0.toNat 63 48 ∧ bitsOf w0.toNat 63 48 ≤ r.2) ∧
      (s.u.fw.traceTick = s.u.tick.number → s.u.fw.traceCount < 64)) :
    ∃ t, exec (.noticePacket 1 prod (w0 :: w1 :: rest)) s = .next t ∧
      t.q.log.chain = s.q.log.chain ++ [{ prod := prod, words := w0 :: BitVec.ofNat 64 s.u.tick.time :: rest }] ∧
      t.q.log.committed = s.q.log.committed ∧ (∀ k, tgetD t.u.prodL.wait k [] = []) ∧
      t = { s with
        u := { s.u with prodL := t.u.prodL
                        fw := { s.u.fw with traceTick := t.u.fw.traceTick, traceCount := t.u.fw.traceCount } }
        q := { s.q with log := t.q.log } } := by
  obtain ⟨tt, tc, ho⟩ := logOffer_taken (prod := prod) (w1 := w1) (rest := rest) hvis hlo hhi htrace
  exact noticePacket_log_of_offer (List.cons_ne_nil _ _) rfl ho hw (by simp; omega) (by simpa using h64)

/-- With the log queue hidden nothing is offered, and with nothing waiting nothing is granted. -/
theorem noticePacket_log_hidden (hw : s.u.prodL.wait = []) (hvis : s.u.fw.vis = 0) :
    exec (.noticePacket 1 prod words) s = .next s := by
  have ho : (if words.isEmpty then s.u else logOffer prod words s.u) = s.u := by
    split
    · rfl
    · exact if_pos (.inl hvis)
  change execNoticePacket 1 prod words s = _
  simp only [execNoticePacket, if_true, ho]
  rw [qGrant_none (p := pGet s.u 1) _ hw]
  rfl

/- PACKET_REWIND (R294, R296). -/
theorem packetRewind_open {n : Fin 3} {cause : RewindCause} {l : List Pkt} {x : Pkt} (h : (qGet s.q n).chain = l ++ [x])
    (hc : cause ≠ .tagParity) :
    exec (.packetRewind n cause) s = .next { s with q := qPut s.q n { qGet s.q n with
      chain := l, rewound := satN 48 ((qGet s.q n).rewound + 1), parErr := satN 48 (qGet s.q n).parErr } } := by
  change execPacketRewind n cause s = _
  simp [execPacketRewind, h, hc, b2n]
theorem packetRewind_parity {n : Fin 3} {l : List Pkt} {x : Pkt} (h : (qGet s.q n).chain = x :: l) :
    exec (.packetRewind n .tagParity) s = .next { s with q := qPut s.q n { qGet s.q n with
      chain := l, rewound := satN 48 ((qGet s.q n).rewound + 1), parErr := satN 48 ((qGet s.q n).parErr + 1) } } := by
  change execPacketRewind n .tagParity s = _
  simp [execPacketRewind, h, b2n]

/- The header of a notice carries its severity (R306). -/
theorem sevOf_le (code : Nat) : sevOf code ≤ 3 := by
  unfold sevOf
  split
  · decide
  · split
    · decide
    · split <;> decide
theorem sevField_noticeWords (hctx : ctx < 64) (hargs : args.length ≤ 6) :
    sevField (noticeWords code ctx tick args) = sevOf code := by
  have hs := sevOf_le code
  simp only [noticeWords, sevField, List.headD_cons, noticeHeader, BitVec.toNat_ofNat, bitsOf]
  omega

/- A notice at its producer (R295, R304 to R306). -/
theorem notice_of_push {q : Prod} (h : prodPush u.prodN prod (noticeWords code ctx u.tick.number args) = some q) :
    notice prod code ctx args u = { u with prodN := q } := by rw [notice, h]
theorem notice_waits_below_three (h : (tgetD u.prodN.wait prod []).length < 3) :
    notice prod code ctx args u =
      { u with prodN := { u.prodN with
          wait := tset u.prodN.wait prod (tgetD u.prodN.wait prod [] ++
            [{ prod := prod, words := noticeWords code ctx u.tick.number args }]) } } :=
  notice_of_push (prodPush_some (Nat.lt_succ_of_lt h) (.inr (Nat.lt_of_le_of_lt (List.length_filter_le _ _) h)))
theorem notice_critical_waits_below_four (hsev : sevOf code = 0) (hctx : ctx < 64)
    (hargs : args.length ≤ 6) (h : (tgetD u.prodN.wait prod []).length < 4) :
    notice prod code ctx args u =
      { u with prodN := { u.prodN with
          wait := tset u.prodN.wait prod (tgetD u.prodN.wait prod [] ++
            [{ prod := prod, words := noticeWords code ctx u.tick.number args }]) } } :=
  notice_of_push (prodPush_some h (.inl ((sevField_noticeWords hctx hargs).trans hsev)))
theorem notice_lost_beside_three (hsev : sevOf code ≠ 0) (hctx : ctx < 64)
    (hargs : args.length ≤ 6) (h : (tgetD u.prodN.wait prod []).length = 3)
    (hlow : ∀ x ∈ tgetD u.prodN.wait prod [], sevField x.words ≠ 0) :
    notice prod code ctx args u = dieBump 56 0x0307 1 { u with prodN := prodLost u.prodN (sevOf code) } := by
  have hall : (tgetD u.prodN.wait prod []).filter (fun x => sevField x.words != 0) = tgetD u.prodN.wait prod [] :=
    List.filter_eq_self.mpr (by simpa using hlow)
  have hnone : prodPush u.prodN prod (noticeWords code ctx u.tick.number args) = none :=
    prodPush_none (.inr ⟨by rwa [sevField_noticeWords hctx hargs], Nat.le_of_eq (by rw [hall, h])⟩)
  simp only [notice, hnone, if_neg hsev]

/-- What the mirror keeps of the producers' side, and the tick that its slot reads. -/
theorem mirrorPut_slot (p : Prod) (k tick : Nat) (ws : List W64) :
    ∃ m, tget (mirrorPut p k tick ws).mirror k = some m ∧ m.lastTick = tick := by
  unfold mirrorPut
  cases tget p.mirror k with
  | none => exact ⟨_, tget_tset_self .., rfl⟩
  | some m => exact ⟨_, tget_tset_self .., rfl⟩

theorem notice_lost_beside_four (h : 4 ≤ (tgetD u.prodN.wait prod []).length) :
    (notice prod code ctx args u).prodN.wait = u.prodN.wait ∧
    (notice prod code ctx args u).prodN.lost = satN 48 (u.prodN.lost + 1) ∧
    (notice prod code ctx args u).prodN.lostSev = setBit u.prodN.lostSev (sevOf code) true ∧
    (sevOf code = 0 → ∃ m, tget (notice prod code ctx args u).prodN.mirror (code % 16) = some m ∧
      m.lastTick = u.tick.number) := by
  have hnone : prodPush u.prodN prod (noticeWords code ctx u.tick.number args) = none := prodPush_none (.inl h)
  rw [notice_prodN, noticeProd, hnone]
  dsimp only
  split
  · exact ⟨rfl, rfl, rfl, fun _ => mirrorPut_slot ..⟩
  · next hsev => exact ⟨rfl, rfl, rfl, fun hz => absurd hz hsev⟩

/-- Settles O8: a packet that waits alone is granted, a rewind drops the end of the chain, a notice joins or is lost by what
waits at its producer. -/
theorem packetsAreGrantedOrVanish : Obligations.PacketsAreGrantedOrVanish := by
  refine ⟨⟨?grants, noticePacket_log_taken, ?hidden⟩, ⟨?rewind, ?parity⟩, ?three, ?four, ?lostThree, ?lostFour, ?length⟩
  case grants => exact fun _ n _ _ hn hw hne h8 h64 => noticePacket_grants n hn hw hne h8 h64
  case hidden => exact fun _ _ _ hw hvis => noticePacket_log_hidden hw hvis
  case rewind => exact fun _ _ _ _ _ h hc => packetRewind_open h hc
  case parity => exact fun _ _ _ _ h => packetRewind_parity h
  case three => exact fun _ _ _ _ _ h => notice_waits_below_three h
  case four => exact fun _ _ _ _ _ hsev _ hctx hargs h => notice_critical_waits_below_four hsev hctx hargs h
  case lostThree =>
    exact fun _ _ _ _ _ hsev _ hctx hargs h hlow => notice_lost_beside_three hsev hctx hargs h hlow
  case lostFour => exact fun _ _ _ _ _ h => notice_lost_beside_four h
  case length => exact fun _ _ _ _ => by simp [noticeWords]

end Sys2Proof.Machine
end

section
/-! PROOFS. The commit of a packet (10): the room made for it, what the producers' side counts, and the two clauses of O9. -/
namespace Sys2Proof.Machine

variable {s : State} {q : QInst} {x : Pkt} {r : List Pkt} {n : Fin 3}

/- The room (R298). -/
/-- The last packet removed was one too many to keep. -/
theorem qRoom_minimal (l : List CPkt) : ∃ lost, l = lost ++ (qRoom l).1 ∧ (qRoom l).2 = lost.map (·.sev) ∧
    ∀ y, (∃ z, lost = z ++ [y]) → 4096 < cwords (y :: (qRoom l).1) + 8 := by
  induction l with
  | nil => exact ⟨[], rfl, rfl, fun y ⟨z, hz⟩ => by simp at hz⟩
  | cons c r ih =>
    rw [qRoom]
    split
    · exact ⟨[], rfl, rfl, fun y ⟨z, hz⟩ => by simp at hz⟩
    · next hfull =>
      obtain ⟨lost, hl, hsev, hmin⟩ := ih
      refine ⟨c :: lost, by simpa using hl, by simpa using hsev, ?_⟩
      rintro y ⟨z, hz⟩
      cases z with
      | nil =>
        obtain ⟨rfl, rfl⟩ : c = y ∧ lost = [] := by simpa using hz
        rw [List.nil_append] at hl
        rw [← hl]
        exact Nat.not_le.mp hfull
      | cons a z => exact hmin y ⟨z, (List.cons.inj hz).2⟩
/-- Whatever a pop has taken meanwhile, what the room check keeps is the newest packets. -/
theorem qMakeRoom_suffix (meet : Bool) (l : List CPkt) : ∃ lost, l = lost ++ (qMakeRoom meet l).1 := by
  have hroom (l : List CPkt) : ∃ lost, l = lost ++ (qRoom l).1 := (qRoom_suffix l).imp fun _ h => h.1
  unfold qMakeRoom
  split
  · next c k =>
    obtain ⟨lost, h⟩ := hroom k
    exact ⟨c :: lost, congrArg (c :: ·) h⟩
  · exact hroom l

/- The producers' side (R295, R298). -/
theorem prodLost_lost (p : Prod) (sev : Nat) : (prodLost p sev).lost = satN 48 (p.lost + 1) := rfl
theorem satN_add (a b : Nat) : satN 48 (satN 48 a + b) = satN 48 (a + b) := by
  simp only [satN]
  omega
/-- Packets removed one after another count one by one. -/
theorem foldl_prodLost_lost (l : List Nat) (p : Prod) (sev : Nat) :
    ((sev :: l).foldl prodLost p).lost = satN 48 (p.lost + 1 + l.length) := by
  induction l generalizing p sev with
  | nil => rfl
  | cons a l ih =>
    rw [List.foldl_cons, ih, prodLost_lost, List.length_cons, Nat.add_assoc, satN_add]
    congr 1
    omega

@[simp] theorem mirrorPut_lost (p : Prod) (k tick : Nat) (ws : List W64) : (mirrorPut p k tick ws).lost = p.lost := rfl
@[simp] theorem msix_prodL (k : Nat) (u : Units) : (msix k u).prodL = u.prodL := by rw [msix_eq]
@[simp] theorem msix_prodF (k : Nat) (u : Units) : (msix k u).prodF = u.prodF := by rw [msix_eq]
@[simp] theorem dieBump_prodL (d n k : Nat) (u : Units) : (dieBump d n k u).prodL = u.prodL := by rw [dieBump_eq]
@[simp] theorem dieBump_prodF (d n k : Nat) (u : Units) : (dieBump d n k u).prodF = u.prodF := by rw [dieBump_eq]
@[simp] theorem pGet_dieBump (d c k : Nat) (u : Units) (n : Fin 3) : pGet (dieBump d c k u) n = pGet u n := by
  obtain rfl | rfl | rfl : n = 0 ∨ n = 1 ∨ n = 2 := by omega
  all_goals simp [pGet]
/-- A commit counts no loss. -/
theorem commitUnits_lost (n : Fin 3) (c : CPkt) (crossed intEn : Bool) (u : Units) :
    (pGet (commitUnits n c crossed intEn u) n).lost = (pGet u n).lost := by
  by_cases h0 : n = 0
  · subst h0
    simp only [commitUnits, if_true, pGet]
    split <;> split <;> simp
  · rw [commitUnits, if_neg h0]
theorem lostUnits_pGet (n : Fin 3) (l : List Nat) (u : Units) :
    pGet (lostUnits n l u) n = l.foldl prodLost (pGet u n) := by
  unfold lostUnits
  dsimp only
  split <;> simp

/- A spill (R296, R299). -/
@[simp] theorem qEcc_chain (q : QInst) (a b : Nat) : (qEcc q a b).chain = q.chain := rfl
@[simp] theorem qEcc_committed (q : QInst) (a b : Nat) : (qEcc q a b).committed = q.committed := rfl
@[simp] theorem qEcc_commits (q : QInst) (a b : Nat) : (qEcc q a b).commits = q.commits := rfl
@[simp] theorem qEcc_seqLast (q : QInst) (a b : Nat) : (qEcc q a b).seqLast = q.seqLast := rfl

/-- The front packet leaves stage 0 whole, with no parity error, and commits. -/
theorem qSpill_whole (hq : q.chain = x :: r) (hp : x.poison = 0) (hb : x.hdrBad = false) (ho : x.out = 0)
    (hne : x.words ≠ []) (h8 : x.words.length ≤ 8) :
    ∃ g c crossed, qSpill q {} = some g ∧ g.lost = (qRoom q.committed).2 ∧ g.done = some (c, crossed) ∧ g.q.chain = r ∧
      g.q.committed = (qRoom q.committed).1 ++ [c] ∧ g.q.commits = (q.commits + 1) % 2 ^ 32 ∧ g.q.seqLast = q.commits ∧
      c.seq = q.commits ∧ c.sev = sevField x.words ∧ c.words.drop 1 = x.words.drop 1 ∧
      c.words.length = x.words.length ∧ c.poison = 0 := by
  have hpos : x.words.length ≠ 0 := by simpa using hne
  have hout : min x.words.length (x.out + 8) = x.words.length := by omega
  have hbad (k : Nat) : Nat.land (BitVec.toNat (0 : BitVec 8)) k = 0 := Nat.zero_and k
  have hroom : x.out = 0 ∧ x.words.length ≠ 0 := ⟨ho, hpos⟩
  simp only [qSpill, hq, hout, hbad, if_pos hroom, if_neg (Nat.lt_irrefl _)]
  refine ⟨_, _, _, rfl, rfl, rfl, rfl, rfl, rfl, rfl, rfl, ?_, ?_, ?_, ?_⟩
  · simp [qPacked, hb, bitAt]
  · cases x.words <;> simp [qPacked]
  · exact qPacked_length _ _
  · simp [qPacked, hp]

theorem noticeCommit_whole (hq : (qGet s.q n).chain = x :: r) (hp : x.poison = 0) (hb : x.hdrBad = false) (ho : x.out = 0)
    (hne : x.words ≠ []) (h8 : x.words.length ≤ 8) :
    ∃ t c lost kept, exec (.noticeCommit n {} 0 0) s = .next t ∧ (qGet t.q n).chain = r ∧
      (qGet s.q n).committed = lost ++ kept ∧ (qGet t.q n).committed = kept ++ [c] ∧
      (kept = [] ∨ ((kept.map (fun p => p.words.length)).sum + 8 ≤ 4096)) ∧
      (∀ y, (∃ z, lost = z ++ [y]) → 4096 < ((y :: kept).map (fun p => p.words.length)).sum + 8) ∧
      c.seq = (qGet s.q n).commits ∧ c.sev = sevField x.words ∧ c.words.drop 1 = x.words.drop 1 ∧
      c.words.length = x.words.length ∧ c.poison = 0 ∧
      (qGet t.q n).commits = ((qGet s.q n).commits + 1) % 2 ^ 32 ∧ (qGet t.q n).seqLast = (qGet s.q n).commits ∧
      (lost = [] → (pGet t.u n).lost = (pGet s.u n).lost) ∧
      (lost ≠ [] → (pGet t.u n).lost = satN 48 (satN 48 ((pGet s.u n).lost + 1) + (lost.length - 1))) ∧
      t.m = s.m ∧ t.pending = s.pending := by
  obtain ⟨g, c, crossed, hg, hlost, hdone, hchain, hcomm, hcommits, hseqLast, hseq, hsev, hdrop, hlen, hpois⟩ :=
    qSpill_whole hq hp hb ho hne h8
  obtain ⟨lost, hl, hsevs, hmin⟩ := qRoom_minimal (qGet s.q n).committed
  have he : exec (.noticeCommit n {} 0 0) s = .next { s with
      u := commitUnits n c crossed (qGet s.q n).intEn (lostUnits n g.lost s.u), q := qPut s.q n (qEcc g.q 0 0) } := by
    change execNoticeCommit n {} 0 0 s = _
    simp only [execNoticeCommit, hg, hdone, ite_self, if_true]
  refine ⟨_, c, lost, _, he, by simpa using hchain, hl, by simpa using hcomm, .inr (qRoom_fits _), hmin, hseq, hsev, hdrop,
    hlen, hpois, by simpa using hcommits, by simpa using hseqLast, fun h => ?_, fun h => ?_, rfl, rfl⟩
  · rw [commitUnits_lost, lostUnits_pGet, hlost, hsevs, h]
    rfl
  · obtain ⟨y, z, rfl⟩ := List.exists_cons_of_ne_nil h
    rw [commitUnits_lost, lostUnits_pGet, hlost, hsevs, List.map_cons, foldl_prodLost_lost, List.length_map, satN_add]
    rfl

/-- Words leave the front packet, and nothing commits before its last. -/
theorem qSpill_part (i : SpillIn) (hq : q.chain = x :: r) (hlt : x.out + i.words < x.words.length) :
    ∃ g y, qSpill q i = some g ∧ g.done = none ∧ g.q.chain = y :: r ∧ y.words = x.words ∧ y.out = x.out + i.words ∧
      (∃ lost, q.committed = lost ++ g.q.committed) ∧ g.q.commits = q.commits ∧ g.q.seqLast = q.seqLast := by
  have hout : min x.words.length (x.out + i.words) = x.out + i.words := by omega
  have hroom : ∃ lost, q.committed = lost ++
      (if x.out = 0 ∧ x.out + i.words ≠ 0 then qMakeRoom i.meet q.committed else (q.committed, [])).1 := by
    split
    · exact qMakeRoom_suffix _ _
    · exact ⟨[], rfl⟩
  simp only [qSpill, hq, hout, if_pos hlt]
  exact ⟨_, _, rfl, rfl, rfl, rfl, rfl, hroom, rfl, rfl⟩
theorem noticeCommit_part (i : SpillIn) (hq : (qGet s.q n).chain = x :: r) (hlt : x.out + i.words < x.words.length) :
    ∃ t y, exec (.noticeCommit n i 0 0) s = .next t ∧ (qGet t.q n).chain = y :: r ∧ y.words = x.words ∧
      y.out = x.out + i.words ∧ (∃ lost, (qGet s.q n).committed = lost ++ (qGet t.q n).committed) ∧
      (qGet t.q n).commits = (qGet s.q n).commits ∧ (qGet t.q n).seqLast = (qGet s.q n).seqLast ∧
      t.m = s.m ∧ t.pending = s.pending := by
  obtain ⟨g, y, hg, hdone, hchain, hwords, hout, hlost, hcommits, hseq⟩ := qSpill_part i hq hlt
  have he : exec (.noticeCommit n i 0 0) s = .next { s with u := lostUnits n g.lost s.u, q := qPut s.q n (qEcc g.q 0 0) } := by
    change execNoticeCommit n i 0 0 s = _
    simp only [execNoticeCommit, hg, hdone, ite_self, if_true]
  exact ⟨_, y, he, by simpa using hchain, hwords, hout, by simpa using hlost, by simpa using hcommits,
    by simpa using hseq, rfl, rfl⟩

/-- Settles O9: the front packet commits behind the room made for it, or only loses words to stage 0. -/
theorem commitTakesTheFrontOfTheChain : Obligations.CommitTakesTheFrontOfTheChain :=
  ⟨fun _ _ _ _ hq hp hb ho hne h8 => noticeCommit_whole hq hp hb ho hne h8,
    fun _ _ _ _ i hq hlt => noticeCommit_part i hq hlt⟩

end Sys2Proof.Machine
end

section
/-! PROOFS. Little-endian runs of bytes, and the mailbox protocol (12): doorbell, begin, response, and the blocks of O10. -/
namespace Sys2Proof.Machine

variable {s : State} {u : Units} {n : Nat}

/- Little-endian runs. -/
@[simp] theorem leBytes_length (n v : Nat) : (leBytes n v).length = n := by
  induction n generalizing v with
  | zero => rfl
  | succ n ih => simp [leBytes, ih]
@[simp] theorem leVal_leBytes (n v : Nat) : leVal (leBytes n v) = v % 256 ^ n := by
  induction n generalizing v with
  | zero => simp [leBytes, leVal, Nat.mod_one]
  | succ n ih =>
    have hpow : 256 ^ (n + 1) = 256 * 256 ^ n := Nat.pow_succ'
    rw [leBytes, leVal, ih, BitVec.toNat_ofNat, hpow, Nat.mod_mul]
theorem le_append_left {a b : Bytes} {k n : Nat} (h : k + n ≤ a.length) : le (a ++ b) k n = le a k n := by
  rw [le, le, List.drop_append_of_le_length (by omega), List.take_append_of_le_length (by simp; omega)]
theorem le_append_right (a b : Bytes) (k n : Nat) : le (a ++ b) (a.length + k) n = le b k n := by
  rw [le, le, List.drop_append, List.drop_eq_nil_of_le (by omega), List.nil_append, Nat.add_sub_cancel_left]
theorem le_leBytes (n v : Nat) : le (leBytes n v) 0 n = v % 256 ^ n := by
  rw [le, List.drop_zero, List.take_of_length_le (by simp), leVal_leBytes]

/- Responses (R339, R342). -/
/-- STATUS stands at byte 10 of a response. -/
theorem respBytes_status (cmd : Memory) (major minor status seq : Nat) (payload : Bytes) (h : status < 2 ^ 16) :
    le (respBytes cmd major minor status seq payload) 10 2 = status := by
  have hhead (a b : Bytes) (ha : a.length = 10) : le (a ++ leBytes 2 status ++ b) 10 2 = status := by
    rw [le_append_left (by simp [ha]), ← ha, ← Nat.add_zero a.length, le_append_right, le_leBytes]
    exact Nat.mod_eq_of_lt h
  rw [respBytes]
  simp only [List.append_assoc]
  simpa only [List.append_assoc] using hhead (leBytes 1 major ++ leBytes 1 minor ++ leBytes 2 (mle cmd 2 2) ++
    leBytes 2 ((padTo 8 payload).length / 8) ++ leBytes 2 (mle cmd 6 2) ++ leBytes 1 (mle cmd 8 1) ++
    leBytes 1 (0x80 + mle cmd 9 1 % 4)) _ (by simp)

/-- What a response leaves of its mailbox. -/
def mbxDone (m : Mbx) (resp : Bytes) : Mbx :=
  { m with respArea := mwrite [] 0 resp, resp := true, busy := false, lastStatus := le resp 10 2, phase := .idle
           ans := none, touched := false }
/-- A response changes its mailbox, and signals. -/
theorem mbxWrite_eq (n : Nat) (resp : Bytes) (u : Units) : ∃ v : Units, mbxWrite n resp u = { u with
    mbx := tset u.mbx n (mbxDone (tgetD u.mbx n {}) resp), out := v.out, port0 := v.port0, port1 := v.port1 } := by
  unfold mbxWrite
  dsimp only
  split
  · exact ⟨_, msix_eq ..⟩
  · exact ⟨u, rfl⟩

theorem mbxRespond_executed {a : Ans} (hserves : mbxServes u = true) (ha : (tgetD u.mbx n {}).phase = .ready)
    (ha' : (tgetD u.mbx n {}).ans = some a) (hc : committedSince (tgetD u.mbx n {}) u = true) (hw : a.whole = none)
    (he : a.executed = true) :
    mbxRespond n u =
      let m := tgetD u.mbx n {}
      let resp := respBytes m.cmd (m.ver / 256) (m.ver % 256) a.status (mle m.cmd 12 4) a.payload
      mbxWrite n resp (dieBump 56 0x0300 1 { u with
        mbx := tset u.mbx n { m with lastSeq := mle m.cmd 12 4, stored := some resp } }) := by
  have hgo : ¬ (!mbxServes u || !committedSince (tgetD u.mbx n {}) u) = true := by simp [hserves, hc]
  simp only [mbxRespond, if_neg hgo, ha, ha', hw, Option.getD_none, he, if_true]

theorem mbxResponse_writes (s : State) (n : Fin 64) (a : Ans) (hserves : mbxServes s.u = true) (ha : answered s n a)
    (hc : committedSince (tgetD s.u.mbx n {}) s.u = true) (hw : a.whole = none) (he : a.executed = true)
    (hst : a.status < 2 ^ 16) :
    ∃ t, exec (.mbxResponse n) s = .next t ∧ (tgetD t.u.mbx n {}).busy = false ∧ (tgetD t.u.mbx n {}).resp = true ∧
      (tgetD t.u.mbx n {}).phase = .idle ∧ (tgetD t.u.mbx n {}).lastStatus = a.status ∧
      (tgetD t.u.mbx n {}).lastSeq = mle (tgetD s.u.mbx n {}).cmd 12 4 ∧
      (∀ r, (tgetD t.u.mbx n {}).stored = some r → (tgetD t.u.mbx n {}).respArea = mwrite [] 0 r) ∧
      (∀ k, k ≠ n → tget t.u.mbx k = tget s.u.mbx k) ∧
      t = { s with u := { s.u with
        mbx := t.u.mbx, cnt := { s.u.cnt with die := t.u.cnt.die }, out := t.u.out
        port0 := t.u.port0, port1 := t.u.port1 } } := by
  refine ⟨onUnits (mbxRespond n) s, rfl, ?_⟩
  rw [onUnits, mbxRespond_executed hserves ha.1 ha.2 hc hw he]
  extract_lets m resp
  have hstatus : le resp 10 2 = a.status := respBytes_status _ _ _ _ _ _ hst
  clear_value resp
  obtain ⟨v, hv⟩ := mbxWrite_eq n resp (dieBump 56 0x0300 1 { s.u with
    mbx := tset s.u.mbx n { m with lastSeq := mle m.cmd 12 4, stored := some resp } })
  rw [hv, dieBump_eq]
  simp only [tgetD_tset_self]
  refine ⟨rfl, rfl, rfl, hstatus, rfl, fun r hr => ?_, fun k hk => ?_, rfl⟩
  · obtain rfl := Option.some.inj hr
    rfl
  · rw [tget_tset_other _ _ (by omega), tget_tset_other _ _ (by omega)]

theorem mbxResponse_waits_for_commit (n : Fin 64) (hc : committedSince (tgetD s.u.mbx n {}) s.u = false) :
    exec (.mbxResponse n) s = .next s := by
  have h : mbxRespond n s.u = s.u := if_pos (by simp [hc])
  change Host.Outcome.next { s with u := mbxRespond n s.u } = _
  rw [h]

/- Doorbells (R339). -/
theorem mbxRing_takes (hb : (tgetD u.mbx n {}).busy = false) (hup : u.fw.mbxUp = true) :
    mbxRing n u = { u with mbx := tset u.mbx n { tgetD u.mbx n {} with
      resp := false, cmd := (tgetD u.mbx n {}).area, touched := false, busy := true, phase := .rung, ans := none
      doneAt := 0 } } := by
  simp [mbxRing, hb, hup]
theorem mbxRing_overruns (hb : (tgetD u.mbx n {}).busy = true) :
    mbxRing n u = { u with mbx := tset u.mbx n { tgetD u.mbx n {} with overrun := true } } := if_pos hb
theorem exec_mbxDoorbell (n : Fin 64) (s : State) :
    exec (.mbxDoorbell n) s = onReg (0x100FF8 + 0x2000 * n.val) (mbxRing n) s := rfl

/- Begins (R343, R347, R348). -/
/-- The captured command as begun. -/
def mbxTaken (u : Units) (n : Nat) : Mbx :=
  { tgetD u.mbx n {} with ver := answerVer u.fw (tgetD u.mbx n {}), begunAt := u.fw.begun }
/-- The units once the rotation has passed to mailbox n. -/
def rotated (u : Units) (n : Nat) : Units :=
  { u with fw := { u.fw with mbxRot := n, begun := u.fw.begun + 1 }, mbx := tset u.mbx n (mbxTaken u n) }

/-- Whether the role that an opcode needs is lost. -/
def roleLost (u : Units) (op : Nat) : Bool :=
  match neededRole op with
  | some r => (tgetD u.fw.roles r {}).state == 2
  | none => false
/-- A begin by the cases of R343 and R347. -/
theorem beginOne_eq (n : Nat) (u : Units) :
    beginOne n u = match commandCheck u.fw n (tgetD u.mbx n {}) with
      | some st => answer n { bad st 0 0xFFFF 0 with executed := false } (rotated u n)
      | none =>
        if (tgetD u.mbx n {}).stored.isSome ∧ (tgetD u.mbx n {}).lastSeq = mle (tgetD u.mbx n {}).cmd 12 4 then
          answer n { whole := (tgetD u.mbx n {}).stored, executed := false } (rotated u n)
        else if u.fw.stage = 5 ∧ mle (tgetD u.mbx n {}).cmd 2 2 ≠ 0x0701 then answer n busy0 (rotated u n)
        else if roleLost u (mle (tgetD u.mbx n {}).cmd 2 2) then answer n busy0 (rotated u n)
        else { rotated u n with mbx := tset (rotated u n).mbx n { mbxTaken u n with phase := .begun } } := rfl

theorem roleLost_eq_false (hroles : ∀ r, (tgetD u.fw.roles r {}).state ≠ 2) (op : Nat) : roleLost u op = false := by
  unfold roleLost
  split
  · exact beq_false_of_ne (hroles _)
  · rfl
theorem beginOne_passes (hcheck : commandCheck u.fw n (tgetD u.mbx n {}) = none)
    (hseq : (tgetD u.mbx n {}).stored = none ∨ (tgetD u.mbx n {}).lastSeq ≠ mle (tgetD u.mbx n {}).cmd 12 4)
    (hrom : u.fw.stage ≠ 5) (hroles : ∀ r, (tgetD u.fw.roles r {}).state ≠ 2) :
    beginOne n u = { u with
      fw := { u.fw with mbxRot := n, begun := u.fw.begun + 1 }
      mbx := tset u.mbx n { mbxTaken u n with phase := .begun } } := by
  have hstored : ¬ ((tgetD u.mbx n {}).stored.isSome = true ∧
      (tgetD u.mbx n {}).lastSeq = mle (tgetD u.mbx n {}).cmd 12 4) := by
    rintro ⟨hsome, hlast⟩
    obtain h | h := hseq
    · simp [h] at hsome
    · exact h hlast
  rw [beginOne_eq, hcheck]
  simp only [if_neg hstored, hrom, false_and, if_false, roleLost_eq_false hroles, Bool.false_eq_true]
  rw [rotated, tset_tset]
theorem beginOne_stopped {st : Nat} (hcheck : commandCheck u.fw n (tgetD u.mbx n {}) = some st) :
    beginOne n u = answer n { bad st 0 0xFFFF 0 with executed := false } (rotated u n) := by
  rw [beginOne_eq, hcheck]

/-- The begin of the mailbox that the rotation names. -/
theorem exec_mbxCommandBegin (hup : isUp s.u = true) (hmbx : s.u.fw.mbxUp = true) (hn : nextRung s.u = some n)
    (ht : (tgetD s.u.mbx n {}).touched = false) : exec .mbxCommandBegin s = .next (onUnits (beginOne n) s) := by
  change execMbxCommandBegin s = _
  rw [execMbxCommandBegin, if_neg (by simp [hup, hmbx]), hn]
  simp [ht, onUnits]
theorem exec_mbxCommandBegin_touched (hup : isUp s.u = true) (hmbx : s.u.fw.mbxUp = true) (hn : nextRung s.u = some n)
    (ht : (tgetD s.u.mbx n {}).touched = true) : exec .mbxCommandBegin s = .fault .commandAreaOverwritten := by
  change execMbxCommandBegin s = _
  rw [execMbxCommandBegin, if_neg (by simp [hup, hmbx]), hn]
  simp [ht]

/- The checks of R343, in their order. -/
theorem commandCheck_long {m : Mbx} {f : Fw} (h : 501 < mle m.cmd 4 2) : commandCheck f n m = some 2 := if_pos h
theorem commandCheck_crc {m : Mbx} {f : Fw} (h : mle m.cmd 4 2 ≤ 501)
    (hcrc : mle m.cmd (16 + 8 * mle m.cmd 4 2) 4 ≠ crc32c (mread m.cmd 0 (16 + 8 * mle m.cmd 4 2))) :
    commandCheck f n m = some 3 := (if_neg (Nat.not_lt.mpr h)).trans (if_pos hcrc)

theorem mbxCommandBegin_stopped (s : State) (n st : Nat) (hup : isUp s.u = true) (hmbx : s.u.fw.mbxUp = true)
    (hn : nextRung s.u = some n) (ht : (tgetD s.u.mbx n {}).touched = false)
    (hcheck : commandCheck s.u.fw n (tgetD s.u.mbx n {}) = some st) :
    ∃ t, exec .mbxCommandBegin s = .next t ∧ answered t n { bad st 0 0xFFFF 0 with executed := false } ∧
      t = { s with u := { s.u with mbx := t.u.mbx, fw := { s.u.fw with mbxRot := n, begun := s.u.fw.begun + 1 } } } ∧
      (501 < mle (tgetD s.u.mbx n {}).cmd 4 2 → st = 2) ∧
      (mle (tgetD s.u.mbx n {}).cmd 4 2 ≤ 501 → mle (tgetD s.u.mbx n {}).cmd (16 + 8 * mle (tgetD s.u.mbx n {}).cmd 4 2) 4 ≠
        crc32c (mread (tgetD s.u.mbx n {}).cmd 0 (16 + 8 * mle (tgetD s.u.mbx n {}).cmd 4 2)) → st = 3) := by
  refine ⟨_, exec_mbxCommandBegin hup hmbx hn ht, ?_, ?_, fun h => ?_, fun h hcrc => ?_⟩
  · rw [onUnits, beginOne_stopped hcheck]
    exact answer_answered _ (by simp [rotated])
  · rw [onUnits, beginOne_stopped hcheck]
    rfl
  · exact Option.some.inj (hcheck.symm.trans (commandCheck_long h))
  · exact Option.some.inj (hcheck.symm.trans (commandCheck_crc h hcrc))

/-- Settles O10: doorbell, begin and response by the cases of their rules. -/
theorem mailboxTakesACommandAndAnswersIt : Obligations.MailboxTakesACommandAndAnswersIt := by
  refine ⟨⟨?ring, ?overrun, ?begins, ?touched, mbxResponse_writes, ?waits⟩, mbxCommandBegin_stopped⟩
  case ring =>
    intro s n ho hb hup
    exact (exec_mbxDoorbell ..).trans (onReg_eq_of_barOpen ho (mbxRing_takes hb hup))
  case overrun =>
    intro s n ho hb
    exact (exec_mbxDoorbell ..).trans (onReg_eq_of_barOpen ho (mbxRing_overruns hb))
  case begins =>
    intro s n hup hmbx hrom hn ht hcheck hseq hroles
    rw [exec_mbxCommandBegin hup hmbx hn ht, onUnits, beginOne_passes hcheck hseq hrom hroles]
    rfl
  case touched => exact fun _ _ hup hmbx hn ht => exec_mbxCommandBegin_touched hup hmbx hn ht
  case waits => exact fun _ n hc => mbxResponse_waits_for_commit n hc

end Sys2Proof.Machine
end

section
/-! PROOFS. Scalar instructions, control flow and semaphores of a core (05): dispatch on a core whose queues are empty, and
the blocks of O15 and O16. -/
namespace Sys2Proof.Machine

variable {s : State} {c : CoreId} {i : Instr} {k : Nat} {u v : Units}

/- Scalar registers (R129). -/
theorem sreg_setS_same (x : CoreSt) (r : Nat) (v : W64) (p : Bool) : sreg (setS r v p x) r = v := tgetD_tset_self ..
theorem sreg_setS_other (x : CoreSt) {r q : Nat} (v : W64) (p : Bool) (h : q ≠ r) : sreg (setS r v p x) q = sreg x q :=
  tgetD_tset_other _ _ _ h
theorem setS_spois_contains (x : CoreSt) (r : Nat) (v : W64) (p : Bool) : (setS r v p x).spois.contains r = p := by
  cases p with
  | true =>
    change (if x.spois.contains r then x.spois else x.spois ++ [r]).contains r = true
    split
    · assumption
    · simp
  | false =>
    change (x.spois.filter (· != r)).contains r = false
    simp
theorem scalarAlu_spec (a b : W64) : scalarAlu .add a b = a + b ∧ scalarAlu .sub a b = a - b ∧ scalarAlu .mul a b = a * b ∧
    scalarAlu .and a b = a &&& b ∧ scalarAlu .or a b = a ||| b ∧ scalarAlu .cmpEq a b = (if a = b then 1 else 0) ∧
    scalarAlu .cmpLt a b = (if a.toNat < b.toNat then 1 else 0) ∧
    (b.toNat < 64 → scalarAlu .shl a b = a <<< b.toNat ∧ scalarAlu .shr a b = a >>> b.toNat) ∧
    (64 ≤ b.toNat → scalarAlu .shl a b = Config.farShift 0 a b ∧ scalarAlu .shr a b = Config.farShift 1 a b) :=
  ⟨rfl, rfl, rfl, rfl, rfl, rfl, rfl, fun h => ⟨if_pos h, if_pos h⟩,
    fun h => ⟨if_neg (Nat.not_lt.mpr h), if_neg (Nat.not_lt.mpr h)⟩⟩
/-- Within the SRAM a read is the memory's (R113). -/
theorem sramRead_within {addr n : Nat} (h : addr + n ≤ 4194304) : sramRead s k addr n = mread (sramOf s k) addr n := by
  have hfit : sramFit addr n = n := by
    rw [sramFit, sramBytes]
    omega
  simp [sramRead, hfit, fromN]

/-- An instruction that changes its core alone, where it may be dispatched. -/
theorem onlyCore_dispatchCore (f : CoreSt → CoreSt) (h : mayDispatch s c = true) :
    onlyCore s (dispatchCore c f s) (coreKey c) (advPc 0 (f (coreOf s c))) := by
  rw [dispatchCore_may f h]
  exact onlyCore_setCore ..

/-- Settles O15: the instructions change their core alone, by a register write and the step to the next word. -/
theorem scalarInstructionsWriteTheirRegister : Obligations.ScalarInstructionsWriteTheirRegister :=
  ⟨fun _ _ _ _ _ _ h => ⟨_, rfl, onlyCore_dispatchCore _ h⟩, scalarAlu_spec,
    fun _ _ _ _ _ h => ⟨_, rfl, onlyCore_dispatchCore _ h⟩, fun _ _ _ _ h => sramRead_within h,
    fun _ _ _ h => ⟨_, rfl, onlyCore_dispatchCore _ h⟩,
    fun x r v p => ⟨sreg_setS_same x r v p, setS_spois_contains x r v p, fun _ h => sreg_setS_other x v p h⟩⟩

/- Dispatch through the sequencer's test (R126, R127). -/
theorem coreKey_div (c : CoreId) : coreKey c / 16 = c.die := by
  unfold coreKey
  omega

theorem mayDispatch_iff : mayDispatch s c = true ↔ coreLive s.asm s.u c = true ∧ (coreOf s c).stalled = none := by
  simp [mayDispatch]

/-- With queue V empty the instruction passes its test, or stalls. -/
theorem dispatch_of_test (h : mayDispatch s c = true) (hv : (coreOf s c).qv = []) :
    dispatch i c s = match tryDispatch i (coreKey c) s with
      | none => onUnits (modCore (coreKey c) (fun x => { x with stalled := some i })) s
      | some t => afterDispatch (coreKey c) t := by
  obtain ⟨hlive, hstall⟩ := mayDispatch_iff.mp h
  simp only [dispatch, hlive, hstall, hv, List.length_nil, whileStalled, vRun]
  rfl
theorem dispatch_passes {t : State} (h : mayDispatch s c = true) (hv : (coreOf s c).qv = [])
    (ht : tryDispatch i (coreKey c) s = some t) : dispatch i c s = afterDispatch (coreKey c) t := by
  rw [dispatch_of_test h hv, ht]
theorem dispatch_stalls (h : mayDispatch s c = true) (hv : (coreOf s c).qv = [])
    (ht : tryDispatch i (coreKey c) s = none) :
    dispatch i c s = onUnits (modCore (coreKey c) (fun x => { x with stalled := some i })) s := by
  rw [dispatch_of_test h hv, ht]
/-- A core on which nothing can start goes on at the next word, and no more. -/
theorem afterDispatch_quiet {t : State} (h : quietCore (coreAt t.u k)) :
    afterDispatch k t = onUnits (modCore k (advPc 0)) t := by
  have hq : quietCore (coreAt (onUnits (modCore k (advPc 0)) t).u k) := by simpa using quiet_advPc 0 h
  obtain ⟨-, -, -, hv, -⟩ := hq
  rw [afterDispatch, kick_quiet (by simpa using quiet_advPc 0 h), vAdvance_empty hv]

/-- An instruction that passes with a change of its core alone, on a core that stays quiet. -/
theorem dispatch_core_quiet {x : CoreSt} (h : mayDispatch s c = true) (hq : quietCore (coreOf s c)) (hx : quietCore x)
    (ht : tryDispatch i (coreKey c) s = some { s with u := setCore (coreKey c) x s.u }) :
    onlyCore s (dispatch i c s) (coreKey c) (advPc 0 x) := by
  rw [dispatch_passes h hq.2.2.2.1 ht, afterDispatch_quiet (by simpa using hx), onUnits, modCore_setCore]
  exact onlyCore_setCore ..
theorem dispatch_stalled (h : mayDispatch s c = true) (hv : (coreOf s c).qv = [])
    (ht : tryDispatch i (coreKey c) s = none) :
    onlyCore s (dispatch i c s) (coreKey c) { coreOf s c with stalled := some i } := by
  rw [dispatch_stalls h hv ht]
  exact onlyCore_setCore ..

/- BR and LOOP (R130). -/
theorem exec_br (h : mayDispatch s c = true) (cond : SCond) (rs : Fin 16) (off : Nat) :
    exec (.br c cond rs off) s = .next (onUnits (brOp (coreKey c) cond rs off) s) := if_pos h
theorem exec_loop (h : mayDispatch s c = true) (rs : Fin 16) (bound len : Nat) :
    exec (.loop c rs bound len) s = .next (onUnits (loopOp (coreKey c) rs bound len) s) := if_pos h

theorem brOp_clean (cond : SCond) {rs : Nat} (off : Nat) (hp : rs ∉ (coreAt u k).spois) :
    brOp k cond rs off u = setCore k (advPc (if (sreg (coreAt u k) rs = 0) = (cond = .zero) then off else 0)
      (coreAt u k)) u := by
  have hc : (coreAt u k).spois.contains rs = false := by simpa using hp
  simp only [brOp, hc, Bool.false_eq_true, if_false]
  cases cond <;> by_cases hz : sreg (coreAt u k) rs = 0 <;> simp [hz]

/-- The launch marked where LOOP cut its count. -/
def cutLaunch (cut : Bool) (x : CoreSt) : CoreSt :=
  { x with stalled := none, launch := x.launch.map (fun l => { l with truncated := l.truncated || cut }) }
/-- A core that has entered a loop body. -/
def enterLoop (bound len n : Nat) (x : CoreSt) : CoreSt :=
  { cutLaunch (decide (bound < n)) x with
    pc := x.pc + 1, loops := { start := x.pc + 1, stop := x.pc + 1 + len, left := min n bound - 1 } :: x.loops }

/-- What LOOP tells of a count above its bound. -/
def loopNotice (k bound n : Nat) (u : Units) : Units :=
  if bound < n then
    notice (dieKey 0 (k / 16)) 0x0301 0 [coreLoc u k, entryOf u k] (dieBump (dieKey 0 (k / 16)) 0x35 1 u)
  else u
theorem loopOp_enters {rs bound len : Nat} (hp : rs ∉ (coreAt u k).spois) (hn : 0 < (sreg (coreAt u k) rs).toNat)
    (hb : 0 < bound) (hl : 0 < len) :
    loopOp k rs bound len u = loopNotice k bound (sreg (coreAt u k) rs).toNat
      (setCore k (enterLoop bound len (sreg (coreAt u k) rs).toNat (coreAt u k)) u) := by
  have hc : (coreAt u k).spois.contains rs = false := by simpa using hp
  have hgo : ¬ (min (sreg (coreAt u k) rs).toNat bound = 0 ∨ len = 0) := by omega
  simp only [loopOp, hc, Bool.false_eq_true, if_false, hgo, decide_eq_true_eq]
  rfl
theorem loopOp_skips {rs bound len : Nat} (hp : rs ∉ (coreAt u k).spois) (hz : sreg (coreAt u k) rs = 0) :
    loopOp k rs bound len u = setCore k (advPc len (coreAt u k)) u := by
  have hc : (coreAt u k).spois.contains rs = false := by simpa using hp
  have hlaunch : (coreAt u k).launch.map (fun l => { l with truncated := l.truncated || false }) = (coreAt u k).launch := by
    simp
  have h0 : (sreg (coreAt u k) rs).toNat = 0 := congrArg BitVec.toNat hz
  simp only [loopOp, hc, Bool.false_eq_true, if_false, h0, Nat.not_lt_zero, decide_false, Nat.zero_min, true_or, if_true,
    hlaunch]
  rfl

/-- Notices and counts leave the cores. -/
theorem noticeFrame_core (h : noticeFrame u v) : v.core = u.core := by rw [h]
theorem noticeFrame_sem (h : noticeFrame u v) : v.sem = u.sem := by rw [h]
theorem noticeFrame_loopNotice (k bound n : Nat) (u : Units) : noticeFrame u (loopNotice k bound n u) := by
  unfold loopNotice
  split
  · exact noticeFrame_trans (noticeFrame_dieBump ..) (notice_frame ..)
  · exact noticeFrame_refl u
theorem coreAt_of_core_eq (h : v.core = u.core) (k : Nat) : coreAt v k = coreAt u k := by
  rw [coreAt, coreAt, h]

theorem coreLoc_setCore (k : Nat) (x : CoreSt) (u : Units) (h : x.slot = (coreAt u k).slot) :
    coreLoc (setCore k x u) k = coreLoc u k := by rw [coreLoc, coreLoc, coreAt_setCore, h]
theorem entryOf_enterLoop (k bound len n : Nat) (u : Units) :
    entryOf (setCore k (enterLoop bound len n (coreAt u k)) u) k = entryOf u k := by
  simp only [entryOf, coreAt_setCore, enterLoop, cutLaunch]
  cases (coreAt u k).launch <;> rfl

theorem loop_enters (s : State) (c : CoreId) (rs : Fin 16) (bound len : Nat) (h : mayDispatch s c = true)
    (hp : rs.val ∉ (coreOf s c).spois) (hn : 0 < (sreg (coreOf s c) rs).toNat) (hb : 0 < bound) (hl : 0 < len) :
    ∃ t, exec (.loop c rs bound len) s = .next t ∧
      (coreOf t c).pc = (coreOf s c).pc + 1 ∧
      (coreOf t c).loops = { start := (coreOf s c).pc + 1
                             stop := (coreOf s c).pc + 1 + len
                             left := min (sreg (coreOf s c) rs).toNat bound - 1 } :: (coreOf s c).loops ∧
      (coreOf t c).s = (coreOf s c).s ∧ (coreOf t c).v = (coreOf s c).v ∧
      (∀ l, (coreOf s c).launch = some l → (coreOf t c).launch =
        some { l with truncated := l.truncated || decide (bound < (sreg (coreOf s c) rs).toNat) }) ∧
      ((sreg (coreOf s c) rs).toNat ≤ bound → t = { s with u := { s.u with core := t.u.core } }) ∧
      (bound < (sreg (coreOf s c) rs).toNat → t.u.prodN =
        (notice (dieKey 0 c.die) 0x0301 0 [coreLoc s.u (coreKey c), entryOf s.u (coreKey c)] s.u).prodN) ∧
      (∀ j, j ≠ coreKey c → coreAt t.u j = coreAt s.u j) ∧ t.m = s.m ∧ t.q = s.q := by
  refine ⟨_, exec_loop h rs bound len, ?_⟩
  rw [onUnits, loopOp_enters hp hn hb hl]
  have hcore := coreAt_of_core_eq (noticeFrame_core (noticeFrame_loopNotice (coreKey c) bound (sreg (coreOf s c) rs).toNat
    (setCore (coreKey c) (enterLoop bound len (sreg (coreOf s c) rs).toNat (coreOf s c)) s.u)))
  have hk : coreAt (loopNotice (coreKey c) bound (sreg (coreOf s c) rs).toNat
      (setCore (coreKey c) (enterLoop bound len (sreg (coreOf s c) rs).toNat (coreOf s c)) s.u)) (coreKey c) =
      enterLoop bound len (sreg (coreOf s c) rs).toNat (coreOf s c) := by rw [hcore, coreAt_setCore]
  dsimp only [coreOf] at hk ⊢
  rw [hk]
  refine ⟨rfl, rfl, rfl, rfl, fun l hl => ?_, fun hle => ?_, fun hlt => ?_, fun j hj => ?_, rfl, rfl⟩
  · simp only [enterLoop, cutLaunch, hl, Option.map_some]
  · rw [loopNotice, if_neg (Nat.not_lt.mpr hle)]
    rfl
  · rw [loopNotice, if_pos hlt, notice_prodN, notice_prodN, dieBump_prodN, dieBump_tick, entryOf_enterLoop,
      coreLoc_setCore _ _ _ (by rfl), coreKey_div]
    rfl
  · exact (hcore j).trans (coreAt_setCore_other _ _ hj)

/- WAIT, MARK, SWAIT and END (R128, R149 to R151). -/
theorem swait_passes (s : State) (c : CoreId) (idx : Fin 64) (n : Nat) (h : mayDispatch s c = true)
    (hq : quietCore (coreOf s c)) (hn : n ≤ tgetD s.u.sem (c.die.val * 64 + idx.val) 0) :
    ∃ t, exec (.swait c idx n) s = .next t ∧
      t.u.sem = tset s.u.sem (c.die.val * 64 + idx.val) (tgetD s.u.sem (c.die.val * 64 + idx.val) 0 - n) ∧
      coreOf t c = advPc 0 (coreOf s c) ∧ (∀ j, j ≠ coreKey c → coreAt t.u j = coreAt s.u j) ∧
      t = { s with u := { s.u with core := t.u.core, sem := t.u.sem } } := by
  have ht : tryDispatch (.swait c idx n) (coreKey c) s = some { s with u := { s.u with
      sem := tset s.u.sem (c.die.val * 64 + idx.val) (tgetD s.u.sem (c.die.val * 64 + idx.val) 0 - n) } } := by
    simp only [tryDispatch, coreKey_div, if_pos hn]
  refine ⟨dispatch (.swait c idx n) c s, rfl, ?_⟩
  rw [dispatch_passes h hq.2.2.2.1 ht, afterDispatch_quiet (by exact hq)]
  exact ⟨rfl, coreAt_modCore .., fun j hj => coreAt_modCore_other _ _ hj, rfl⟩

/-- What END waits for, beside quiet queues. -/
theorem tryDispatch_endLaunch (hq : quietCore (coreAt s.u k)) (hp : (coreAt s.u k).passes = [])
    (hqf : (coreAt s.u k).qFill = none) (hff : (coreAt s.u k).fFill = none) (hsig : (coreAt s.u k).sigs = []) :
    tryDispatch (.endLaunch c) k s = some { s with u := setCore k { coreAt s.u k with launch := none } s.u } := by
  obtain ⟨h1, h2, h3, h4, h5, h6⟩ := hq
  simp [tryDispatch, h1, h2, h3, h4, h5, h6, hp, hqf, hff, hsig]

/- Semaphores (R150). -/
theorem retry_unstalled (h : (coreAt s.u k).stalled = none) : retry k s = s := by rw [retry, h]
theorem foldl_retry_unstalled (h : ∀ k, (coreAt s.u k).stalled = none) (l : List Nat) :
    l.foldl (fun t j => retry j t) s = s := by
  induction l with
  | nil => rfl
  | cons j l ih => rw [List.foldl_cons, retry_unstalled (h j), ih]

/-- What an addition to a semaphore tells of saturation. -/
def semNotice (g : Sig) (v : Nat) (u : Units) : Units :=
  if 65535 ≤ v then notice (dieKey 0 g.die) 0x0305 0 [g.die, g.idx] u else u
theorem noticeFrame_semNotice (g : Sig) (n : Nat) (u : Units) : noticeFrame u (semNotice g n u) := by
  unfold semNotice
  split
  · exact notice_frame ..
  · exact noticeFrame_refl u

/-- The first SIG that waits for no DM is found, and it is the one erased. -/
theorem find_sig {l r : List Sig} {g : Sig} (hl : ∀ x ∈ l, x.dms ≠ 0) (hg : g.dms = 0) :
    (l ++ g :: r).find? (fun g => g.dms == 0) = some g ∧ (l ++ g :: r).erase g = l ++ r := by
  have hgl : g ∉ l := fun h => hl g h hg
  constructor
  · rw [List.find?_append, List.find?_eq_none.mpr (by simpa using hl), Option.none_or]
    simp [hg]
  · rw [List.erase_append_right _ hgl, List.erase_cons_head]

theorem sigLand_lands (s : State) (c : CoreId) (g : Sig) (l r : List Sig) (hpres : corePresent s.asm s.u c = true)
    (hsigs : (coreOf s c).sigs = l ++ g :: r) (hl : ∀ x, x ∈ l → x.dms ≠ 0) (hg : g.dms = 0)
    (hstall : ∀ k, (coreAt s.u k).stalled = none) :
    ∃ t, exec (.sigLand c) s = .next t ∧
      t.u.sem = tset s.u.sem (g.die * 64 + g.idx) (min 65535 (tgetD s.u.sem (g.die * 64 + g.idx) 0 + g.n)) ∧
      coreOf t c = { coreOf s c with sigs := l ++ r } ∧ (∀ j, j ≠ coreKey c → coreAt t.u j = coreAt s.u j) ∧
      t.q = s.q ∧ t.m = s.m ∧
      (tgetD s.u.sem (g.die * 64 + g.idx) 0 + g.n < 65535 → t.u.prodN = s.u.prodN) ∧
      (65535 ≤ tgetD s.u.sem (g.die * 64 + g.idx) 0 + g.n →
        t.u.prodN = (notice (dieKey 0 g.die) 0x0305 0 [g.die, g.idx] s.u).prodN) := by
  obtain ⟨hfind, herase⟩ := find_sig (r := r) hl hg
  have hland : sigLand (coreKey c) s = ((coreKey c :: dieCores g.die).foldl (fun s j => retry j s) { s with
      u := semNotice g (tgetD s.u.sem (g.die * 64 + g.idx) 0 + g.n) (dieBump (dieKey 0 (coreKey c / 16)) 0x3F 1
        (setCore (coreKey c) { coreOf s c with sigs := l ++ r } { s.u with
          sem := tset s.u.sem (g.die * 64 + g.idx) (min 65535 (tgetD s.u.sem (g.die * 64 + g.idx) 0 + g.n)) })) }) := by
    rw [sigLand]
    simp only [hsigs, hfind, herase]
    rfl
  have hframe := noticeFrame_trans (noticeFrame_dieBump (dieKey 0 (coreKey c / 16)) 0x3F 1
    (setCore (coreKey c) { coreOf s c with sigs := l ++ r } { s.u with
      sem := tset s.u.sem (g.die * 64 + g.idx) (min 65535 (tgetD s.u.sem (g.die * 64 + g.idx) 0 + g.n)) }))
    (noticeFrame_semNotice g (tgetD s.u.sem (g.die * 64 + g.idx) 0 + g.n) _)
  have hcore := coreAt_of_core_eq (noticeFrame_core hframe)
  have hother (j : Nat) (hj : j ≠ coreKey c) := (hcore j).trans (coreAt_setCore_other _ _ hj)
  have hself := (hcore (coreKey c)).trans (coreAt_setCore ..)
  rw [foldl_retry_unstalled] at hland
  · refine ⟨_, (congrArg Host.Outcome.next (if_pos hpres)), ?_⟩
    rw [hland]
    refine ⟨noticeFrame_sem hframe, hself, hother, rfl, rfl, fun hlt => ?_, fun hle => ?_⟩
    · rw [semNotice, if_neg (Nat.not_le.mpr hlt), dieBump_prodN]
      rfl
    · rw [semNotice, if_pos hle, notice_prodN, notice_prodN, dieBump_prodN, dieBump_tick]
      rfl
  · intro j
    by_cases hj : j = coreKey c
    · subst hj
      rw [hself]
      exact hstall _
    · rw [hother j hj]
      exact hstall j

/-- Settles O16: each instruction by its test and its effect, on a core where nothing else can start. -/
theorem controlFlowAndSemaphores : Obligations.ControlFlowAndSemaphores := by
  refine ⟨⟨?br, loop_enters, ?skip, ?wait, ?waitStalls, ?mark, ?markStalls, swait_passes, ?swaitStalls, ?endLaunch⟩, ?sig,
    sigLand_lands⟩
  case br =>
    intro s c cond rs off h hp
    refine ⟨_, exec_br h cond rs off, ?_⟩
    rw [onUnits, brOp_clean cond off hp]
    exact onlyCore_setCore ..
  case skip =>
    intro s c rs bound len h hp hz
    refine ⟨_, exec_loop h rs bound len, ?_⟩
    rw [onUnits, loopOp_skips hp hz]
    exact onlyCore_setCore ..
  case wait =>
    intro s c f n h hq hn
    exact ⟨_, rfl, dispatch_core_quiet h hq hq (if_pos hn)⟩
  case waitStalls =>
    intro s c f n h hv hn
    exact ⟨_, rfl, dispatch_stalled h hv (if_neg (Nat.not_le.mpr hn))⟩
  case mark =>
    intro s c m h hq hlast hm
    refine ⟨dispatch (.mark c m) c s, rfl, ?_⟩
    have ht : tryDispatch (.mark c m) (coreKey c) s = some s := if_pos ⟨hlast, hm⟩
    rw [dispatch_passes h hq.2.2.2.1 ht, afterDispatch_quiet hq]
    exact onlyCore_setCore ..
  case markStalls =>
    intro s c m h hv hm
    exact ⟨_, rfl, dispatch_stalled h hv (if_neg (by omega))⟩
  case swaitStalls =>
    intro s c idx n h hv hn
    refine ⟨_, rfl, dispatch_stalled h hv ?_⟩
    simp only [tryDispatch, coreKey_div, if_neg (Nat.not_le.mpr hn)]
  case endLaunch =>
    intro s c h hq hp hqf hff hsig
    exact ⟨_, rfl, dispatch_core_quiet h hq hq (tryDispatch_endLaunch hq hp hqf hff hsig)⟩
  case sig => exact fun _ _ _ _ _ h => ⟨_, rfl, onlyCore_dispatchCore _ h⟩

end Sys2Proof.Machine
end

section
/-! PROOFS. The vector unit (05, R126, R127, R136 to R142): how an instruction joins queue V, what its execution changes, and
the bytes of a vector store; the blocks of O17. -/
namespace Sys2Proof.Machine

variable {s : State} {c : CoreId} {i : Instr} {k : Nat} {x : CoreSt} {f g : CoreSt → CoreSt}

/- Instructions join queue V (R126). -/
/-- On a core whose queues but V are empty nothing but the vector unit starts. -/
theorem kick_vector (hx : coreAt s.u k = x) (hq : quietCore { x with qv := [] }) : kick k s = s := by
  obtain ⟨hqq, hqf, hqm, -, hqd, hqh⟩ := hq
  dsimp only at hqq hqf hqm hqd hqh
  rw [← hx] at hqq hqf hqm hqd hqh
  have hm : startMx k s = s := by simp [startMx, hqm]
  have hd : startD k s = s := by simp [startD, hqd]
  have hq : startQz k s = s := by simp [startQz, hqq]
  have hf : startCf k s = s := by simp [startCf, hqf]
  have hh : onUnits (startH k) s = s := by simp [onUnits, startH, hqh]
  rw [kick, foldl_still hm, hq, hf, foldl_still hd, hh]

theorem tryDispatch_vector (hi : isVector i = true) (hv : (coreAt s.u k).qv = []) :
    tryDispatch i k s = some { s with u := setCore k { coreAt s.u k with qv := [i] } s.u } := by
  cases i with
  | vectorLoad | vectorStore | vectorArith | vectorTranscendental | vectorSumReduce | vectorMaxReduce | vtop | vdot8 | vwide
  | vectorConvert => simp [tryDispatch, isVector, hv]
  | _ => cases hi

/-- The dispatch of a word on a core whose queues but V are empty. -/
theorem afterDispatch_vector (hx : coreAt s.u k = x) (hq : quietCore { x with qv := [] }) :
    afterDispatch k s = vAdvance k (onUnits (modCore k (advPc 0)) s) := by
  have hadv : coreAt (onUnits (modCore k (advPc 0)) s).u k = advPc 0 x := by rw [onUnits_u, coreAt_modCore, hx]
  rw [afterDispatch, kick_vector hadv hq]
/-- One instruction waits: it is executed now or not, by a draw. -/
theorem vAdvance_one (h : (coreAt s.u k).qv = [i]) :
    vAdvance k s = vRun k (Config.freeNat s.u.freeIx % 2) { s with u := { s.u with freeIx := s.u.freeIx + 1 } } := by
  rw [vAdvance, h]
  rfl

/-- A vector instruction joins queue V, and the vector unit may execute it at once (R127). -/
theorem dispatch_vector (hi : isVector i = true) (h : mayDispatch s c = true) (hq : quietCore (coreOf s c)) :
    dispatch i c s = vIssued (coreKey c) i s := by
  have hqv := hq.2.2.2.1
  rw [dispatch_passes h hqv (tryDispatch_vector hi hqv),
    afterDispatch_vector (x := { coreOf s c with qv := [i] }) (coreAt_setCore ..) ⟨hq.1, hq.2.1, hq.2.2.1, rfl, hq.2.2.2.2⟩,
    onUnits, modCore_setCore]
  exact vAdvance_one (congrArg CoreSt.qv (coreAt_setCore ..))

/- A completion flag leaves the rest of the core (R128). -/
@[simp] theorem flagInc_v (f : Option (Fin 32)) (x : CoreSt) : (flagInc f x).v = x.v := by cases f <;> rfl
@[simp] theorem flagInc_s (f : Option (Fin 32)) (x : CoreSt) : (flagInc f x).s = x.s := by cases f <;> rfl
@[simp] theorem flagInc_qv (f : Option (Fin 32)) (x : CoreSt) : (flagInc f x).qv = x.qv := by cases f <;> rfl
@[simp] theorem flagInc_pois (f : Option (Fin 32)) (x : CoreSt) : (flagInc f x).pois = x.pois := by cases f <;> rfl
theorem flagInc_flags (f : Option (Fin 32)) {x y : CoreSt} (h : x.flags = y.flags) :
    (flagInc f x).flags = (flagInc f y).flags := by
  cases f with
  | none => exact h
  | some i => simp only [flagInc, h]

/- Execution (R127, R128). -/
/-- The core of a state changed. -/
theorem onUnits_modCore_modCore (s : State) : onUnits (modCore k g) (onUnits (modCore k f) s) =
    onUnits (modCore k (fun x => g (f x))) s := by
  rw [onUnits, onUnits, onUnits, modCore_modCore]
theorem onlyCore_modCore (s : State) (k : Nat) (f : CoreSt → CoreSt) :
    onlyCore s (onUnits (modCore k f) s) k (f (coreAt s.u k)) := onlyCore_setCore s k _

/-- A core with another queue V. -/
def withQv (r : List Instr) (x : CoreSt) : CoreSt := { x with qv := r }
theorem vHead_cons {r : List Instr} (h : (coreAt s.u k).qv = i :: r) :
    vHead k s = onUnits (modCore k (flagInc (vFlag i))) (vEffect k i (onUnits (modCore k (withQv r)) s)) := by
  rw [vHead, h]
  rfl

/-- An instruction whose effect is on its core alone changes, when it executes, that core alone. -/
theorem vHead_core {r : List Instr} (h : (coreOf s c).qv = i :: r)
    (he : ∀ t, vEffect (coreKey c) i t = onUnits (modCore (coreKey c) f) t) :
    onlyCore s (vHead (coreKey c) s) (coreKey c) (flagInc (vFlag i) (f { coreOf s c with qv := r })) := by
  rw [vHead_cons h, he, onUnits_modCore_modCore, onUnits_modCore_modCore]
  exact onlyCore_modCore ..

/-- The lane formats of a float instruction. -/
theorem onFloat_of_ff {fmt : VFmt} {ff : FF} (h : ffOf fmt = some ff) (f : FF → CoreSt → CoreSt) (x : CoreSt) :
    onFloat fmt f x = f ff x := by rw [onFloat, h]
theorem vEffect_float {fmt : VFmt} {ff : FF} (h : ffOf fmt = some ff) (f : FF → CoreSt → CoreSt) (t : State) :
    onUnits (modCore k (onFloat fmt f)) t = onUnits (modCore k (f ff)) t := by
  rw [show onFloat fmt f = f ff from funext (onFloat_of_ff h f)]

/-- What a change of the core that leaves its poison leaves readable of its SRAM. -/
theorem sramPois_modCore (hp : ∀ y, (f y).pois = y.pois) (s : State) (k addr n : Nat) :
    sramPois (onUnits (modCore k f) s) k addr n = sramPois s k addr n := by
  simp only [sramPois, onUnits, coreAt_modCore, hp]
theorem vHead_load {vd : VDst} {addr : Nat} {r : List Instr} (h : (coreOf s c).qv = .vectorLoad c vd addr :: r) :
    onlyCore s (vHead (coreKey c) s) (coreKey c) (flagInc vd.flag (setV vd.reg
      ((List.range 256).map (fun i => BitVec.ofNat 32 (le (sramRead s (coreKey c) addr 1024) (4 * i) 4)))
      (sramPois s (coreKey c) addr 1024) { coreOf s c with qv := r })) := by
  rw [vHead_cons h, vEffect, vLoad, sramPois_modCore (f := withQv r) (fun _ => rfl), onUnits_modCore_modCore, onUnits_modCore_modCore]
  exact onlyCore_modCore ..

/- Vector stores (R128, R136, R421). -/
theorem mget_mread (m : Memory) (a i n : Nat) (h : i < n) : (mread m a n)[i]? = some (mget m (a + i)) := by
  induction n generalizing a i with
  | zero => cases h
  | succ n ih =>
    cases i with
    | zero => rfl
    | succ i =>
      rw [mread, List.getElem?_cons_succ, ih (a + 1) i (by omega), Nat.add_assoc, Nat.add_comm 1 i]
/-- A part of a run written reads back. -/
theorem mread_mwrite_part {m : Memory} (a j n : Nat) (l : Bytes) (h : m.wf = true) (hl : j + n ≤ l.length) :
    mread (mwrite m a l) (a + j) n = (l.drop j).take n := by
  refine List.ext_getElem? fun i => ?_
  by_cases hi : i < n
  · rw [mget_mread _ _ _ _ hi, List.getElem?_take_of_lt hi, List.getElem?_drop, Nat.add_assoc,
      mget_mwrite_self a (j + i) l h (by omega), List.getElem?_eq_getElem]
  · rw [List.getElem?_eq_none (by simpa using hi), List.getElem?_eq_none (by simp; omega)]

/-- The bytes of a run of lanes. -/
def laneBytes (l : List W32) : Bytes := l.flatMap (fun w => leBytes 4 w.toNat)
@[simp] theorem laneBytes_length (l : List W32) : (laneBytes l).length = 4 * l.length := by
  induction l with
  | nil => rfl
  | cons w l ih =>
    rw [laneBytes, List.flatMap_cons, List.length_append, ← laneBytes, ih, leBytes_length, List.length_cons]
    omega
theorem laneBytes_lane {l : List W32} {i : Nat} (h : i < l.length) :
    ((laneBytes l).drop (4 * i)).take 4 = leBytes 4 (l.getD i 0).toNat := by
  induction l generalizing i with
  | nil => cases h
  | cons w l ih =>
    rw [laneBytes, List.flatMap_cons, ← laneBytes]
    cases i with
    | zero => exact List.take_left' (leBytes_length _ _)
    | succ i =>
      have hdrop : 4 * (i + 1) = (leBytes 4 w.toNat).length + 4 * i := by rw [leBytes_length]; omega
      rw [hdrop, List.drop_append, List.drop_eq_nil_of_le (by omega), List.nil_append, Nat.add_sub_cancel_left,
        ih (by simpa using h)]
      rfl

/-- A write that lies within the SRAM (R113). -/
theorem sramWrite_within {addr : Nat} {data : Bytes} (h : addr + data.length ≤ 4194304) (p : Bool) :
    sramWrite k addr data p s = { s with
      m := { s.m with sram := tset s.m.sram k (mwrite (sramOf s k) addr data) }
      u := modCore k (fun c => { c with pois := poisAfter c.pois addr data.length p }) s.u } := by
  have hfit : data.take (sramFit addr data.length) = data := by
    rw [List.take_of_length_le]
    rw [sramFit, sramBytes]
    omega
  rw [sramWrite, hfit]

theorem sramOf_onUnits (f : Units → Units) (s : State) (k : Nat) : sramOf (onUnits f s) k = sramOf s k := rfl
/-- What stands at the places of an output that fits. -/
theorem sramOf_outWrite_self {addr : Nat} {data : Bytes} (h : addr + data.length ≤ 4194304) (p : Bool) :
    sramOf (outWrite k addr data p s) k = mwrite (sramOf s k) addr data := by
  rw [outWrite, sramWrite_within h]
  exact tgetD_tset_self ..
theorem sramOf_outWrite_other {j addr : Nat} {data : Bytes} (p : Bool) (hj : j ≠ k) :
    sramOf (outWrite k addr data p s) j = sramOf s j := tgetD_tset_other _ _ _ hj

theorem launchPois_modCore (hf : ∀ y, (f y).launch = y.launch) (u : Units) (k : Nat) :
    launchPois (modCore k f u) k = launchPois u k := by
  simp only [launchPois, coreAt_modCore, hf]
/-- A core after an output: its poison, and its launch's list of outputs. -/
def outCore (addr n : Nat) (p : Bool) (x : CoreSt) : CoreSt :=
  { x with pois := poisAfter x.pois addr n p
           launch := x.launch.map (fun l => { l with
             outs := l.outs ++ ((unitsOf addr n).map (fun y => (1, y))).filter (fun y => !l.outs.contains y) }) }
theorem outWrite_u {addr : Nat} {data : Bytes} (h : addr + data.length ≤ 4194304) (p : Bool) :
    (outWrite k addr data p s).u = modCore k (outCore addr data.length (p || launchPois s.u k)) s.u := by
  rw [outWrite, sramWrite_within h, onUnits, noteOut, modCore_modCore]
  rfl

theorem vHead_store {vs : Fin 64} {addr n : Nat} {f : Option (Fin 32)} {r : List Instr}
    (h : (coreOf s c).qv = .vectorStore c vs addr n f :: r) :
    vHead (coreKey c) s = onUnits (modCore (coreKey c) (flagInc f)) (outWrite (coreKey c) addr
      (laneBytes ((vreg (coreOf s c) vs).take (min n 256))) (vbad (coreOf s c) [vs])
      (onUnits (modCore (coreKey c) (withQv r)) s)) := by
  rw [vHead_cons h, vEffect, vStore, onUnits_u, coreAt_modCore]
  rfl

/-- The units that a clean write covers whole lose their poison. -/
theorem not_mem_poisAfter_clean (l : List Nat) {addr n x : Nat} (hlo : addr ≤ 64 * x) (hhi : 64 * x + 64 ≤ addr + n) :
    x ∉ poisAfter l addr n false := by
  simp [poisAfter, hlo, hhi]

theorem vectorStore_writes (s : State) (c : CoreId) (vs : Fin 64) (addr n : Nat) (f : Option (Fin 32)) (r : List Instr)
    (h : (coreOf s c).qv = .vectorStore c vs addr n f :: r) (hn : n ≤ 256) (haddr : addr + 4 * n ≤ 4194304)
    (hwf : (sramOf s (coreKey c)).wf = true) (hlen : (vreg (coreOf s c) vs).length = 256) :
    (let t := vHead (coreKey c) s;
      (∀ i, i < n → leVal (mread (sramOf t (coreKey c)) (addr + 4 * i) 4) = ((vreg (coreOf s c) vs).getD i 0).toNat) ∧
      (∀ a, a < addr ∨ addr + 4 * n ≤ a → mget (sramOf t (coreKey c)) a = mget (sramOf s (coreKey c)) a) ∧
      (∀ k, k ≠ coreKey c → sramOf t k = sramOf s k) ∧ t.m.t1 = s.m.t1 ∧ t.m.t2 = s.m.t2 ∧ t.q = s.q ∧
      (coreOf t c).v = (coreOf s c).v ∧ (coreOf t c).s = (coreOf s c).s ∧ (coreOf t c).qv = r ∧
      (coreOf t c).flags = (flagInc f (coreOf s c)).flags ∧
      (vs.val ∉ (coreOf s c).vpois → launchPois s.u (coreKey c) = false →
        ∀ x, addr ≤ 64 * x → 64 * x + 64 ≤ addr + 4 * n → x ∉ (coreOf t c).pois)) := by
  rw [vHead_store h]
  have hdata : (laneBytes ((vreg (coreOf s c) vs).take (min n 256))).length = 4 * n := by
    rw [laneBytes_length, List.length_take, hlen]
    omega
  have hfit : addr + (laneBytes ((vreg (coreOf s c) vs).take (min n 256))).length ≤ 4194304 := by omega
  have hself := sramOf_outWrite_self (s := onUnits (modCore (coreKey c) (withQv r)) s) (k := coreKey c)
    hfit (vbad (coreOf s c) [vs])
  have hu := outWrite_u (s := onUnits (modCore (coreKey c) (withQv r)) s) (k := coreKey c)
    hfit (vbad (coreOf s c) [vs])
  have hcore : coreOf (onUnits (modCore (coreKey c) (flagInc f)) (outWrite (coreKey c) addr
      (laneBytes ((vreg (coreOf s c) vs).take (min n 256))) (vbad (coreOf s c) [vs])
      (onUnits (modCore (coreKey c) (withQv r)) s))) c =
      flagInc f (outCore addr (4 * n) (vbad (coreOf s c) [vs] || launchPois s.u (coreKey c)) { coreOf s c with qv := r }) := by
    rw [coreOf, onUnits_u, coreAt_modCore, hu, coreAt_modCore, hdata, onUnits_u, coreAt_modCore,
      launchPois_modCore (f := withQv r) fun _ => rfl]
    rfl
  dsimp only
  rw [hcore]
  refine ⟨fun i hi => ?_, fun a ha => ?_, fun j hj => ?_, rfl, rfl, rfl, ?_, ?_, ?_, ?_, fun hvs hl x hlo hhi => ?_⟩
  · have htake : ((vreg (coreOf s c) vs).take (min n 256)).getD i 0 = (vreg (coreOf s c) vs).getD i 0 := by
      rw [List.getD_eq_getElem?_getD, List.getD_eq_getElem?_getD, List.getElem?_take_of_lt (by omega)]
    rw [sramOf_onUnits, hself, sramOf_onUnits, mread_mwrite_part _ _ _ _ hwf (by omega),
      laneBytes_lane (by simp [hlen]; omega), leVal_leBytes, htake]
    exact Nat.mod_eq_of_lt (BitVec.isLt _)
  · rw [sramOf_onUnits, hself, mget_mwrite_other _ _ (by omega), sramOf_onUnits]
  · rw [sramOf_onUnits, sramOf_outWrite_other _ hj, sramOf_onUnits]
  · exact flagInc_v ..
  · exact flagInc_s ..
  · exact flagInc_qv ..
  · exact flagInc_flags f rfl
  · rw [flagInc_pois]
    have hv : vbad (coreOf s c) [vs.val] = false := by simpa [vbad] using hvs
    rw [hv, hl]
    exact not_mem_poisAfter_clean _ hlo hhi

theorem vHead_wide {vd : VDst} {va : Fin 64} {r : List Instr} (h : (coreOf s c).qv = .vwide c vd va :: r)
    (hvd : vd.reg.val < 63) :
    onlyCore s (vHead (coreKey c) s) (coreKey c) (flagInc vd.flag (vWide vd.reg va { coreOf s c with qv := r })) :=
  vHead_core h fun _ => if_pos hvd

/-- Settles O17: an instruction joins queue V by dispatch, and executes by its effect on the core. -/
theorem vectorInstructionsAndStores : Obligations.VectorInstructionsAndStores := by
  refine ⟨fun s c h hq => ⟨?_, ?_, ?_, ?_, ?_, ?_, ?_, ?_, ?_, ?_⟩,
    ⟨?load, ?arith, ?transcendental, ?sum, ?max, ?top, ?dot8, ?wide, ?convert⟩, vectorStore_writes⟩
  case load => exact fun _ _ _ _ _ h => vHead_load h
  case arith =>
    intro s c op fmt vd va vb vc r h
    exact vHead_core (f := vArith op fmt vd.reg va vb vc) h fun _ => rfl
  case transcendental =>
    intro s c g fmt f vd va r hf h
    exact vHead_core (f := vFun g f vd.reg va) h fun _ => vEffect_float hf (fun f => vFun g f vd.reg va) _
  case sum =>
    intro s c fmt f vd va n r hf h
    exact vHead_core (f := vSum f vd.reg va n) h fun _ => vEffect_float hf (fun f => vSum f vd.reg va n) _
  case max =>
    intro s c fmt f isMin vd va n r hf h
    exact vHead_core (f := vMax f isMin vd.reg va n) h fun _ => vEffect_float hf (fun f => vMax f isMin vd.reg va n) _
  case top =>
    intro s c fmt f vd va n k r hf h
    exact vHead_core (f := vTop f vd.reg va n k) h fun _ => vEffect_float hf (fun f => vTop f vd.reg va n k) _
  case dot8 =>
    intro s c vd va vb r h
    exact vHead_core (f := vDot8 vd.reg va vb) h fun _ => rfl
  case wide => exact fun _ _ _ _ _ h hvd => vHead_wide h hvd
  case convert =>
    intro s c src dst vd va r h
    exact vHead_core (f := vConvert src dst vd.reg va) h fun _ => rfl
  all_goals
    intros
    exact congrArg Host.Outcome.next (dispatch_vector rfl h hq)

end Sys2Proof.Machine
end

section
/-! PROOFS. Rows into the engines (05, R132, R133): fills of input buffers, and the blocks of O18. -/
namespace Sys2Proof.Machine

variable {s t : State} {c : CoreId} {i : Instr} {k : Nat} {x y : CoreSt} {e : Nat}

/- What has nothing in its queue does not start (R126). -/
theorem startMx_idle (h : (coreAt s.u k).qm = []) : startMx k s = s := by simp [startMx, h]
theorem startQz_idle (h : (coreAt s.u k).qq = []) : startQz k s = s := by simp [startQz, h]
theorem startCf_idle (h : (coreAt s.u k).qf = []) : startCf k s = s := by simp [startCf, h]
theorem startD_idle (h : (coreAt s.u k).qd = []) : startD k s = s := by simp [startD, h]
theorem startH_idle (h : (coreAt s.u k).qh = []) : onUnits (startH k) s = s := by simp [onUnits, startH, h]
/-- Nothing that starts reads the other queues. -/
theorem kick_of_rows (hm : (coreAt s.u k).qm = []) (ht : startCf k (startQz k s) = t) (hd : (coreAt t.u k).qd = [])
    (hh : (coreAt t.u k).qh = []) : kick k s = t := by
  rw [kick, foldl_still (startMx_idle hm), ht, foldl_still (startD_idle hd), startH_idle hh]

/- Engines of a core. -/
@[simp] theorem engAt_modEng_self (e : Nat) (f : Eng → Eng) (x : CoreSt) : engAt (modEng e f x) e = f (engAt x e) :=
  tgetD_tset_self ..
theorem engAt_modEng_other {j : Nat} (f : Eng → Eng) (x : CoreSt) (h : j ≠ e) : engAt (modEng e f x) j = engAt x j :=
  tgetD_tset_other _ _ _ h
theorem maskEngines_nodup (m : BitVec 16) : (maskEngines m).Nodup := List.nodup_range.filter _
theorem lt_of_mem_maskEngines {m : BitVec 16} (h : e ∈ maskEngines m) : e < 16 :=
  List.mem_range.mp (List.mem_filter.mp h).1

/-- From x to y the engines alone change, and of their input buffers those of e alone, to bs. -/
def BufsAt (e : Nat) (bs : List InBuf) (x y : CoreSt) : Prop :=
  y = { x with eng := y.eng } ∧ (engAt y e).bufs = bs ∧ ∀ j, j ≠ e → (engAt y j).bufs = (engAt x j).bufs

theorem bufsAt_modEng (f : Eng → Eng) (x : CoreSt) : BufsAt e (f (engAt x e)).bufs x (modEng e f x) :=
  ⟨rfl, by rw [engAt_modEng_self], fun _ h => by rw [engAt_modEng_other _ _ h]⟩
theorem BufsAt.trans {z : CoreSt} {bs bs' : List InBuf} (h : BufsAt e bs x y) (h' : BufsAt e bs' y z) :
    BufsAt e bs' x z := by
  obtain ⟨hy, -, hj⟩ := h
  obtain ⟨hz, he, hj'⟩ := h'
  exact ⟨hz.trans (by rw [hy]), he, fun j h => (hj' j h).trans (hj j h)⟩

/-- A row for each of a list of engines: the engines alone change, and each of the list gains its buffer. -/
theorem foldl_fill {α : Type} (key : α → Nat) (b : α → InBuf) (f : CoreSt → α → CoreSt)
    (hf : ∀ x a, BufsAt (key a) ((engAt x (key a)).bufs ++ [b a]) x (f x a)) (l : List α) (hl : (l.map key).Nodup) (x : CoreSt) :
    l.foldl f x = { x with eng := (l.foldl f x).eng } ∧
      (∀ a ∈ l, (engAt (l.foldl f x) (key a)).bufs = (engAt x (key a)).bufs ++ [b a]) ∧
      ∀ j, j ∉ l.map key → (engAt (l.foldl f x) j).bufs = (engAt x j).bufs := by
  induction l generalizing x with
  | nil => exact ⟨rfl, nofun, fun _ _ => rfl⟩
  | cons a l ih =>
    obtain ⟨hal, hl⟩ := List.nodup_cons.mp hl
    obtain ⟨hx, hb, hother⟩ := hf x a
    obtain ⟨hr, hmem, hnot⟩ := ih hl (f x a)
    rw [List.foldl_cons]
    refine ⟨hr.trans (by rw [hx]), fun a' ha => ?_, fun j hj => ?_⟩
    · obtain rfl | ha := List.mem_cons.mp ha
      · exact (hnot _ hal).trans hb
      · have hne : key a' ≠ key a := fun h => hal (h ▸ List.mem_map_of_mem ha)
        rw [hmem a' ha, hother _ hne]
    · rw [List.map_cons, List.mem_cons, not_or] at hj
      obtain ⟨hja, hjl⟩ := hj
      exact (hnot j hjl).trans (hother j hja)

/- One engine takes a row (R133). -/
theorem fillBuf_bufs (row : Row) (src : Option (List Nat × List Nat × Nat)) (ring : Option Nat) (e : Nat) (x : CoreSt) :
    BufsAt e ((engAt x e).bufs ++ [{ row := row, src := src, ring := ring }]) x (fillBuf row src ring e x) :=
  bufsAt_modEng _ x
theorem countClip_bufs (nf : Bool) (a : Nat) (row : Row) (cl : List Nat) (e : Nat) (x : CoreSt) :
    BufsAt e (engAt x e).bufs x (countClip nf a row cl e x) := by
  unfold countClip
  split
  · exact ⟨rfl, rfl, fun _ _ => rfl⟩
  · exact bufsAt_modEng _ x
theorem countClip_fillBuf_bufs (nf : Bool) (a : Nat) (row : Row) (cl : List Nat) (src : Option (List Nat × List Nat × Nat))
    (e : Nat) (x : CoreSt) :
    BufsAt e ((engAt x e).bufs ++ [{ row := row, src := src, ring := none }]) x
      (countClip nf a row cl e (fillBuf row src none e x)) := by
  have hfill := fillBuf_bufs row src none e x
  have hclip := countClip_bufs nf a row cl e (fillBuf row src none e x)
  rw [hfill.2.1] at hclip
  exact hfill.trans hclip
theorem fillReady_of_empty {l : List Nat} (h : ∀ e ∈ l, (engAt x e).bufs = []) : fillReady x l = true :=
  List.all_eq_true.mpr fun e he => by rw [h e he]; rfl

/-- What a row is broadcast to. -/
theorem rowParts_bcast (l : List Nat) (r : Row) : rowParts .bcast l r = l.map (fun e => (e, r, 0)) := rfl

/- QZ starts (R132). -/
/-- The row that a QZ makes of its source. -/
def qzRow (s : State) (k : Nat) (op : QzOp) : Row :=
  let r := (quantise op.fmt op.outMax op.outTau.toNat (bfRow s k op.src op.n)).1
  { r with poison := r.poison || sramPois s k op.src (2 * op.n) || launchPois s.u k }
/-- The row in an input buffer, not yet ready. -/
def qzBuf (s : State) (k : Nat) (op : QzOp) : InBuf :=
  { row := qzRow s k op, src := some (bfRow s k op.src op.n, (qzRow s k op).lanes.map (·.1), 0) }
/-- What the start of a QZ leaves of its core. -/
def qzCore (s : State) (k : Nat) (op : QzOp) : CoreSt :=
  { (maskEngines op.mask).foldl (fun c e =>
      countClip (quantise op.fmt op.outMax op.outTau.toNat (bfRow s k op.src op.n)).1.poison 0 (qzRow s k op)
        (quantise op.fmt op.outMax op.outTau.toNat (bfRow s k op.src op.n)).2 e
        (fillBuf (qzRow s k op) (qzBuf s k op).src none e c)) (coreAt s.u k) with
    qFill := some { engines := maskEngines op.mask, flag := op.flag } }

/-- The engines of a broadcast row. -/
theorem rowParts_bcast_engines (l : List Nat) (r : Row) : (rowParts .bcast l r).map (·.1) = l :=
  (List.map_map ..).trans (List.map_id l)

theorem startQz_starts {op : QzOp} {r : List QzOp} (hq : (coreAt s.u k).qq = op :: r) (hqf : (coreAt s.u k).qFill = none)
    (hff : (coreAt s.u k).fFill = none) (hrec : op.recTo = none) (hd : op.distr = .bcast)
    (hb : ∀ e, e < 16 → (engAt (coreAt s.u k) e).bufs = []) :
    ∃ v, startQz k s = { s with u := v } ∧ noticeFrame (setCore k (qzCore s k op) s.u) v := by
  have hready : fillReady (coreAt s.u k) (maskEngines op.mask) = true :=
    fillReady_of_empty fun e he => hb e (lt_of_mem_maskEngines he)
  have hgo : ¬ ((coreAt s.u k).qFill.isSome ∨ (coreAt s.u k).fFill.isSome ∨
      (!fillReady (coreAt s.u k) (maskEngines op.mask)) = true) := by simp [hqf, hff, hready]
  simp only [startQz, hq, hd, hrec, rowParts_bcast_engines]
  simp only [rowParts_bcast, List.foldl_map]
  exact ⟨_, (if_neg hgo).trans rfl,
    noticeFrame_trans (noticeFrame_trans (noticeFrame_dieBump ..) (noticeFrame_dieBump ..)) (noticeFrame_dieBump ..)⟩

/-- One row for every engine of a mask: the engines alone change. -/
theorem foldl_fill_mask {f : CoreSt → Nat → CoreSt} {b : InBuf} {m : BitVec 16} (x : CoreSt)
    (hf : ∀ x e, BufsAt e ((engAt x e).bufs ++ [b]) x (f x e)) :
    (maskEngines m).foldl f x = { x with eng := ((maskEngines m).foldl f x).eng } ∧
      ∀ e ∈ maskEngines m, (engAt ((maskEngines m).foldl f x) e).bufs = (engAt x e).bufs ++ [b] := by
  obtain ⟨hr, hmem, -⟩ := foldl_fill id (fun _ => b) f hf (maskEngines m) (by simpa using maskEngines_nodup m) x
  exact ⟨hr, hmem⟩

theorem qzCore_spec (s : State) (k : Nat) (op : QzOp) :
    qzCore s k op = { coreAt s.u k with
      qFill := some { engines := maskEngines op.mask, flag := op.flag }, eng := (qzCore s k op).eng } ∧
    ∀ e ∈ maskEngines op.mask, (engAt (qzCore s k op) e).bufs = (engAt (coreAt s.u k) e).bufs ++ [qzBuf s k op] := by
  obtain ⟨hr, hb⟩ := foldl_fill_mask (b := qzBuf s k op) (m := op.mask) (coreAt s.u k)
    (fun x e => countClip_fillBuf_bufs _ 0 (qzRow s k op) _ (qzBuf s k op).src e x)
  exact ⟨congrArg (fun y : CoreSt => { y with qFill := some { engines := maskEngines op.mask, flag := op.flag } }) hr, hb⟩

/-- A core instruction that passes, and of which kick starts no vector instruction. -/
theorem dispatch_starts {i : Instr} {x : CoreSt} (h : mayDispatch s c = true) (hv : (coreOf s c).qv = [])
    (ht : tryDispatch i (coreKey c) s = some { s with u := setCore (coreKey c) x s.u })
    (hk : kick (coreKey c) { s with u := setCore (coreKey c) (advPc 0 x) s.u } = t)
    (htv : (coreAt t.u (coreKey c)).qv = []) : dispatch i c s = t := by
  rw [dispatch_passes h hv ht, afterDispatch, onUnits, modCore_setCore, hk, vAdvance_empty htv]

theorem qz_fills (s : State) (c : CoreId) (op : QzOp) (h : mayDispatch s c = true) (hq : quietCore (coreOf s c))
    (hqf : (coreOf s c).qFill = none) (hff : (coreOf s c).fFill = none) (hrec : op.recTo = none) (hd : op.distr = .bcast)
    (hb : ∀ e, e < 16 → (engAt (coreOf s c) e).bufs = []) :
    ∃ t, exec (.qz c op) s = .next t ∧ (coreOf t c).qq = [op] ∧
      (coreOf t c).qFill = some { engines := maskEngines op.mask, flag := op.flag } ∧
      (∀ e, e ∈ maskEngines op.mask → ∃ b, (engAt (coreOf t c) e).bufs = [b] ∧ b.ready = false ∧
        b.row = { (quantise op.fmt op.outMax op.outTau.toNat (bfRow s (coreKey c) op.src op.n)).1 with
          poison := (quantise op.fmt op.outMax op.outTau.toNat (bfRow s (coreKey c) op.src op.n)).1.poison ||
            sramPois s (coreKey c) op.src (2 * op.n) || launchPois s.u (coreKey c) }) ∧
      t.m = s.m ∧ t.q = s.q ∧ ∀ k, k ≠ coreKey c → coreAt t.u k = coreAt s.u k := by
  obtain ⟨hqq, hqf0, hqm, hqv, hqd, hqh⟩ := hq
  let s' : State := { s with u := setCore (coreKey c) (advPc 0 { coreOf s c with qq := [op] }) s.u }
  have hx : coreAt s'.u (coreKey c) = advPc 0 { coreOf s c with qq := [op] } := coreAt_setCore ..
  have ht : tryDispatch (.qz c op) (coreKey c) s = some { s with u := setCore (coreKey c) { coreOf s c with qq := [op] } s.u } := by
    dsimp only [coreOf] at hqq
    simp [tryDispatch, hqq, coreOf]
  obtain ⟨v, hstart, hframe⟩ := startQz_starts (s := s') (k := coreKey c) (op := op) (r := []) (by rw [hx]; rfl) (by rw [hx]; exact hqf)
    (by rw [hx]; exact hff) hrec hd (by rw [hx]; exact hb)
  obtain ⟨hspec, hbufs⟩ := qzCore_spec s' (coreKey c) op
  have hcore := coreAt_of_core_eq (noticeFrame_core hframe)
  have hself : coreAt v (coreKey c) = qzCore s' (coreKey c) op := (hcore _).trans (coreAt_setCore ..)
  rw [hx] at hspec hbufs
  have hdone : dispatch (.qz c op) c s = { s' with u := v } := by
    refine dispatch_starts h hqv ht (kick_of_rows (by rw [hx]; exact hqm) ?_ ?_ ?_) ?_
    · rw [hstart, startCf_idle]
      rw [hself, hspec]
      exact hqf0
    all_goals rw [hself, hspec]; assumption
  refine ⟨_, congrArg Host.Outcome.next hdone, ?_⟩
  dsimp only [coreOf]
  rw [hself]
  refine ⟨by rw [hspec]; rfl, by rw [hspec], fun e he => ⟨qzBuf s' (coreKey c) op, (hbufs e he).trans ?_, rfl, ?_⟩, rfl, rfl, fun j hj => ?_⟩
  · rw [show engAt (advPc 0 { coreOf s c with qq := [op] }) e = engAt (coreOf s c) e from rfl,
      hb e (lt_of_mem_maskEngines he), List.nil_append]
  · have hp : sramPois s' (coreKey c) = sramPois s (coreKey c) := by
      funext a n
      rw [sramPois, hx]
      rfl
    have hl : launchPois s'.u (coreKey c) = launchPois s.u (coreKey c) := by
      rw [launchPois, hx]
      rfl
    change qzRow s' (coreKey c) op = _
    rw [qzRow, hp, hl]
    rfl
  · exact ((hcore j).trans (coreAt_setCore_other _ _ hj)).trans (coreAt_setCore_other _ _ hj)

/- CF starts (R133). -/
/-- The row that a CF reads. -/
def cfRow (s : State) (k : Nat) (op : CfOp) : Row :=
  let size := 64 + op.n * afBits op.fmt / 8 + 8 * le (sramRead s k op.src 64) 24 2
  { rowOfRecord op.fmt op.n (sramRead s k op.src size) with poison := sramPois s k op.src size || launchPois s.u k }
/-- The row in an input buffer, not yet ready, with the ring record it came from. -/
def cfBuf (s : State) (k : Nat) (op : CfOp) : InBuf :=
  { row := cfRow s k op, src := none, ring := if inRing s.u k op.src then some op.src else none }
/-- What the start of a CF leaves of its core. -/
def cfCore (s : State) (k : Nat) (op : CfOp) : CoreSt :=
  { (maskEngines op.mask).foldl (fun c e => fillBuf (cfRow s k op) none (cfBuf s k op).ring e c) (coreAt s.u k) with
    fFill := some { engines := maskEngines op.mask, flag := op.flag } }

theorem startCf_starts {op : CfOp} {r : List CfOp} (hq : (coreAt s.u k).qf = op :: r) (hqf : (coreAt s.u k).qFill = none)
    (hff : (coreAt s.u k).fFill = none) (hd : op.distr = .bcast)
    (hb : ∀ e, e < 16 → (engAt (coreAt s.u k) e).bufs = []) :
    startCf k s = { s with u := setCore k (cfCore s k op) s.u } := by
  have hready : fillReady (coreAt s.u k) (maskEngines op.mask) = true :=
    fillReady_of_empty fun e he => hb e (lt_of_mem_maskEngines he)
  have hgo : ¬ ((coreAt s.u k).qFill.isSome ∨ (coreAt s.u k).fFill.isSome ∨
      (!fillReady (coreAt s.u k) (maskEngines op.mask)) = true) := by simp [hqf, hff, hready]
  simp only [startCf, hq, hd, rowParts_bcast_engines]
  simp only [rowParts_bcast, List.foldl_map]
  exact (if_neg hgo).trans rfl

theorem cfCore_spec (s : State) (k : Nat) (op : CfOp) :
    cfCore s k op = { coreAt s.u k with
      fFill := some { engines := maskEngines op.mask, flag := op.flag }, eng := (cfCore s k op).eng } ∧
    ∀ e ∈ maskEngines op.mask, (engAt (cfCore s k op) e).bufs = (engAt (coreAt s.u k) e).bufs ++ [cfBuf s k op] := by
  obtain ⟨hr, hb⟩ := foldl_fill_mask (b := cfBuf s k op) (m := op.mask) (coreAt s.u k)
    (fun x e => fillBuf_bufs (cfRow s k op) none (cfBuf s k op).ring e x)
  exact ⟨congrArg (fun y : CoreSt => { y with fFill := some { engines := maskEngines op.mask, flag := op.flag } }) hr, hb⟩

theorem cf_fills (s : State) (c : CoreId) (op : CfOp) (h : mayDispatch s c = true) (hq : quietCore (coreOf s c))
    (hqf : (coreOf s c).qFill = none) (hff : (coreOf s c).fFill = none) (hd : op.distr = .bcast)
    (hb : ∀ e, e < 16 → (engAt (coreOf s c) e).bufs = []) :
    ∃ t, exec (.cf c op) s = .next t ∧ (coreOf t c).qf = [op] ∧
      (coreOf t c).fFill = some { engines := maskEngines op.mask, flag := op.flag } ∧
      (∀ e, e ∈ maskEngines op.mask → ∃ b, (engAt (coreOf t c) e).bufs = [b] ∧ b.ready = false ∧ b.src = none ∧
        b.row.codes = (rowOfRecord op.fmt op.n (sramRead s (coreKey c) op.src
          (64 + op.n * afBits op.fmt / 8 + 8 * le (sramRead s (coreKey c) op.src 64) 24 2))).codes) ∧
      t.m = s.m ∧ t.q = s.q ∧ ∀ k, k ≠ coreKey c → coreAt t.u k = coreAt s.u k := by
  obtain ⟨hqq, hqf0, hqm, hqv, hqd, hqh⟩ := hq
  let s' : State := { s with u := setCore (coreKey c) (advPc 0 { coreOf s c with qf := [op] }) s.u }
  have hx : coreAt s'.u (coreKey c) = advPc 0 { coreOf s c with qf := [op] } := coreAt_setCore ..
  have ht : tryDispatch (.cf c op) (coreKey c) s = some { s with u := setCore (coreKey c) { coreOf s c with qf := [op] } s.u } := by
    dsimp only [coreOf] at hqf0
    simp [tryDispatch, hqf0, coreOf]
  have hstart := startCf_starts (s := s') (k := coreKey c) (op := op) (r := []) (by rw [hx]; rfl) (by rw [hx]; exact hqf)
    (by rw [hx]; exact hff) hd (by rw [hx]; exact hb)
  obtain ⟨hspec, hbufs⟩ := cfCore_spec s' (coreKey c) op
  have hself : coreAt (setCore (coreKey c) (cfCore s' (coreKey c) op) s'.u) (coreKey c) = cfCore s' (coreKey c) op :=
    coreAt_setCore ..
  rw [hx] at hspec hbufs
  have hdone : dispatch (.cf c op) c s = { s' with u := setCore (coreKey c) (cfCore s' (coreKey c) op) s'.u } := by
    refine dispatch_starts h hqv ht (kick_of_rows (by rw [hx]; exact hqm) ?_ ?_ ?_) ?_
    · rw [startQz_idle (by rw [hx]; exact hqq), hstart]
    all_goals rw [hself, hspec]; assumption
  refine ⟨_, congrArg Host.Outcome.next hdone, ?_⟩
  dsimp only [coreOf]
  rw [hself]
  refine ⟨by rw [hspec]; rfl, by rw [hspec],
    fun e he => ⟨cfBuf s' (coreKey c) op, (hbufs e he).trans ?_, rfl, rfl, rfl⟩, rfl, rfl, fun j hj => ?_⟩
  · rw [show engAt (advPc 0 { coreOf s c with qf := [op] }) e = engAt (coreOf s c) e from rfl,
      hb e (lt_of_mem_maskEngines he), List.nil_append]
  · exact (coreAt_setCore_other _ _ hj).trans (coreAt_setCore_other _ _ hj)

/- A fill ends (R128, R133). -/
theorem flagInc_counts (f : Fin 32) (x : CoreSt) :
    tgetD (flagInc (some f) x).flags f 0 = min 65535 (tgetD x.flags f 0 + 1) := tgetD_tset_self ..
theorem engAt_flagInc (f : Option (Fin 32)) (x : CoreSt) (e : Nat) : engAt (flagInc f x) e = engAt x e := by
  cases f <;> rfl
theorem settle_quiet (hq : quietCore (coreAt s.u k)) (hs : (coreAt s.u k).stalled = none) : settle k s = s := by
  have hv : (coreAt s.u k).qv = [] := by
    obtain ⟨-, -, -, hv, -⟩ := hq
    exact hv
  rw [settle, kick_quiet hq, vAdvance_empty hv, retry_unstalled hs]

/-- One engine's only row becomes ready. -/
theorem fillEnd_one {b : InBuf} (f : Fin 32) (h : (engAt x e).bufs = [b]) :
    fillEnd { engines := [e], flag := some f } x = { x with
      eng := (fillEnd { engines := [e], flag := some f } x).eng, flags := (fillEnd { engines := [e], flag := some f } x).flags } ∧
    (engAt (fillEnd { engines := [e], flag := some f } x) e).bufs = [{ b with ready := true }] ∧
    tgetD (fillEnd { engines := [e], flag := some f } x).flags f 0 = min 65535 (tgetD x.flags f 0 + 1) := by
  refine ⟨rfl, ?_, flagInc_counts ..⟩
  simp only [fillEnd, List.foldl_cons, List.foldl_nil, engAt_flagInc, engAt_modEng_self, h]
  cases hb : b.ready <;> simp [hb]
  rw [← hb]

/-- A fill's end takes its instruction out of its queue. -/
def popFill (isQ : Bool) (x : CoreSt) : CoreSt :=
  if isQ then { x with qFill := none, qq := x.qq.drop 1 } else { x with fFill := none, qf := x.qf.drop 1 }
theorem bufferReady_ends {isQ : Bool} {f : Fill} (hpres : corePresent s.asm s.u c = true)
    (hf : (if isQ then (coreOf s c).qFill else (coreOf s c).fFill) = some f)
    (hq : quietCore (popFill isQ (fillEnd f (coreOf s c)))) (hs : (popFill isQ (fillEnd f (coreOf s c))).stalled = none) :
    exec (.bufferReady c isQ) s = .next { s with u := setCore (coreKey c) (popFill isQ (fillEnd f (coreOf s c))) s.u } := by
  refine congrArg Host.Outcome.next ((if_pos hpres).trans ?_)
  dsimp only [coreOf] at hf
  rw [bufferReady, hf]
  exact settle_quiet (by rw [coreAt_setCore]; exact hq) (by rw [coreAt_setCore]; exact hs)

/-- Settles O18: a row goes to each engine of the mask, its fill's end makes it ready, and a full queue stalls dispatch. -/
theorem rowsReachTheirEngines : Obligations.RowsReachTheirEngines := by
  refine ⟨qz_fills, cf_fills, ?qReady, ?fReady, ?qStalls, ?fStalls⟩
  case qReady =>
    intro s c e b op f hpres hquiet hq hs hfill hb
    obtain ⟨hspec, hbuf, hflag⟩ := fillEnd_one f hb
    have hpop : popFill true (fillEnd { engines := [e.val], flag := some f } (coreOf s c)) =
        { fillEnd { engines := [e.val], flag := some f } (coreOf s c) with qFill := none, qq := [] } := by
      rw [popFill, if_pos rfl, hspec]
      simp [hq]
    refine ⟨_, bufferReady_ends hpres hfill ?_ ?_, ?_⟩
    · rw [hpop, hspec]
      exact hquiet
    · rw [hpop, hspec]
      exact hs
    · dsimp only [coreOf] at hpop ⊢
      rw [coreAt_setCore, hpop]
      exact ⟨rfl, rfl, hbuf, hflag, rfl, fun j hj => coreAt_setCore_other _ _ hj⟩
  case fReady =>
    intro s c e b op f hpres hquiet hq hs hfill hb
    obtain ⟨hspec, hbuf, hflag⟩ := fillEnd_one f hb
    have hpop : popFill false (fillEnd { engines := [e.val], flag := some f } (coreOf s c)) =
        { fillEnd { engines := [e.val], flag := some f } (coreOf s c) with fFill := none, qf := [] } := by
      rw [popFill, if_neg Bool.false_ne_true, hspec]
      simp [hq]
    refine ⟨_, bufferReady_ends hpres hfill ?_ ?_, ?_⟩
    · rw [hpop, hspec]
      exact hquiet
    · rw [hpop, hspec]
      exact hs
    · dsimp only [coreOf] at hpop ⊢
      rw [coreAt_setCore, hpop]
      exact ⟨rfl, rfl, hbuf, hflag, rfl, fun j hj => coreAt_setCore_other _ _ hj⟩
  case qStalls =>
    intro s c op h hlen hv
    exact ⟨_, rfl, dispatch_stalled h hv (if_neg (Nat.not_lt.mpr hlen))⟩
  case fStalls =>
    intro s c op h hlen hv
    exact ⟨_, rfl, dispatch_stalled h hv (if_neg (Nat.not_lt.mpr hlen))⟩

end Sys2Proof.Machine
end

section
/-! PROOFS. Passes of the engines (04, 05, R109, R128, R134): their start, their results in SRAM, and the blocks of O19. -/
namespace Sys2Proof.Machine

variable {s t : State} {c : CoreId} {i : Instr} {k : Nat} {x y : CoreSt} {e : Nat}

/- Poison of written ranges (R420). -/
theorem mem_fromN {a n x : Nat} : x ∈ fromN a n ↔ a ≤ x ∧ x < a + n := by
  simp only [fromN, List.mem_map, List.mem_range]
  constructor
  · rintro ⟨i, hi, rfl⟩
    omega
  · rintro ⟨hlo, hhi⟩
    exact ⟨x - a, by omega, by omega⟩
theorem first_mem_unitsOf {addr n : Nat} (h : 0 < n) : addr / 64 ∈ unitsOf addr n := by
  rw [unitsOf, if_neg (by omega), mem_fromN, ceilDiv]
  omega
theorem mem_poisAfter_poisoned {l : List Nat} {addr n x : Nat} (h : x ∈ unitsOf addr n) : x ∈ poisAfter l addr n true := by
  by_cases hx : x ∈ l
  · simp [poisAfter, hx]
  · simp [poisAfter, hx, h]
/-- A poisoned write of some bytes leaves them poisoned. -/
theorem sramPois_of_poisAfter {l : List Nat} {addr n : Nat} (h : (coreAt s.u k).pois = poisAfter l addr n true) (hn : 0 < n) :
    sramPois s k addr n = true := by
  rw [sramPois, h, List.any_eq_true]
  exact ⟨_, first_mem_unitsOf hn, by simpa using mem_poisAfter_poisoned (first_mem_unitsOf hn)⟩

/-- Engines become busy: their buffers stand. -/
theorem foldl_busy (l : List Nat) (x : CoreSt) :
    l.foldl (fun c e => modEng e (fun x => { x with busy := true }) c) x =
      { x with eng := (l.foldl (fun c e => modEng e (fun x => { x with busy := true }) c) x).eng } ∧
    (∀ e, (engAt (l.foldl (fun c e => modEng e (fun x => { x with busy := true }) c) x) e).bufs = (engAt x e).bufs) ∧
    (∀ e, e ∈ l ∨ (engAt x e).busy = true →
      (engAt (l.foldl (fun c e => modEng e (fun x => { x with busy := true }) c) x) e).busy = true) := by
  induction l generalizing x with
  | nil => exact ⟨rfl, fun _ => rfl, fun e h => h.resolve_left (List.not_mem_nil (a := e))⟩
  | cons a l ih =>
    obtain ⟨hr, hb, hbusy⟩ := ih (modEng a (fun x => { x with busy := true }) x)
    rw [List.foldl_cons]
    refine ⟨hr, fun e => (hb e).trans ?_, fun e he => hbusy e ?_⟩
    · by_cases h : e = a
      · rw [h, engAt_modEng_self]
      · rw [engAt_modEng_other _ _ h]
    · by_cases h : e = a
      · exact .inr (by rw [h, engAt_modEng_self])
      · rw [engAt_modEng_other _ _ h]
        exact he.imp_left fun hm => (List.mem_cons.mp hm).resolve_left h

/-- What starts once in a row of tries. -/
theorem foldl_once {f : State → State} (h : f s = t) (ht : f t = t) (n : Nat) :
    (List.range (n + 1)).foldl (fun s _ => f s) s = t := by
  rw [List.range_succ_eq_map, List.foldl_cons, h, foldl_still ht]
/-- A pass starts and nothing else of its core does. -/
theorem kick_of_pass (h : startMx k s = t) (hq : quietCore (coreAt t.u k)) : kick k s = t := by
  obtain ⟨hqq, hqf, hqm, -, hqd, hqh⟩ := hq
  rw [kick, foldl_once h (startMx_idle hqm), startQz_idle hqq, startCf_idle hqf, foldl_still (startD_idle hqd), startH_idle hqh]

/- The start of a pass (R134, R135). -/
/-- The pass that an MX starts. -/
def mxPass (s : State) (k : Nat) (op : MxOp) : Pass :=
  { outs := ((passValues (coreAt s.u k) op).1.map (fun o => ({ engine := o.1, addr := o.2.1, data := passBytes (mxFf op) o.2.2 } : PassOut))) ++
      ((maskEngines op.mask).filter (fun e => !(passValues (coreAt s.u k) op).1.any (fun o => o.1 == e))).map
        (fun e => ({ engine := e } : PassOut))
    group := op.group, ff := mxFf op
    poison := (maskEngines op.mask).any (fun e => match nextBuf (coreAt s.u k) e with | some b => b.row.poison | none => false) ||
      launchPois s.u k
    flag := op.flag }
/-- What the start of a pass leaves of its core. -/
def mxCore (s : State) (k : Nat) (op : MxOp) : CoreSt :=
  { (maskEngines op.mask).foldl (fun c e => modEng e (fun x => { x with busy := true }) c) (coreAt s.u k) with
    qm := (coreAt s.u k).qm.drop 1, passes := (coreAt s.u k).passes ++ [mxPass s k op] }
/-- The engines that write nothing are not of the pass's results. -/
theorem mxPass_outs (s : State) (k : Nat) (op : MxOp) :
    (mxPass s k op).outs.filter (fun o => !o.data.isEmpty) = ((passValues (coreAt s.u k) op).1.map (fun o =>
      ({ engine := o.1, addr := o.2.1, data := passBytes (mxFf op) o.2.2 } : PassOut))).filter (fun o => !o.data.isEmpty) := by
  rw [mxPass, List.filter_append]
  simp [List.filter_map, Function.comp_def]

theorem startMx_starts {op : MxOp} {r : List MxOp} (hq : (coreAt s.u k).qm = op :: r) (hl : (coreAt s.u k).loading = false)
    (he : ∀ e, e ∈ maskEngines op.mask → (engAt (coreAt s.u k) e).busy = false ∧ (nextBuf (coreAt s.u k) e).isSome = true)
    (hv : mxInvalid (coreAt s.u k) op = false) :
    ∃ v, startMx k s = { s with u := v } ∧ noticeFrame (setCore k (mxCore s k op) s.u) v := by
  have hfree : (maskEngines op.mask).all (fun e => !(engAt (coreAt s.u k) e).busy && (nextBuf (coreAt s.u k) e).isSome) = true := by
    rw [List.all_eq_true]
    intro e hm
    obtain ⟨hb, hn⟩ := he e hm
    simp [hb, hn]
  have hfold := (foldl_busy (maskEngines op.mask) (coreAt s.u k)).1
  simp only [startMx, hq, hl, hfree, hv, Bool.false_eq_true, Bool.not_true, if_false]
  refine ⟨_, rfl, ?_⟩
  have hcore : mxCore s k op = { (maskEngines op.mask).foldl (fun c e => modEng e (fun x => { x with busy := true }) c) (coreAt s.u k) with
      qm := r, passes := ((maskEngines op.mask).foldl (fun c e => modEng e (fun x => { x with busy := true }) c) (coreAt s.u k)).passes ++
        [mxPass s k op] } := by
    rw [mxCore, hq, hfold]
    rfl
  rw [hcore]
  exact noticeFrame_trans (noticeFrame_dieBump ..) (noticeFrame_dieBump ..)

theorem mx_starts (s : State) (c : CoreId) (op : MxOp) (h : mayDispatch s c = true) (hq : quietCore (coreOf s c))
    (hl : (coreOf s c).loading = false)
    (he : ∀ e, e ∈ maskEngines op.mask → (engAt (coreOf s c) e).busy = false ∧ (nextBuf (coreOf s c) e).isSome = true)
    (hv : mxInvalid (coreOf s c) op = false) (hp : (coreOf s c).passes = []) :
    ∃ t p, exec (.mx c op) s = .next t ∧ (coreOf t c).qm = [] ∧ (coreOf t c).passes = [p] ∧
      p.flag = op.flag ∧ p.group = op.group ∧ p.ff = mxFf op ∧
      p.outs.filter (fun o => !o.data.isEmpty) = (((passValues (coreOf s c) op).1.map (fun o =>
        ({ engine := o.1, addr := o.2.1, data := passBytes (mxFf op) o.2.2 } : PassOut))).filter (fun o => !o.data.isEmpty)) ∧
      (∀ e, e ∈ maskEngines op.mask → (engAt (coreOf t c) e).busy = true ∧
        (engAt (coreOf t c) e).bufs = (engAt (coreOf s c) e).bufs) ∧
      t.m = s.m ∧ t.q = s.q ∧ ∀ k, k ≠ coreKey c → coreAt t.u k = coreAt s.u k := by
  obtain ⟨hqq, hqf, hqm, hqv, hqd, hqh⟩ := hq
  let s' : State := { s with u := setCore (coreKey c) (advPc 0 { coreOf s c with qm := [op] }) s.u }
  have hx : coreAt s'.u (coreKey c) = advPc 0 { coreOf s c with qm := [op] } := coreAt_setCore ..
  have ht : tryDispatch (.mx c op) (coreKey c) s = some { s with u := setCore (coreKey c) { coreOf s c with qm := [op] } s.u } := by
    dsimp only [coreOf] at hqm
    simp [tryDispatch, hqm, coreOf]
  obtain ⟨v, hstart, hframe⟩ := startMx_starts (s := s') (k := coreKey c) (op := op) (r := []) (by rw [hx]; rfl)
    (by rw [hx]; exact hl) (by rw [hx]; exact he) (by rw [hx]; exact hv)
  have hcore := coreAt_of_core_eq (noticeFrame_core hframe)
  have hself : coreAt v (coreKey c) = mxCore s' (coreKey c) op := (hcore _).trans (coreAt_setCore ..)
  obtain ⟨hspec, hbufs, hbusy⟩ := foldl_busy (maskEngines op.mask) (coreAt s'.u (coreKey c))
  have hdone : quietCore (mxCore s' (coreKey c) op) ∧ (mxCore s' (coreKey c) op).passes = [mxPass s' (coreKey c) op] := by
    rw [mxCore, hspec, hx]
    refine ⟨⟨hqq, hqf, rfl, hqv, hqd, hqh⟩, ?_⟩
    change (coreOf s c).passes ++ _ = _
    rw [hp, List.nil_append]
  rw [← hself] at hdone
  obtain ⟨hquiet, hpass⟩ := hdone
  obtain ⟨-, -, hqm', hqv', -⟩ := id hquiet
  refine ⟨_, mxPass s' (coreKey c) op, congrArg Host.Outcome.next (dispatch_starts h hqv ht (kick_of_pass hstart hquiet) hqv'),
    hqm', hpass, rfl, rfl, rfl, ?_, fun e hm => ?_, rfl, rfl, fun j hj => ?_⟩
  · rw [mxPass_outs, hx]
    rfl
  · dsimp only [coreOf]
    rw [hself]
    exact ⟨hbusy e (.inl hm), (hbufs e).trans (by rw [hx]; rfl)⟩
  · exact ((hcore j).trans (coreAt_setCore_other _ _ hj)).trans (coreAt_setCore_other _ _ hj)

/- The end of a pass (R109, R128). -/
/-- From x to y an engine ends its part of a pass: it is free, its first buffer is consumed, and of the core's other parts
only the record ring may change. -/
def Frees (e : Nat) (x y : CoreSt) : Prop :=
  y = { x with eng := y.eng, ring := y.ring } ∧ (engAt y e).busy = false ∧ (engAt y e).bufs = (engAt x e).bufs.drop 1
theorem frees_modEng {f : Eng → Eng} (hf : ∀ z, (f z).busy = false ∧ (f z).bufs = z.bufs.drop 1) (x : CoreSt) :
    Frees e x (modEng e f x) := by
  obtain ⟨hbusy, hbufs⟩ := hf (engAt x e)
  exact ⟨rfl, by rw [engAt_modEng_self, hbusy], by rw [engAt_modEng_self, hbufs]⟩
theorem Frees.ring (h : Frees e x y) (r : List RingEnt) : Frees e x { y with ring := r } := by
  obtain ⟨hy, hbusy, hbufs⟩ := h
  exact ⟨by rw [hy], hbusy, hbufs⟩
theorem passFree_frees (tick : Nat) (p : Pass) (o : PassOut) (x : CoreSt) :
    Frees o.engine x (passFree tick p o x) := by
  unfold passFree
  extract_lets z b w rest chain
  have hmod : Frees o.engine x (modEng o.engine (fun z =>
      let z := { z with
        busy := false, bufs := z.bufs.drop 1, last := some (b, p.group, p.ff), lastOut := w.data, lastAt := w.addr, chain := chain }
      if z.outTick = tick then { z with outs := z.outs ++ [(w.addr, w.data.length)] }
      else { z with outTick := tick, outs := [(w.addr, w.data.length)] }) x) := by
    refine frees_modEng (fun z => ?_) x
    dsimp only
    split <;> exact ⟨rfl, rfl⟩
  split
  · exact hmod
  · exact hmod.ring _

/-- The pass's end: the core as its engine leaves it, and the output written. -/
theorem passEnd_one {o : PassOut} {p : Pass} (hp : (coreAt s.u k).passes = [p]) (ho : p.outs = [o]) (hd : o.data ≠ []) :
    ∃ v, noticeFrame (setCore k (passFree s.u.tick.number p o (flagInc p.flag { coreAt s.u k with passes := [] })) s.u) v ∧
      passEnd k s = outWrite k o.addr o.data (p.poison || o.poison) { s with u := v } := by
  have hne : o.data.isEmpty = false := by simpa using hd
  simp only [passEnd, hp, ho, List.filter_cons, List.filter_nil, hne, Bool.not_false, if_true, List.foldl_cons, List.foldl_nil]
  exact ⟨_, noticeFrame_dieBump .., rfl⟩

/-- A completion flag counts: nothing else changes. -/
theorem flagInc_eq (f : Option (Fin 32)) (x : CoreSt) : flagInc f x = { x with flags := (flagInc f x).flags } := by
  cases f <;> rfl
/-- The core after the end of its only pass, before the output's poison is noted. -/
theorem passFree_core (tick : Nat) (p : Pass) (o : PassOut) (x : CoreSt) :
    ∃ g r, passFree tick p o (flagInc p.flag { x with passes := [] }) =
      { x with passes := [], flags := (flagInc p.flag x).flags, eng := g, ring := r } ∧
      (tgetD g o.engine {}).busy = false ∧ (tgetD g o.engine {}).bufs = (engAt x o.engine).bufs.drop 1 := by
  have hfree := passFree_frees tick p o (flagInc p.flag { x with passes := [] })
  generalize passFree tick p o (flagInc p.flag { x with passes := [] }) = z at hfree ⊢
  obtain ⟨hy, hbusy, hbufs⟩ := hfree
  have hflags : (flagInc p.flag { x with passes := [] }).flags = (flagInc p.flag x).flags := flagInc_flags _ rfl
  refine ⟨z.eng, z.ring, hy.trans ?_, hbusy, hbufs.trans ?_⟩
  · rw [flagInc_eq, hflags]
  · rw [engAt_flagInc]
    rfl

theorem mxPassDone_delivers (s : State) (c : CoreId) (e : Fin 16) (o : PassOut) (p : Pass)
    (hpres : corePresent s.asm s.u c = true) (hq : quietCore (coreOf s c)) (hs : (coreOf s c).stalled = none)
    (hp : (coreOf s c).passes = [p]) (ho : p.outs = [o]) (he : o.engine = e.val) (hd : o.data ≠ [])
    (hfit : o.addr + o.data.length ≤ 4194304) (hwf : (sramOf s (coreKey c)).wf = true) :
    ∃ t, exec (.mxPassDone c) s = .next t ∧ (coreOf t c).passes = [] ∧
      (engAt (coreOf t c) e).busy = false ∧
      (engAt (coreOf t c) e).bufs = (engAt (coreOf s c) e).bufs.drop 1 ∧
      (coreOf t c).flags = (flagInc p.flag (coreOf s c)).flags ∧
      mread (sramOf t (coreKey c)) o.addr o.data.length = o.data ∧
      ((p.poison = true ∨ o.poison = true) → sramPois t (coreKey c) o.addr o.data.length = true) ∧
      (∀ a, a < o.addr ∨ o.addr + o.data.length ≤ a → mget (sramOf t (coreKey c)) a = mget (sramOf s (coreKey c)) a) ∧
      (∀ k, k ≠ coreKey c → sramOf t k = sramOf s k) ∧ t.m.t1 = s.m.t1 ∧ t.m.t2 = s.m.t2 ∧ t.q = s.q := by
  obtain ⟨v, hframe, hend⟩ := passEnd_one (k := coreKey c) hp ho hd
  obtain ⟨g, r, hfree, hbusy, hbufs⟩ := passFree_core s.u.tick.number p o (coreOf s c)
  have hv : coreAt v (coreKey c) = { coreOf s c with passes := [], flags := (flagInc p.flag (coreOf s c)).flags, eng := g, ring := r } :=
    ((coreAt_of_core_eq (noticeFrame_core hframe) _).trans (coreAt_setCore ..)).trans hfree
  have hmem : sramOf (outWrite (coreKey c) o.addr o.data (p.poison || o.poison) { s with u := v }) (coreKey c) =
      mwrite (sramOf s (coreKey c)) o.addr o.data := sramOf_outWrite_self hfit _
  have hcore : coreAt (outWrite (coreKey c) o.addr o.data (p.poison || o.poison) { s with u := v }).u (coreKey c) =
      outCore o.addr o.data.length ((p.poison || o.poison) || launchPois v (coreKey c))
        { coreOf s c with passes := [], flags := (flagInc p.flag (coreOf s c)).flags, eng := g, ring := r } := by
    rw [outWrite_u hfit, coreAt_modCore, hv]
  refine ⟨_, (congrArg Host.Outcome.next (if_pos hpres)), ?_⟩
  rw [hend, settle_quiet (by rw [hcore]; exact hq) (by rw [hcore]; exact hs)]
  dsimp only [coreOf]
  rw [hcore, hmem]
  refine ⟨rfl, he ▸ hbusy, he ▸ hbufs, rfl, mread_mwrite_self _ _ hwf, fun hpo => ?_,
    fun a ha => mget_mwrite_other _ _ ha, fun j hj => ?_, rfl, rfl, rfl⟩
  · have hpois : (p.poison || o.poison) = true := by simpa using hpo
    refine sramPois_of_poisAfter (l := (coreOf s c).pois) ?_ (List.length_pos_iff.mpr hd)
    rw [hcore, hpois]
    rfl
  · exact sramOf_outWrite_other _ hj

/-- Settles O19: a pass starts with the model's own accumulation, and its end delivers it. -/
theorem passesRunAndDeliver : Obligations.PassesRunAndDeliver :=
  ⟨fun s c op h hq hl he _ hv hp => mx_starts s c op h hq hl he hv hp, mxPassDone_delivers⟩

end Sys2Proof.Machine
end

section
/-! PROOFS. Queue D of a core (05, R143 to R146): what a DM's start and end leave of its core, copies of a unit, and the
blocks of O20. -/
namespace Sys2Proof.Machine

variable {s t r : State} {c : CoreId} {k : Nat} {u v w : Units} {x y : CoreSt}

/- Packets given to ports. -/
/-- Ports and what they put out alone. -/
def PortFrame (u v : Units) : Prop := v = { u with out := v.out, fab := { u.fab with ports := v.fab.ports } }
theorem PortFrame.trans (h : PortFrame u v) (h' : PortFrame v w) : PortFrame u w := by
  unfold PortFrame at *
  rw [h', h]
theorem portFrame_portSend (n port : Nat) (u : Units) : PortFrame u (portSend n port u) := by
  induction n generalizing u with
  | zero => rfl
  | succ n ih =>
    unfold portSend
    dsimp only
    split
    · rfl
    · exact PortFrame.trans (by exact rfl) (ih _)
theorem portFrame_fabPut (port vc : Nat) (p : Bytes) (u : Units) : PortFrame u (fabPut port vc p u) :=
  PortFrame.trans (by exact rfl) (portFrame_portSend _ _ _)
theorem PortFrame.core (h : PortFrame u v) : v.core = u.core := by rw [h]

theorem txnOut_core (t : Txn) (data : Bytes) (u : Units) : (txnOut t data u).core = u.core :=
  (noticeFrame_core (noticeFrame_dieBump ..)).trans (portFrame_fabPut _ _ _ { u with tier := _ }).core
theorem txnIssue_core (t : Txn) (data : Bytes) (u : Units) : (txnIssue t data u).core = u.core := by
  unfold txnIssue
  dsimp only
  split
  · exact (txnOut_core ..)
  · rfl
theorem sendRd_core (win off n : Nat) (core : Option Nat) (own : Option MoveId) (dst : Nat × Nat × Nat) (u : Units) :
    (sendRd win off n core own dst u).core = u.core :=
  forAll_keeps (fun v => v.core = u.core) _ _ u rfl fun _ _ h => (txnIssue_core ..).trans h
theorem sendWr_core (win off : Nat) (data : Bytes) (core : Option Nat) (own : Option MoveId) (u : Units) :
    (sendWr win off data core own u).core = u.core :=
  forAll_keeps (fun v => v.core = u.core) _ _ u rfl fun _ _ h => (txnIssue_core ..).trans h

/- What transfers change of a core. -/
/-- Of core k poison, the launch and the passes' poison alone may change. -/
def Tainted (k : Nat) (u v : Units) : Prop :=
  ∃ p l ps, coreAt v k = { coreAt u k with pois := p, launch := l, passes := ps }
theorem Tainted.trans (h : Tainted k u v) (h' : Tainted k v w) : Tainted k u w := by
  obtain ⟨p, l, ps, h⟩ := h
  obtain ⟨p', l', ps', h'⟩ := h'
  exact ⟨p', l', ps', by rw [h', h]⟩
theorem tainted_of_core (h : v.core = u.core) : Tainted k u v := ⟨_, _, _, coreAt_of_core_eq h k⟩
theorem tainted_modCore {j : Nat} {f : CoreSt → CoreSt} (hf : ∀ z, f z = { z with pois := (f z).pois, launch := (f z).launch, passes := (f z).passes })
    (u : Units) : Tainted k u (modCore j f u) := by
  by_cases h : k = j
  · subst h
    exact ⟨_, _, _, (coreAt_modCore ..).trans (hf _)⟩
  · exact ⟨_, _, _, coreAt_modCore_other _ _ h⟩
theorem tainted_noteOut (j space : Nat) (l : List Nat) (u : Units) : Tainted k u (noteOut j space l u) :=
  tainted_modCore (fun _ => rfl) u
theorem tainted_poisonLaunch (j : Nat) (u : Units) : Tainted k u (poisonLaunch j u) := by
  unfold poisonLaunch
  split
  · exact tainted_of_core rfl
  · extract_lets own t1 t2 v
    exact Tainted.trans (v := v) (tainted_modCore (fun _ => rfl) u) (tainted_of_core rfl)
theorem tainted_noteBlock (j : Nat) (e : DmaEnd) (n : Nat) (u : Units) : Tainted k u (noteBlock j e n u) := by
  unfold noteBlock
  split
  case h_4 => exact tainted_of_core rfl
  all_goals exact tainted_noteOut ..
theorem tainted_notice (p code x : Nat) (a : List Nat) (u : Units) : Tainted k u (notice p code x a u) :=
  tainted_of_core (noticeFrame_core (notice_frame ..))
theorem tainted_dieBump (d n m : Nat) (u : Units) : Tainted k u (dieBump d n m u) :=
  tainted_of_core (noticeFrame_core (noticeFrame_dieBump ..))

/-- From s to t queues and pending commands stand, and core k is at most tainted. -/
def Moves (k : Nat) (s t : State) : Prop := t.q = s.q ∧ t.pending = s.pending ∧ Tainted k s.u t.u
theorem Moves.refl (k : Nat) (s : State) : Moves k s s := ⟨rfl, rfl, tainted_of_core rfl⟩
theorem Moves.trans (h : Moves k s t) (h' : Moves k t r) : Moves k s r := by
  obtain ⟨hq, hp, ht⟩ := h
  obtain ⟨hq', hp', ht'⟩ := h'
  exact ⟨hq'.trans hq, hp'.trans hp, ht.trans ht'⟩
theorem Moves.units {f : Units → Units} (hf : ∀ u, Tainted k u (f u)) (s : State) : Moves k s (onUnits f s) := ⟨rfl, rfl, hf _⟩
theorem Moves.foldl {α : Type} {f : State → α → State} (hf : ∀ t a, Moves k t (f t a)) (l : List α) (s : State) :
    Moves k s (l.foldl f s) :=
  foldl_keeps (Moves k s) f l s (.refl k s) (fun t a h => h.trans (hf t a))

/- Copies between local spaces. -/
theorem unitWrite_moves (space key addr : Nat) (data : Bytes) (p : Bool) (s : State) :
    Moves k s (unitWrite space key addr data p s) := by
  unfold unitWrite
  split
  · exact ⟨rfl, rfl, tainted_modCore (fun _ => rfl) s.u⟩
  · exact ⟨rfl, rfl, tainted_of_core rfl⟩
  · exact ⟨rfl, rfl, tainted_of_core rfl⟩
theorem unitCopy_moves (src dst : Nat × Nat × Nat) (n : Nat) (s : State) : Moves k s (unitCopy src dst n s) :=
  .foldl (fun t _ => unitWrite_moves _ _ _ _ _ t) _ s
theorem blockLocal_moves (j n : Nat) (b : DmaEnd × DmaEnd) (s : State) : Moves k s (blockLocal j n b s) := by
  unfold blockLocal
  split
  · exact (Moves.units (f := setIface) (fun _ => tainted_of_core rfl) s).trans (.units (tainted_poisonLaunch j) _)
  · refine Moves.trans ?_ (.units (tainted_noteBlock j b.2 n) _)
    split
    · exact (unitCopy_moves ..).trans (.foldl (fun t _ => unitWrite_moves _ _ _ _ _ t) _ _)
    · exact unitCopy_moves ..

/- A DM starts (R143 to R146). -/
/-- As Moves, with the memories as they are. -/
def Sends (k : Nat) (s t : State) : Prop := t = { s with u := t.u } ∧ Tainted k s.u t.u
theorem Sends.trans (h : Sends k s t) (h' : Sends k t r) : Sends k s r := by
  obtain ⟨ht, hk⟩ := h
  obtain ⟨ht', hk'⟩ := h'
  exact ⟨by rw [ht', ht], hk.trans hk'⟩
theorem Sends.units {f : Units → Units} (hf : ∀ u, Tainted k u (f u)) (s : State) : Sends k s (onUnits f s) := ⟨rfl, hf _⟩
theorem Sends.refl (k : Nat) (s : State) : Sends k s s := ⟨rfl, tainted_of_core rfl⟩
theorem Sends.foldl {α : Type} {f : State → α → State} (hf : ∀ t a, Sends k t (f t a)) (l : List α) (s : State) :
    Sends k s (l.foldl f s) :=
  foldl_keeps (Sends k s) f l s (.refl k s) (fun t a h => h.trans (hf t a))
theorem blockRemote_sends (j n : Nat) (b : DmaEnd × DmaEnd) (s : State) : Sends k s (blockRemote j n b s) := by
  unfold blockRemote
  split
  · split
    · exact .units (fun _ => tainted_of_core (sendRd_core ..)) s
    · dsimp only
      split
      · exact .units (tainted_poisonLaunch j) s
      · exact .units (fun _ => tainted_of_core (sendWr_core ..)) s
  · exact .units (fun u => (tainted_noteBlock j b.2 n u).trans (tainted_of_core (sendRd_core ..))) s

theorem startD_dm {list count : Nat} {flag : Option (Fin 32)} {q : List DOp} (hd : (coreAt s.u k).dStarted = false)
    (hq : (coreAt s.u k).qd = .dm list count flag :: q) :
    Sends k (onUnits (modCore k (fun c => { c with dStarted := true })) s) (startD k s) := by
  simp only [startD, hd, hq, Bool.false_eq_true, if_false]
  refine Sends.foldl (fun t d => ?_) _ _
  split
  · exact .units (fun u => ((tainted_poisonLaunch k u).trans (tainted_notice ..)).trans (tainted_dieBump ..)) t
  · split
    · exact .foldl (fun r b => blockRemote_sends k d.2.len b r) _ t
    · exact .refl k t
theorem startD_started (h : (coreAt s.u k).dStarted = true) : startD k s = s := by simp [startD, h]

/-- Queue D starts something and nothing else of its core does. -/
theorem kick_of_dma (hm : (coreAt s.u k).qm = []) (hqq : (coreAt s.u k).qq = []) (hqf : (coreAt s.u k).qf = [])
    (h : startD k s = t) (ht : startD k t = t) (hh : (coreAt t.u k).qh = []) : kick k s = t := by
  rw [kick, foldl_still (startMx_idle hm), startQz_idle hqq, startCf_idle hqf, foldl_once h ht, startH_idle hh]

/-- A DM whose list is clean goes to queue D. -/
theorem exec_dm {list count : Nat} {flag : Option (Fin 32)} (h : sramPois s (coreKey c) list (32 * min count 64) = false) :
    exec (.dm c list count flag) s = .next (dispatch (.dm c list count flag) c s) := by
  refine if_neg ?_
  rw [h]
  simp
theorem tryDispatch_dm {list count : Nat} {flag : Option (Fin 32)} (h : (coreAt s.u k).qd.length < 16) :
    tryDispatch (.dm c list count flag) k s =
      some { s with u := setCore k { coreAt s.u k with qd := (coreAt s.u k).qd ++ [.dm list count flag] } s.u } := if_pos h

theorem dm_starts (s : State) (c : CoreId) (list count : Nat) (flag : Option (Fin 32)) (h : mayDispatch s c = true)
    (hq : quietCore (coreOf s c)) (hd : (coreOf s c).dStarted = false)
    (hclean : sramPois s (coreKey c) list (32 * min count 64) = false) :
    ∃ t, exec (.dm c list count flag) s = .next t ∧ (coreOf t c).qd = [.dm list count flag] ∧
      (coreOf t c).dStarted = true ∧ (coreOf t c).pc = (advPc 0 (coreOf s c)).pc ∧
      (coreOf t c).flags = (coreOf s c).flags ∧ t.m = s.m ∧ t.q = s.q ∧ t.pending = s.pending := by
  obtain ⟨hqq, hqf, hqm, hqv, hqd, hqh⟩ := hq
  let s' : State := { s with u := setCore (coreKey c) (advPc 0 { coreOf s c with qd := [.dm list count flag] }) s.u }
  have hx : coreAt s'.u (coreKey c) = advPc 0 { coreOf s c with qd := [.dm list count flag] } := coreAt_setCore ..
  have ht : tryDispatch (.dm c list count flag) (coreKey c) s =
      some { s with u := setCore (coreKey c) { coreOf s c with qd := [.dm list count flag] } s.u } := by
    dsimp only [coreOf] at hqd
    simp [tryDispatch, hqd, coreOf]
  obtain ⟨heq, p, l, ps, hcore⟩ := startD_dm (s := s') (k := coreKey c) (list := list) (count := count) (flag := flag) (q := [])
    (by rw [hx]; exact hd) (by rw [hx]; rfl)
  rw [onUnits_u, coreAt_modCore, hx] at hcore
  have hkick : kick (coreKey c) s' = startD (coreKey c) s' := kick_of_dma (by rw [hx]; exact hqm) (by rw [hx]; exact hqq)
    (by rw [hx]; exact hqf) rfl (startD_started (by rw [hcore])) (by rw [hcore]; exact hqh)
  refine ⟨_, exec_dm hclean, ?_⟩
  rw [dispatch_starts h hqv ht hkick (by rw [hcore]; exact hqv)]
  dsimp only [coreOf]
  rw [hcore, heq]
  exact ⟨rfl, rfl, rfl, rfl, rfl, rfl, rfl⟩

theorem dm_waits (s : State) (c : CoreId) (list count : Nat) (flag : Option (Fin 32)) (h : mayDispatch s c = true)
    (hq : quietCore { coreOf s c with qd := [] }) (hd : (coreOf s c).dStarted = true) (hlen : (coreOf s c).qd.length < 16)
    (hclean : sramPois s (coreKey c) list (32 * min count 64) = false) :
    ∃ t, exec (.dm c list count flag) s = .next t ∧ onlyCore s t (coreKey c) (advPc 0 { coreOf s c with
      qd := (coreOf s c).qd ++ [.dm list count flag] }) := by
  obtain ⟨hqq, hqf, hqm, hqv, -, hqh⟩ := hq
  let s' : State := { s with u := setCore (coreKey c) (advPc 0 { coreOf s c with qd := (coreOf s c).qd ++ [.dm list count flag] }) s.u }
  have hx : coreAt s'.u (coreKey c) = advPc 0 { coreOf s c with qd := (coreOf s c).qd ++ [.dm list count flag] } := coreAt_setCore ..
  have hstill : startD (coreKey c) s' = s' := startD_started (by rw [hx]; exact hd)
  have hkick : kick (coreKey c) s' = s' := kick_of_dma (by rw [hx]; exact hqm) (by rw [hx]; exact hqq)
    (by rw [hx]; exact hqf) hstill hstill (by rw [hx]; exact hqh)
  refine ⟨_, exec_dm hclean, ?_⟩
  rw [dispatch_starts h hqv (tryDispatch_dm hlen) hkick (by rw [hx]; exact hqv)]
  exact onlyCore_setCore ..

/- A DM ends (R143, R144). -/
/-- What the end of a DM leaves of its core. -/
def dmEnds (flag : Option (Fin 32)) (x : CoreSt) : CoreSt :=
  flagInc flag { x with qd := [], dStarted := false, sigs := x.sigs.map (fun g => { g with dms := g.dms - 1 }) }
/-- The state after the blocks of a local descriptor. -/
def descCopied (k : Nat) (s : State) (d : Nat × DmaDesc) : State :=
  (dmaBlocks d.2).foldl (fun s b => blockLocal k d.2.len b s) s
/-- The state after the local transfers of a DM. -/
def dmCopied (s : State) (k list count : Nat) : State :=
  (((dmList s k list count).filter (fun d => dmaAllowed s.u k d.2)).filter (fun d => !dmaRemote d.2)).foldl (descCopied k) s
theorem descCopied_moves (k : Nat) (s : State) (d : Nat × DmaDesc) : Moves k s (descCopied k s d) :=
  Moves.foldl (f := fun s b => blockLocal k d.2.len b s) (fun t b => blockLocal_moves k d.2.len b t) _ s
theorem dmCopied_moves (s : State) (k list count : Nat) : Moves k s (dmCopied s k list count) :=
  Moves.foldl (f := descCopied k) (descCopied_moves k) _ s
theorem dmCopied_refused {list count : Nat} (h : ∀ d, d ∈ dmList s k list count → dmaAllowed s.u k d.2 = false) :
    dmCopied s k list count = s := by
  have hnone : (dmList s k list count).filter (fun d => dmaAllowed s.u k d.2) = [] :=
    List.filter_eq_nil_iff.mpr fun d hm => by simp [h d hm]
  rw [dmCopied, hnone]
  rfl
theorem dmaEnd_ends {list count : Nat} {flag : Option (Fin 32)} (hq : (coreAt s.u k).qd = [.dm list count flag])
    (hd : (coreAt s.u k).dStarted = true) (hf : fabOut s.u k = 0) :
    ∃ v, noticeFrame (modCore k (dmEnds flag) (dmCopied s k list count).u) v ∧
      dmaEnd k s = { dmCopied s k list count with u := v } := by
  have hgo : ¬ ((!(coreAt s.u k).dStarted) = true ∨ fabOut s.u k ≠ 0) := by simp [hd, hf]
  have hend : ∃ n m, dmaEnd k s = onUnits (fun u => dieBump (dieKey 0 (k / 16)) 0x3B n (dieBump (dieKey 0 (k / 16)) 0x3C m
      (modCore k (dmEnds flag) u))) (dmCopied s k list count) := by
    simp only [dmaEnd, hq, if_neg hgo]
    exact ⟨_, _, rfl⟩
  obtain ⟨n, m, hend⟩ := hend
  exact ⟨_, noticeFrame_trans (noticeFrame_dieBump ..) (noticeFrame_dieBump ..), hend⟩

theorem dma_done (s : State) (c : CoreId) (list count : Nat) (f : Fin 32) (g : Sig) (hpres : corePresent s.asm s.u c = true)
    (hq : quietCore { coreOf s c with qd := [] }) (hqd : (coreOf s c).qd = [.dm list count (some f)])
    (hd : (coreOf s c).dStarted = true) (hs : (coreOf s c).stalled = none) (hf : fabOut s.u (coreKey c) = 0)
    (hg : (coreOf s c).sigs = [g]) :
    ∃ t, exec (.dmaDone c) s = .next t ∧ (coreOf t c).qd = [] ∧ (coreOf t c).dStarted = false ∧
      tgetD (coreOf t c).flags f 0 = min 65535 (tgetD (coreOf s c).flags f 0 + 1) ∧
      (coreOf t c).sigs = [{ g with dms := g.dms - 1 }] ∧ t.q = s.q ∧
      ((∀ d, d ∈ dmList s (coreKey c) list count → dmaAllowed s.u (coreKey c) d.2 = false) → t.m = s.m) := by
  obtain ⟨v, hframe, hend⟩ := dmaEnd_ends (k := coreKey c) hqd hd hf
  obtain ⟨hrq, -, p, l, ps, hcore⟩ := dmCopied_moves s (coreKey c) list count
  have hself : coreAt v (coreKey c) = dmEnds (some f) { coreOf s c with pois := p, launch := l, passes := ps } := by
    rw [coreAt_of_core_eq (noticeFrame_core hframe), coreAt_modCore, hcore]
  refine ⟨_, congrArg Host.Outcome.next (if_pos hpres), ?_⟩
  rw [hend, settle_quiet (by dsimp only; rw [hself]; exact hq) (by dsimp only; rw [hself]; exact hs)]
  dsimp only [coreOf]
  rw [hself]
  refine ⟨rfl, rfl, flagInc_counts .., ?_, hrq, fun hn => by rw [dmCopied_refused hn]⟩
  change (coreOf s c).sigs.map _ = _
  rw [hg]
  rfl

/- DM.FENCE (R145). -/
theorem startD_fence {f : Option (Fin 32)} (hd : (coreAt s.u k).dStarted = false) (hq : (coreAt s.u k).qd = [.fence f]) :
    startD k s = if fabOut s.u k = 0 then { s with u := setCore k (flagInc f { coreAt s.u k with qd := [] }) s.u } else s := by
  simp only [startD, hd, hq, Bool.false_eq_true, if_false]
theorem advPc_flagInc (n : Nat) (f : Option (Fin 32)) (x : CoreSt) : advPc n (flagInc f x) = flagInc f (advPc n x) := by
  cases f <;> rfl

theorem fence_passes (s : State) (x : FenceOp) (h : mayDispatch s x.core = true) (hq : quietCore (coreOf s x.core))
    (hd : (coreOf s x.core).dStarted = false) :
    ∃ t, exec (.dmFence x) s = .next t ∧ onlyCore s t (coreKey x.core) (advPc 0
      (if fabOut s.u (coreKey x.core) = 0 then flagInc x.flag (coreOf s x.core)
       else { coreOf s x.core with qd := [.fence x.flag] })) := by
  obtain ⟨hqq, hqf, hqm, hqv, hqd, hqh⟩ := hq
  let s' : State := { s with u := setCore (coreKey x.core) (advPc 0 { coreOf s x.core with qd := [.fence x.flag] }) s.u }
  have hx : coreAt s'.u (coreKey x.core) = advPc 0 { coreOf s x.core with qd := [.fence x.flag] } := coreAt_setCore ..
  have ht : tryDispatch (.dmFence x) (coreKey x.core) s =
      some { s with u := setCore (coreKey x.core) { coreOf s x.core with qd := [.fence x.flag] } s.u } := by
    dsimp only [coreOf] at hqd
    simp [tryDispatch, hqd, coreOf]
  have hstart := startD_fence (s := s') (k := coreKey x.core) (f := x.flag) (by rw [hx]; exact hd) (by rw [hx]; rfl)
  have hout : fabOut s'.u (coreKey x.core) = fabOut s.u (coreKey x.core) := rfl
  rw [hout] at hstart
  refine ⟨dispatch (.dmFence x) x.core s, rfl, ?_⟩
  by_cases hf : fabOut s.u (coreKey x.core) = 0
  · rw [if_pos hf] at hstart ⊢
    have hcore : flagInc x.flag { coreAt s'.u (coreKey x.core) with qd := [] } = advPc 0 (flagInc x.flag (coreOf s x.core)) := by
      rw [hx, advPc_flagInc]
      congr 1
      rw [← hqd]
      rfl
    rw [hcore] at hstart
    have hself : coreAt (setCore (coreKey x.core) (advPc 0 (flagInc x.flag (coreOf s x.core))) s'.u) (coreKey x.core) =
        advPc 0 (flagInc x.flag (coreOf s x.core)) := coreAt_setCore ..
    have hquiet : quietCore (advPc 0 (flagInc x.flag (coreOf s x.core))) := by
      rw [flagInc_eq]
      exact quiet_advPc 0 ⟨hqq, hqf, hqm, hqv, hqd, hqh⟩
    obtain ⟨-, -, -, hv', hd', hh'⟩ := hquiet
    have hkick := kick_of_dma (s := s') (by rw [hx]; exact hqm) (by rw [hx]; exact hqq) (by rw [hx]; exact hqf) hstart
      (startD_idle (by rw [hself, hd'])) (by rw [hself, hh'])
    rw [dispatch_starts h hqv ht hkick (by rw [hself, hv'])]
    rw [setCore_setCore]
    exact onlyCore_setCore ..
  · rw [if_neg hf] at hstart ⊢
    have hkick : kick (coreKey x.core) s' = s' := kick_of_dma (by rw [hx]; exact hqm) (by rw [hx]; exact hqq)
      (by rw [hx]; exact hqf) hstart hstart (by rw [hx]; exact hqh)
    rw [dispatch_starts h hqv ht hkick (by rw [hx]; exact hqv)]
    exact onlyCore_setCore ..

/- One unit from tier 1 to a core's SRAM (R144, R421). -/
theorem unitsOf_unit {a : Nat} (h : a % 64 = 0) : unitsOf a 64 = [a / 64] := by
  have hn : ceilDiv (a + 64) 64 - a / 64 = 1 := by
    rw [ceilDiv]
    omega
  rw [unitsOf, if_neg (by decide), hn]
  rfl
theorem contains_poisAfter_unit (l : List Nat) {a : Nat} (h : a % 64 = 0) (p : Bool) :
    (poisAfter l a 64 p).contains (a / 64) = p := by
  cases p with
  | true => simpa using mem_poisAfter_poisoned (l := l) (show a / 64 ∈ unitsOf a 64 by rw [unitsOf_unit h]; simp)
  | false => simpa using not_mem_poisAfter_clean l (addr := a) (n := 64) (x := a / 64) (by omega) (by omega)

theorem unitCopy_tier1 (s : State) (k src dst : Nat) (hwf : (sramOf s k).wf = true) (hdst : dst % 64 = 0)
    (hfit : dst + 64 ≤ 4194304) :
    (let t := unitCopy (2, 0, src) (0, k, dst) 64 s
     mread (sramOf t k) dst 64 = mread s.m.t1 src 64 ∧
     (sramPois t k dst 64 = t1Pois s.asm s.u.tier (src / 64)) ∧
     (∀ a, a < dst ∨ dst + 64 ≤ a → mget (sramOf t k) a = mget (sramOf s k) a) ∧ t.m.t1 = s.m.t1 ∧ t.m.t2 = s.m.t2) := by
  have hlen : (mread s.m.t1 src 64).length = 64 := mread_length ..
  have hcopy : unitCopy (2, 0, src) (0, k, dst) 64 s =
      sramWrite k dst (mread s.m.t1 src 64) (t1Pois s.asm s.u.tier (src / 64)) s := rfl
  have hmem : sramOf (sramWrite k dst (mread s.m.t1 src 64) (t1Pois s.asm s.u.tier (src / 64)) s) k =
      mwrite (sramOf s k) dst (mread s.m.t1 src 64) := by
    rw [sramWrite_within (by rw [hlen]; exact hfit)]
    exact tgetD_tset_self ..
  dsimp only
  rw [hcopy, hmem]
  refine ⟨?_, ?_, fun a ha => mget_mwrite_other _ _ (by rw [hlen]; exact ha), rfl, rfl⟩
  · have hread := mread_mwrite_self dst (mread s.m.t1 src 64) hwf
    rwa [hlen] at hread
  · rw [sramWrite_within (by rw [hlen]; exact hfit), sramPois, unitsOf_unit hdst, coreAt_modCore, hlen]
    simpa using contains_poisAfter_unit _ hdst _

/-- Settles O20: starts and ends of queue D by what transfers may change of their core, and a copy by one write of SRAM. -/
theorem dmaQueueAndCopies : Obligations.DmaQueueAndCopies :=
  ⟨⟨dm_starts, dm_waits, dma_done, fence_passes⟩, fun s k src dst hwf _ hdst hfit => unitCopy_tier1 s k src dst hwf hdst hfit⟩

end Sys2Proof.Machine
end

section
/-! PROOFS. Queries of the match pool from a core (05, R147, R148, R186): credits, results, and the blocks of O21. -/
namespace Sys2Proof.Machine

variable {s t : State} {c : CoreId} {k slot : Nat} {u v : Units} {x y : CoreSt} {op : MqOp}

/- Credits (R186). -/
/-- A core that holds no credit counts for nothing, whatever becomes of its record. -/
theorem sum_hOut_tset (p : Nat × CoreSt → Bool) {l : Tbl CoreSt} (hl : ∀ y, tget l k = some y → y.hOut = 0) (hx : x.hOut = 0) :
    (((tset l k x).filter p).map (fun e => e.2.hOut)).sum = ((l.filter p).map (fun e => e.2.hOut)).sum := by
  have hcons (a : Nat × CoreSt) (ha : a.2.hOut = 0) (r : Tbl CoreSt) :
      (((a :: r).filter p).map (fun e => e.2.hOut)).sum = ((r.filter p).map (fun e => e.2.hOut)).sum := by
    rw [List.filter_cons]
    split
    · rw [List.map_cons, List.sum_cons, ha, Nat.zero_add]
    · rfl
  induction l with
  | nil => exact hcons (k, x) hx []
  | cons a l ih =>
    obtain ⟨i, b⟩ := a
    rw [tset]
    split
    · exact hcons (k, x) hx _
    · split
      · next hki =>
        rw [hcons (k, x) hx, hcons (i, b) (hl b (if_pos hki))]
      · next hki =>
        have ih := ih fun y hy => hl y ((if_neg hki).trans hy)
        rw [List.filter_cons, List.filter_cons]
        split
        · rw [List.map_cons, List.map_cons, List.sum_cons, List.sum_cons, ih]
        · exact ih
theorem mqFree_setCore (h : (coreAt u k).hOut = 0) (hx : x.hOut = 0) : mqFree (setCore k x u) slot = mqFree u slot := by
  have hl : ∀ y, tget u.core k = some y → y.hOut = 0 := by
    intro y hy
    rw [coreAt, tgetD, hy] at h
    exact h
  rw [mqFree, mqFree]
  exact congrArg ((tgetD u.slot slot {}).mqShare - ·) (sum_hOut_tset _ hl hx)

/-- The MQ at the head of queue H takes its credits, where the slot's policies name its profile. -/
theorem startH_takes {r : List MqOp} (hq : (coreAt u k).qh = op :: r) (hs : (coreAt u k).slot = some slot)
    (ho : (coreAt u k).hOut = 0) :
    startH k u = if op.profile.val ∈ slotProfiles u slot then
      setCore k { coreAt u k with hOut := min (min op.count 256) (mqFree u slot) } u else u := by
  simp only [startH, hq, hs, ho]
  by_cases h : op.profile.val ∈ slotProfiles u slot <;> simp [h]

/-- Queue H starts something and nothing else of its core does. -/
theorem kick_of_query (hm : (coreAt s.u k).qm = []) (hqq : (coreAt s.u k).qq = []) (hqf : (coreAt s.u k).qf = [])
    (hd : (coreAt s.u k).qd = []) : kick k s = onUnits (startH k) s := by
  rw [kick, foldl_still (startMx_idle hm), startQz_idle hqq, startCf_idle hqf, foldl_still (startD_idle hd)]

theorem mq_joins (s : State) (c : CoreId) (op : MqOp) (slot : Nat) (h : mayDispatch s c = true) (hq : quietCore (coreOf s c))
    (hs : (coreOf s c).slot = some slot) (ho : (coreOf s c).hOut = 0) :
    ∃ t, exec (.mq c op) s = .next t ∧ onlyCore s t (coreKey c) (advPc 0 { coreOf s c with
      qh := [op]
      hOut := if op.profile.val ∈ slotProfiles s.u slot then min (min op.count 256) (mqFree s.u slot) else 0 }) := by
  obtain ⟨hqq, hqf, hqm, hqv, hqd, hqh⟩ := hq
  let s' : State := { s with u := setCore (coreKey c) (advPc 0 { coreOf s c with qh := [op] }) s.u }
  have hx : coreAt s'.u (coreKey c) = advPc 0 { coreOf s c with qh := [op] } := coreAt_setCore ..
  have ht : tryDispatch (.mq c op) (coreKey c) s = some { s with u := setCore (coreKey c) { coreOf s c with qh := [op] } s.u } := by
    dsimp only [coreOf] at hqh
    simp [tryDispatch, hqh, coreOf]
  have hstart := startH_takes (u := s'.u) (k := coreKey c) (slot := slot) (op := op) (r := []) (by rw [hx]; rfl)
    (by rw [hx]; exact hs) (by rw [hx]; exact ho)
  have hfree : mqFree s'.u slot = mqFree s.u slot := mqFree_setCore ho ho
  have hprof : slotProfiles s'.u slot = slotProfiles s.u slot := rfl
  rw [hx, hfree, hprof] at hstart
  have hcore : startH (coreKey c) s'.u = setCore (coreKey c) (advPc 0 { coreOf s c with
      qh := [op]
      hOut := if op.profile.val ∈ slotProfiles s.u slot then min (min op.count 256) (mqFree s.u slot) else 0 }) s.u := by
    by_cases hmem : op.profile.val ∈ slotProfiles s.u slot
    · rw [hstart, if_pos hmem, if_pos hmem, setCore_setCore]
      rfl
    · rw [hstart, if_neg hmem, if_neg hmem]
      exact congrArg (fun n => setCore (coreKey c) (advPc 0 { coreOf s c with qh := [op], hOut := n }) s.u) ho
  have hkick : kick (coreKey c) s' = { s with u := startH (coreKey c) s'.u } :=
    kick_of_query (by rw [hx]; exact hqm) (by rw [hx]; exact hqq) (by rw [hx]; exact hqf) (by rw [hx]; exact hqd)
  rw [hcore] at hkick
  refine ⟨_, congrArg Host.Outcome.next (dispatch_starts h hqv ht hkick ?_), onlyCore_setCore ..⟩
  rw [coreAt_setCore]
  exact hqv

/- Results (R147, R148, R186). -/
/-- Credits that come back reach other cores only, where this one waits for none. -/
theorem wakeMq_core (h : (coreAt u k).qh = []) : coreAt (wakeMq slot u) k = coreAt u k := by
  refine forAll_keeps (fun v => coreAt v k = coreAt u k) _ _ u rfl fun j v hv => ?_
  split
  · by_cases hj : k = j
    · subst hj
      have hidle : startH k v = v := by simp [startH, hv, h]
      rw [hidle, hv]
    · refine Eq.trans ?_ hv
      unfold startH
      dsimp only
      split
      · split
        · rfl
        · exact coreAt_setCore_other _ _ hj
      · rfl
  · exact hv

/-- What the end of an MQ leaves of its core. -/
def mqEnds (op : MqOp) (x : CoreSt) : CoreSt := flagInc op.flag { x with qh := [], hOut := 0 }
/-- After the records of an MQ its credits return: the core as its end leaves it, the memories and the queues stand. -/
theorem mq_settles (s : State) (k slot : Nat) (op : MqOp) (hq : quietCore { coreAt s.u k with qh := [] })
    (hs : (coreAt s.u k).stalled = none) :
    coreAt (onUnits (wakeMq slot) (settle k (onUnits (modCore k (mqEnds op)) s))).u k = mqEnds op (coreAt s.u k) ∧
    (onUnits (wakeMq slot) (settle k (onUnits (modCore k (mqEnds op)) s))).m = s.m ∧
    (onUnits (wakeMq slot) (settle k (onUnits (modCore k (mqEnds op)) s))).q = s.q := by
  have hcore : coreAt (onUnits (modCore k (mqEnds op)) s).u k = mqEnds op (coreAt s.u k) := coreAt_modCore ..
  have hquiet : quietCore (mqEnds op (coreAt s.u k)) := by
    rw [mqEnds, flagInc_eq]
    exact hq
  have hstall : (mqEnds op (coreAt s.u k)).stalled = none := by
    rw [mqEnds, flagInc_eq]
    exact hs
  rw [settle_quiet (by rw [hcore]; exact hquiet) (by rw [hcore]; exact hstall)]
  obtain ⟨-, -, -, -, -, hh⟩ := hquiet
  exact ⟨(wakeMq_core (by rw [hcore, hh])).trans hcore, rfl, rfl⟩
theorem mqEnds_counts {f : Fin 32} (hf : op.flag = some f) (x : CoreSt) :
    (mqEnds op x).qh = [] ∧ (mqEnds op x).hOut = 0 ∧ tgetD (mqEnds op x).flags f 0 = min 65535 (tgetD x.flags f 0 + 1) := by
  rw [mqEnds, hf]
  exact ⟨rfl, rfl, flagInc_counts ..⟩

/-- An MQ of one record ends with its record written. -/
theorem mq_delivers {f : Fin 32} {p : Bool} {w : Nat} {r : State} (hq : quietCore { coreOf s c with qh := [] })
    (hs : (coreOf s c).stalled = none) (hf : op.flag = some f) (hwf : (sramOf s (coreKey c)).wf = true)
    (hfit : op.dst + 8 ≤ 4194304) (hr : ∃ d v, noticeFrame (outWrite (coreKey c) op.dst (le8 w) p { s with u := d }).u v ∧
      d.core = s.u.core ∧ r = { outWrite (coreKey c) op.dst (le8 w) p { s with u := d } with u := v })
    (ht : t = onUnits (wakeMq slot) (settle (coreKey c) (onUnits (modCore (coreKey c) (mqEnds op)) r))) :
    (coreOf t c).qh = [] ∧ (coreOf t c).hOut = 0 ∧
      tgetD (coreOf t c).flags f 0 = min 65535 (tgetD (coreOf s c).flags f 0 + 1) ∧
      leVal (mread (sramOf t (coreKey c)) op.dst 8) = w % 2 ^ 64 ∧ (p = true → sramPois t (coreKey c) op.dst 8 = true) ∧
      t.m.t1 = s.m.t1 ∧ t.m.t2 = s.m.t2 ∧ t.q = s.q := by
  obtain ⟨d, v, hframe, hd, hr⟩ := hr
  have hlen : (le8 w).length = 8 := leBytes_length ..
  have hin : op.dst + (le8 w).length ≤ 4194304 := by rw [hlen]; exact hfit
  have hcore : coreAt r.u (coreKey c) = outCore op.dst 8 (p || launchPois d (coreKey c)) (coreOf s c) := by
    rw [hr]
    dsimp only
    rw [coreAt_of_core_eq (noticeFrame_core hframe), outWrite_u hin, coreAt_modCore, hlen]
    dsimp only
    rw [coreAt_of_core_eq hd]
  have hsram : sramOf r (coreKey c) = mwrite (sramOf s (coreKey c)) op.dst (le8 w) := by
    rw [hr]
    exact sramOf_outWrite_self (s := { s with u := d }) hin p
  obtain ⟨htc, htm, htq⟩ := mq_settles r (coreKey c) slot op (by rw [hcore]; exact hq) (by rw [hcore]; exact hs)
  rw [← ht] at htc htm htq
  rw [hcore] at htc
  obtain ⟨hqh, hout, hflag⟩ := mqEnds_counts hf (outCore op.dst 8 (p || launchPois d (coreKey c)) (coreOf s c))
  dsimp only [coreOf] at htc ⊢
  have htsram : sramOf t (coreKey c) = mwrite (sramOf s (coreKey c)) op.dst (le8 w) := by
    rw [sramOf, htm]
    exact hsram
  rw [htc, htsram]
  refine ⟨hqh, hout, hflag, ?_, fun hp => ?_, by rw [htm, hr]; rfl, by rw [htm, hr]; rfl, by rw [htq, hr]; rfl⟩
  · have hread := mread_mwrite_self op.dst (le8 w) hwf
    rw [hlen] at hread
    rw [hread]
    exact leVal_leBytes 8 w
  · refine sramPois_of_poisAfter (l := (coreOf s c).pois) ?_ (by decide)
    rw [htc, hp, mqEnds, flagInc_pois]
    rfl

theorem mqResult_unlisted (s : State) (c : CoreId) (op : MqOp) (f : Fin 32) (hpres : corePresent s.asm s.u c = true)
    (hq : quietCore { coreOf s c with qh := [] }) (hs : (coreOf s c).stalled = none) (hqh : (coreOf s c).qh = [op])
    (hf : op.flag = some f) (hcount : op.count = 1) (hwf : (sramOf s (coreKey c)).wf = true) (hfit : op.dst + 8 ≤ 4194304)
    (hlist : op.profile.val ∉ slotProfiles s.u ((coreOf s c).slot.getD 0xFF)) :
    ∃ t, exec (.mqResult c) s = .next t ∧ (coreOf t c).qh = [] ∧ (coreOf t c).hOut = 0 ∧
      tgetD (coreOf t c).flags f 0 = min 65535 (tgetD (coreOf s c).flags f 0 + 1) ∧
      leVal (mread (sramOf t (coreKey c)) op.dst 8) = 2 ^ 57 ∧ sramPois t (coreKey c) op.dst 8 = true ∧
      t.m.t1 = s.m.t1 ∧ t.m.t2 = s.m.t2 ∧ t.q = s.q := by
  have hno : (slotProfiles s.u ((coreAt s.u (coreKey c)).slot.getD 0xFF)).contains op.profile.val = false := by
    simpa using hlist
  have hdata : (List.replicate (min op.count 256) (le8 (recWord { poison := true }))).flatten = le8 (recWord { poison := true }) := by
    rw [hcount]
    rfl
  refine ⟨_, congrArg Host.Outcome.next (if_pos hpres), ?_⟩
  have hres : ∃ r, (∃ d v, noticeFrame (outWrite (coreKey c) op.dst (le8 (recWord { poison := true })) true { s with u := d }).u v ∧
      d.core = s.u.core ∧ r = { outWrite (coreKey c) op.dst (le8 (recWord { poison := true })) true { s with u := d } with u := v }) ∧
      mqResult (coreKey c) s = onUnits (wakeMq ((coreAt s.u (coreKey c)).slot.getD 0xFF))
        (settle (coreKey c) (onUnits (modCore (coreKey c) (mqEnds op)) r)) := by
    dsimp only [coreOf] at hqh
    simp only [mqResult, hqh, hno, hdata, Bool.false_eq_true, false_and, if_false]
    exact ⟨_, ⟨s.u, _, notice_frame .., rfl, rfl⟩, rfl⟩
  obtain ⟨r, hr, heq⟩ := hres
  obtain ⟨h1, h2, h3, h4, h5, h6⟩ := mq_delivers hq hs hf hwf hfit hr heq
  exact ⟨h1, h2, h3, h4.trans (by decide), h5 rfl, h6⟩

/-- A search leaves the cores. -/
theorem searchU_core (die mode banks key : Nat) (u : Units) : (searchU die mode banks key u).2.core = u.core := by
  obtain ⟨d, v, ⟨_, hd⟩, ⟨_, hv⟩, h⟩ := searchU_shape die mode banks key u
  rw [h, hv]
  dsimp only
  split
  · rw [parityFail, noticeFrame_core (notice_frame ..), hd]
  · rw [hd]

theorem mqResult_found (s : State) (c : CoreId) (op : MqOp) (f : Fin 32) (hpres : corePresent s.asm s.u c = true)
    (hq : quietCore { coreOf s c with qh := [] }) (hs : (coreOf s c).stalled = none) (hqh : (coreOf s c).qh = [op])
    (hf : op.flag = some f) (hcount : op.count = 1) (hout : (coreOf s c).hOut = 1) (hwf : (sramOf s (coreKey c)).wf = true)
    (hfit : op.dst + 8 ≤ 4194304) (hlist : op.profile.val ∈ slotProfiles s.u ((coreOf s c).slot.getD 0xFF))
    (hzero : allZero ((sramRead s (coreKey c) op.src 32).drop 20) = true) (hclean : sramPois s (coreKey c) op.src 32 = false) :
    ∃ t, exec (.mqResult c) s = .next t ∧ (coreOf t c).qh = [] ∧ (coreOf t c).hOut = 0 ∧
      tgetD (coreOf t c).flags f 0 = min 65535 (tgetD (coreOf s c).flags f 0 + 1) ∧
      leVal (mread (sramOf t (coreKey c)) op.dst 8) = recWord (searchU 0 (if op.byteForm then 1 else 0)
        (profBanks (profAt s.u op.profile)) (leVal ((sramRead s (coreKey c) op.src 32).take 20)) s.u).1 % 2 ^ 64 ∧
      t.m.t1 = s.m.t1 ∧ t.m.t2 = s.m.t2 ∧ t.q = s.q := by
  have hyes : (slotProfiles s.u ((coreAt s.u (coreKey c)).slot.getD 0xFF)).contains op.profile.val = true := by
    simpa using hlist
  have hkey : mqKey (coreKey c) op 0 s = outWrite (coreKey c) op.dst (le8 (recWord (searchU 0 (if op.byteForm then 1 else 0)
        (profBanks (profAt s.u op.profile)) (leVal ((sramRead s (coreKey c) op.src 32).take 20)) s.u).1)) false
      { s with u := (searchU 0 (if op.byteForm then 1 else 0)
        (profBanks (profAt s.u op.profile)) (leVal ((sramRead s (coreKey c) op.src 32).take 20)) s.u).2 } := by
    simp only [mqKey, Nat.mul_zero, Nat.add_zero, hzero, hclean, if_true, Bool.or_false]
  refine ⟨_, congrArg Host.Outcome.next (if_pos hpres), ?_⟩
  have hres : ∃ r, (∃ d v, noticeFrame (outWrite (coreKey c) op.dst (le8 (recWord (searchU 0 (if op.byteForm then 1 else 0)
        (profBanks (profAt s.u op.profile)) (leVal ((sramRead s (coreKey c) op.src 32).take 20)) s.u).1)) false { s with u := d }).u v ∧
      d.core = s.u.core ∧ r = { outWrite (coreKey c) op.dst (le8 (recWord (searchU 0 (if op.byteForm then 1 else 0)
        (profBanks (profAt s.u op.profile)) (leVal ((sramRead s (coreKey c) op.src 32).take 20)) s.u).1)) false { s with u := d } with u := v }) ∧
      mqResult (coreKey c) s = onUnits (wakeMq ((coreAt s.u (coreKey c)).slot.getD 0xFF))
        (settle (coreKey c) (onUnits (modCore (coreKey c) (mqEnds op)) r)) := by
    dsimp only [coreOf] at hqh hout
    have hone : (List.range (min op.count 256)).foldl (fun s i => mqKey (coreKey c) op i s) s = mqKey (coreKey c) op 0 s := by
      rw [hcount]
      rfl
    simp only [mqResult, hqh, hyes, hout, hone, hkey, Nat.one_ne_zero, false_and, and_false, if_false, if_true]
    exact ⟨_, ⟨_, _, noticeFrame_dieBump .., searchU_core .., rfl⟩, rfl⟩
  obtain ⟨r, hr, heq⟩ := hres
  obtain ⟨h1, h2, h3, h4, -, h6⟩ := mq_delivers hq hs hf hwf hfit hr heq
  exact ⟨h1, h2, h3, h4, h6⟩

/-- Settles O21: credits are counted over the slot's cores, and a result is one write of SRAM. -/
theorem matchQueriesOfACore : Obligations.MatchQueriesOfACore := ⟨mq_joins, mqResult_unlisted, mqResult_found⟩

end Sys2Proof.Machine
end

section
/-! PROOFS. Messages heard and answered (12), and those of the block (R351, R412): the blocks of O22. -/
namespace Sys2Proof.Machine

variable {s t : State} {u v : Units} {op n : Nat} {p : Bytes} {a : Ans}

/- A message that is heard (R341, R343). -/
theorem next_of_answer {f : Bytes → Units → Units × Option Ans} (h : heard s.u n op p) (hf : f p s.u = keep v a) :
    onU (message op n f) s = .next { s with u := answer n a v } := by
  rw [onU, message_heard h, hf]
  rfl
theorem next_of_wait {f : Bytes → Units → Units × Option Ans} (h : heard s.u n op p) (hf : f p s.u = (v, none)) :
    onU (message op n f) s = .next { s with u := await n v } := by
  rw [onU, message_heard h, hf]
  rfl
theorem next_of_heardS {f : Bytes → State → State × Option Ans} (h : heard s.u n op p) :
    (.next (messageS op n f s) : Res) = .next (heardEffectS n (f p s)) := by
  rw [messageS_heard h]

/-- The answer of a message that is heard stands in its mailbox, whatever else its command changed. -/
theorem answered_of_heard (ht : t.u = answer n a v) (h : heard u n op p) (hv : v.mbx = u.mbx) : answered t n a := by
  rw [answered, ht]
  exact answer_answered a (by rw [hv]; exact heard_listed h)

/-- No index of a list below a bound is found, where each is in order. -/
theorem find_range_none {m : Nat} {q : Nat → Bool} (h : ∀ k, k < m → q k = false) : (List.range m).find? q = none :=
  List.find?_eq_none.mpr fun k hk => by simp [h k (List.mem_range.mp hk)]

/- Block messages (R351). -/
theorem blkStatus_reads (s : State) (mb : Fin 64) (p : Bytes) (h : heard s.u mb 0x0006 p) :
    ∃ t a, exec (.blkStatus mb) s = .next t ∧ answered t mb (ok a) ∧ a.length = 28 ∧
      le a 1 1 = tickStCode s.u.tick.st ∧ le a 24 4 = s.u.job.length % 2 ^ 32 ∧
      t = { s with u := { s.u with mbx := t.u.mbx } } := by
  let head := leBytes 1 (readIdent s.asm s.u 0x40)
  let mid := leBytes 6 0 ++ le8 (bitWord 64 (fun c => (tgetD s.u.ctx c {}).state == 2)) ++
    leBytes 4 (bitWord 32 (slotServing s.u)) ++ leBytes 4 (s.u.str.filter (fun e => holds e.2)).length
  let b := head ++ (leBytes 1 (tickStCode s.u.tick.st) ++ (mid ++ leBytes 4 s.u.job.length))
  have hb : leBytes 1 (readIdent s.asm s.u 0x40) ++ leBytes 1 (tickStCode s.u.tick.st) ++ leBytes 6 0 ++
      le8 (bitWord 64 (fun c => (tgetD s.u.ctx c {}).state == 2)) ++ leBytes 4 (bitWord 32 (slotServing s.u)) ++
      leBytes 4 (s.u.str.filter (fun e => holds e.2)).length ++ leBytes 4 s.u.job.length = b := by
    simp only [b, head, mid, List.append_assoc]
  have hmid : mid.length = 22 := by simp [mid, le8]
  refine ⟨_, b, next_of_answer (v := s.u) (a := ok b) h ?_, answered_of_heard rfl h rfl, by simp [b, head, hmid], ?_, ?_, rfl⟩
  · exact congrArg (fun x => keep s.u (ok x)) hb
  · have hcode : tickStCode s.u.tick.st < 256 := by cases s.u.tick.st <;> decide
    have hread : le b (head.length + 0) 1 = le (leBytes 1 (tickStCode s.u.tick.st) ++ (mid ++ leBytes 4 s.u.job.length)) 0 1 :=
      le_append_right ..
    have hlen : head.length = 1 := leBytes_length ..
    rw [hlen] at hread
    rw [hread, le_append_left (by simp), le_leBytes]
    exact Nat.mod_eq_of_lt hcode
  · have hassoc : b = (head ++ leBytes 1 (tickStCode s.u.tick.st) ++ mid) ++ leBytes 4 s.u.job.length := by
      simp only [b, List.append_assoc]
    have hlen : (head ++ leBytes 1 (tickStCode s.u.tick.st) ++ mid).length = 24 := by simp [head, hmid]
    have hread := le_append_right (head ++ leBytes 1 (tickStCode s.u.tick.st) ++ mid) (leBytes 4 s.u.job.length) 0 4
    rw [← hassoc, hlen] at hread
    rw [hread, le_leBytes] <;> rfl

theorem vocabBad_eq_false {pool w : Nat} (h : bitsOf w 3 1 = 0 ∧ bitsOf w 31 10 + bitsOf w 9 4 ≤ pool) : vocabBad pool w = false := by
  obtain ⟨h0, hle⟩ := h
  simp [vocabBad, h0, hle]

theorem blockCheckDone_fails (s : State) (r : Nat × Nat) (l : List (Nat × Nat)) (hc : s.u.blk.checking = true)
    (hl : blockCheck s.asm s.u = r :: l) :
    ∃ t, exec .blockCheckDone s = .next t ∧ t.u.blk = { s.u.blk with
      checking := false, failed := true, firstReason := r.1, nfail := min 255 (l.length + 1) } ∧ t.q = s.q ∧ t.m = s.m := by
  have hdone : blockCheckDone s.asm s.u = fwNotice 1 0x0F01 0 [r.1, min 255 (l.length + 1)] { s.u with blk := { s.u.blk with
      checking := false, failed := true, firstReason := r.1, nfail := min 255 (l.length + 1) } } := by
    simp only [blockCheckDone, hc, hl, Bool.not_true, Bool.false_eq_true, if_false]
    rfl
  refine ⟨_, rfl, ?_, rfl, rfl⟩
  obtain ⟨-, -, -, -, -, -, -, -, -, -, -, hblk, -⟩ := noticeFrame_keeps (fwNotice_frame 1 0x0F01 0 [r.1, min 255 (l.length + 1)]
    { s.u with blk := { s.u.blk with
      checking := false, failed := true, firstReason := r.1, nfail := min 255 (l.length + 1) } })
  dsimp only
  rw [hdone, hblk]

/-- Settles O22: each message by its answer, and the check by its reasons. -/
theorem blockMessagesAndCheck : Obligations.BlockMessagesAndCheck := by
  refine ⟨⟨?info, ?check, blkStatus_reads, ?topology, ?topologyEnabled, ?config, ?vocab⟩, ?checked, blockCheckDone_fails⟩
  case info => exact fun s mb p h => next_of_answer h rfl
  case check => exact fun s mb p h => next_of_answer h rfl
  case topology =>
    intro s mb p h hcnt hkind hen
    have hfind := find_range_none (m := le p 24 1) (q := fun k => decide (3 < le p (40 + 16 * k) 1)) fun k hk => by
      simpa using hkind k hk
    refine next_of_answer h ?_
    simp only [if_neg (Nat.not_lt.mpr hcnt), hfind, hen, Bool.false_eq_true, if_false]
  case topologyEnabled =>
    intro s mb p h hcnt hkind hen
    have hfind := find_range_none (m := le p 24 1) (q := fun k => decide (3 < le p (40 + 16 * k) 1)) fun k hk => by
      simpa using hkind k hk
    refine next_of_answer h ?_
    simp only [if_neg (Nat.not_lt.mpr hcnt), hfind, hen, if_true]
  case config =>
    intro s mb p h hhigh hlow hpos hscrub hen hfit
    refine next_of_answer h ?_
    have hs : ¬ (le p 12 2 = 0 ∨ 3600 < le p 12 2) := by omega
    simp only [if_neg (Nat.not_lt.mpr hhigh), if_neg (Nat.not_le.mpr hlow), if_neg hs, hen, Bool.false_eq_true, false_and, if_false,
      if_neg (Nat.not_lt.mpr hfit)]
  case vocab =>
    intro s mb p x y idx pool h hpos hcnt hbi hlen hbp hplen hen hsvc hx hy hwords
    have hgood : ((List.range (le p 0 4)).map (fun k => (k, le x (4 * k) 4))).any (fun w => vocabBad (bufOf p 32).len w.2) = false := by
      rw [List.any_eq_false]
      intro w hw
      obtain ⟨k, hk, rfl⟩ := List.mem_map.mp hw
      rw [vocabBad_eq_false (hwords k (List.mem_range.mp hk))]
      exact Bool.false_ne_true
    refine (next_of_heardS h).trans ?_
    have h1 : ¬ (le p 0 4 = 0 ∨ 1048575 < le p 0 4) := by omega
    have h2 : ¬ ((!bufOk s.u mb (bufOf p 16)) = true ∨ (bufOf p 16).len < 4 * le p 0 4) := by simp [hbi, hlen]
    have h3 : ¬ ((!bufOk s.u mb (bufOf p 32)) = true ∨ 2 ^ 22 < (bufOf p 32).len) := by simp [hbp]; omega
    have h4 : ¬ (s.u.blk.en = true ∨ anyInService s.u = true) := by simp [hen, hsvc]
    simp only [if_neg h1, if_neg h2, if_neg h3, if_neg h4, hx, hy, hgood, Bool.false_eq_true, if_false]
    rfl
  case checked =>
    intro s hc hl
    have hdone : blockCheckDone s.asm s.u = { s.u with blk := { s.u.blk with
        checking := false, en := true, firstReason := 0, nfail := 0 } } := by
      simp only [blockCheckDone, hc, hl, Bool.not_true, Bool.false_eq_true, if_false]
    exact congrArg (fun v => Host.Outcome.next { s with u := v }) hdone

end Sys2Proof.Machine
end

section
/-! PROOFS. Context and policy messages, accepted changes, counters (R234, R352, R353, R507 to R510): the blocks of O23 to O25. -/
namespace Sys2Proof.Machine

variable {s t : State} {u v : Units} {op n : Nat} {p : Bytes} {a : Ans}

/- Context messages (R352). -/
theorem ctxConfig_stores (s : State) (mb : Fin 64) (p : Bytes) (h : heard s.u mb 0x0101 p) (hf : ctxConfigFault p = none)
    (h2 : (tgetD s.u.ctx (le p 0 1) {}).state ≠ 2) (h3 : (tgetD s.u.ctx (le p 0 1) {}).state ≠ 3)
    (he : (tgetD s.u.ctx (le p 0 1) {}).enableAt = none) :
    ∃ t c, exec (.ctxConfig mb) s = .next t ∧ answered t mb (ok (le8 (nextTick s.u))) ∧
      t.u.ctx = tset s.u.ctx (le p 0 1) c ∧
      c = { tgetD s.u.ctx (le p 0 1) {} with
        state := 1, cohort := le p 1 1, headSlot := le p 2 1, maxStreams := le p 4 2, jobQuota := le p 6 2
        maxPos := le p 8 4, classes := (List.range (le p 3 1)).map (fun j => (le p (24 + 8 * j) 2, le p (26 + 8 * j) 2))
        defTtl := le p 12 4, defTarget := le p 16 1 } ∧
      t = { s with u := { s.u with mbx := t.u.mbx, ctx := t.u.ctx } } := by
  have hidle : ((tgetD s.u.ctx (le p 0 1) {}).state == 2 || (tgetD s.u.ctx (le p 0 1) {}).state == 3 ||
      (tgetD s.u.ctx (le p 0 1) {}).enableAt.isSome) = false := by simp [h2, h3, he]
  refine ⟨_, _, next_of_answer (v := { s.u with ctx := tset s.u.ctx (le p 0 1) _ }) h ?_, answered_of_heard rfl h rfl, rfl, rfl, rfl⟩
  simp only [hf, hidle, Bool.false_eq_true, false_and, if_false]
  rfl

/-- A one-entry CTX_SHARES (R242). -/
theorem ctxShares_schedules (s : State) (mb : Fin 64) (p : Bytes) (h : heard s.u mb 0x0103 p) (hlo : 0 < le p 0 1)
    (hhi : le p 0 1 ≤ 63) (hone : le p 1 1 = 1) (hslot : le p 8 1 ≤ 31) (hpos : 0 < le p 10 2) (hmax : le p 10 2 ≤ 1024)
    (hsum : le p 10 2 + ((s.u.ctx.filter (fun e => e.1 != le p 0 1)).map
      (fun e => tgetD (nextShares s.u e.1) (le p 8 1) 0)).sum ≤ 1024) :
    ∃ t, exec (.ctxShares mb) s = .next t ∧ answered t mb (ok (le8 (nextTick s.u))) ∧
      t.u.changes = s.u.changes ++ [(nextTick s.u, .shares (le p 0 1) [(le p 8 1, le p 10 2)])] ∧
      (∀ k, tgetD t.u.ctx k {} = tgetD s.u.ctx k {}) ∧
      t = { s with u := { s.u with mbx := t.u.mbx, ctx := t.u.ctx, changes := t.u.changes } } := by
  refine ⟨_, next_of_answer (v := schedule (.shares (le p 0 1) [(le p 8 1, le p 10 2)])
    { s.u with ctx := tmod s.u.ctx (le p 0 1) {} id }) (a := ok (le8 (nextTick s.u))) h ?_, answered_of_heard rfl h rfl, rfl,
    fun k => ?_, rfl⟩
  · have hk : ¬ (le p 0 1 = 0 ∨ 63 < le p 0 1) := by omega
    have he : (List.range (le p 1 1)).map (fun j => (le p (8 + 4 * j) 1, le p (10 + 4 * j) 2)) = [(le p 8 1, le p 10 2)] := by
      rw [hone]
      rfl
    have h31 : ¬ 31 < le p 8 1 := by omega
    have h1024 : ¬ 1024 < le p 10 2 := by omega
    have hne : ¬ le p 10 2 = 0 := by omega
    have htot : ¬ 1024 < tgetD [(le p 8 1, le p 10 2)] (le p 8 1) 0 + ((s.u.ctx.filter (fun e => e.1 != le p 0 1)).map
        (fun e => tgetD (nextShares s.u e.1) (le p 8 1) 0)).sum := by
      simp only [tgetD, tget, if_true, Option.getD_some]
      exact Nat.not_lt.mpr hsum
    simp only [if_neg hk, he, List.length_singleton, List.range_one, List.findSome?_cons, List.findSome?_nil, List.getD_cons_zero,
      List.take_zero, List.any_nil, h31, h1024, List.foldl_cons, List.foldl_nil, hne, tset, List.find?_cons, List.find?_nil,
      htot, decide_false, Bool.false_eq_true, or_self, if_false]
    rw [if_neg (by rw [hone]; decide)]
  · by_cases hk : k = le p 0 1
    · subst hk
      exact tgetD_tset_self ..
    · exact tgetD_tset_other _ _ _ hk

/-- A context number that a message may name. -/
theorem ctxNo_ok {k : Nat} (hlo : 0 < k) (hhi : k ≤ 63) : ¬ (k = 0 ∨ 63 < k) := by omega
/-- A context that is neither enabled, being disabled, nor about to be enabled. -/
theorem ctx_idle {c : Ctx} (h2 : c.state ≠ 2) (h3 : c.state ≠ 3) (he : c.enableAt = none) :
    ¬ (c.state = 2 ∨ c.state = 3 ∨ c.enableAt.isSome = true) := by simp [h2, h3, he]

/-- Settles O23: each message by the tests of its payload and of its context's state. -/
theorem contextMessages : Obligations.ContextMessages := by
  refine ⟨ctxConfig_stores, ?rings, ?ringsEnabled, ctxShares_schedules, ?enable, ?enableFails, ?disable, ?status⟩
  case rings =>
    intro s mb p h hlo hhi hv0 hv1 hs hc hb h2 h3 he
    have hv : ¬ (le p 2 2 < 80 ∨ 2047 < le p 2 2) := by omega
    refine next_of_answer h ?_
    simp only [if_neg (ctxNo_ok hlo hhi), if_neg hv, hs, hc, hb, if_neg (ctx_idle h2 h3 he), Bool.not_true, Bool.false_eq_true, if_false]
  case ringsEnabled =>
    intro s mb p h hlo hhi hv0 hv1 hs hc hb h2
    have hv : ¬ (le p 2 2 < 80 ∨ 2047 < le p 2 2) := by omega
    refine next_of_answer h ?_
    simp only [if_neg (ctxNo_ok hlo hhi), if_neg hv, hs, hc, hb, h2, Bool.not_true, Bool.false_eq_true, if_false, true_or, if_true]
  case enable =>
    intro s mb p lines h hlo hhi h2 h3 he hcheck honly
    refine ⟨_, next_of_answer (v := schedule (.enable (le p 0 1)) { s.u with
      ctx := tset s.u.ctx (le p 0 1) { tgetD s.u.ctx (le p 0 1) {} with enableAt := some (nextTick s.u) } }) h ?_,
      answered_of_heard rfl h rfl, rfl, rfl, rfl⟩
    simp only [if_neg (ctxNo_ok hlo hhi), if_neg (ctx_idle h2 h3 he), hcheck, honly, Bool.false_eq_true, if_false]
  case enableFails =>
    intro s mb p lines h hlo hhi h2 h3 he hcheck
    refine next_of_answer h ?_
    cases hl : contextCheck s.asm s.u (le p 0 1) lines none with
    | nil => exact absurd hl hcheck
    | cons r l => simp only [if_neg (ctxNo_ok hlo hhi), if_neg (ctx_idle h2 h3 he), hl]
  case disable =>
    intro s mb p h hlo hhi h2
    refine next_of_answer h ?_
    simp only [if_neg (ctxNo_ok hlo hhi), h2, ne_eq, not_true_eq_false, if_false]
  case status =>
    intro s mb p h hlo hhi hmb
    refine next_of_answer h ?_
    have hown : ¬ (mb.val ≠ 0 ∧ mb.val ≠ le p 0 1) := by
      rintro ⟨h0, h1⟩
      exact hmb.elim (fun h => h0 (congrArg Fin.val h)) h1
    simp only [if_neg (ctxNo_ok hlo hhi), if_neg hown]

/- Accepted changes take effect (R234, R352). -/
theorem changeDue_of_other {n : Nat} {c : Change} (hrun : running u = true) (hs : ∀ m g r b, c ≠ .sampling m g r b) :
    changeDue u (n, c) = decide (n ≤ u.tick.number) := by
  cases c with
  | sampling m g r b => exact absurd rfl (hs m g r b)
  | _ => simp [changeDue, hrun]
/-- With no sampling record nothing is read from tier 1. -/
theorem exec_configChange_one {n : Nat} {c : Change} (hc : s.u.changes = [(n, c)]) (hs : ∀ m g r b, c ≠ .sampling m g r b) :
    exec .configChangeEffect s = .next { s with u := configChangeEffect s.asm s.u } := by
  have hbias : biasNow s = s.u := by
    have hlist : (biasNow s).changes = s.u.changes := by
      rw [biasNow, hc]
      cases c with
      | sampling m g r b => exact absurd rfl (hs m g r b)
      | _ => rfl
    exact congrArg (fun l => { s.u with changes := l }) hlist
  exact congrArg (fun v => Host.Outcome.next { s with u := configChangeEffect s.asm v }) hbias
/-- The one change that waits, before its edge. -/
theorem configChange_waits {n : Nat} {c : Change} (hc : s.u.changes = [(n, c)]) (hrun : running s.u = true)
    (hn : s.u.tick.number < n) (hs : ∀ m g r b, c ≠ .sampling m g r b) : exec .configChangeEffect s = .next s := by
  have hdue : changeDue s.u (n, c) = false := by
    rw [changeDue_of_other hrun hs]
    simpa using hn
  rw [exec_configChange_one hc hs]
  simp only [configChangeEffect, hc, List.filter_cons, List.filter_nil, hdue, Bool.false_eq_true, if_false, List.isEmpty_nil, if_true]
/-- The one change that waits, when its edge has come and no stream is there. -/
theorem configChange_acts {n : Nat} {c : Change} (hc : s.u.changes = [(n, c)]) (hrun : running s.u = true)
    (hn : n ≤ s.u.tick.number) (hstr : s.u.str = []) (hs : ∀ m g r b, c ≠ .sampling m g r b)
    (hr : changeRead c = true → recheck s.asm (changeEffect c { s.u with changes := [] }) = changeEffect c { s.u with changes := [] }) :
    exec .configChangeEffect s = .next { s with u := changeEffect c { s.u with changes := [] } } := by
  have hdue : changeDue s.u (n, c) = true := by
    rw [changeDue_of_other hrun hs]
    simpa using hn
  have hact : configChangeEffect s.asm s.u = if changeRead c = true then
      recheck s.asm (changeEffect c { s.u with changes := [] }) else changeEffect c { s.u with changes := [] } := by
    simp only [configChangeEffect, hc, List.filter_cons, List.filter_nil, hdue, hstr, Bool.not_true, Bool.false_eq_true,
      if_true, if_false, List.isEmpty_cons, List.map_nil, List.map_cons, List.any_cons, List.any_nil, Bool.or_false]
    rfl
  rw [exec_configChange_one hc hs, hact]
  split
  · next h => rw [hr h]
  · rfl

/-- With no context enabled nothing is checked again (R417). -/
theorem recheck_none (a : Asm) (h : ∀ c, c ∈ u.ctx → c.2.state ≠ 2) : recheck a u = u := by
  have hnone : u.ctx.filter (fun e => e.2.state == 2) = [] := List.filter_eq_nil_iff.mpr fun c hc => by simpa using h c hc
  rw [recheck, hnone]
  rfl

/-- Settles O24: policies as stored and scheduled, and a change that waits as its edge finds it. -/
theorem policyMessagesAndAcceptedChanges : Obligations.PolicyMessagesAndAcceptedChanges := by
  refine ⟨⟨?write, ?fault, ?read⟩, ?policy, ?enable, ?shares, ?waits⟩
  case write =>
    intro s mb p h hid hf
    refine next_of_answer h ?_
    simp only [if_neg (Nat.not_lt.mpr hid), hf]
  case fault =>
    intro s mb p off h hid hf
    refine next_of_answer h ?_
    simp only [if_neg (Nat.not_lt.mpr hid), hf]
  case read =>
    intro s mb p h hid
    refine next_of_answer h ?_
    simp only [if_neg (Nat.not_lt.mpr hid)]
  case policy =>
    intro s n id v r hc hrun hn hstr hctx
    exact ⟨_, configChange_acts hc hrun hn hstr nofun fun _ => recheck_none _ hctx,
      congrArg Policy.cur (tgetD_tset_self ..), fun k hk => tget_tset_other _ _ hk, rfl, rfl, rfl⟩
  case enable =>
    intro s n k hc hrun hn hstr
    refine ⟨_, configChange_acts hc hrun hn hstr nofun nofun, ?_⟩
    have hk : tgetD (tmod s.u.ctx k {} enableEffect) k {} = enableEffect (tgetD s.u.ctx k {}) := tgetD_tset_self ..
    exact ⟨congrArg Ctx.state hk, congrArg Ctx.subProd hk, congrArg Ctx.batProd hk, congrArg Ctx.bseq hk,
      congrArg Ctx.enableAt hk, (congrArg Ctx.shares hk).trans rfl, rfl⟩
  case shares =>
    intro s n k sh hc hrun hn hstr hctx
    have hout : ∀ c, c ∈ (changeEffect (.shares k sh) { s.u with changes := [] }).ctx → c.2.state ≠ 2 := by
      intro c hm
      obtain rfl | hm := tset_mem hm
      · by_cases hk : tget s.u.ctx k = none
        · simp [tgetD, hk]
        · obtain ⟨x, hx⟩ := Option.ne_none_iff_exists'.mp hk
          simpa [tgetD, hx] using hctx _ (tget_mem hx)
      · exact hctx c hm
    exact ⟨_, configChange_acts hc hrun hn hstr nofun fun _ => recheck_none _ hout,
      tgetD_tset_self .., fun j hj => tget_tset_other _ _ hj, rfl⟩
  case waits => exact fun s n c hc hrun hn hs => configChange_waits hc hrun hn hs

/- Counters (R507, R509, R510). -/
@[simp] theorem cntEntry_length (value : Nat) (sat : Bool) (source kind die index : Nat) :
    (cntEntry value sat source kind die index).length = 16 := by simp [cntEntry]
theorem length_flatMap_const {α : Type} (l : List α) {f : α → Bytes} {m : Nat} (h : ∀ x, (f x).length = m) :
    (l.flatMap f).length = m * l.length := by
  induction l with
  | nil => rfl
  | cons x l ih => rw [List.flatMap_cons, List.length_append, h, ih, List.length_cons, Nat.mul_succ, Nat.add_comm]
theorem cntEntries_length (u : Units) (dies : List Nat) : (cntEntries u dies).length = 512 * dies.length + 256 := by
  rw [cntEntries, List.length_append, length_flatMap_const (m := 512), length_flatMap_const (m := 16), List.length_range]
  · exact fun _ => cntEntry_length ..
  · intro k
    rw [length_flatMap_const (m := 16), List.length_range]
    exact fun _ => cntEntry_length ..

/-- A write through a BUF of port 0 that goes well. -/
theorem bufWrite_port0 {ctx : Nat} {b : Buf} {data : Bytes} (hb : b.space = 0) (hup : dmaUp s.u 0 = true) (hlen : data.length ≤ b.len) :
    bufWrite s ctx b data false = (onUnits (emit (.host 0 b.addr data)) s, true) := by
  simp only [bufWrite, hb, hup, List.take_of_length_le hlen, Bool.not_true, Bool.false_eq_true, if_false]
  rfl
theorem answerWaiting_waiting (h : (tgetD u.mbx n {}).phase = .waiting) (a : Ans) : answerWaiting (some n) a u = answer n a u :=
  if_pos h

theorem cntLatch_one (s : State) (k : Nat) (mb : Fin 64) (p : Bytes) (hr : s.u.cnt.reads = [(mb.val, false)]) (hw : awaits s mb)
    (hp : p = payloadOf (tgetD s.u.mbx mb {})) (hs : (bufOf p 16).space = 0) (hup : dmaUp s.u 0 = true)
    (hlen : 512 * (cntDies s.asm mb (le p 8 8)).length + 256 ≤ (bufOf p 16).len) :
    cntLatch k s = onUnits (fun u => answer mb (ok (le8 k)) (emit (.host 0 (bufOf p 16).addr
      (cntEntries u (cntDies s.asm mb (le p 8 8)))) { u with cnt := { u.cnt with reads := [] } })) s := by
  subst hp
  have hwrite := bufWrite_port0 (s := { s with u := { s.u with cnt := { s.u.cnt with reads := [] } } }) (ctx := mb)
    (data := cntEntries s.u (cntDies s.asm mb (le (payloadOf (tgetD s.u.mbx mb {})) 8 8))) hs hup
    (by rw [cntEntries_length]; exact hlen)
  rw [cntLatch, hr]
  refine (congrArg (fun r : State × Bool => { r.1 with u := answerWaiting (some mb.val) (if r.2 then ok (le8 k) else faultAt 16) r.1.u })
    hwrite).trans ?_
  refine congrArg (fun v => { s with u := v }) (answerWaiting_waiting ?_ _)
  exact hw

theorem tget_tmap {α β : Type} (t : Tbl α) (f : Nat → α → β) (k : Nat) : tget (tmap t f) k = (tget t k).map (f k) := by
  induction t with
  | nil => rfl
  | cons e t ih =>
    obtain ⟨i, x⟩ := e
    change (if k = i then some (f i x) else tget (tmap t f) k) = (if k = i then some x else tget t k).map (f k)
    split
    · next h => rw [h]; rfl
    · exact ih

/-- Settles O25: counts saturate, and a snapshot is written when it is latched. -/
theorem counterMessages : Obligations.CounterMessages := by
  refine ⟨?select, ?read, ?selected, cntLatch_one, ?die, ?block⟩
  case select =>
    intro s mb p h hfit hidx hsrc
    refine next_of_answer h ?_
    simp only [hfit, hsrc, if_neg (Nat.not_lt.mpr hidx), Bool.not_true, Bool.false_eq_true, if_false]
  case read =>
    intro s mb p flt h hb hlen
    refine next_of_wait h ?_
    have hok : ¬ ((!bufOk s.u mb (bufOf p 16)) = true ∨ (bufOf p 16).len < 512 * (cntDies s.asm mb (le p 8 8)).length + 256) := by
      simp [hb, hlen]
    simp only [if_neg hok]
  case selected => exact fun u i source => ⟨tgetD_tset_self .., fun j hj => tget_tset_other _ _ hj⟩
  case die =>
    intro u die source k i c hk hc hdie hsrc
    refine ⟨{ c with value := satN 48 (c.value + k), sat := c.sat || 2 ^ 48 ≤ c.value + k }, ?_, hsrc, rfl⟩
    simp only [dieBump, if_neg (Nat.pos_iff_ne_zero.mp hk)]
    rw [tget_tmap, hc, Option.map_some, if_pos ⟨hdie, hsrc⟩]
  case block =>
    intro u n k hk
    simp only [blkBump, if_neg (Nat.pos_iff_ne_zero.mp hk)]
    exact tgetD_tset_self ..

end Sys2Proof.Machine
end

section
/-! PROOFS. Messages of the match pool (06, R175, R182, R183, R195, R196, R200): the blocks of O26 and O27. -/
namespace Sys2Proof.Machine

variable {s t : State} {u v : Units} {op n : Nat} {p : Bytes} {a : Ans}

/- Runs of a table. -/
/-- A run of n entries from first on. -/
def putRun {α : Type} (t : Tbl α) (first n : Nat) (f : Nat → α) : Tbl α :=
  (List.range n).foldl (fun t k => tset t (first + k) (f k)) t
theorem putRun_succ {α : Type} (t : Tbl α) (first n : Nat) (f : Nat → α) :
    putRun t first (n + 1) f = tset (putRun t first n f) (first + n) (f n) := by
  rw [putRun, putRun, List.range_succ, List.foldl_append]
  rfl
theorem tget_putRun {α : Type} (t : Tbl α) {first n k : Nat} (f : Nat → α) (h : k < n) :
    tget (putRun t first n f) (first + k) = some (f k) := by
  induction n with
  | zero => cases h
  | succ n ih =>
    rw [putRun_succ]
    by_cases hk : k = n
    · rw [hk]
      exact tget_tset_self ..
    · rw [tget_tset_other _ _ (by omega)]
      exact ih (by omega)
theorem tgetD_putRun {α : Type} (t : Tbl α) {first n k : Nat} (f : Nat → α) (d : α) (h : k < n) :
    tgetD (putRun t first n f) (first + k) d = f k := by
  rw [tgetD, tget_putRun _ _ h, Option.getD_some]
theorem tget_putRun_other {α : Type} (t : Tbl α) {first n j : Nat} (f : Nat → α) (h : j < first ∨ first + n ≤ j) :
    tget (putRun t first n f) j = tget t j := by
  induction n with
  | zero => rfl
  | succ n ih =>
    rw [putRun_succ, tget_tset_other _ _ (by omega)]
    exact ih (by omega)

/-- ACTION_WRITE (R183, R200): the records stand in both tables. -/
theorem actionWrite_stores (s : State) (mb : Fin 64) (p : Bytes) (h : heard s.u mb 0x0205 p) (hfirst : le p 0 4 < 524288)
    (hpos : 0 < le p 4 2) (hmax : le p 4 2 ≤ 500) (hend : le p 0 4 + le p 4 2 ≤ 524288)
    (hgood : ∀ k, k < le p 4 2 → actionBad (le p (8 + 8 * k) 8) = false) :
    ∃ t, exec (.actionWrite mb) s = .next t ∧ answered t mb (ok []) ∧
      (∀ k, k < le p 4 2 → actionAt t.u (le p 0 4 + k) = le p (8 + 8 * k) 8) ∧
      (∀ k, k < le p 4 2 → tgetD t.u.mat.shActions (le p 0 4 + k) 0 = le p (8 + 8 * k) 8) ∧
      (∀ a, a < le p 0 4 ∨ le p 0 4 + le p 4 2 ≤ a → actionAt t.u a = actionAt s.u a) ∧
      t = { s with u := { s.u with mbx := t.u.mbx, mat := { s.u.mat with
        actions := t.u.mat.actions, shActions := t.u.mat.shActions } } } := by
  refine ⟨_, next_of_answer (a := ok []) (v := { s.u with mat := { s.u.mat with
      actions := putRun s.u.mat.actions (le p 0 4) (le p 4 2) (fun k => le p (8 + 8 * k) 8)
      shActions := putRun s.u.mat.shActions (le p 0 4) (le p 4 2) (fun k => le p (8 + 8 * k) 8) } }) h ?_,
    answered_of_heard rfl h rfl, fun k hk => tgetD_putRun _ _ _ hk, fun k hk => tgetD_putRun _ _ _ hk, fun b hb => ?_, rfl⟩
  · have hcnt : ¬ (le p 4 2 = 0 ∨ 500 < le p 4 2 ∨ 524288 < le p 0 4 + le p 4 2) := by omega
    have hfind : ((List.range (le p 4 2)).map (fun k => (k, le p (8 + 8 * k) 8))).find? (fun x => actionBad x.2) = none := by
      rw [List.find?_map, find_range_none (q := (fun x : Nat × Nat => actionBad x.2) ∘ fun k => (k, le p (8 + 8 * k) 8)) hgood]
      rfl
    simp only [if_neg (Nat.not_le.mpr hfirst), if_neg hcnt, hfind, List.foldl_map]
    rfl
  · exact congrArg (fun o => o.getD 0) (tget_putRun_other s.u.mat.actions _ hb)

/-- BANLIST_WRITE (R353). -/
theorem banlistWrite_stores (s : State) (mb : Fin 64) (p x : Bytes) (d : Dma) (h : heard s.u mb 0x0206 p) (hfirst : le p 0 4 < 2 ^ 20)
    (hend : le p 0 4 + le p 4 4 ≤ 2 ^ 20) (hb : bufOk s.u mb (bufOf p 16) = true) (hlen : 4 * le p 4 4 ≤ (bufOf p 16).len)
    (hx : bufRead s mb (bufOf p 16) d = some x) (hgood : ∀ k, k < le p 4 4 → le x (4 * k) 4 < 2 ^ 20) :
    ∃ t, exec (.banlistWrite mb d) s = .next t ∧ answered t mb (ok []) ∧
      (∀ k, k < le p 4 4 → tgetD t.u.mat.lists (le p 0 4 + k) 0 = le x (4 * k) 4) ∧
      (∀ a, a < le p 0 4 ∨ le p 0 4 + le p 4 4 ≤ a → tget t.u.mat.lists a = tget s.u.mat.lists a) ∧
      t = { s with u := { s.u with mbx := t.u.mbx, mat := { s.u.mat with lists := t.u.mat.lists } } } := by
  refine ⟨{ s with u := answer mb (ok []) { s.u with mat := { s.u.mat with
      lists := putRun s.u.mat.lists (le p 0 4) (le p 4 4) (fun k => le x (4 * k) 4) } } }, (next_of_heardS h).trans ?_,
    answered_of_heard rfl h rfl, fun k hk => tgetD_putRun _ _ _ hk, fun b hb => tget_putRun_other _ _ hb, rfl⟩
  have hbuf : ¬ ((!bufOk s.u mb (bufOf p 16)) = true ∨ (bufOf p 16).len < 4 * le p 4 4) := by simp [hb, hlen]
  have hany : ((List.range (le p 4 4)).map (fun k => (le p 0 4 + k, le x (4 * k) 4))).any (fun w => decide (2 ^ 20 ≤ w.2)) = false := by
    rw [List.any_map, List.any_eq_false]
    intro k hk
    simpa using hgood k (List.mem_range.mp hk)
  simp only [if_neg (Nat.not_le.mpr hfirst), if_neg (Nat.not_lt.mpr hend), if_neg hbuf, hx, hany, Bool.false_eq_true, if_false, List.foldl_map]
  rfl

/-- Settles O26: each message by the tests of its payload; runs of records by the table they leave. -/
theorem matchConfigurationMessages : Obligations.MatchConfigurationMessages := by
  refine ⟨?valid, ?invalid, ?fault, ?desc, actionWrite_stores, banlistWrite_stores, ?repl, ?bank⟩
  case valid =>
    intro s mb p h hf hv
    refine next_of_answer h ?_
    simp only [hf, hv, Bool.not_true, Bool.false_eq_true, false_and, if_false, if_true]
  case invalid =>
    intro s mb p h hf hv hn
    refine next_of_answer h ?_
    simp only [hf, hv, hn, Bool.false_eq_true, and_false, if_false]
  case fault =>
    intro s mb p off h hf
    refine next_of_answer h ?_
    simp only [hf]
  case desc =>
    intro s mb p d h hkind hid hdef hacc hfree hd
    subst hd
    refine next_of_answer h ?_
    have h1 : ¬ (if le p 0 1 = 0 then 524288 ≤ le p 8 4 else le p 8 4 ≠ 0) := by
      split at hacc <;> simp only [*, if_true, if_false] <;> omega
    have h2 : ¬ (if le p 0 1 = 0 then 262144 ≤ le p 12 4 else le p 12 4 ≠ 0) := by
      split at hacc <;> simp only [*, if_true, if_false] <;> omega
    have h3 : ¬ (le p 4 1 = 0 ∧ nextDefined s.u (le p 0 1 == 1) (le p 2 2) = true ∧
        (nextProfiles s.u).any (fun r => profNames r (le p 0 1 == 1) (le p 2 2)) = true) := by
      rintro ⟨hz, hn, hp⟩
      obtain ⟨r, hr, hn'⟩ := List.any_eq_true.mp hp
      obtain hone | hund | hall := hfree
      · omega
      · rw [hund] at hn
        exact Bool.false_ne_true hn
      · rw [hall r hr] at hn'
        exact Bool.false_ne_true hn'
    simp only [if_neg (Nat.not_lt.mpr hkind), if_neg (Nat.not_lt.mpr hid), if_neg (Nat.not_lt.mpr hdef), if_neg h1, if_neg h2, if_neg h3]
  case repl =>
    intro s mb p h hid hf
    refine next_of_answer h ?_
    simp only [if_neg (Nat.not_lt.mpr hid), hf]
  case bank =>
    intro s mb p h hg hb hmode hsteal hbud hfree
    refine next_of_answer h ?_
    have hgo : ¬ (le p 2 1 ≠ nextMode s.u (le p 0 1 * 32 + le p 1 1) ∧ (bankHolds s.u (le p 0 1 * 32 + le p 1 1) ||
        (nextProfiles s.u).any (fun r => bitAt (profBanks r) (le p 0 1 * 32 + le p 1 1))) = true) := by
      rintro ⟨hne, hbusy⟩
      obtain heq | ⟨hholds, hprof⟩ := hfree
      · exact hne heq
      · have hany : (nextProfiles s.u).any (fun r => bitAt (profBanks r) (le p 0 1 * 32 + le p 1 1)) = false :=
          List.any_eq_false.mpr fun r hr => by simp [hprof r hr]
        rw [hholds, hany] at hbusy
        exact Bool.false_ne_true hbusy
    simp only [if_neg (Nat.not_lt.mpr hg), if_neg (Nat.not_lt.mpr hb), if_neg (Nat.not_lt.mpr hmode), if_neg (Nat.not_lt.mpr hsteal),
      if_neg (Nat.not_lt.mpr hbud), if_neg hgo]

/- Update lists (R195, R200, R512). -/
/-- An accepted list leaves the stored entries and everything but the match pool. -/
def ListFrame (u v : Units) : Prop := ∃ x, v = { u with mat := x } ∧ x.entries = u.mat.entries ∧ x.nextList = u.mat.nextList ∧
  x.nextOrd = u.mat.nextOrd
theorem ListFrame.refl (u : Units) : ListFrame u u := ⟨u.mat, rfl, rfl, rfl, rfl⟩
theorem ListFrame.trans {w : Units} (h : ListFrame u v) (h' : ListFrame v w) : ListFrame u w := by
  obtain ⟨x, rfl, he, hl, ho⟩ := h
  obtain ⟨y, rfl, he', hl', ho'⟩ := h'
  exact ⟨y, rfl, he'.trans he, hl'.trans hl, ho'.trans ho⟩
theorem listFrame_shadowPut (r : UpdRec) (u : Units) : ListFrame u (shadowPut r u) := by
  unfold shadowPut
  split
  · exact .refl u
  · exact ⟨_, rfl, rfl, rfl, rfl⟩
theorem listFrame_updRecords (list : Nat) (l : List Bytes) (ord : Nat) (u : Units) : ListFrame u (updRecords list l ord u).2 := by
  induction l generalizing ord u with
  | nil => exact .refl u
  | cons r l ih => exact (listFrame_shadowPut _ u).trans (ih _ _)
theorem listFrame_listFeed (full : List Nat) (l : List UpdRec) (u : Units) : ListFrame u (listFeed full l u).2 := by
  induction l generalizing full u with
  | nil => exact .refl u
  | cons r l ih =>
    unfold listFeed
    dsimp only
    split
    · exact ih _ u
    · exact ListFrame.trans (v := modBank (r.addr / bankSize) (fun x => { x with queue := x.queue ++ [r] }) u)
        ⟨_, rfl, rfl, rfl, rfl⟩ (ih _ _)
theorem listFrame_feedLists (u : Units) : ListFrame u (feedLists u) := by
  unfold feedLists
  dsimp only
  refine ListFrame.trans (v := _) ?_ ⟨_, rfl, rfl, rfl, rfl⟩
  generalize u.mat.updLists = l
  generalize hacc : (([], [], u) : List UpdList × List Nat × Units) = acc
  have hu : ListFrame u acc.2.2 := hacc ▸ .refl u
  clear hacc
  induction l generalizing acc with
  | nil => exact hu
  | cons x l ih => exact ih _ (hu.trans (listFrame_listFeed ..))
theorem updAccept_frame (mb : Nat) (recs : List Bytes) (u : Units) : ∃ x, updAccept mb recs u = { u with mat := x } ∧
    x.entries = u.mat.entries ∧ x.nextList = u.mat.nextList + 1 ∧ x.nextOrd = u.mat.nextOrd + recs.length := by
  obtain ⟨x, hx, he, hl, ho⟩ := ((listFrame_updRecords u.mat.nextList recs u.mat.nextOrd
    { u with mat := { u.mat with nextList := u.mat.nextList + 1, nextOrd := u.mat.nextOrd + recs.length } }).trans
      (ListFrame.trans (w := updAccept mb recs u) ⟨_, rfl, rfl, rfl, rfl⟩ (listFrame_feedLists _)))
  exact ⟨x, hx, he, hl, ho⟩

/-- A command accepted waits in its listed mailbox. -/
theorem awaits_of_heard (ht : t.u = await n v) (h : heard u n op p) (hv : v.mbx = u.mbx) : awaits t n := by
  have hl : tget v.mbx n ≠ none := by
    rw [hv]
    exact heard_listed h
  rw [awaits, ht]
  exact congrArg Mbx.phase (tgetD_tupd_self _ _ _ _ hl)

/-- A MATCH_UPDATE whose buffer is read and whose records are in order is accepted. -/
theorem matchUpdate_accepted {mb : Fin 64} {x : Bytes} {d : Dma} (h : heard s.u mb 0x0209 p) (hb : bufOk s.u mb (bufOf p 16) = true)
    (hpos : 0 < le p 0 4) (hlen : 64 * le p 0 4 ≤ (bufOf p 16).len) (hx : bufRead s mb (bufOf p 16) d = some x)
    (hgood : ∀ k, k < le p 0 4 → updBad s.u (sliceZ x (64 * k) 64) = false) :
    exec (.matchUpdate mb d) s = .next { s with
      u := await mb (updAccept mb ((List.range (le p 0 4)).map (fun k => sliceZ x (64 * k) 64)) s.u) } := by
  refine (next_of_heardS h).trans ?_
  have hbuf : ¬ ((!bufOk s.u mb (bufOf p 16)) = true ∨ (bufOf p 16).len < 64 * le p 0 4) := by simp [hb, hlen]
  have hany : ((List.range (le p 0 4)).map (fun k => sliceZ x (64 * k) 64)).any (updBad s.u) = false := by
    rw [List.any_map, List.any_eq_false]
    intro k hk
    simpa using hgood k (List.mem_range.mp hk)
  simp only [if_neg hbuf, hx, hany, if_neg (Nat.pos_iff_ne_zero.mp hpos), Bool.false_eq_true, if_false]
  rfl

theorem le_sliceZ {x : Bytes} {m k j : Nat} (hx : m ≤ x.length) (hk : k + j ≤ m) : le (sliceZ x 0 m) k j = le x k j := by
  have hlen : (x.take m).length = m := List.length_take_of_le hx
  rw [sliceZ, List.drop_zero, le_append_left (by omega), le, le, List.drop_take, List.take_take, Nat.min_eq_left (by omega)]

/-- What an update record of opcode 1 says. -/
theorem updParse_one {x : Bytes} (list ord : Nat) (hlen : 64 ≤ x.length) (hop : bitsOf (le x 40 4) 23 20 = 1) :
    (updParse u list ord (sliceZ x 0 64)).op = 1 ∧ (updParse u list ord (sliceZ x 0 64)).addr = le x 40 4 % 2 ^ 20 ∧
    (updParse u list ord (sliceZ x 0 64)).ent.mask = le x 20 20 ∧
    (updParse u list ord (sliceZ x 0 64)).ent.key = Nat.land (le x 0 20) (le x 20 20) ∧
    (updParse u list ord (sliceZ x 0 64)).ent.prio = le x 44 4 % 4096 ∧ (updParse u list ord (sliceZ x 0 64)).step = 0 := by
  have h40 := le_sliceZ (k := 40) (j := 4) hlen (by decide)
  have h44 := le_sliceZ (k := 44) (j := 4) hlen (by decide)
  have h0 := le_sliceZ (k := 0) (j := 20) hlen (by decide)
  have h20 := le_sliceZ (k := 20) (j := 20) hlen (by decide)
  have hne : ¬ (1 : Nat) = 4 := by decide
  simp only [updParse, h40, h44, h0, h20, hop, if_neg hne]
  split <;> exact ⟨rfl, rfl, rfl, rfl, rfl, rfl⟩

/-- The only list feeds its only record to a queue with room (R512). -/
theorem feedLists_one {l : UpdList} {x : UpdRec} (hl : u.mat.updLists = [l]) (hw : l.waiting = [x])
    (hfree : (bankAt u (x.addr / 16384)).queue.length < 64) :
    feedLists u = { modBank (x.addr / 16384) (fun b => { b with queue := b.queue ++ [x] }) u with
      mat := { (modBank (x.addr / 16384) (fun b => { b with queue := b.queue ++ [x] }) u).mat with
        updLists := [{ l with waiting := [] }] } } := by
  have hroom : ¬ (([] : List Nat).contains (x.addr / bankSize) = true ∨ 64 ≤ (bankAt u (x.addr / bankSize)).queue.length) := by
    rintro (h | h)
    · cases h
    · exact absurd hfree (Nat.not_lt.mpr h)
  have hfeed : listFeed [] [x] u = ([], modBank (x.addr / bankSize) (fun b => { b with queue := b.queue ++ [x] }) u) := if_neg hroom
  rw [feedLists, hl]
  dsimp only [List.foldl]
  rw [hw, hfeed]
  rfl

/-- The list that a mailbox's records make. -/
def listOf (id mb : Nat) (l : List UpdRec) : UpdList :=
  { id := id, mb := mb, waiting := l.filter (fun r => r.op != 4), left := (l.filter (fun r => r.op != 4)).length
    commits := (l.filter (fun r => r.op == 4)).map (fun r => (r.ord, r.kind, r.id)) }
/-- The numbers that a list of n records takes. -/
def numbered (n : Nat) (u : Units) : Units :=
  { u with mat := { u.mat with nextList := u.mat.nextList + 1, nextOrd := u.mat.nextOrd + n } }
/-- A list at the end of the lists in progress. -/
def withList (l : UpdList) (u : Units) : Units := { u with mat := { u.mat with updLists := u.mat.updLists ++ [l] } }
theorem updAccept_eq (mb : Nat) (recs : List Bytes) (u : Units) : updAccept mb recs u =
    feedLists (withList (listOf u.mat.nextList mb (updRecords u.mat.nextList recs u.mat.nextOrd (numbered recs.length u)).1)
      (updRecords u.mat.nextList recs u.mat.nextOrd (numbered recs.length u)).2) := rfl

/-- The only record of the only list enters the shadow and its bank's queue. -/
theorem updAccept_one {mb : Nat} {r : Bytes} {x : UpdRec} (hlists : u.mat.updLists = [])
    (hx : updParse u u.mat.nextList u.mat.nextOrd r = x) (hop : x.op = 1)
    (hfree : (bankAt u (x.addr / 16384)).queue.length < 64) :
    (bankAt (updAccept mb [r] u) (x.addr / 16384)).queue = (bankAt u (x.addr / 16384)).queue ++ [x] ∧
    tget (updAccept mb [r] u).mat.shadow x.addr = some (withPar { x.ent with key := Nat.land x.ent.key x.ent.mask }) := by
  have hshadow : shadowPut x (numbered 1 u) = { numbered 1 u with mat := { (numbered 1 u).mat with
      shadow := tset u.mat.shadow x.addr (withPar { x.ent with key := Nat.land x.ent.key x.ent.mask }) } } := by
    simp only [shadowPut, updEntry, hop]
    rfl
  have hrec : updRecords u.mat.nextList [r] u.mat.nextOrd (numbered [r].length u) = ([x], shadowPut x (numbered 1 u)) := by
    rw [← hx]
    rfl
  have hwait : (listOf u.mat.nextList mb [x]).waiting = [x] := List.filter_eq_self.mpr (by simp [hop])
  have hlist : (withList (listOf u.mat.nextList mb [x]) (shadowPut x (numbered 1 u))).mat.updLists = [listOf u.mat.nextList mb [x]] := by
    rw [withList, hshadow]
    exact congrArg (· ++ [listOf u.mat.nextList mb [x]]) hlists
  have hbank : bankAt (withList (listOf u.mat.nextList mb [x]) (shadowPut x (numbered 1 u))) = bankAt u := by
    rw [hshadow]
    rfl
  rw [updAccept_eq, hrec, feedLists_one hlist hwait (by rw [hbank]; exact hfree)]
  refine ⟨(congrArg Bank.queue (tgetD_tset_self ..)).trans ?_, ?_⟩
  · exact congrArg (fun f => (f (x.addr / 16384)).queue ++ [x]) hbank
  · rw [hshadow]
    exact tget_tset_self ..

theorem entryRecord_length (u : Units) (addr : Nat) : (entryRecord u addr).length = 64 := by simp [entryRecord]

/-- Settles O27: a list by what feeding it can change, its only record by its way into shadow and queue. -/
theorem matchUpdateAndReadMessages : Obligations.MatchUpdateAndReadMessages := by
  refine ⟨?empty, ?one, ?many, ?fault, ?read⟩
  case empty =>
    intro s mb p x d h hb hcnt hx
    refine (next_of_heardS h).trans ?_
    have hbuf : ¬ ((!bufOk s.u mb (bufOf p 16)) = true ∨ (bufOf p 16).len < 64 * 0) := by simp [hb]
    simp only [hcnt, if_neg hbuf, hx]
    rfl
  case one =>
    intro s mb p x d h hb hcnt hlen hx hgood hop hlists hfree hxlen
    have hacc := matchUpdate_accepted h hb (by omega) (by omega) hx (fun k hk => by
      have hk0 : k = 0 := by omega
      rw [hk0]
      exact hgood)
    have hrecs : (List.range (le p 0 4)).map (fun k => sliceZ x (64 * k) 64) = [sliceZ x 0 64] := by
      rw [hcnt]
      rfl
    rw [hrecs] at hacc
    obtain ⟨rop, raddr, rmask, rkey, rprio, rstep⟩ := updParse_one (u := s.u) s.u.mat.nextList s.u.mat.nextOrd (by omega) hop
    obtain ⟨y, hy, he, -, -⟩ := updAccept_frame mb [sliceZ x 0 64] s.u
    obtain ⟨hqueue, hshadow⟩ := updAccept_one (mb := mb.val) hlists rfl rop (by rw [raddr]; exact hfree)
    rw [raddr] at hqueue
    have hmbx : (updAccept mb [sliceZ x 0 64] s.u).mbx = s.u.mbx := by rw [hy]
    have hent : (updAccept mb [sliceZ x 0 64] s.u).mat.entries = s.u.mat.entries := by rw [hy, he]
    exact ⟨_, _, hacc, awaits_of_heard rfl h hmbx, hqueue, rop, raddr, rmask, rkey, rprio, rstep, hshadow, hent, rfl, rfl⟩
  case many =>
    intro s mb p x d h hb hpos hlen hx hgood
    obtain ⟨y, hy, he, hl, ho⟩ := updAccept_frame mb ((List.range (le p 0 4)).map (fun k => sliceZ x (64 * k) 64)) s.u
    rw [List.length_map, List.length_range] at ho
    have hmbx : (updAccept mb ((List.range (le p 0 4)).map (fun k => sliceZ x (64 * k) 64)) s.u).mbx = s.u.mbx := by rw [hy]
    rw [← hl, ← ho, ← he]
    refine ⟨_, matchUpdate_accepted h hb hpos hlen hx hgood, awaits_of_heard rfl h hmbx, ?_, ?_, ?_, rfl, rfl⟩
    all_goals
      dsimp only [await]
      rw [hy]
  case fault =>
    intro s mb p x d k h hb hlen hx hk hbad
    refine (next_of_heardS h).trans ?_
    have hbuf : ¬ ((!bufOk s.u mb (bufOf p 16)) = true ∨ (bufOf p 16).len < 64 * le p 0 4) := by simp [hb, hlen]
    have hany : ((List.range (le p 0 4)).map (fun k => sliceZ x (64 * k) 64)).any (updBad s.u) = true := by
      rw [List.any_map, List.any_eq_true]
      exact ⟨k, List.mem_range.mpr hk, hbad⟩
    simp only [if_neg hbuf, hx, hany, if_true]
    rfl
  case read =>
    intro s mb p h haddr hpos hmax hend hb hlen hspace hup
    refine (next_of_heardS h).trans ?_
    have hcnt : ¬ (le p 4 2 = 0 ∨ 4096 < le p 4 2 ∨ 2 ^ 20 < le p 0 4 + le p 4 2) := by omega
    have hbuf : ¬ ((!bufOk s.u mb (bufOf p 16)) = true ∨ (bufOf p 16).len < 64 * le p 4 2) := by simp [hb, hlen]
    have hsize : ((fromN (le p 0 4) (le p 4 2)).flatMap (entryRecord s.u)).length ≤ (bufOf p 16).len := by
      rw [length_flatMap_const (m := 64) _ (entryRecord_length s.u), fromN, List.length_map, List.length_range]
      exact hlen
    simp only [if_neg (Nat.not_le.mpr haddr), if_neg hcnt, if_neg hbuf, bufWrite_port0 hspace hup hsize, if_true]
    rfl

end Sys2Proof.Machine
end

section
/-! PROOFS. Updates of a bank, replays, commits, scrubs and retirement of the match pool (06, R170, R174, R193 to R201): the
blocks of O29. -/
namespace Sys2Proof.Machine

variable {s t : State} {u v : Units} {r : UpdRec} {b k : Nat}

/- Banks. -/
@[simp] theorem bankAt_modBank_self (b : Nat) (f : Bank → Bank) (u : Units) : bankAt (modBank b f u) b = f (bankAt u b) :=
  tgetD_tset_self ..
theorem bankAt_modBank_other (f : Bank → Bank) (u : Units) (h : k ≠ b) : bankAt (modBank b f u) k = bankAt u k :=
  tgetD_tset_other _ _ _ h
theorem dieBump_mat (d n k : Nat) (u : Units) : (dieBump d n k u).mat = u.mat := by rw [dieBump_eq]

/- With no list in progress nothing waits and nothing is answered. -/
theorem noLists_self (h : u.mat.updLists = []) : { u with mat := { u.mat with updLists := [] } } = u :=
  congrArg (fun l => { u with mat := { u.mat with updLists := l } }) h.symm
theorem feedLists_none (h : u.mat.updLists = []) : feedLists u = u := by
  rw [feedLists, h]
  exact noLists_self h
theorem closeLists_none (h : u.mat.updLists = []) : closeLists u = u := by
  rw [closeLists, h]
  exact noLists_self h
/-- An update done with no list in progress leaves its bank's queue. -/
theorem updDone_none (r : UpdRec) (one : Bool) (h : u.mat.updLists = []) :
    (updDone r one u).mat = (modBank (r.addr / 16384) (fun x => { x with queue := x.queue.filter (fun y => y.ord != r.ord) }) u).mat := by
  have hmap : ((modBank (r.addr / bankSize) (fun x => { x with queue := x.queue.filter (fun y => y.ord != r.ord) }) u).mat.updLists).map
      (fun l => if l.id = r.list then { l with left := l.left - 1, one := l.one + b2n one, three := l.three + b2n (!one) } else l) = [] :=
    List.map_eq_nil_iff.mpr h
  have hnone : (modBank (r.addr / bankSize) (fun x => { x with queue := x.queue.filter (fun y => y.ord != r.ord) }) u).mat.updLists = [] := h
  unfold updDone
  dsimp only
  rw [hmap, noLists_self hnone, feedLists_none (by rw [dieBump_mat]; exact hnone), closeLists_none (by rw [dieBump_mat]; exact hnone),
    dieBump_mat]
  rfl

/-- The record at the only place of a queue may begin. -/
theorem updReady_alone {x : Bank} (h : x.queue = [r]) : updReady x r = true := by
  simp [updReady, h]
theorem filter_ord_self (r : UpdRec) : [r].filter (fun y => y.ord != r.ord) = [] := by simp

/-- The one-slot path: an update of opcode 1 or 3, in a byte bank with budget left (R196, R197). -/
theorem oneSlotPath_byte {x : Bank} (hop : r.op = 1 ∨ r.op = 3) (hm : (bankAt u (r.addr / 16384)).mode = 0)
    (hs : x.steal = true) (hb : x.used < x.budget) : oneSlotPath u x r = true := by
  have hst : staging u r = false := by
    have hm' : (bankAt u (r.addr / bankSize)).mode = 0 := hm
    rw [staging, hm']
    rfl
  obtain h | h := hop <;> simp [oneSlotPath, hs, hb, h, hst]

theorem oneSlotUpdate_writes (s : State) (b : Fin 64) (r : UpdRec) (hq : (bankAt s.u b).queue = [r]) (ha : r.addr / 16384 = b.val)
    (hstep : r.step = 0) (hop : r.op = 1 ∨ r.op = 3) (hm : (bankAt s.u b).mode = 0) (hs : (bankAt s.u b).steal = true)
    (hb : (bankAt s.u b).used < (bankAt s.u b).budget) (hl : s.u.mat.updLists = []) :
    ∃ t, exec (.oneSlotUpdate b) s = .next t ∧
      tget t.u.mat.entries r.addr = some (withPar (if r.op = 3 then { entryAt s.u r.addr with valid := false }
        else { r.ent with key := Nat.land r.ent.key r.ent.mask })) ∧
      (∀ a, a ≠ r.addr → tget t.u.mat.entries a = tget s.u.mat.entries a) ∧ (bankAt t.u b).queue = [] ∧
      (bankAt t.u b).used = (bankAt s.u b).used + 1 ∧ (∀ k, k ≠ b.val → bankAt t.u k = bankAt s.u k) ∧ t.q = s.q ∧ t.m = s.m := by
  have hfind : (bankAt s.u b).queue.find? (fun r => r.step == 0 && updReady (bankAt s.u b) r && oneSlotPath s.u (bankAt s.u b) r) = some r := by
    rw [hq]
    simp [hstep, updReady_alone hq, oneSlotPath_byte hop (by rw [ha]; exact hm) hs hb]
  have hdone := updDone_none (u := modBank b (fun x => { x with used := x.used + 1 }) (putEntry r.addr (updEntry r (entryAt s.u r.addr)) s.u))
    r true hl
  have hact : oneSlotUpdate b s.u = updDone r true (modBank b (fun x => { x with used := x.used + 1 })
      (putEntry r.addr (updEntry r (entryAt s.u r.addr)) s.u)) := by
    rw [oneSlotUpdate, hfind]
  have hbank : ∀ k, bankAt (oneSlotUpdate b s.u) k = bankAt (modBank (r.addr / 16384)
      (fun x => { x with queue := x.queue.filter (fun y => y.ord != r.ord) }) (modBank b (fun x => { x with used := x.used + 1 })
        (putEntry r.addr (updEntry r (entryAt s.u r.addr)) s.u))) k := by
    intro k
    rw [hact, bankAt, hdone]
    rfl
  have hent : (oneSlotUpdate b s.u).mat.entries = tset s.u.mat.entries r.addr (withPar (updEntry r (entryAt s.u r.addr))) := by
    rw [hact, hdone]
    rfl
  have hself := hbank b
  rw [ha, bankAt_modBank_self, bankAt_modBank_self] at hself
  have hold : bankAt (putEntry r.addr (updEntry r (entryAt s.u r.addr)) s.u) b = bankAt s.u b := rfl
  rw [hold] at hself
  refine ⟨{ s with u := oneSlotUpdate b s.u }, rfl, ?_, fun a ha' => ?_, ?_, ?_, fun k hk => ?_, rfl, rfl⟩
  · dsimp only
    rw [hent]
    exact tget_tset_self ..
  · dsimp only
    rw [hent]
    exact tget_tset_other _ _ ha'
  · dsimp only
    rw [hself, hq]
    exact filter_ord_self r
  · exact congrArg Bank.used hself
  · dsimp only
    rw [hbank, ha, bankAt_modBank_other _ _ hk, bankAt_modBank_other _ _ hk]
    rfl

/- The three steps (R194). -/
/-- A queue's update goes to step n. -/
def markStep (r : UpdRec) (n : Nat) (x : Bank) : Bank :=
  { x with queue := x.queue.map (fun y => if y.ord = r.ord then { y with step := n } else y) }
theorem updStep_first (hstep : r.step = 0) : updStep r u =
    modBank (r.addr / 16384) (markStep r 1) (putEntry r.addr { entryAt u r.addr with valid := false } u) := by
  rw [updStep, hstep]
  rfl
theorem updStep_second (hstep : r.step = 1) : updStep r u =
    modBank (r.addr / 16384) (markStep r 2) (putEntry r.addr { updEntry r (entryAt u r.addr) with valid := false } u) := by
  rw [updStep, hstep]
  rfl
theorem updStep_third (hstep : r.step = 2) : updStep r u =
    updDone r false (putEntry r.addr { entryAt u r.addr with valid := r.op != 3 && r.ent.valid } u) := by
  rw [updStep, hstep]
  rfl
/-- A bank whose only update has begun goes on with it. -/
theorem threeStep_goes (hq : (bankAt u b).queue = [r]) (hstep : 0 < r.step) : threeStepUpdate b u = updStep r u := by
  have hfind : (bankAt u b).queue.find? (fun r => decide (0 < r.step)) = some r := by simp [hq, hstep]
  rw [threeStepUpdate, hfind]
theorem markStep_queue {x : Bank} (h : x.queue = [r]) (n : Nat) : (markStep r n x).queue = [{ r with step := n }] := by
  simp [markStep, h]

theorem threeStep_invalidates (s : State) (b : Fin 64) (r : UpdRec) (hq : (bankAt s.u b).queue = [r]) (ha : r.addr / 16384 = b.val)
    (hstep : r.step = 0) (hop : r.op = 2) :
    ∃ t, exec (.threeStepUpdate b) s = .next t ∧
      tget t.u.mat.entries r.addr = some (withPar { entryAt s.u r.addr with valid := false }) ∧
      (∀ a, a ≠ r.addr → tget t.u.mat.entries a = tget s.u.mat.entries a) ∧ (bankAt t.u b).queue = [{ r with step := 1 }] ∧
      t.q = s.q ∧ t.m = s.m := by
  have hnone : (bankAt s.u b).queue.find? (fun r => decide (0 < r.step)) = none := by simp [hq, hstep]
  have hpath : oneSlotPath s.u (bankAt s.u b) r = false := by simp [oneSlotPath, hop]
  have hfind : (bankAt s.u b).queue.find? (fun r => updReady (bankAt s.u b) r && !oneSlotPath s.u (bankAt s.u b) r) = some r := by
    rw [hq]
    simp [updReady_alone hq, hpath]
  have hact : threeStepUpdate b s.u = updStep r s.u := by
    rw [threeStepUpdate, hnone, hfind]
    dsimp only
    rw [hop]
    rfl
  rw [updStep_first hstep] at hact
  refine ⟨{ s with u := threeStepUpdate b s.u }, rfl, ?_, fun a ha' => ?_, ?_, rfl, rfl⟩
  · rw [hact]
    exact tget_tset_self ..
  · rw [hact]
    exact tget_tset_other _ _ ha'
  · dsimp only
    rw [hact, ha, bankAt_modBank_self]
    exact markStep_queue hq 1

theorem threeStep_writes (s : State) (b : Fin 64) (r : UpdRec) (hq : (bankAt s.u b).queue = [r]) (ha : r.addr / 16384 = b.val)
    (hstep : r.step = 1) (hop : r.op ≠ 3) :
    ∃ t, exec (.threeStepUpdate b) s = .next t ∧
      tget t.u.mat.entries r.addr = some (withPar { r.ent with key := Nat.land r.ent.key r.ent.mask, valid := false }) ∧
      (∀ a, a ≠ r.addr → tget t.u.mat.entries a = tget s.u.mat.entries a) ∧ (bankAt t.u b).queue = [{ r with step := 2 }] := by
  have hact := (threeStep_goes hq (by omega)).trans (updStep_second (u := s.u) hstep)
  have hupd : updEntry r (entryAt s.u r.addr) = { r.ent with key := Nat.land r.ent.key r.ent.mask } := if_neg hop
  rw [hupd] at hact
  refine ⟨{ s with u := threeStepUpdate b s.u }, rfl, ?_, fun a ha' => ?_, ?_⟩
  · rw [hact]
    exact tget_tset_self ..
  · rw [hact]
    exact tget_tset_other _ _ ha'
  · dsimp only
    rw [hact, ha, bankAt_modBank_self]
    exact markStep_queue hq 2

theorem threeStep_ends (s : State) (b : Fin 64) (r : UpdRec) (hq : (bankAt s.u b).queue = [r]) (ha : r.addr / 16384 = b.val)
    (hstep : r.step = 2) (hop : r.op ≠ 3) (hl : s.u.mat.updLists = []) :
    ∃ t, exec (.threeStepUpdate b) s = .next t ∧
      tget t.u.mat.entries r.addr = some (withPar { entryAt s.u r.addr with valid := r.ent.valid }) ∧ (bankAt t.u b).queue = [] := by
  have hact := (threeStep_goes hq (by omega)).trans (updStep_third (u := s.u) hstep)
  have hvalid : (r.op != 3 && r.ent.valid) = r.ent.valid := by simp [hop]
  rw [hvalid] at hact
  have hdone := updDone_none (u := putEntry r.addr { entryAt s.u r.addr with valid := r.ent.valid } s.u) r false hl
  rw [← hact] at hdone
  refine ⟨{ s with u := threeStepUpdate b s.u }, rfl, ?_, ?_⟩
  · rw [hdone]
    exact tget_tset_self ..
  · dsimp only
    rw [bankAt, hdone, ← bankAt, ha, bankAt_modBank_self]
    exact (congrArg (fun l => l.filter (fun y => y.ord != r.ord)) hq).trans (filter_ord_self r)

/- Replays (R199). -/
theorem replay_dropped (s : State) (n : Fin 4096) (x : Str) (hx : tget s.u.str n = some x)
    (hw : (s.u.mat.replay.filter (fun y => y.1 == n.val)) ≠ []) (hp : profGroups (ansTrans s.u x) = []) :
    ∃ t, exec (.automatonReplay n) s = .next t ∧ t.u.mat.replay = s.u.mat.replay.filter (fun y => y.1 != n.val) ∧
      tget t.u.str n = some x ∧ t = { s with u := { s.u with str := t.u.str, mat := { s.u.mat with replay := t.u.mat.replay } } } := by
  have hne : ((s.u.mat.replay.filter (fun y => y.1 == n.val)).map (·.2)).isEmpty = false := by simpa using hw
  have hnone : ((s.u.mat.replay.filter (fun y => y.1 == n.val)).map (·.2)).filter (profGroups (ansTrans s.u x)).contains = [] := by
    rw [hp]
    exact List.filter_eq_nil_iff.mpr fun _ _ => Bool.false_ne_true
  have hact : automatonReplay n s.u = { s.u with
      str := tset s.u.str n x, mat := { s.u.mat with replay := s.u.mat.replay.filter (fun y => y.1 != n.val) } } := by
    simp only [automatonReplay, hx, hne, hnone, Bool.false_eq_true, if_false, List.foldl_nil]
  refine ⟨{ s with u := automatonReplay n s.u }, rfl, ?_⟩
  rw [hact]
  exact ⟨rfl, tget_tset_self .., rfl⟩

theorem replay_starts (s : State) (n : Fin 4096) (x : Str) (g : Nat) (hx : tget s.u.str n = some x)
    (hw : s.u.mat.replay = [(n.val, g)]) (hg : g ∈ profGroups (ansTrans s.u x)) (hb : x.ms.bytes = []) (ha : x.ms.autos = []) :
    ∃ t, exec (.automatonReplay n) s = .next t ∧ t.u.mat.replay = [] ∧
      (tgetD t.u.str n {}).ms = { x.ms with autos := [(g, (descAt s.u false g).start)] } ∧ t.q = s.q ∧ t.m = s.m := by
  have hmine : s.u.mat.replay.filter (fun y => y.1 == n.val) = [(n.val, g)] := by simp [hw]
  have hrest : s.u.mat.replay.filter (fun y => y.1 != n.val) = [] := by simp [hw]
  have hlist : [g].filter (profGroups (ansTrans s.u x)).contains = [g] := by
    simp [hg]
  have hreplay : replayGroup (slotDie n) (ansTrans s.u x) g x.ms s.u =
      ({ x.ms with autos := [(g, (descAt s.u false g).start)] }, s.u) := by
    rw [replayGroup, hb, setAuto, ha]
    rfl
  have hact : automatonReplay n s.u = { s.u with
      str := tset s.u.str n { x with ms := { x.ms with autos := [(g, (descAt s.u false g).start)] } }
      mat := { s.u.mat with replay := [] } } := by
    simp only [automatonReplay, hx, hmine, hlist, hreplay, hrest, List.map_cons, List.map_nil, List.isEmpty_cons, Bool.false_eq_true,
      if_false, List.foldl_cons, List.foldl_nil]
  refine ⟨{ s with u := automatonReplay n s.u }, rfl, ?_⟩
  rw [hact]
  exact ⟨rfl, congrArg Str.ms (tgetD_tset_self ..), rfl, rfl⟩

/- Commits (R198). -/
/-- The first COMMIT of a defined group inverts its generation. -/
theorem commitOne_group {ord g : Nat} (hd : (descAt u false g).defined = true) (hl : u.mat.updLists = []) :
    (commitOne (ord, 0, g) 0 u).mat = { u.mat with
      commits := u.mat.commits + 1, shGroups := (commitOne (ord, 0, g) 0 u).mat.shGroups
      groups := tupd u.mat.groups g (fun d => { d with gen := !d.gen }) } ∧ (commitOne (ord, 0, g) 0 u).str = u.str := by
  have hmap : u.mat.updLists.map (fun l => if l.commits.contains (ord, 0, g) then
      { l with commits := l.commits.filter (fun x => x.1 != ord), lastCommit := u.tick.number } else l) = u.mat.updLists := by
    rw [hl]
    rfl
  have hdef : ¬ ((!(descAt { u with mat := { u.mat with commits := u.mat.commits + 1 } } false g).defined) = true) := by
    rw [show descAt { u with mat := { u.mat with commits := u.mat.commits + 1 } } false g = descAt u false g from rfl, hd]
    decide
  have hset : ((0 : Nat) == 1) = false := rfl
  simp only [commitOne, hmap, hset, if_true, if_neg hdef, Bool.false_eq_true, if_false, shadowDesc]
  refine ⟨?_, by rw [dieBump_eq, dieBump_eq]⟩
  rw [dieBump_mat, dieBump_mat]

theorem commitEffect_inverts (s : State) (ord g : Nat) (hdue : s.u.mat.due = [(ord, 0, g)])
    (hd : (descAt s.u false g).defined = true) (hstr : s.u.str = []) (hl : s.u.mat.updLists = []) :
    ∃ t, exec .commitEffect s = .next t ∧ (descAt t.u false g).gen = !(descAt s.u false g).gen ∧
      (∀ k, k ≠ g → descAt t.u false k = descAt s.u false k) ∧ (∀ k, descAt t.u true k = descAt s.u true k) ∧
      t.u.mat.due = [] ∧ t.u.mat.commits = s.u.mat.commits + 1 ∧ t.u.mat.entries = s.u.mat.entries ∧ t.q = s.q ∧ t.m = s.m := by
  let u0 : Units := { s.u with mat := { s.u.mat with due := [] } }
  obtain ⟨hm, hs⟩ := commitOne_group (u := u0) (ord := ord) hd hl
  have hmat : (commitEffect s.u).mat = (commitOne (ord, 0, g) 0 u0).mat := by
    have hlist (f : Nat → Units → Units) (l : List Nat) (hf : ∀ a v, v.mat = (commitOne (ord, 0, g) 0 u0).mat ∧ v.str = [] →
        (f a v).mat = (commitOne (ord, 0, g) 0 u0).mat ∧ (f a v).str = []) :
        (closeLists (forAll l f (commitOne (ord, 0, g) 0 u0))).mat = (commitOne (ord, 0, g) 0 u0).mat := by
      obtain ⟨hv, -⟩ := forAll_keeps (fun v => v.mat = (commitOne (ord, 0, g) 0 u0).mat ∧ v.str = []) l f _ ⟨rfl, hs.trans hstr⟩ hf
      rw [closeLists_none (by rw [hv, hm]; exact hl), hv]
    unfold commitEffect
    dsimp only
    rw [hdue]
    refine hlist _ _ fun a v ⟨hv, hvs⟩ => ?_
    have hkeys : tkeys v.str = [] := by
      rw [hvs]
      rfl
    rw [hkeys]
    refine ⟨hv, ?_⟩
    change (forgetOld a v).str = []
    rw [forgetOld, hvs]
    rfl
  have hlisted : tget s.u.mat.groups g ≠ none := by
    refine tget_of_tgetD_ne (d := {}) fun h => ?_
    have : (descAt s.u false g).defined = (({} : Desc)).defined := congrArg Desc.defined h
    rw [hd] at this
    exact Bool.false_ne_true this.symm
  rw [hm] at hmat
  refine ⟨{ s with u := commitEffect s.u }, rfl, ?_, fun k hk => ?_, fun k => ?_, ?_, ?_, ?_, rfl, rfl⟩
  · rw [descAt, hmat]
    exact congrArg Desc.gen (tgetD_tupd_self _ _ _ _ hlisted)
  · rw [descAt, hmat]
    exact tgetD_tupd_other _ _ _ hk
  · rw [descAt, hmat]
    rfl
  all_goals
    dsimp only
    rw [hmat]

/- Scrubs (R174, R201). -/
theorem bankAt_of_mat (h : v.mat = u.mat) : bankAt v = bankAt u := by
  funext k
  rw [bankAt, bankAt, h]
theorem entryAt_of_mat (h : v.mat = u.mat) : entryAt v = entryAt u := by
  funext k
  rw [entryAt, entryAt, h]
/-- A parity failure of an entry with a shadow rewrites it, and is told. -/
theorem parityFail_rewrites {a : Nat} {e : MEntry} (h : tget u.mat.shadow a = some e) :
    noticeFrame { u with mat := { u.mat with entries := tset u.mat.entries a (shadowEntry u a e) } } (parityFail a u) := by
  rw [parityFail, h]
  exact notice_frame ..

theorem scrub_clean (s : State) (a : BitVec 20) (hout : (bankAt s.u (a.toNat / 16384)).outOfService = false)
    (hok : parOk (entryAt s.u a.toNat) = true) :
    ∃ t, exec (.matchScrubRead a []) s = .next t ∧ a.toNat ∉ t.u.mat.scrubFail ∧
      t.u.mat.entries = s.u.mat.entries ∧
      t = { s with u := { s.u with mat := { s.u.mat with scrubFail := t.u.mat.scrubFail }
                                   cnt := { s.u.cnt with die := t.u.cnt.die } } } := by
  have hmat := dieBump_mat (matchDie a.toNat) 0x129 1 s.u
  have hout' : ¬ (bankAt (dieBump (matchDie a.toNat) 0x129 1 s.u) (a.toNat / bankSize)).outOfService = true := by
    rw [bankAt_of_mat hmat]
    exact Bool.eq_false_iff.mp hout
  have hact : matchScrubRead a.toNat s.u = { dieBump (matchDie a.toNat) 0x129 1 s.u with
      mat := { s.u.mat with scrubFail := s.u.mat.scrubFail.filter (· != a.toNat) } } := by
    unfold matchScrubRead
    dsimp only
    rw [if_neg hout', entryAt_of_mat hmat, if_pos hok, hmat]
  refine ⟨{ s with u := matchScrubRead a.toNat s.u }, rfl, ?_⟩
  rw [hact, dieBump_eq]
  exact ⟨by simp, rfl, rfl⟩

theorem scrub_bad (s : State) (a : BitVec 20) (l : List (Fin 360)) (e : MEntry)
    (hout : (bankAt s.u (a.toNat / 16384)).outOfService = false)
    (hbad : parOk (entryAt (upset (l.map (fun i => (a, i))) s.u) a.toNat) = false) (hsh : tget s.u.mat.shadow a.toNat = some e) :
    ∃ t, exec (.matchScrubRead a l) s = .next t ∧ tget t.u.mat.entries a.toNat = some (shadowEntry s.u a.toNat e) ∧
      (a.toNat ∈ s.u.mat.scrubFail → RUnit.bank (Fin.ofNat 64 (a.toNat / 16384)) ∈ t.u.svc.decided) ∧
      (a.toNat ∉ s.u.mat.scrubFail → a.toNat ∈ t.u.mat.scrubFail ∧ t.u.svc.decided = s.u.svc.decided) ∧ t.q = s.q ∧ t.m = s.m := by
  obtain ⟨es, hes⟩ := upset_eq (l.map (fun i => (a, i))) s.u
  let w := dieBump (matchDie a.toNat) 0x129 1 (upset (l.map (fun i => (a, i))) s.u)
  have hwm : w.mat = { s.u.mat with entries := es } := by
    rw [dieBump_mat, hes]
  have hws : w.svc = s.u.svc := by
    rw [show w = _ from dieBump_eq .., hes]
  have hout' : ¬ (bankAt w (a.toNat / bankSize)).outOfService = true := by
    rw [bankAt, hwm]
    exact Bool.eq_false_iff.mp hout
  have hbad' : ¬ parOk (entryAt w a.toNat) = true := by
    rw [entryAt_of_mat (dieBump_mat ..), hbad]
    decide
  have hframe := parityFail_rewrites (u := w) (a := a.toNat) (e := e) (by rw [hwm]; exact hsh)
  obtain ⟨-, -, hsvc, -, -, -, hmat, -⟩ := noticeFrame_keeps hframe
  have hshadow : shadowEntry w a.toNat e = shadowEntry s.u a.toNat e := by
    rw [shadowEntry, bankAt, hwm]
    rfl
  have hfail : (parityFail a.toNat w).mat.scrubFail = s.u.mat.scrubFail := by rw [hmat, hwm]
  have hdec : (parityFail a.toNat w).svc.decided = s.u.svc.decided := by rw [hsvc, hws]
  have hent : tget (parityFail a.toNat w).mat.entries a.toNat = some (shadowEntry s.u a.toNat e) := by
    rw [hmat, ← hshadow]
    exact tget_tset_self ..
  have hact : matchScrubRead a.toNat (upset (l.map (fun i => (a, i))) s.u) =
      if (parityFail a.toNat w).mat.scrubFail.contains a.toNat then
        if (parityFail a.toNat w).svc.decided.contains (RUnit.bank (Fin.ofNat 64 (a.toNat / bankSize))) then parityFail a.toNat w
        else { parityFail a.toNat w with svc := { (parityFail a.toNat w).svc with
          decided := (parityFail a.toNat w).svc.decided ++ [RUnit.bank (Fin.ofNat 64 (a.toNat / bankSize))] } }
      else { parityFail a.toNat w with mat := { (parityFail a.toNat w).mat with
        scrubFail := (parityFail a.toNat w).mat.scrubFail ++ [a.toNat] } } := by
    unfold matchScrubRead
    dsimp only
    rw [if_neg hout', if_neg hbad']
  refine ⟨{ s with u := matchScrubRead a.toNat (upset (l.map (fun i => (a, i))) s.u) }, rfl, ?_⟩
  rw [hact]
  split
  · next hmem =>
    have hmem' : a.toNat ∈ s.u.mat.scrubFail := by simpa [hfail] using hmem
    split
    · next hin => exact ⟨hent, fun _ => by simpa [bankSize] using hin, fun h => absurd hmem' h, rfl, rfl⟩
    · exact ⟨hent, fun _ => List.mem_append_right _ (List.mem_singleton_self _), fun h => absurd hmem' h, rfl, rfl⟩
  · next hmem =>
    have hmem' : a.toNat ∉ s.u.mat.scrubFail := by simpa [hfail] using hmem
    exact ⟨hent, fun h => absurd h hmem', fun _ => ⟨List.mem_append_right _ (List.mem_singleton_self _), hdec⟩, rfl, rfl⟩

/- Retirement of a bank (R201). -/
theorem tget_foldl_tset_other {α β : Type} (f : Nat → β → α) (l : Tbl β) {a : Nat} (h : ∀ e ∈ l, e.1 ≠ a) (t : Tbl α) :
    tget (l.foldl (fun t e => tset t e.1 (f e.1 e.2)) t) a = tget t a := by
  induction l generalizing t with
  | nil => rfl
  | cons e l ih =>
    rw [List.foldl_cons, ih fun x hx => h x (List.mem_cons_of_mem _ hx)]
    exact tget_tset_other _ _ (h e List.mem_cons_self).symm
/-- What a list of writes with one write for each key leaves at a key. -/
theorem tget_foldl_tset {α β : Type} (f : Nat → β → α) {l : Tbl β} {a : Nat} {x : β} (hl : l.Pairwise (fun x y => x.1 < y.1))
    (h : (a, x) ∈ l) (t : Tbl α) : tget (l.foldl (fun t e => tset t e.1 (f e.1 e.2)) t) a = some (f a x) := by
  induction l generalizing t with
  | nil => cases h
  | cons e l ih =>
    obtain ⟨hhead, htail⟩ := List.pairwise_cons.mp hl
    rw [List.foldl_cons]
    obtain rfl | h := List.mem_cons.mp h
    · rw [tget_foldl_tset_other f l fun y hy => Nat.ne_of_gt (hhead y hy)]
      exact tget_tset_self ..
    · exact ih htail h _

theorem spareFree_bank_le (v : Svc) (b : Fin 64) : spareFree v (.bank b) ≤ 2 := by
  rw [spareFree]
  exact Nat.le_trans (Nat.sub_le _ _) (Nat.sub_le _ _)

theorem bankRetire_spare (s : State) (b : Fin 64) (hdec : RUnit.bank b ∈ s.u.svc.decided)
    (hout : (bankAt s.u b).outOfService = false) (hfree : spareFree s.u.svc (.bank b) ≠ 0) :
    ∃ t, exec (.bankRetire b) s = .next t ∧ (bankAt t.u b).phys = some (34 - spareFree s.u.svc (.bank b)) ∧
      (bankAt t.u b).outOfService = false ∧ RUnit.bank b ∉ t.u.svc.decided ∧
      (∀ a e, a / 16384 = b.val → tget s.u.mat.shadow a = some e → Tsorted s.u.mat.shadow = true →
        tget t.u.mat.entries a = some (shadowEntry s.u a e)) ∧
      (∀ k, k ≠ b.val → bankAt t.u k = bankAt s.u k) ∧ t.u.blk.unit = true ∧ t.q = s.q ∧ t.m = s.m := by
  let u1 : Units := setUnit { s.u with svc := { s.u.svc with decided := s.u.svc.decided.filter (· != RUnit.bank b) } }
  have hgo : ¬ ((!s.u.svc.decided.contains (RUnit.bank b)) = true ∨ (bankAt s.u b).outOfService = true) := by
    simp [hdec, hout]
  have hfree' : ¬ spareFree u1.svc (.bank b) = 0 := hfree
  have hle := spareFree_bank_le s.u.svc b
  have htaken : ∃ reason, bankRetire s.asm b s.u =
      modBank b (fun k => { k with phys := some (32 + (2 - spareFree s.u.svc (.bank b))) })
        { spareTaken s.asm (.bank b) reason (32 + (2 - spareFree s.u.svc (.bank b))) u1 with
          mat := { (spareTaken s.asm (.bank b) reason (32 + (2 - spareFree s.u.svc (.bank b))) u1).mat with
            entries := ((spareTaken s.asm (.bank b) reason (32 + (2 - spareFree s.u.svc (.bank b))) u1).mat.shadow.filter
                (fun e => e.1 / bankSize == b.val)).foldl (fun t e => tset t e.1
                (shadowEntry (spareTaken s.asm (.bank b) reason (32 + (2 - spareFree s.u.svc (.bank b))) u1) e.1 e.2))
              ((spareTaken s.asm (.bank b) reason (32 + (2 - spareFree s.u.svc (.bank b))) u1).mat.entries.filter
                (fun e => !(e.1 / bankSize == b.val)))
            scrubFail := (spareTaken s.asm (.bank b) reason (32 + (2 - spareFree s.u.svc (.bank b))) u1).mat.scrubFail.filter
              (fun k => !(k / bankSize == b.val)) } } := by
    refine ⟨if s.u.mat.scrubFail.any (fun addr => addr / bankSize == b.val) then 5 else 6, ?_⟩
    unfold bankRetire
    dsimp only
    rw [if_neg hgo]
    exact if_neg hfree'
  obtain ⟨reason, hact⟩ := htaken
  have hframe : ∃ r, noticeFrame (repairAdd r (spareUse (.bank b) u1))
      (spareTaken s.asm (.bank b) reason (32 + (2 - spareFree s.u.svc (.bank b))) u1) := ⟨_, fwNotice_frame ..⟩
  obtain ⟨r, hframe⟩ := hframe
  generalize spareTaken s.asm (.bank b) reason (32 + (2 - spareFree s.u.svc (.bank b))) u1 = w at hact hframe
  obtain ⟨-, -, hsvc, -, -, -, hmat, -, -, -, -, hblk, -⟩ := noticeFrame_keeps hframe
  have hmat : w.mat = s.u.mat := hmat
  have hbank := bankAt_of_mat hmat
  have hshadow : shadowEntry w = shadowEntry s.u := by
    funext a e
    rw [shadowEntry, shadowEntry, hbank]
  rw [hmat, hshadow] at hact
  refine ⟨{ s with u := bankRetire s.asm b s.u }, rfl, ?_⟩
  rw [hact]
  have hself : bankAt { w with mat := { s.u.mat with
      entries := (s.u.mat.shadow.filter (fun e => e.1 / bankSize == b.val)).foldl (fun t e => tset t e.1 (shadowEntry s.u e.1 e.2))
        (s.u.mat.entries.filter (fun e => !(e.1 / bankSize == b.val)))
      scrubFail := s.u.mat.scrubFail.filter (fun k => !(k / bankSize == b.val)) } } = bankAt s.u := rfl
  refine ⟨?_, ?_, ?_, fun a e ha he hs => ?_, fun k hk => ?_, ?_, rfl, rfl⟩
  · dsimp only
    rw [bankAt_modBank_self]
    exact congrArg some (by omega)
  · dsimp only
    rw [bankAt_modBank_self, hself]
    exact hout
  · change RUnit.bank b ∉ w.svc.decided
    rw [hsvc]
    change RUnit.bank b ∉ s.u.svc.decided.filter (· != RUnit.bank b)
    simp
  · refine tget_foldl_tset (shadowEntry s.u) ((tsorted_pairwise hs).filter _) ?_ _
    exact List.mem_filter.mpr ⟨tget_mem he, by simpa [bankSize] using ha⟩
  · dsimp only
    rw [bankAt_modBank_other _ _ hk, hself]
  · change w.blk.unit = true
    rw [hblk]
    rfl

/-- Settles O29: each step of an update, replay, commit, scrub and retirement by what it writes. -/
theorem matchUpdatesAndScrub : Obligations.MatchUpdatesAndScrub :=
  ⟨⟨oneSlotUpdate_writes, threeStep_invalidates, threeStep_writes, threeStep_ends, replay_dropped, replay_starts,
      commitEffect_inverts⟩,
    scrub_clean, scrub_bad, fun s b hdec hout hfree _ => bankRetire_spare s b hdec hout hfree⟩

end Sys2Proof.Machine
end

section
/-! PROOFS. Messages of model slots (12, R354; 05, R164 to R166; 09, R288): the blocks of O30. -/
namespace Sys2Proof.Machine

variable {s t : State} {u v : Units} {op n : Nat} {p : Bytes} {a : Ans}

/- Slots and cores changed. -/
theorem slotAt_modSlot_self (n : Nat) (f : Slot → Slot) (u : Units) : slotAt (modSlot n f u) n = f (slotAt u n) :=
  tgetD_tset_self ..
theorem slotAt_modSlot_other {n k : Nat} (f : Slot → Slot) (u : Units) (h : k ≠ n) : slotAt (modSlot n f u) k = slotAt u k :=
  tgetD_tset_other _ _ _ h
/-- A list of cores, each changed in its turn. -/
def modCores {α : Type} (key : α → Nat) (g : α → CoreSt → CoreSt) (l : List α) (u : Units) : Units :=
  l.foldl (fun u b => modCore (key b) (g b) u) u
theorem modCores_frame {α : Type} (key : α → Nat) (g : α → CoreSt → CoreSt) (l : List α) (u : Units) :
    modCores key g l u = { u with core := (modCores key g l u).core } := by
  induction l generalizing u with
  | nil => rfl
  | cons b l ih => exact ih (modCore (key b) (g b) u)
theorem coreAt_modCores_other {α : Type} {key : α → Nat} (g : α → CoreSt → CoreSt) {l : List α} {k : Nat} (h : ∀ b ∈ l, key b ≠ k)
    (u : Units) : coreAt (modCores key g l u) k = coreAt u k := by
  induction l generalizing u with
  | nil => rfl
  | cons b l ih =>
    exact (ih (fun c hc => h c (List.mem_cons_of_mem _ hc)) _).trans (tgetD_tset_other _ _ _ (h b List.mem_cons_self).symm)
/-- What each change brings about, a core of the list has in the end. -/
theorem coreAt_modCores {α : Type} {key : α → Nat} {g : α → CoreSt → CoreSt} {P : CoreSt → Prop} (hP : ∀ b c, P (g b c))
    {l : List α} {k : Nat} (h : ∃ b ∈ l, key b = k) (u : Units) : P (coreAt (modCores key g l u) k) := by
  induction l generalizing u with
  | nil => obtain ⟨b, hb, -⟩ := h; cases hb
  | cons b l ih =>
    by_cases hl : ∃ c ∈ l, key c = k
    · exact ih hl _
    · obtain ⟨c, hc, hk⟩ := h
      obtain rfl | hc := List.mem_cons.mp hc
      · have hother : coreAt (modCores key g (c :: l) u) k = coreAt (modCore (key c) (g c) u) k :=
          coreAt_modCores_other g (fun d hd hdk => hl ⟨d, hd, hdk⟩) _
        rw [hother, ← hk, modCore, coreAt_setCore]
        exact hP ..
      · exact absurd ⟨c, hc, hk⟩ hl

/- SLOT_LOAD (R164). -/
/-- The move of an image from host memory. -/
def imageMove (k : Nat) (b : Buf) (u : Units) : Units :=
  if b.space = 3 then addMove (.load k) (ceilDiv b.len 65536) (u.tick.number + 1) u else u
theorem imageMove_frame (k : Nat) (b : Buf) (u : Units) : ∃ ms, imageMove k b u = { u with tier := { u.tier with moves := ms } } ∧
    (b.space ≠ 3 → ms = u.tier.moves) := by
  unfold imageMove addMove
  split
  · split
    · exact ⟨_, rfl, fun _ => rfl⟩
    · exact ⟨_, rfl, fun h => absurd ‹_› h⟩
  · exact ⟨_, rfl, fun _ => rfl⟩

theorem slotLoad_waits (s : State) (mb : Fin 64) (p x : Bytes) (d : Dma) (h : heard s.u mb 0x0301 p) (hk : le p 0 1 ≤ 31)
    (hb : bufOk s.u mb (bufOf p 16) = true) (hthr : s.u.pins.throt = false)
    (hclash : updateClash s.u (ceilDiv (bufOf p 16).len (2 ^ 24)) = false) (hst : (slotAt s.u (le p 0 1)).st = .empty)
    (hbr : (slotAt s.u (le p 0 1)).bringing = false) (hx : bufRead s mb (bufOf p 16) d = some x) :
    ∃ t, exec (.slotLoad mb d) s = .next t ∧ awaits t mb ∧ (slotAt t.u (le p 0 1)).bringing = true ∧
      (slotAt t.u (le p 0 1)).st = .empty ∧ (slotAt t.u (le p 0 1)).img = mwrite [] 0 x ∧
      (slotAt t.u (le p 0 1)).mb = some mb.val ∧ (∀ k, k ≠ le p 0 1 → slotAt t.u k = slotAt s.u k) ∧
      ((bufOf p 16).space ≠ 3 → t.u.tier.moves = s.u.tier.moves) ∧
      t = { s with u := { s.u with mbx := t.u.mbx, slot := t.u.slot, tier := { s.u.tier with moves := t.u.tier.moves } } } := by
  obtain ⟨ms, hms, hsame⟩ := imageMove_frame (le p 0 1) (bufOf p 16) s.u
  rw [imageMove] at hms
  have h1 : ¬ (s.u.pins.throt = true ∨ updateClash s.u (ceilDiv (bufOf p 16).len (2 ^ 24)) = true) := by simpa [hthr] using hclash
  have h2 : ¬ ((slotAt s.u (le p 0 1)).st ≠ .empty ∨ (slotAt s.u (le p 0 1)).bringing = true) := by simp [hst, hbr]
  obtain ⟨y, hyst, hgo⟩ : ∃ y : Slot, y.st = (slotAt s.u (le p 0 1)).st ∧ exec (.slotLoad mb d) s = .next { s with
      u := await mb { s.u with
        tier := { s.u.tier with moves := ms }
        slot := tset s.u.slot (le p 0 1) { y with bringing := true, img := mwrite [] 0 x, mb := some mb.val } } } := by
    cases hfit : t1Fit s.asm s.u (bufOf p 16).len with
    | none =>
      refine ⟨slotAt s.u (le p 0 1), rfl, (next_of_heardS h).trans ?_⟩
      simp only [if_neg (Nat.not_lt.mpr hk), hb, Bool.not_true, Bool.false_eq_true, if_false, if_neg h1, if_neg h2, hx, hms, hfit]
      rfl
    | some base =>
      refine ⟨{ slotAt s.u (le p 0 1) with base := base, imgLen := (bufOf p 16).len }, rfl, (next_of_heardS h).trans ?_⟩
      simp only [if_neg (Nat.not_lt.mpr hk), hb, Bool.not_true, Bool.false_eq_true, if_false, if_neg h1, if_neg h2, hx, hms, hfit]
      rfl
  refine ⟨_, hgo, awaits_of_heard rfl h rfl, congrArg Slot.bringing (tgetD_tset_self ..),
    (congrArg Slot.st (tgetD_tset_self ..)).trans (hyst.trans hst), congrArg Slot.img (tgetD_tset_self ..),
    congrArg Slot.mb (tgetD_tset_self ..), fun k hk => tgetD_tset_other _ _ _ hk, hsame, rfl⟩

/- SLOT_PLACE (R166). -/
theorem semAll_none (slot : Nat) {x : Slot} (cores : List Nat) (h : secFind (imgSecs x.img x.imgLen) 6 0xFFFF 0xFF = none)
    (r : Nat) (u : Units) : semAll slot x cores r u = some u := by
  induction r with
  | zero => rfl
  | succ r ih =>
    rw [semAll, ih]
    simp only [h, List.isEmpty_nil, if_true]

/-- The bindings of the cores that a placement takes. -/
def bindingsOf (ncore : Nat) (cores : List Nat) : List Binding :=
  (List.range cores.length).map (fun i =>
    { rep := i / ncore, lidx := i % ncore, die := cores.getD i 0 / 16, core := cores.getD i 0 % 16 })
theorem map_bindKey_bindingsOf (ncore : Nat) (cores : List Nat) : (bindingsOf ncore cores).map bindKey = cores := by
  refine List.ext_getElem (by simp [bindingsOf]) fun i h1 h2 => ?_
  have hi : i < cores.length := h2
  simp only [bindingsOf, List.map_map, List.getElem_map, List.getElem_range, Function.comp, bindKey, List.getD_eq_getElem?_getD,
    List.getElem?_eq_getElem hi, Option.getD_some]
  omega
/-- A core bound as its binding says, and begins to load. -/
def boundTo (slot : Nat) (b : Binding) (c : CoreSt) : CoreSt :=
  { c with slot := some slot, rep := b.rep, lidx := b.lidx, loading := true }

theorem maskOf_eq {m : Nat} (h : m = 0 ∨ m % 2 ^ 26 ≠ 0) : (if m = 0 then 2 ^ 26 - 1 else m % 2 ^ 26) = maskOf m := by
  obtain rfl | hm := h
  · rfl
  · rw [maskOf, if_neg hm, if_neg (fun h => hm (by simp [h]))]

theorem slotPlace_waits (s : State) (mb : Fin 64) (p : Bytes) (cores : List Nat) (h : heard s.u mb 0x0302 p) (hk : le p 0 1 ≤ 31)
    (hpos : 0 < le p 1 1) (hmax : le p 1 1 ≤ 32) (hshare : le p 2 2 ≤ 512) (hthr : s.u.pins.throt = false)
    (hclash : updateClash s.u 8 = false) (hst : (slotAt s.u (le p 0 1)).st = .staged)
    (hcores : cores = (freeIn s.asm s.u (maskOf (le p 8 8))).take (le p 1 1 * imgNcore (slotAt s.u (le p 0 1)).img))
    (hlen : cores.length = le p 1 1 * imgNcore (slotAt s.u (le p 0 1)).img) (hmask : le p 8 8 = 0 ∨ le p 8 8 % 2 ^ 26 ≠ 0)
    (hsec : secFind (imgSecs (slotAt s.u (le p 0 1)).img (slotAt s.u (le p 0 1)).imgLen) 6 0xFFFF 0xFF = none) :
    ∃ t, exec (.slotPlace mb) s = .next t ∧ awaits t mb ∧ (slotAt t.u (le p 0 1)).st = .loading ∧
      (slotAt t.u (le p 0 1)).nrep = le p 1 1 ∧ (slotAt t.u (le p 0 1)).bind.map bindKey = cores ∧
      (∀ k, k ∈ cores → (coreAt t.u k).slot = some (le p 0 1) ∧ (coreAt t.u k).loading = true) ∧
      (∀ k, k ∉ cores → coreAt t.u k = coreAt s.u k) ∧ (∀ k, k ≠ le p 0 1 → slotAt t.u k = slotAt s.u k) ∧
      t = { s with u := { s.u with mbx := t.u.mbx, slot := t.u.slot, core := t.u.core } } := by
  let bind := bindingsOf (imgNcore (slotAt s.u (le p 0 1)).img) cores
  let w := modCores bindKey (boundTo (le p 0 1)) bind s.u
  have hw : w = { s.u with core := w.core } := modCores_frame ..
  have hkeys : bind.map bindKey = cores := map_bindKey_bindingsOf ..
  let f := fun x : Slot => { x with
    st := .loading, nrep := le p 1 1, bind := bind, mqShare := le p 2 2, clipPpm := le p 4 4, dieMask := le p 8 8, mb := some mb.val }
  have hself : slotAt (modSlot (le p 0 1) f w) (le p 0 1) = f (slotAt w (le p 0 1)) := slotAt_modSlot_self ..
  have hslot : w.slot = s.u.slot := by rw [hw]
  have hmbx : w.mbx = s.u.mbx := by rw [hw]
  refine ⟨_, next_of_wait (v := modSlot (le p 0 1) f w) h ?_, awaits_of_heard rfl h hmbx,
    congrArg Slot.st hself, congrArg Slot.nrep hself, (congrArg (fun x => x.bind.map bindKey) hself).trans hkeys,
    fun k hk => ?_, fun k hk => ?_, fun k hk => ?_, ?_⟩
  · have h1 : ¬ (le p 1 1 = 0 ∨ 32 < le p 1 1) := by omega
    have h2 : ¬ (s.u.pins.throt = true ∨ updateClash s.u 8 = true) := by simp [hthr, hclash]
    have h3 : ¬ (slotAt s.u (le p 0 1)).st ≠ .staged := not_not_intro hst
    simp only [if_neg (Nat.not_lt.mpr hk), if_neg h1, if_neg (Nat.not_lt.mpr hshare), if_neg h2, if_neg h3, maskOf_eq hmask,
      ← hcores, hlen, if_neg (Nat.lt_irrefl _), semAll_none _ _ hsec]
    simp only [← hlen]
    rfl
  · have hb : ∃ b ∈ bind, bindKey b = k := List.mem_map.mp (hkeys ▸ hk)
    exact coreAt_modCores (P := fun c => c.slot = some (le p 0 1) ∧ c.loading = true) (fun b c => ⟨rfl, rfl⟩) hb s.u
  · exact coreAt_modCores_other _ (fun b hb hbk => hk (hkeys ▸ List.mem_map.mpr ⟨b, hb, hbk⟩)) s.u
  · exact (slotAt_modSlot_other f w hk).trans (congrArg (fun t => tgetD t k ({} : Slot)) hslot)
  · rw [hw]
    rfl

/- SLOT_UNLOAD (R165, R288). -/
/-- What the unloading of a slot leaves of the mailboxes and the semaphores. -/
def UnloadFrame (u v : Units) : Prop := v.mbx = u.mbx ∧ v.semSlot = u.semSlot
theorem UnloadFrame.trans {w : Units} (h : UnloadFrame u v) (h' : UnloadFrame v w) : UnloadFrame u w :=
  ⟨h'.1.trans h.1, h'.2.trans h.2⟩
theorem unloadFrame_of_notice (h : noticeFrame u v) : UnloadFrame u v := by
  rw [noticeFrame] at h
  rw [h]
  exact ⟨rfl, rfl⟩
theorem unloadFrame_forAll {α : Type} {f : α → Units → Units} (hf : ∀ x u, UnloadFrame u (f x u)) (l : List α) (u : Units) :
    UnloadFrame u (forAll l f u) :=
  foldl_keeps (UnloadFrame u) (fun u x => f x u) l u ⟨rfl, rfl⟩ fun v x h => h.trans (hf x v)
theorem unloadFrame_temperSlotGone (k : Nat) (u : Units) : UnloadFrame u (temperSlotGone k u) := by
  refine unloadFrame_forAll (fun run u => ?_) _ u
  dsimp only
  split
  · exact ⟨rfl, rfl⟩
  · exact UnloadFrame.trans (v := { u with temper := tset u.temper run {} }) ⟨rfl, rfl⟩ (unloadFrame_of_notice (fwNotice_frame ..))
theorem unloadFrame_spareTaken (a : Asm) (x : RUnit) (reason aux : Nat) (u : Units) : UnloadFrame u (spareTaken a x reason aux u) :=
  UnloadFrame.trans (v := repairAdd (repairEnt a u x 0 reason aux) (spareUse x u)) ⟨rfl, rfl⟩ (unloadFrame_of_notice (fwNotice_frame ..))
theorem unloadFrame_dropLoads (a : Asm) (keys : List Nat) (u : Units) : UnloadFrame u (dropLoads a keys u) := by
  refine UnloadFrame.trans (v := { u with svc := _ }) ⟨rfl, rfl⟩ (unloadFrame_forAll (fun p u => ?_) _ _)
  refine (unloadFrame_spareTaken a p.1 p.2 16 u).trans ?_
  dsimp only
  split <;> exact ⟨rfl, rfl⟩

/-- A core that serves no slot. -/
def unbound (c : CoreSt) : CoreSt := { c with
  slot := none, rep := 0, lidx := 0, loading := false, launch := none, ring := [], ringPtr := 0
  s := [], spois := [], v := [], vpois := [], istore := [], stalled := none, qv := [], qh := [], hOut := 0
  eng := tmap c.eng (fun _ e => { e with w := {}, check := [], bufs := [], last := none }) }
theorem tget_filter_value_ne (t : Tbl Nat) (x i : Nat) : tget (t.filter (fun e => e.2 != x)) i ≠ some x := fun h => by
  have hm := (List.mem_filter.mp (tget_mem h)).2
  simp at hm

theorem slotUnload_frees (s : State) (mb : Fin 64) (p : Bytes) (h : heard s.u mb 0x0304 p) (hk : le p 0 1 ≤ 31)
    (hst : (slotAt s.u (le p 0 1)).st = .staged ∨ (slotAt s.u (le p 0 1)).st = .resident)
    (hmove : (slotAt s.u (le p 0 1)).move = none) (hstep : steppedUnder s.u (le p 0 1) = false) :
    ∃ t, exec (.slotUnload mb) s = .next t ∧ answered t mb (ok []) ∧ slotAt t.u (le p 0 1) = {} ∧
      (∀ b, b ∈ (slotAt s.u (le p 0 1)).bind → (coreAt t.u (bindKey b)).slot = none ∧ (coreAt t.u (bindKey b)).loading = false) ∧
      (∀ i, tget t.u.semSlot i ≠ some (le p 0 1)) ∧ t.q = s.q ∧ t.m = s.m := by
  let keys := (slotAt s.u (le p 0 1)).bind.map bindKey
  let x := dropLoads s.asm keys (temperSlotGone (le p 0 1) (semFree (le p 0 1) s.u))
  let w := modCores id (fun _ => unbound) keys x
  have hw : w = { x with core := w.core } := modCores_frame ..
  have hx : UnloadFrame (semFree (le p 0 1) s.u) x := (unloadFrame_temperSlotGone ..).trans (unloadFrame_dropLoads ..)
  have hmbx : w.mbx = s.u.mbx := by rw [hw]; exact hx.1
  refine ⟨_, next_of_answer (v := recheckSoon { w with slot := tset w.slot (le p 0 1) {} }) (a := ok []) h ?_,
    answered_of_heard rfl h hmbx, tgetD_tset_self .., fun b hb => ?_, fun i => ?_, rfl, rfl⟩
  · have hgo : ¬ ((!((slotAt s.u (le p 0 1)).st == .staged || (slotAt s.u (le p 0 1)).st == .resident)) = true ∨
        (slotAt s.u (le p 0 1)).move.isSome = true ∨ steppedUnder s.u (le p 0 1) = true) := by
      obtain hst | hst := hst <;> simp [hst, hmove, hstep]
    simp only [if_neg (Nat.not_lt.mpr hk), if_neg hgo]
    rfl
  · exact coreAt_modCores (P := fun c => c.slot = none ∧ c.loading = false) (fun b c => ⟨rfl, rfl⟩)
      ⟨bindKey b, List.mem_map_of_mem hb, rfl⟩ x
  · have hsem : w.semSlot = s.u.semSlot.filter (fun e => e.2 != le p 0 1) := by rw [hw]; exact hx.2
    show tget w.semSlot i ≠ _
    rw [hsem]
    exact tget_filter_value_ne _ _ _

/- SLOT_SERVICE (R166, R288). -/
theorem slotService_enters (s : State) (mb : Fin 64) (p : Bytes) (h : heard s.u mb 0x0303 p) (hk : le p 0 1 ≤ 31) (hent : le p 1 1 = 1)
    (hst : (slotAt s.u (le p 0 1)).st = .resident) (hmove : (slotAt s.u (le p 0 1)).move = none)
    (hhead : imgKind (slotAt s.u (le p 0 1)).img = 1 → le p 4 4 = 0 ∧ le p 8 2 = 0)
    (hser : serviceReasons s.asm (modSlot (le p 0 1) (fun x => { x with u := le p 4 4, l := le p 8 2 }) s.u) (le p 0 1) = []) :
    ∃ t, exec (.slotService mb) s = .next t ∧ answered t mb (ok (le8 (nextTick s.u))) ∧
      slotAt t.u (le p 0 1) =
        { slotAt s.u (le p 0 1) with u := le p 4 4, l := le p 8 2, move := some (true, nextTick s.u) } ∧
      t.u.changes = s.u.changes ++ [(nextTick s.u, .slot (le p 0 1) true)] ∧
      (∀ k, k ≠ le p 0 1 → slotAt t.u k = slotAt s.u k) ∧
      t = { s with u := { s.u with mbx := t.u.mbx, slot := t.u.slot, changes := t.u.changes } } := by
  let w := modSlot (le p 0 1) (fun x => { x with u := le p 4 4, l := le p 8 2 }) s.u
  let f := fun x : Slot => { x with move := some (true, nextTick s.u) }
  refine ⟨_, next_of_answer (v := schedule (.slot (le p 0 1) true) (modSlot (le p 0 1) f w)) (a := ok (le8 (nextTick s.u))) h ?_,
    answered_of_heard rfl h rfl, (slotAt_modSlot_self (le p 0 1) f w).trans ?_, rfl,
    fun k hk => (slotAt_modSlot_other f w hk).trans (slotAt_modSlot_other _ s.u hk), rfl⟩
  · have h1 : ¬ ((slotAt s.u (le p 0 1)).st ≠ .resident ∨ (slotAt s.u (le p 0 1)).move.isSome = true) := by simp [hst, hmove]
    have h2 : ¬ (imgKind (slotAt s.u (le p 0 1)).img == 1 && le p 4 4 != 0) = true := by simpa using fun hi => (hhead hi).1
    have h3 : ¬ (imgKind (slotAt s.u (le p 0 1)).img == 1 && le p 8 2 != 0) = true := by simpa using fun hi => (hhead hi).2
    have h4 : ¬ 1 < le p 1 1 := by omega
    simp only [if_neg (Nat.not_lt.mpr hk), if_neg h4, if_pos hent, if_neg h1, if_neg h2, if_neg h3, hser]
    rfl
  · exact congrArg f (slotAt_modSlot_self ..)

theorem slotService_leaves (s : State) (mb : Fin 64) (p : Bytes) (h : heard s.u mb 0x0303 p) (hk : le p 0 1 ≤ 31) (hent : le p 1 1 = 0)
    (hst : (slotAt s.u (le p 0 1)).st = .inService) (hmove : (slotAt s.u (le p 0 1)).move = none)
    (hstep : steppedUnder s.u (le p 0 1) = false) :
    ∃ t, exec (.slotService mb) s = .next t ∧ answered t mb (ok (le8 (nextTick s.u))) ∧
      slotAt t.u (le p 0 1) = { slotAt s.u (le p 0 1) with move := some (false, nextTick s.u) } ∧
      t.u.changes = s.u.changes ++ [(nextTick s.u, .slot (le p 0 1) false)] ∧
      t = { s with u := { s.u with mbx := t.u.mbx, slot := t.u.slot, changes := t.u.changes } } := by
  let f := fun x : Slot => { x with move := some (false, nextTick s.u) }
  refine ⟨_, next_of_answer (v := schedule (.slot (le p 0 1) false) (modSlot (le p 0 1) f s.u)) (a := ok (le8 (nextTick s.u))) h ?_,
    answered_of_heard rfl h rfl, slotAt_modSlot_self (le p 0 1) f s.u, rfl, rfl⟩
  have h1 : ¬ ((slotAt s.u (le p 0 1)).st ≠ .inService ∨ (slotAt s.u (le p 0 1)).move.isSome = true ∨
      steppedUnder s.u (le p 0 1) = true) := by simp [hst, hmove, hstep]
  have h2 : ¬ 1 < le p 1 1 := by omega
  have h3 : ¬ le p 1 1 = 1 := by omega
  simp only [if_neg (Nat.not_lt.mpr hk), if_neg h2, if_neg h3, if_neg h1]
  rfl

/- SLOT_STATUS (R354). -/
/-- What the answer says of a slot that holds an image, behind its state. -/
def slotNamed (x : Slot) : Bytes :=
  leBytes 1 (imgKind x.img) ++ (leBytes 2 (imgNcore x.img) ++ (leBytes 1 x.nrep ++ (leBytes 3 0 ++ (leBytes 8 x.imageId ++
    mread x.img 48 48))))
theorem slotStatus_reads (s : State) (mb : Fin 64) (p : Bytes) (f : Bool) (h : heard s.u mb 0x0305 p) (hk : le p 0 1 ≤ 31)
    (hb : bufOk s.u mb (bufOf p 16) = true) (hlen : (bufOf p 16).len = 0) :
    exec (.slotStatus mb f) s = .next (onUnits (answer mb (ok (leBytes 1 (slotCode (slotAt s.u (le p 0 1)).st) ++
      if (slotAt s.u (le p 0 1)).st ≠ .empty then slotNamed (slotAt s.u (le p 0 1)) else leBytes 63 0))) s) := by
  refine (next_of_heardS h).trans ?_
  have hn : ((slotAt s.u (le p 0 1)).st != .empty) = decide ((slotAt s.u (le p 0 1)).st ≠ .empty) := by
    cases (slotAt s.u (le p 0 1)).st <;> rfl
  simp only [if_neg (Nat.not_lt.mpr hk), hb, Bool.not_true, Bool.false_eq_true, if_false, if_pos hlen, hn, decide_eq_true_eq,
    slotNamed, List.append_assoc]
  rfl
theorem le_slotNamed (c : Nat) (x : Slot) : le (leBytes 1 c ++ slotNamed x) 1 1 = imgKind x.img % 256 ∧
    le (leBytes 1 c ++ slotNamed x) 2 2 = imgNcore x.img % 65536 ∧ le (leBytes 1 c ++ slotNamed x) 4 1 = x.nrep % 256 ∧
    le (leBytes 1 c ++ slotNamed x) 8 8 = x.imageId % 2 ^ 64 ∧ (leBytes 1 c ++ slotNamed x).drop 16 = mread x.img 48 48 := by
  have shift (a b : Bytes) (n k j : Nat) (hn : a.length = n) (hk : n ≤ k) : le (a ++ b) k j = le b (k - n) j := by
    subst hn
    obtain ⟨i, rfl⟩ := Nat.exists_eq_add_of_le hk
    rw [le_append_right, Nat.add_sub_cancel_left]
  refine ⟨?_, ?_, ?_, ?_, ?_⟩
  · rw [slotNamed, shift _ _ 1 _ _ (leBytes_length ..) (by decide), le_append_left (by simp), le_leBytes] <;> rfl
  · rw [slotNamed, shift _ _ 1 _ _ (leBytes_length ..) (by decide), shift _ _ 1 _ _ (leBytes_length ..) (by decide),
      le_append_left (by simp), le_leBytes] <;> rfl
  · rw [slotNamed, shift _ _ 1 _ _ (leBytes_length ..) (by decide), shift _ _ 1 _ _ (leBytes_length ..) (by decide),
      shift _ _ 2 _ _ (leBytes_length ..) (by decide), le_append_left (by simp), le_leBytes] <;> rfl
  · rw [slotNamed, shift _ _ 1 _ _ (leBytes_length ..) (by decide), shift _ _ 1 _ _ (leBytes_length ..) (by decide),
      shift _ _ 2 _ _ (leBytes_length ..) (by decide), shift _ _ 1 _ _ (leBytes_length ..) (by decide),
      shift _ _ 3 _ _ (leBytes_length ..) (by decide), le_append_left (by simp), le_leBytes] <;> rfl
  · rfl

/-- Settles O30: each message by the tests of its payload; the cores by what is done to each of them in its turn. -/
theorem slotMessages : Obligations.SlotMessages := by
  refine ⟨slotLoad_waits, ?refused, slotPlace_waits, slotService_enters, slotService_leaves, slotUnload_frees, ?status⟩
  case refused =>
    intro s mb p d h hk hb hthr hclash hfull
    refine (next_of_heardS h).trans ?_
    have h1 : ¬ (s.u.pins.throt = true ∨ updateClash s.u (ceilDiv (bufOf p 16).len (2 ^ 24)) = true) := by simpa [hthr] using hclash
    simp only [if_neg (Nat.not_lt.mpr hk), hb, Bool.not_true, Bool.false_eq_true, if_false, if_neg h1, if_pos hfull]
    rfl
  case status =>
    intro s mb p f h hk hb hlen
    refine ⟨_, slotStatus_reads s mb p f h hk hb hlen, ?_, fun he => ?_, fun hne => ?_⟩
    · rw [le_append_left (by simp), le_leBytes]
      cases (slotAt s.u (le p 0 1)).st <;> rfl
    · rw [if_neg (not_not_intro he), he]
      rfl
    · rw [if_pos hne]
      exact le_slotNamed ..

end Sys2Proof.Machine
end

section
/-! PROOFS. The work behind SLOT_LOAD and SLOT_PLACE (05, R164, R165; 04, R121): the blocks of O31. -/
namespace Sys2Proof.Machine

variable {s t : State} {u v : Units} {n k : Nat} {a : Ans}

/-- A command that waits for its answer gets it. -/
theorem answered_of_waiting (ht : t.u = answerWaiting (some n) a v) (hw : awaits s n) (hv : v.mbx = s.u.mbx) : answered t n a := by
  have hph : (tgetD v.mbx n {}).phase = .waiting := by rw [hv]; exact hw
  have hl : tget v.mbx n ≠ none := tget_of_tgetD_ne (d := {}) fun h => by
    rw [h] at hph
    cases hph
  rw [answered, ht, answerWaiting_waiting hph]
  exact answer_answered a hl

/- The cores of a placement, loaded in their turn. -/
/-- An engine with its array and check bits as the image gives them. -/
def engLoaded (x : Slot) (lidx e : Nat) (g : Eng) : Eng :=
  { g with w := imgWeights x.img x.imgLen lidx e
           check := tmap (imgWeights x.img x.imgLen lidx e).cells (fun _ v => Config.rowCheck v), last := none }
/-- A core loaded from its slot's image. -/
def loadedCore (x : Slot) (n : Nat) (c : CoreSt) : CoreSt := { c with
  slot := some n, loading := false, eng := (List.range 16).foldl (fun t e => tmod t e {} (engLoaded x c.lidx e)) c.eng
  ring := [], ringPtr := 0, istore := imgStore x.img x.imgLen c.lidx }
/-- The SRAM initial data of a core. -/
def dataLoaded (k : Nat) (d : Option (Nat × Bytes)) (s : State) : State :=
  match d with
  | none => s
  | some d => sramWrite k d.1 d.2 false s
theorem coreLoaded_eq (h : (coreAt s.u k).slot = some n) : coreLoaded k s =
    dataLoaded k (imgData (slotAt s.u n).img (slotAt s.u n).imgLen (coreAt s.u k).lidx)
      { s with u := setCore k (loadedCore (slotAt s.u n) n (coreAt s.u k)) s.u } := by
  unfold coreLoaded dataLoaded
  simp only [h]
  cases imgData (slotAt s.u n).img (slotAt s.u n).imgLen (coreAt s.u k).lidx <;> rfl
theorem coreLoaded_none (h : (coreAt s.u k).slot = none) : coreLoaded k s = s := by
  unfold coreLoaded
  simp only [h]

/-- From s to t only cores and their memories change. -/
def CoresFrame (s t : State) : Prop := ∃ c m, t = { s with u := { s.u with core := c }, m := { s.m with sram := m } }
theorem CoresFrame.trans {r : State} (h : CoresFrame s t) (h' : CoresFrame t r) : CoresFrame s r := by
  obtain ⟨c, m, rfl⟩ := h
  obtain ⟨d, w, rfl⟩ := h'
  exact ⟨d, w, rfl⟩
theorem CoresFrame.slotAt (h : CoresFrame s t) : slotAt t.u = slotAt s.u := by
  obtain ⟨c, m, rfl⟩ := h
  rfl
theorem coresFrame_coreLoaded (k : Nat) (s : State) : CoresFrame s (coreLoaded k s) := by
  cases h : (coreAt s.u k).slot with
  | none => exact ⟨s.u.core, s.m.sram, coreLoaded_none h⟩
  | some n =>
    rw [coreLoaded_eq h]
    unfold dataLoaded
    split <;> exact ⟨_, _, rfl⟩
theorem coreLoaded_other {j : Nat} (h : j ≠ k) (s : State) :
    coreAt (coreLoaded k s).u j = coreAt s.u j ∧ sramOf (coreLoaded k s) j = sramOf s j := by
  cases hs : (coreAt s.u k).slot with
  | none => rw [coreLoaded_none hs]; exact ⟨rfl, rfl⟩
  | some n =>
    rw [coreLoaded_eq hs]
    unfold dataLoaded
    split
    · exact ⟨tgetD_tset_other _ _ _ h, rfl⟩
    · exact ⟨(tgetD_tset_other _ _ _ h).trans (tgetD_tset_other _ _ _ h), tgetD_tset_other _ _ _ h⟩

/-- A core holds what its slot's image gives its logical core. -/
def Loaded (x : Slot) (n lidx : Nat) (c : CoreSt) : Prop :=
  c.slot = some n ∧ c.lidx = lidx ∧ c.loading = false ∧ (∀ e, e < 16 → (engAt c e).w = imgWeights x.img x.imgLen lidx e) ∧
    c.istore = imgStore x.img x.imgLen lidx
theorem engAt_foldl_tmod (f : Nat → Eng → Eng) (m : Nat) (t : Tbl Eng) {e : Nat} (h : e < m) :
    tgetD ((List.range m).foldl (fun t e => tmod t e {} (f e)) t) e {} = f e (tgetD t e {}) := by
  have hlater (m : Nat) (h : m ≤ e) : tgetD ((List.range m).foldl (fun t e => tmod t e {} (f e)) t) e {} = tgetD t e {} := by
    induction m with
    | zero => rfl
    | succ m ih =>
      rw [List.range_succ, List.foldl_append]
      exact (tgetD_tset_other _ _ _ (by omega)).trans (ih (by omega))
  induction m with
  | zero => cases h
  | succ m ih =>
    rw [List.range_succ, List.foldl_append]
    by_cases hm : e = m
    · subst hm
      exact (tgetD_tset_self ..).trans (congrArg (f e) (hlater e (Nat.le_refl e)))
    · exact (tgetD_tset_other _ _ _ hm).trans (ih (by omega))
theorem engAt_loadedCore (x : Slot) (n : Nat) (c : CoreSt) {e : Nat} (he : e < 16) :
    engAt (loadedCore x n c) e = engLoaded x c.lidx e (engAt c e) := by
  simp only [engAt, loadedCore]
  generalize engLoaded x c.lidx = f
  exact engAt_foldl_tmod f 16 c.eng he
theorem loaded_loadedCore (x : Slot) (n : Nat) (c : CoreSt) : Loaded x n c.lidx (loadedCore x n c) :=
  ⟨rfl, rfl, rfl, fun e he => by rw [engAt_loadedCore x n c he, engLoaded], rfl⟩
theorem Loaded.pois {x : Slot} {lidx : Nat} {c : CoreSt} (h : Loaded x n lidx c) (p : List Nat) : Loaded x n lidx { c with pois := p } := h
theorem loaded_coreLoaded (h : (coreAt s.u k).slot = some n) :
    Loaded (slotAt s.u n) n (coreAt s.u k).lidx (coreAt (coreLoaded k s).u k) := by
  have hl := loaded_loadedCore (slotAt s.u n) n (coreAt s.u k)
  rw [coreLoaded_eq h]
  unfold dataLoaded
  split
  · rw [coreAt_setCore]
    exact hl
  · rw [sramWrite, modCore, coreAt_setCore, coreAt_setCore]
    exact hl.pois _

/-- The loads of a list of bound cores. -/
def loadAll (l : List Binding) (s : State) : State := l.foldl (fun s b => coreLoaded (bindKey b) s) s
theorem coresFrame_loadAll (l : List Binding) (s : State) : CoresFrame s (loadAll l s) := by
  induction l generalizing s with
  | nil => exact ⟨_, _, rfl⟩
  | cons b l ih => exact (coresFrame_coreLoaded ..).trans (ih _)
theorem loadAll_other {l : List Binding} {j : Nat} (h : ∀ b ∈ l, bindKey b ≠ j) (s : State) :
    coreAt (loadAll l s).u j = coreAt s.u j ∧ sramOf (loadAll l s) j = sramOf s j := by
  induction l generalizing s with
  | nil => exact ⟨rfl, rfl⟩
  | cons b l ih =>
    obtain ⟨hc, hm⟩ := ih (fun d hd => h d (List.mem_cons_of_mem _ hd)) (coreLoaded (bindKey b) s)
    obtain ⟨hc', hm'⟩ := coreLoaded_other (h b List.mem_cons_self).symm s
    exact ⟨hc.trans hc', hm.trans hm'⟩
theorem loaded_loadAll {l : List Binding} {b : Binding} (hb : b ∈ l) (hs : ∀ d ∈ l, (coreAt s.u (bindKey d)).slot = some n) :
    Loaded (slotAt s.u n) n (coreAt s.u (bindKey b)).lidx (coreAt (loadAll l s).u (bindKey b)) := by
  induction l generalizing s b with
  | nil => cases hb
  | cons c l ih =>
    have hfirst := loaded_coreLoaded (hs c List.mem_cons_self)
    have hkeep (j : Nat) (hj : (coreAt s.u j).slot = some n) :
        (coreAt (coreLoaded (bindKey c) s).u j).slot = some n ∧ (coreAt (coreLoaded (bindKey c) s).u j).lidx = (coreAt s.u j).lidx := by
      by_cases hjc : j = bindKey c
      · subst hjc
        exact ⟨hfirst.1, hfirst.2.1⟩
      · rw [(coreLoaded_other hjc s).1]
        exact ⟨hj, rfl⟩
    have hrest (d : Binding) (hd : d ∈ l) := ih (s := coreLoaded (bindKey c) s) hd fun e he => (hkeep _ (hs e (List.mem_cons_of_mem _ he))).1
    by_cases hl : ∃ d ∈ l, bindKey d = bindKey b
    · obtain ⟨d, hd, hdb⟩ := hl
      have hr := hrest d hd
      rw [(coresFrame_coreLoaded ..).slotAt, hdb, (hkeep _ (hs b hb)).2] at hr
      exact hr
    · obtain rfl | hbl := List.mem_cons.mp hb
      · have ho := (loadAll_other (fun d hd hdb => hl ⟨d, hd, hdb⟩) (coreLoaded (bindKey b) s)).1
        rw [loadAll] at ho
        rw [loadAll, List.foldl_cons, ho]
        exact hfirst
      · exact absurd ⟨b, hbl, rfl⟩ hl

/- IMAGE_STAGED (R165). -/
/-- The least of a list of reasons below a bound. -/
theorem foldl_min_eq {l : List Nat} {r m : Nat} (hr : r ∈ l ∨ r = m) (hle : ∀ x ∈ l, r ≤ x) (hm : r ≤ m) : l.foldl min m = r := by
  induction l generalizing m with
  | nil => obtain h | h := hr; cases h; exact h.symm
  | cons x l ih =>
    have hx := hle x List.mem_cons_self
    refine ih ?_ (fun y hy => hle y (List.mem_cons_of_mem _ hy)) (Nat.le_min.mpr ⟨hm, hx⟩)
    obtain hr | rfl := hr
    · obtain rfl | hr := List.mem_cons.mp hr
      · exact .inr (Nat.min_eq_right hm).symm
      · exact .inl hr
    · exact .inr (Nat.min_eq_left hx).symm

/-- What the checks of an image make of its load, for the message of mailbox m. -/
def imageJudged (n m : Nat) (l : List Nat) (u : Units) : Units :=
  match l with
  | [] => answerWaiting (some m) (ok (leBytes 8 (mle (slotAt u n).img 40 8) ++ leBytes 1 (imgKind (slotAt u n).img) ++ [0]
      ++ leBytes 2 (imgNcore (slotAt u n).img)))
    (modSlot n (fun x => { x with st := .staged, bringing := false, imageId := mle x.img 40 8, mb := none }) u)
  | l => answerWaiting (some m) (bad 0xA 3 0xFFFF (l.foldl min 255)) { u with slot := tset u.slot n {} }
/-- The reasons found in the image of a slot that mailbox m loads. -/
def reasonsFound (a : Asm) (u : Units) (n m : Nat) : List Nat :=
  imageReasons a (slotAt u n).img (bufOf (payloadOf (tgetD u.mbx m {})) 16).len
    (if (slotAt u n).imgLen = 0 then 0 else (bufOf (payloadOf (tgetD u.mbx m {})) 16).len)
    (sliceZ (payloadOf (tgetD u.mbx m {})) 32 48)
theorem imageStaged_eq {m : Nat} {l : List Nat} (asm : Asm) (hb : (slotAt u n).bringing = true) (honce : onceRuns u = true)
    (hmove : moveDone u (.load n) = true) (hm : (slotAt u n).mb = some m) (hl : reasonsFound asm u n m = l) :
    imageStaged asm n u = imageJudged n m l u := by
  have hgo : ¬ ((!(slotAt u n).bringing) = true ∨ (!onceRuns u) = true ∨ (!moveDone u (.load n)) = true) := by
    simp [hb, honce, hmove]
  rw [reasonsFound] at hl
  simp only [imageStaged, if_neg hgo, hm, hl]
  cases l <;> rfl

theorem imageStaged_passes (s : State) (n : Fin 32) (m : Nat) (hb : (slotAt s.u n).bringing = true) (honce : onceRuns s.u = true)
    (hmove : moveDone s.u (.load n.val) = true) (hm : (slotAt s.u n).mb = some m) (hw : awaits s m)
    (hr : imageReasons s.asm (slotAt s.u n).img (bufOf (payloadOf (tgetD s.u.mbx m {})) 16).len
      (if (slotAt s.u n).imgLen = 0 then 0 else (bufOf (payloadOf (tgetD s.u.mbx m {})) 16).len)
      (sliceZ (payloadOf (tgetD s.u.mbx m {})) 32 48) = []) :
    ∃ t, exec (.imageStaged n) s = .next t ∧
      answered t m (ok (leBytes 8 (mle (slotAt s.u n).img 40 8) ++ leBytes 1 (imgKind (slotAt s.u n).img) ++ [0]
        ++ leBytes 2 (imgNcore (slotAt s.u n).img))) ∧
      slotAt t.u n =
        { slotAt s.u n with st := .staged, bringing := false, imageId := mle (slotAt s.u n).img 40 8, mb := none } ∧
      (∀ k, k ≠ n.val → slotAt t.u k = slotAt s.u k) ∧ t = { s with u := { s.u with mbx := t.u.mbx, slot := t.u.slot } } := by
  let f := fun x : Slot => { x with st := .staged, bringing := false, imageId := mle x.img 40 8, mb := none }
  let r := ok (leBytes 8 (mle (slotAt s.u n).img 40 8) ++ leBytes 1 (imgKind (slotAt s.u n).img) ++ [0]
        ++ leBytes 2 (imgNcore (slotAt s.u n).img))
  have hact : imageStaged s.asm n s.u = answerWaiting (some m) r (modSlot n f s.u) := by
    rw [imageStaged_eq s.asm hb honce hmove hm hr]
    rfl
  have hans : answerWaiting (some m) r (modSlot n f s.u) = answer m r (modSlot n f s.u) := answerWaiting_waiting (u := modSlot n f s.u) hw r
  refine ⟨_, rfl, answered_of_waiting (v := modSlot n f s.u) hact hw rfl, ?_⟩
  dsimp only
  rw [hact, hans]
  exact ⟨slotAt_modSlot_self n.val f s.u, fun k hk => slotAt_modSlot_other f s.u hk, rfl⟩

theorem imageStaged_refuses (s : State) (n : Fin 32) (m r : Nat) (l : List Nat) (hb : (slotAt s.u n).bringing = true)
    (honce : onceRuns s.u = true) (hmove : moveDone s.u (.load n.val) = true) (hm : (slotAt s.u n).mb = some m) (hw : awaits s m)
    (hl : imageReasons s.asm (slotAt s.u n).img (bufOf (payloadOf (tgetD s.u.mbx m {})) 16).len
      (if (slotAt s.u n).imgLen = 0 then 0 else (bufOf (payloadOf (tgetD s.u.mbx m {})) 16).len)
      (sliceZ (payloadOf (tgetD s.u.mbx m {})) 32 48) = l) (hr : r ∈ l) (hlt : r < 255) (hmin : ∀ x, x ∈ l → r ≤ x) :
    ∃ t, exec (.imageStaged n) s = .next t ∧ answered t m (bad 0xA 3 0xFFFF r) ∧ slotAt t.u n = {} ∧
      (∀ k, k ≠ n.val → slotAt t.u k = slotAt s.u k) ∧ t = { s with u := { s.u with mbx := t.u.mbx, slot := t.u.slot } } := by
  let w := { s.u with slot := tset s.u.slot n.val {} }
  have hact : imageStaged s.asm n s.u = answerWaiting (some m) (bad 0xA 3 0xFFFF r) w := by
    rw [imageStaged_eq s.asm hb honce hmove hm hl]
    cases l with
    | nil => cases hr
    | cons x l =>
      have hmin : (x :: l).foldl min 255 = r := foldl_min_eq (.inl hr) hmin (Nat.le_of_lt hlt)
      exact congrArg (fun r => answerWaiting (some m) (bad 0xA 3 0xFFFF r) w) hmin
  have hans : answerWaiting (some m) (bad 0xA 3 0xFFFF r) w = answer m (bad 0xA 3 0xFFFF r) w := answerWaiting_waiting (u := w) hw _
  refine ⟨_, rfl, answered_of_waiting (v := w) hact hw rfl, ?_⟩
  dsimp only
  rw [hact, hans]
  exact ⟨tgetD_tset_self .., fun k hk => tgetD_tset_other _ _ _ hk, rfl⟩

/- PLACE_LOAD_DONE (R165, R121). -/
theorem answerWaiting_frame (x : Option Nat) (a : Ans) (u : Units) : ∃ m, answerWaiting x a u = { u with mbx := m } := by
  unfold answerWaiting
  split
  · exact ⟨_, rfl⟩
  · split <;> exact ⟨_, rfl⟩

theorem placeLoadDone_loads (s : State) (n : Fin 32) (m : Nat) (hst : (slotAt s.u n).st = .loading) (honce : onceRuns s.u = true)
    (hm : (slotAt s.u n).mb = some m) (hw : awaits s m)
    (hcores : ∀ b, b ∈ (slotAt s.u n).bind → (coreAt s.u (bindKey b)).slot = some n.val ∧
      (coreAt s.u (bindKey b)).eng.any (fun e => !e.2.marked.isEmpty) = false) :
    ∃ t, exec (.placeLoadDone n) s = .next t ∧ answered t m (ok (leBytes 2 (slotAt s.u n).bind.length)) ∧
      (slotAt t.u n).st = .resident ∧ (slotAt t.u n).bind = (slotAt s.u n).bind ∧
      (∀ b, b ∈ (slotAt s.u n).bind → (coreAt t.u (bindKey b)).loading = false ∧ (coreAt t.u (bindKey b)).slot = some n.val ∧
        ∀ e, e < 16 → (engAt (coreAt t.u (bindKey b)) e).w =
          imgWeights (slotAt s.u n).img (slotAt s.u n).imgLen (coreAt s.u (bindKey b)).lidx e) ∧
      (∀ b, b ∈ (slotAt s.u n).bind → (coreAt t.u (bindKey b)).istore =
        imgStore (slotAt s.u n).img (slotAt s.u n).imgLen (coreAt s.u (bindKey b)).lidx) ∧
      (∀ k, (∀ b, b ∈ (slotAt s.u n).bind → bindKey b ≠ k) → coreAt t.u k = coreAt s.u k ∧ sramOf t k = sramOf s k) ∧
      (∀ k, k ≠ n.val → slotAt t.u k = slotAt s.u k) ∧ t.q = s.q ∧ t.m.t1 = s.m.t1 ∧ t.m.t2 = s.m.t2 := by
  let wins := (Config.slotWindows n (slotAt s.u n).imageId).map (fun w => ({ space := w.1, base := w.2.1, len := w.2.2 } : DmaWin))
  let f := fun x : Slot => { x with st := .resident, wins := wins, mb := none }
  let a := ok (leBytes 2 (slotAt s.u n).bind.length)
  have hgo : ¬ ((slotAt s.u n).st ≠ .loading ∨ (!onceRuns s.u) = true) := by simp [hst, honce]
  have hany : (slotAt s.u n).bind.any (fun b => (coreAt s.u (bindKey b)).eng.any (fun e => !e.2.marked.isEmpty)) = false :=
    List.any_eq_false.mpr fun b hb => by simp only [(hcores b hb).2]; exact Bool.false_ne_true
  have hloaded (b : Binding) (hb : b ∈ (slotAt s.u n).bind) := loaded_loadAll hb fun d hd => (hcores d hd).1
  have hother (k : Nat) (h : ∀ b ∈ (slotAt s.u n).bind, bindKey b ≠ k) := loadAll_other h s
  have hframe := coresFrame_loadAll (slotAt s.u n).bind s
  have hact : placeLoadDone n s = { loadAll (slotAt s.u n).bind s with
      u := recheckSoon (answerWaiting (some m) a (modSlot n f (loadAll (slotAt s.u n).bind s).u)) } := by
    simp only [placeLoadDone, if_neg hgo, hany, Bool.false_eq_true, if_false, hm]
    rfl
  refine ⟨_, congrArg Host.Outcome.next hact, ?_⟩
  generalize loadAll (slotAt s.u n).bind s = r at hloaded hother hframe
  obtain ⟨c, sr, rfl⟩ := hframe
  have hans : answerWaiting (some m) a (modSlot n f { s.u with core := c }) = answer m a (modSlot n f { s.u with core := c }) :=
    answerWaiting_waiting (u := modSlot n f { s.u with core := c }) hw a
  rw [hans]
  have hself : slotAt (modSlot n f s.u) n = f (slotAt s.u n) := slotAt_modSlot_self n.val f s.u
  have hready : answered { s with u := answer m a (modSlot n f { s.u with core := c }) } m a := answered_of_waiting hans.symm hw rfl
  refine ⟨hready, (congrArg Slot.st hself :), (congrArg Slot.bind hself :),
    fun b hb => ?_, fun b hb => ?_, hother, fun k hk => slotAt_modSlot_other f s.u hk, rfl, rfl, rfl⟩
  · obtain ⟨hslot, -, hload, hwt, -⟩ := hloaded b hb
    exact ⟨hload, hslot, hwt⟩
  · obtain ⟨-, -, -, -, his⟩ := hloaded b hb
    exact his

theorem placeLoadDone_fails (s : State) (n : Fin 32) (m : Nat) (b : Binding) (hst : (slotAt s.u n).st = .loading)
    (honce : onceRuns s.u = true) (hm : (slotAt s.u n).mb = some m) (hw : awaits s m) (hb : b ∈ (slotAt s.u n).bind)
    (hmark : (coreAt s.u (bindKey b)).eng.any (fun e => !e.2.marked.isEmpty) = true) :
    ∃ t, exec (.placeLoadDone n) s = .next t ∧ answered t m (bad 0xA 3 0xFFFF 0x0E) ∧ (slotAt t.u n).st = .staged ∧
      (slotAt t.u n).bind = [] ∧ (slotAt t.u n).img = (slotAt s.u n).img ∧
      (∀ c, c ∈ (slotAt s.u n).bind → (coreAt t.u (bindKey c)).slot = none) ∧ t.q = s.q ∧ t.m = s.m := by
  let f := fun x : Slot => { x with st := .staged, nrep := 0, bind := [], mb := none }
  let w := modCores bindKey (fun _ => unbound) (slotAt s.u n).bind (semFree n s.u)
  have hwf : w = { semFree n s.u with core := w.core } := modCores_frame ..
  have hslot : slotAt w n = slotAt s.u n := by rw [hwf]; rfl
  have hmbx : w.mbx = s.u.mbx := by rw [hwf]; rfl
  have hgo : ¬ ((slotAt s.u n).st ≠ .loading ∨ (!onceRuns s.u) = true) := by simp [hst, honce]
  have hany : (slotAt s.u n).bind.any (fun b => (coreAt s.u (bindKey b)).eng.any (fun e => !e.2.marked.isEmpty)) = true :=
    List.any_eq_true.mpr ⟨b, hb, hmark⟩
  have hact : placeLoadDone n s = { s with u := answerWaiting (some m) (bad 0xA 3 0xFFFF 0x0E) (modSlot n f w) } := by
    simp only [placeLoadDone, if_neg hgo, hany, if_true, hm]
    rfl
  have hans : answerWaiting (some m) (bad 0xA 3 0xFFFF 0x0E) (modSlot n f w) = answer m (bad 0xA 3 0xFFFF 0x0E) (modSlot n f w) :=
    answerWaiting_waiting (hmbx ▸ hw) _
  have hself : slotAt (modSlot n f w) n = f (slotAt s.u n) := (slotAt_modSlot_self n.val f w).trans (congrArg f hslot)
  refine ⟨_, congrArg Host.Outcome.next hact, answered_of_waiting (v := modSlot n f w) rfl hw hmbx, ?_⟩
  rw [hans]
  refine ⟨(congrArg Slot.st hself :), (congrArg Slot.bind hself :), (congrArg Slot.img hself :), fun c hc => ?_, rfl, rfl⟩
  exact coreAt_modCores (P := fun c => c.slot = none) (fun b c => rfl) ⟨c, hc, rfl⟩ _

/-- Settles O31: an image by the list of its reasons; a placement by the loads of its cores, each in its turn. -/
theorem loadsEnd : Obligations.LoadsEnd :=
  ⟨imageStaged_passes, imageStaged_refuses, placeLoadDone_loads, placeLoadDone_fails⟩

end Sys2Proof.Machine
end

section
/-! PROOFS. Arrays in service (04, R103, R105 to R108, R121; 03, R95, R96): the blocks of O32. -/
namespace Sys2Proof.Machine

variable {s t : State} {u v : Units} {k e n : Nat}

/-- What a command over the units leaves. -/
theorem next_of_units {f : Units → Units} (h : f s.u = v) : onU f s = .next { s with u := v } :=
  congrArg (fun v => (Host.Outcome.next { s with u := v } : Res)) h

/- An engine of a core. -/
theorem engOf_onEng_self (k e : Nat) (f : Eng → Eng) (u : Units) : engOf (onEng k e f u) k e = f (engOf u k e) := by
  rw [engOf, onEng, modCore, coreAt_setCore, engAt_modEng_self]
  rfl
theorem coreAt_onEng_other {j : Nat} (e : Nat) (f : Eng → Eng) (u : Units) (h : j ≠ k) : coreAt (onEng k e f u) j = coreAt u j :=
  tgetD_tset_other _ _ _ h
theorem onEng_core (k e : Nat) (f : Eng → Eng) (u : Units) : onEng k e f u = { u with core := (onEng k e f u).core } := rfl

/- A row of the sweep (R107). -/
theorem urgentDone_frame (b : Bool) (k : Nat) (l : Option Nat) (u : Units) :
    ∃ ur, (if b then urgentDone k l u else u) = { u with svc := { u.svc with urgent := ur } } := by
  cases b
  · exact ⟨u.svc.urgent, rfl⟩
  · exact ⟨_, rfl⟩
theorem sweepRow_frame (asm : Asm) (id : CoreId) (e a : Fin 16) (row : Nat) (u : Units) : ∃ l ur,
    sweepRow asm id e a row u = { onEng (coreKey id) e (fun g => { g with swept := l }) u with svc := { u.svc with urgent := ur } } := by
  unfold sweepRow
  extract_lets k g r l whole w
  obtain ⟨ur, h⟩ := urgentDone_frame whole 1 (some (unitLoc asm (.array id e a))) w
  exact ⟨_, ur, h⟩
/-- A scrub read of an idle array of a core in service, up to what it finds. -/
def scrubbing (asm : Asm) (id : CoreId) (e a : Fin 16) (row : Nat) (u : Units) : Units :=
  sweepRow asm id e a row (dieBump (dieKey 0 (coreKey id / 16)) 0x37 1 u)
/-- Nothing but rows swept, urgency and counts of the dies changes before the row is judged. -/
theorem scrubbing_frame (asm : Asm) (id : CoreId) (e a : Fin 16) (row : Nat) (u : Units) : ∃ l ur cs,
    scrubbing asm id e a row u = { onEng (coreKey id) e (fun g => { g with swept := l }) u with
      svc := { u.svc with urgent := ur }, cnt := { u.cnt with die := cs } } := by
  obtain ⟨l, ur, h⟩ := sweepRow_frame asm id e a row (dieBump (dieKey 0 (coreKey id / 16)) 0x37 1 u)
  exact ⟨l, ur, _, h⟩
/-- What a scrub read does with what it finds. -/
def scrubFound (id : CoreId) (e a : Fin 16) (row : Fin 1024) (o : Ecc) (u : Units) : Units :=
  match o with
  | .clean => onEng (coreKey id) e (fun g => { g with scrubbed := tset g.scrubbed (a * 1024 + row) u.tick.number }) u
  | .corrected => setCorr (dieBump (dieKey 0 (coreKey id / 16)) 0x38 1 u)
  | .uncorrectable => scrubUncorr id e a row u
theorem arrayScrubRead_goes {asm : Asm} {id : CoreId} {e a : Fin 16} (hdie : id.die.val < engineDies asm)
    (hret : (coreAt u (coreKey id)).retired = false) (hidle : engIdle (coreAt u (coreKey id)) e = true) (row : Fin 1024) (o : Ecc) :
    arrayScrubRead asm id e a row o u = scrubFound id e a row o (scrubbing asm id e a row u) := by
  have hgo : ¬ (engineDies asm ≤ id.die ∨ (coreAt u (coreKey id)).retired = true ∨ (!engIdle (coreAt u (coreKey id)) e) = true) := by
    simp [hret, hidle, hdie]
  simp only [arrayScrubRead, if_neg hgo]
  cases o <;> rfl

theorem arrayScrubRead_waits (s : State) (c : CoreId) (e a : Fin 16) (row : Fin 1024) (o : Ecc)
    (h : engIdle (coreOf s c) e = false) : exec (.arrayScrubRead c e a row o) s = .next s := by
  have hgo : engineDies s.asm ≤ c.die ∨ (coreAt s.u (coreKey c)).retired = true ∨ (!engIdle (coreAt s.u (coreKey c)) e) = true :=
    .inr (.inr (by rw [h]; rfl))
  refine congrArg (fun v => Host.Outcome.next { s with u := v }) ?_
  exact if_pos hgo

theorem arrayScrubRead_clean (s : State) (c : CoreId) (e a : Fin 16) (row : Fin 1024) (hdie : c.die.val < engineDies s.asm)
    (hret : (coreOf s c).retired = false) (hidle : engIdle (coreOf s c) e = true) :
    ∃ t, exec (.arrayScrubRead c e a row .clean) s = .next t ∧
      engOf t.u (coreKey c) e = { engOf s.u (coreKey c) e with
        scrubbed := tset (engOf s.u (coreKey c) e).scrubbed (a.val * 1024 + row.val) s.u.tick.number
        swept := (engOf t.u (coreKey c) e).swept } ∧
      (∀ k, k ≠ coreKey c → coreAt t.u k = coreAt s.u k) ∧
      t = { s with u := { s.u with core := t.u.core, cnt := { s.u.cnt with die := t.u.cnt.die }
                                   svc := { s.u.svc with urgent := t.u.svc.urgent } } } := by
  obtain ⟨l, ur, cs, hw⟩ := scrubbing_frame s.asm c e a row s.u
  let x := onEng (coreKey c) e (fun g => { g with swept := l }) s.u
  have hx : engOf x (coreKey c) e = { engOf s.u (coreKey c) e with swept := l } := engOf_onEng_self ..
  let f := fun g : Eng => { g with scrubbed := tset g.scrubbed (a * 1024 + row) s.u.tick.number }
  have hself : engOf (onEng (coreKey c) e f x) (coreKey c) e = f (engOf x (coreKey c) e) := engOf_onEng_self ..
  rw [hx] at hself
  have hact : arrayScrubRead s.asm c e a row .clean s.u = { onEng (coreKey c) e f x with
      svc := { s.u.svc with urgent := ur }, cnt := { s.u.cnt with die := cs } } := by
    rw [arrayScrubRead_goes hdie hret hidle, hw]
    rfl
  refine ⟨_, next_of_units hact, ?_, fun k hk => ?_, rfl⟩
  · show engOf (onEng (coreKey c) e f x) (coreKey c) e = { engOf s.u (coreKey c) e with
      scrubbed := tset (engOf s.u (coreKey c) e).scrubbed (a.val * 1024 + row.val) s.u.tick.number
      swept := (engOf (onEng (coreKey c) e f x) (coreKey c) e).swept }
    rw [hself]
  · exact (coreAt_onEng_other e f x hk).trans (coreAt_onEng_other e _ s.u hk)

theorem arrayScrubRead_corrected (s : State) (c : CoreId) (e a : Fin 16) (row : Fin 1024) (hdie : c.die.val < engineDies s.asm)
    (hret : (coreOf s c).retired = false) (hidle : engIdle (coreOf s c) e = true) :
    ∃ t, exec (.arrayScrubRead c e a row .corrected) s = .next t ∧ t.u.blk.corr = true ∧
      (engOf t.u (coreKey c) e).w = (engOf s.u (coreKey c) e).w ∧ (∀ k, k ≠ coreKey c → coreAt t.u k = coreAt s.u k) ∧
      t.q = s.q ∧ t.m = s.m := by
  obtain ⟨l, ur, cs, hw⟩ := scrubbing_frame s.asm c e a row s.u
  let f := fun g : Eng => { g with swept := l }
  have hact : arrayScrubRead s.asm c e a row .corrected s.u = setCorr (dieBump (dieKey 0 (coreKey c / 16)) 0x38 1
      { onEng (coreKey c) e f s.u with svc := { s.u.svc with urgent := ur }, cnt := { s.u.cnt with die := cs } }) := by
    rw [arrayScrubRead_goes hdie hret hidle, hw]
    rfl
  have hself : engOf (onEng (coreKey c) e f s.u) (coreKey c) e = f (engOf s.u (coreKey c) e) := engOf_onEng_self ..
  exact ⟨_, next_of_units hact, rfl, (congrArg Eng.w hself :),
    fun k hk => coreAt_onEng_other e f s.u hk, rfl, rfl⟩

/- An uncorrectable row (R106, R108). -/
/-- Core k of v is that of u with poison added and nothing else, and no other core changes. -/
def Poisons (k : Nat) (u v : Units) : Prop := ∃ c p, v = { u with core := c } ∧ coreAt v k = { coreAt u k with pois := p } ∧
  (∀ x ∈ (coreAt u k).pois, x ∈ p) ∧ ∀ j, j ≠ k → coreAt v j = coreAt u j
theorem poisons_refl (k : Nat) (u : Units) : Poisons k u u := ⟨_, _, rfl, rfl, fun _ h => h, fun _ _ => rfl⟩
theorem Poisons.trans {w : Units} (h : Poisons k u v) (h' : Poisons k v w) : Poisons k u w := by
  obtain ⟨c, p, hv, hk, hp, hj⟩ := h
  obtain ⟨c', p', hw, hk', hp', hj'⟩ := h'
  refine ⟨c', p', by rw [hw, hv], by rw [hk', hk], fun x hx => hp' x ?_, fun j h => (hj' j h).trans (hj j h)⟩
  rw [hk]
  exact hp x hx
theorem Poisons.mem (h : Poisons k u v) {x : Nat} (hx : x ∈ (coreAt u k).pois) : x ∈ (coreAt v k).pois := by
  obtain ⟨c, p, -, hk, hp, -⟩ := h
  rw [hk]
  exact hp x hx
theorem mem_poisAfter_of_mem {l : List Nat} {addr n x : Nat} (h : x ∈ l) : x ∈ poisAfter l addr n true :=
  List.mem_append_left _ h
theorem poisons_sramTaint (k addr n : Nat) (u : Units) : Poisons k u (sramTaint k addr n u) :=
  ⟨_, _, rfl, coreAt_modCore .., fun _ h => mem_poisAfter_of_mem h, fun _ h => coreAt_modCore_other _ _ h⟩
theorem mem_sramTaint {addr n x : Nat} (hfit : addr + n ≤ 4194304) (hx : x ∈ unitsOf addr n) :
    x ∈ (coreAt (sramTaint k addr n u) k).pois := by
  have hn : sramFit addr n = n := Nat.min_eq_left (by rw [sramBytes]; omega)
  rw [sramTaint, coreAt_modCore, hn]
  exact mem_poisAfter_poisoned hx
/-- Every output of a list poisoned. -/
def taintAll (k : Nat) (outs : List (Nat × Nat)) (u : Units) : Units := forAll outs (fun o u => sramTaint k o.1 o.2 u) u
theorem poisons_taintAll (k : Nat) (outs : List (Nat × Nat)) (u : Units) : Poisons k u (taintAll k outs u) :=
  foldl_keeps (Poisons k u) (fun (u : Units) (o : Nat × Nat) => sramTaint k o.1 o.2 u) outs u (poisons_refl k u)
    fun _ _ h => h.trans (poisons_sramTaint ..)
theorem mem_taintAll {outs : List (Nat × Nat)} {o : Nat × Nat} (ho : o ∈ outs) (hfit : o.1 + o.2 ≤ 4194304) {x : Nat}
    (hx : x ∈ unitsOf o.1 o.2) (u : Units) : x ∈ (coreAt (taintAll k outs u) k).pois := by
  induction outs generalizing u with
  | nil => cases ho
  | cons y l ih =>
    obtain rfl | ho := List.mem_cons.mp ho
    · exact (poisons_taintAll k l _).mem (mem_sramTaint hfit hx)
    · exact ih ho _

/-- An output of a pass tainted for an engine is poisoned where it is the engine's. -/
theorem poison_of_taintPass {q : Pass} {o : PassOut} (ho : o ∈ (taintPass e q).outs) (he : o.engine = e) : o.poison = true := by
  unfold taintPass at ho
  extract_lets chain at ho
  split at ho
  · obtain ⟨y, -, rfl⟩ := List.mem_map.mp ho
    by_cases hy : (chain || y.engine == e) = true
    · rw [if_pos hy]
    · rw [if_neg hy] at he
      simp [he] at hy
  · next hn => exact absurd (List.any_eq_true.mpr ⟨o, ho, by simp [he]⟩) hn

/-- The outputs and the passes that an uncorrectable row taints. -/
theorem taintPasses_eq (k e : Nat) (u : Units) : taintPasses k e u =
    modCore k (fun c => { c with passes := c.passes.map (taintPass e) })
      (taintAll k (if (engOf u k e).outTick = u.tick.number then (engOf u k e).outs else []) u) := rfl
theorem taintPasses_frame (k e : Nat) (u : Units) : ∃ c p, taintPasses k e u = { u with core := c } ∧
    coreAt (taintPasses k e u) k = { coreAt u k with pois := p, passes := (coreAt u k).passes.map (taintPass e) } ∧
    (∀ j, j ≠ k → coreAt (taintPasses k e u) j = coreAt u j) ∧
    ∀ o ∈ (engOf u k e).outs, (engOf u k e).outTick = u.tick.number → o.1 + o.2 ≤ 4194304 → ∀ x ∈ unitsOf o.1 o.2, x ∈ p := by
  rw [taintPasses_eq]
  have hmem (o : Nat × Nat) (ho : o ∈ (engOf u k e).outs) (htick : (engOf u k e).outTick = u.tick.number)
      (hfit : o.1 + o.2 ≤ 4194304) (x : Nat) (hx : x ∈ unitsOf o.1 o.2) :
      x ∈ (coreAt (taintAll k (if (engOf u k e).outTick = u.tick.number then (engOf u k e).outs else []) u) k).pois :=
    mem_taintAll (by rw [if_pos htick]; exact ho) hfit hx u
  have hp := poisons_taintAll k (if (engOf u k e).outTick = u.tick.number then (engOf u k e).outs else []) u
  generalize taintAll k (if (engOf u k e).outTick = u.tick.number then (engOf u k e).outs else []) u = v at hmem hp
  obtain ⟨c, p, rfl, hk, -, hj⟩ := hp
  refine ⟨_, p, rfl, ?_, fun j h => (coreAt_modCore_other _ _ h).trans (hj j h), ?_⟩
  · rw [coreAt_modCore, hk]
  · rw [hk] at hmem
    exact hmem

/- The shadow copy of a core's rows depends on its place in its slot alone. -/
theorem shadowRow_congr (hs : (coreAt v k).slot = (coreAt u k).slot) (hl : (coreAt v k).lidx = (coreAt u k).lidx)
    (hv : v.slot = u.slot) (r : Nat) : shadowRow v k e r = shadowRow u k e r := by
  simp only [shadowRow, slotAt, hs, hl, hv]
theorem shadowCells_congr (hs : (coreAt v k).slot = (coreAt u k).slot) (hl : (coreAt v k).lidx = (coreAt u k).lidx)
    (hv : v.slot = u.slot) (r : Nat) : shadowCells v k e r = shadowCells u k e r := by
  simp only [shadowCells, slotAt, hs, hl, hv]
theorem cells_putRow (r x : Nat) (g : Eng) (i : Nat) :
    tgetD (putRow r x g).w.cells i 0 = if i = r then x else tgetD g.w.cells i 0 := by
  split
  · next h => rw [h]; exact tgetD_tset_self ..
  · next h => exact tgetD_tset_other _ _ _ h

theorem scrubUncorr_rewrites {id : CoreId} {e a row n addr : Nat}
    (hrow : shadowRow u (coreKey id) e (a * 1024 + row) = some (n, addr)) (h0 : addr / 64 ∉ u.tier.pois1)
    (h1 : addr / 64 + 1 ∉ u.tier.pois1) : ∃ v, noticeFrame u v ∧ scrubUncorr id e a row u =
      onEng (coreKey id) e (putRow (a * 1024 + row) (shadowCells u (coreKey id) e (a * 1024 + row))) (taintPasses (coreKey id) e v) := by
  let die := dieKey 0 (coreKey id / 16)
  let w := dieBump die 0x39 1 u
  let v := notice die 0x0204 0 [arrayLoc w (coreKey id) e a row, tgetD (engOf w (coreKey id) e).scrubbed (a * 1024 + row) 0] w
  have hv : noticeFrame u v := noticeFrame_trans (noticeFrame_dieBump ..) (notice_frame ..)
  refine ⟨v, hv, ?_⟩
  obtain ⟨c, p, ht, hk, -, -⟩ := taintPasses_frame (coreKey id) e v
  have hc : coreAt v (coreKey id) = coreAt u (coreKey id) := coreAt_of_core_eq (noticeFrame_core hv) _
  obtain ⟨-, -, -, -, -, hslot, -, -, htier, -⟩ := noticeFrame_keeps hv
  have hts : (taintPasses (coreKey id) e v).slot = u.slot := by rw [ht]; exact hslot
  have htt : (taintPasses (coreKey id) e v).tier = u.tier := by rw [ht]; exact htier
  have hks : (coreAt (taintPasses (coreKey id) e v) (coreKey id)).slot = (coreAt u (coreKey id)).slot := by rw [hk, hc]
  have hkl : (coreAt (taintPasses (coreKey id) e v) (coreKey id)).lidx = (coreAt u (coreKey id)).lidx := by rw [hk, hc]
  have hshadow := (shadowRow_congr (e := e) hks hkl hts (a * 1024 + row)).trans hrow
  have hcells := shadowCells_congr (e := e) hks hkl hts (a * 1024 + row)
  have hgo : ¬ ((taintPasses (coreKey id) e v).tier.pois1.contains (addr / 64) = true ∨
      (taintPasses (coreKey id) e v).tier.pois1.contains (addr / 64 + 1) = true) := by
    simp [htt, h0, h1]
  rw [← hcells]
  unfold scrubUncorr
  extract_lets k r die' u1 u2
  have hu2 : u2 = taintPasses (coreKey id) e v := rfl
  rw [hu2]
  simp only [k, r, hshadow, if_neg hgo]

theorem arrayScrubRead_rewrites (s : State) (c : CoreId) (e a : Fin 16) (row : Fin 1024) (n addr : Nat)
    (hdie : c.die.val < engineDies s.asm) (hret : (coreOf s c).retired = false) (hidle : engIdle (coreOf s c) e = true)
    (hrow : shadowRow s.u (coreKey c) e (a.val * 1024 + row.val) = some (n, addr))
    (h0 : addr / 64 ∉ s.u.tier.pois1) (h1 : addr / 64 + 1 ∉ s.u.tier.pois1) :
    ∃ t, exec (.arrayScrubRead c e a row .uncorrectable) s = .next t ∧
      (∀ r, tgetD (engOf t.u (coreKey c) e).w.cells r 0 = if r = a.val * 1024 + row.val
        then shadowCells s.u (coreKey c) e r else tgetD (engOf s.u (coreKey c) e).w.cells r 0) ∧
      tget (engOf t.u (coreKey c) e).check (a.val * 1024 + row.val) =
        some (Config.rowCheck (shadowCells s.u (coreKey c) e (a.val * 1024 + row.val))) ∧
      (∀ o, o ∈ (engOf s.u (coreKey c) e).outs → (engOf s.u (coreKey c) e).outTick = s.u.tick.number →
        o.1 + o.2 ≤ 4194304 → ∀ x, x ∈ unitsOf o.1 o.2 → x ∈ (coreOf t c).pois) ∧
      (∀ p, p ∈ (coreOf t c).passes → ∀ o, o ∈ p.outs → o.engine = e.val → o.poison = true) ∧
      (∀ k, k ≠ coreKey c → coreAt t.u k = coreAt s.u k) ∧ t.q = s.q ∧ t.m = s.m := by
  let k := coreKey c
  let r := a.val * 1024 + row.val
  obtain ⟨l, ur, cs, hw⟩ := scrubbing_frame s.asm c e a row s.u
  let f := fun g : Eng => { g with swept := l }
  let w : Units := { onEng k e f s.u with svc := { s.u.svc with urgent := ur }, cnt := { s.u.cnt with die := cs } }
  have hwk : coreAt w k = modEng e f (coreAt s.u k) := coreAt_modCore k (modEng e f) s.u
  have hweng : engOf w k e = f (engOf s.u k e) := engOf_onEng_self k e f s.u
  have hwrow : shadowRow w k e r = some (n, addr) :=
    (shadowRow_congr (u := s.u) (v := w) (by rw [hwk]; rfl) (by rw [hwk]; rfl) rfl r).trans hrow
  have hwcells : shadowCells w k e r = shadowCells s.u k e r :=
    shadowCells_congr (u := s.u) (v := w) (by rw [hwk]; rfl) (by rw [hwk]; rfl) rfl r
  obtain ⟨v, hv, hscrub⟩ := scrubUncorr_rewrites hwrow h0 h1
  obtain ⟨d, p, -, hk, hj, hpois⟩ := taintPasses_frame k e v
  obtain ⟨htick, -⟩ := noticeFrame_keeps hv
  have hvcore (j : Nat) : coreAt v j = coreAt w j := coreAt_of_core_eq (noticeFrame_core hv) j
  have hveng : engOf v k e = f (engOf s.u k e) := (congrArg (fun x => engAt x e.val) (hvcore k)).trans hweng
  have hteng : engOf (taintPasses k e v) k e = f (engOf s.u k e) := (congrArg (fun x => engAt x e.val) hk).trans hveng
  let x := onEng k e (putRow r (shadowCells s.u k e r)) (taintPasses k e v)
  have hx : coreAt x k = modEng e (putRow r (shadowCells s.u k e r)) (coreAt (taintPasses k e v) k) := coreAt_modCore ..
  have hxeng : engOf x k e = putRow r (shadowCells s.u k e r) (f (engOf s.u k e)) := (engOf_onEng_self ..).trans (congrArg _ hteng)
  have hact : arrayScrubRead s.asm c e a row .uncorrectable s.u = x := by
    rw [arrayScrubRead_goes hdie hret hidle, hw]
    refine hscrub.trans ?_
    rw [hwcells]
  refine ⟨_, next_of_units hact, fun i => ?_, ?_, fun o ho ht hfit y hy => ?_, fun q hq o ho he => ?_, fun j hjk => ?_, rfl, rfl⟩
  · show tgetD (engOf x k e).w.cells i 0 = _
    rw [hxeng, cells_putRow]
    by_cases hi : i = r
    · rw [if_pos hi, if_pos hi, hi]
    · rw [if_neg hi, if_neg hi]
  · show tget (engOf x k e).check r = _
    rw [hxeng]
    exact tget_tset_self ..
  · show y ∈ (coreAt x k).pois
    rw [hx, hk]
    exact hpois o (by rw [hveng]; exact ho) (by rw [hveng, htick]; exact ht) hfit y hy
  · replace hq : q ∈ (coreAt x k).passes := hq
    rw [hx, hk] at hq
    obtain ⟨y, -, rfl⟩ := List.mem_map.mp hq
    exact poison_of_taintPass ho he
  · exact ((coreAt_onEng_other e _ _ hjk).trans (hj j hjk)).trans ((hvcore j).trans (coreAt_onEng_other e f s.u hjk))

/- A row written and verified (R121). -/
theorem weightRowWrite_puts (s : State) (c : CoreId) (e a : Fin 16) (row : Fin 1024) (v : Bool) (hdie : c.die.val < engineDies s.asm)
    (hslot : (coreOf s c).slot ≠ none) (hspare : spareLoads s.u c e a = false) (hbusy : (engOf s.u (coreKey c) e).busy = false) :
    ∃ t, exec (.weightRowWrite c e a row true v) s = .next t ∧
      (∀ r, tgetD (engOf t.u (coreKey c) e).w.cells r 0 = if r = a.val * 1024 + row.val
        then shadowCells s.u (coreKey c) e r else tgetD (engOf s.u (coreKey c) e).w.cells r 0) ∧
      tget (engOf t.u (coreKey c) e).check (a.val * 1024 + row.val) =
        some (Config.rowCheck (shadowCells s.u (coreKey c) e (a.val * 1024 + row.val))) ∧
      (∀ k, k ≠ coreKey c → coreAt t.u k = coreAt s.u k) ∧ t = { s with u := { s.u with core := t.u.core } } := by
  let r := a.val * 1024 + row.val
  let x := onEng (coreKey c) e (putRow r (shadowCells s.u (coreKey c) e r)) s.u
  have hsome : (coreAt s.u (coreKey c)).slot.isSome = true := Option.isSome_iff_ne_none.mpr hslot
  have hown : ((coreAt s.u (coreKey c)).slot.isSome && !spareLoads s.u c e a) = true := by rw [hsome, hspare]; rfl
  have hgo : ¬ (engineDies s.asm ≤ c.die ∨ ((coreAt s.u (coreKey c)).slot.isNone = true ∧ (!temperHolds s.u (coreKey c)) = true) ∨
      (true && (engOf s.u (coreKey c) e).busy) = true) := by
    simp [hdie, hslot, hbusy]
  have hact : weightRowWrite s.asm c e a row true v s.u = x := by
    simp only [weightRowWrite, hown, if_neg hgo, if_true, Bool.true_or]
    rfl
  have hxeng : engOf x (coreKey c) e = putRow r (shadowCells s.u (coreKey c) e r) (engOf s.u (coreKey c) e) := engOf_onEng_self ..
  refine ⟨_, next_of_units hact, fun i => ?_, ?_, fun j hj => coreAt_onEng_other e _ s.u hj, rfl⟩
  · show tgetD (engOf x (coreKey c) e).w.cells i 0 = _
    rw [hxeng, cells_putRow]
    by_cases hi : i = r
    · rw [if_pos hi, if_pos hi, hi]
    · rw [if_neg hi, if_neg hi]
  · show tget (engOf x (coreKey c) e).check r = _
    rw [hxeng]
    exact tget_tset_self ..

/- CLIP_CHECK (R96). -/
/-- The block once a clip check has begun. -/
def clipBegun (u : Units) : Units := { u with svc := { u.svc with clipAt := u.tick.number } }
/-- The check where one engine of one bound core of one slot has arrays. -/
theorem clipCheck_one {x : Slot} {b : Binding} {g : Eng} (hs : u.slot = [(n, x)]) (hb : x.bind = [b])
    (hg : (coreAt u (bindKey b)).eng = [(e, g)]) : clipCheck u = clipEngine (bindKey b) e x.clipPpm (clipBegun u) := by
  have hg' : (coreAt (clipBegun u) (bindKey b)).eng = [(e, g)] := hg
  unfold clipCheck
  show forAll u.slot _ (clipBegun u) = _
  rw [hs]
  show forAll x.bind _ (clipBegun u) = _
  rw [hb]
  show forAll (tkeys (coreAt (clipBegun u) (bindKey b)).eng) _ (clipBegun u) = _
  rw [hg']
  rfl
theorem engOf_of_one {g : Eng} (hg : (coreAt u k).eng = [(e, g)]) : engOf u k e = g := by
  rw [engOf, engAt, hg]
  exact congrArg (fun o => Option.getD o ({} : Eng)) (if_pos rfl)

theorem clipCheck_reports (s : State) (n : Nat) (x : Slot) (b : Binding) (e i v : Nat) (g : Eng) (hrole : roleRuns s.u 8 = true)
    (hdue : clipDue s.u = true) (hs : s.u.slot = [(n, x)]) (hb : x.bind = [b]) (hg : (coreAt s.u (bindKey b)).eng = [(e, g)])
    (hhigh : g.clipHigh = []) (hppm : 0 < x.clipPpm) (hshare : clipShares g x.clipPpm = [(i, v)]) :
    ∃ t, exec .clipCheck s = .next t ∧ t.u.prodN = (fwNotice 8 0x0201 0 [arrayLoc s.u (bindKey b) e 0 0, i, v] s.u).prodN ∧
      engOf t.u (bindKey b) e = { g with span := [], clipHigh := [i] } ∧ t.u.svc.clipAt = s.u.tick.number ∧
      (∀ k, k ≠ bindKey b → coreAt t.u k = coreAt s.u k) ∧ t.q = s.q ∧ t.m = s.m := by
  let k := bindKey b
  let w := fwNotice 8 0x0201 0 [arrayLoc s.u k e 0 0, i, v] (clipBegun s.u)
  let f := fun g : Eng => { g with span := [], clipHigh := [i] }
  have heng : engOf (clipBegun s.u) k e = g := engOf_of_one hg
  have hact : (if roleRuns s.u 8 && clipDue s.u then clipCheck s.u else s.u) = onEng k e f w := by
    rw [hrole, hdue, clipCheck_one hs hb hg]
    have hne : ¬ x.clipPpm = 0 := by omega
    simp only [clipEngine, heng, hne, if_false, hshare, hhigh, Bool.true_and, if_true, k]
    rfl
  obtain ⟨-, -, hsvc, -, hcore, -⟩ := noticeFrame_keeps (fwNotice_frame 8 0x0201 0 [arrayLoc s.u k e 0 0, i, v] (clipBegun s.u))
  have hw (j : Nat) : coreAt w j = coreAt s.u j := coreAt_of_core_eq hcore j
  refine ⟨_, next_of_units (f := fun u => if roleRuns u 8 && clipDue u then clipCheck u else u) hact, ?_, ?_, ?_,
    fun j hj => (coreAt_onEng_other e f w hj).trans (hw j), rfl, rfl⟩
  · show (fwNotice _ _ _ _ _).prodN = (fwNotice _ _ _ _ _).prodN
    rw [fwNotice, fwNotice, notice_prodN, notice_prodN]
    rfl
  · refine (engOf_onEng_self k e f w).trans (congrArg f ?_)
    rw [engOf, hw]
    exact engOf_of_one hg
  · exact congrArg Svc.clipAt hsvc

theorem clipCheck_clears (s : State) (n : Nat) (x : Slot) (b : Binding) (e : Nat) (g : Eng) (hrole : roleRuns s.u 8 = true)
    (hdue : clipDue s.u = true) (hs : s.u.slot = [(n, x)]) (hb : x.bind = [b]) (hg : (coreAt s.u (bindKey b)).eng = [(e, g)])
    (hnone : x.clipPpm = 0 ∨ clipShares g x.clipPpm = []) :
    ∃ t, exec .clipCheck s = .next t ∧ engOf t.u (bindKey b) e = { g with span := [], clipHigh := [] } ∧
      t = { s with u := { s.u with core := t.u.core, svc := { s.u.svc with clipAt := s.u.tick.number } } } := by
  let k := bindKey b
  let f := fun g : Eng => { g with span := [], clipHigh := [] }
  have heng : engOf (clipBegun s.u) k e = g := engOf_of_one hg
  have hact : (if roleRuns s.u 8 && clipDue s.u then clipCheck s.u else s.u) = onEng k e f (clipBegun s.u) := by
    have hshare : (if x.clipPpm = 0 then [] else clipShares g x.clipPpm) = [] := by
      obtain h | h := hnone
      · rw [if_pos h]
      · rw [h, ite_self]
    rw [hrole, hdue, clipCheck_one hs hb hg]
    simp only [clipEngine, heng, hshare, Bool.true_and, if_true, k]
    rfl
  refine ⟨_, next_of_units (f := fun u => if roleRuns u 8 && clipDue u then clipCheck u else u) hact, ?_, rfl⟩
  exact (engOf_onEng_self k e f (clipBegun s.u)).trans (congrArg f heng)

theorem clipShares_above (g : Eng) (ppm i v : Nat) (h : (i, v) ∈ clipShares g ppm) :
    i < 16 ∧ ppm * (tgetD g.span i (0, 0)).1 < 1000000 * (tgetD g.span i (0, 0)).2 := by
  obtain ⟨j, hj, hjv⟩ := List.mem_filterMap.mp h
  dsimp only at hjv
  split at hjv
  · next hlt =>
    cases hjv
    exact ⟨List.mem_range.mp hj, hlt⟩
  · cases hjv

/- CLIP_READ (R359, R95). -/
/-- An engine with its clipping counters at 0. -/
def engsCleared (c : CoreSt) : CoreSt := { c with eng := tmap c.eng (fun _ g => { g with quant := [], clip := [] }) }
theorem engAt_engsCleared (c : CoreSt) (e : Nat) : (engAt (engsCleared c) e).quant = [] ∧ (engAt (engsCleared c) e).clip = [] := by
  rw [engAt, engsCleared, tgetD, tget_tmap]
  cases tget c.eng e <;> exact ⟨rfl, rfl⟩
/-- The part of the records that the buffer takes. -/
def clipTaken (u : Units) (p : Bytes) : Bytes :=
  (clipRecords u (slotAt u (le p 0 1))).take ((bufOf p 16).len / 16 * 16)
theorem clipRead_goes (s : State) (mb : Fin 64) (p : Bytes) (h : heard s.u mb 0x0803 p) (hk : le p 0 1 ≤ 31) (hclear : le p 1 1 ≤ 1)
    (hb : bufOk s.u mb (bufOf p 16) = true) (hs : (bufOf p 16).space = 0) (hup : dmaUp s.u 0 = true) :
    exec (.clipRead mb false) s = .next (onUnits (fun u =>
      answer mb (ok (leBytes 4 ((clipTaken s.u p).length / 16)))
        (if le p 1 1 = 1 then modCores bindKey (fun _ => engsCleared) (slotAt s.u (le p 0 1)).bind
          (emit (.host 0 (bufOf p 16).addr (clipTaken s.u p)) u) else emit (.host 0 (bufOf p 16).addr (clipTaken s.u p)) u)) s) := by
  have hlen : (clipTaken s.u p).length ≤ (bufOf p 16).len :=
    Nat.le_trans (List.length_take_le ..) (Nat.div_mul_le_self ..)
  have hw := bufWrite_port0 (s := s) (ctx := mb) hs hup hlen
  rw [clipTaken] at hw
  refine (next_of_heardS h).trans ?_
  simp only [if_neg (Nat.not_lt.mpr hk), if_neg (Nat.not_lt.mpr hclear), hb, hw, Bool.not_true, Bool.false_eq_true, if_false]
  by_cases h1 : le p 1 1 = 1
  · simp only [if_pos h1]
    rfl
  · simp only [if_neg h1]
    rfl

/-- Settles O32: a scrub read by what it finds, with the frame of each step of its work; the clip check where one engine stands
for all; a read of the counters by its buffer. -/
theorem arraysInService : Obligations.ArraysInService := by
  refine ⟨arrayScrubRead_clean, arrayScrubRead_waits, arrayScrubRead_corrected, arrayScrubRead_rewrites, weightRowWrite_puts,
    clipCheck_reports, clipCheck_clears, ?notDue, clipShares_above, ?read, ?clear⟩
  case notDue =>
    intro s h
    refine next_of_units (f := fun u => if roleRuns u 8 && clipDue u then clipCheck u else u) ?_
    simp only [h, Bool.and_false, Bool.false_eq_true, if_false]
  case read =>
    intro s mb p h hk hclear hb hs hup
    have h1 : ¬ le p 1 1 = 1 := by omega
    rw [clipRead_goes s mb p h hk (by omega) hb hs hup]
    simp only [if_neg h1, onUnits, clipTaken]
  case clear =>
    intro s mb p h hk hclear hb hs hup
    let w := modCores bindKey (fun _ => engsCleared) (slotAt s.u (le p 0 1)).bind
      (emit (.host 0 (bufOf p 16).addr (clipTaken s.u p)) s.u)
    have hgo : exec (.clipRead mb false) s =
        .next { s with u := answer mb (ok (leBytes 4 ((clipTaken s.u p).length / 16))) w } := by
      refine (clipRead_goes s mb p h hk (by omega) hb hs hup).trans ?_
      simp only [if_pos hclear]
      rfl
    have hcore (b : Binding) (hb : b ∈ (slotAt s.u (le p 0 1)).bind) :
        ∀ e, (engAt (coreAt w (bindKey b)) e).quant = [] ∧ (engAt (coreAt w (bindKey b)) e).clip = [] :=
      coreAt_modCores (P := fun c => ∀ e, (engAt c e).quant = [] ∧ (engAt c e).clip = []) (fun _ c => engAt_engsCleared c)
        ⟨b, hb, rfl⟩ _
    obtain ⟨c, hw⟩ : ∃ c, w = { emit (.host 0 (bufOf p 16).addr (clipTaken s.u p)) s.u with core := c } := ⟨_, modCores_frame ..⟩
    clear_value w
    subst hw
    exact ⟨_, hgo, answered_of_heard rfl h rfl, hcore, rfl⟩

end Sys2Proof.Machine
end

section
/-! PROOFS. Reference mode (03, R98 to R100; 12, R359): the blocks of O33. -/
namespace Sys2Proof.Machine

variable {s t : State} {u v : Units} {k e n : Nat} {r : RefRun} {c : CoreId}

/- The run that a comparison or an end is of. -/
/-- Whether a run compares passes of an engine in the present tick. -/
def refOf (u : Units) (k e : Nat) (r : RefRun) : Bool :=
  r.running && r.die * 16 + r.core == k && r.engine == e && r.first ≤ u.tick.number && decide (u.tick.number < r.first + r.ticks)
theorem refOf_self (hrun : r.running = true) (hk : r.die * 16 + r.core = k) (he : r.engine = e) (hfirst : r.first ≤ u.tick.number)
    (hlast : u.tick.number < r.first + r.ticks) : refOf u k e r = true := by
  simp [refOf, hrun, hk, he, hfirst, hlast]
/-- The runs of an engine changed. -/
def updRef (k e : Nat) (f : RefRun → RefRun) (u : Units) : Units :=
  { u with ref := u.ref.map (fun r => if refOf u k e r then f r else r) }
theorem updRef_one (hr : u.ref = [r]) (hm : refOf u k e r = true) (f : RefRun → RefRun) : updRef k e f u = { u with ref := [f r] } := by
  rw [updRef, hr, List.map_cons, hm]
  rfl
theorem find_refOf (hr : u.ref = [r]) (hm : refOf u k e r = true) : u.ref.find? (refOf u k e) = some r := by
  rw [hr, List.find?_cons, hm]

/-- A comparison without spare time is a skip. -/
theorem refCompare_skips {spare : Bool} (b : Option (Fin 16)) (hr : u.ref = [r]) (hm : refOf u (coreKey c) e r = true)
    (hs : spare = false) : refCompare c e spare b u = { u with ref := [refSkip u.tick.number r] } := by
  rw [← updRef_one hr hm]
  unfold refCompare
  extract_lets k c' g mine upd
  have hfind : u.ref.find? mine = some r := find_refOf hr hm
  have hgo : (!spare) = true ∨ u.pins.throt = true := .inl (by rw [hs]; rfl)
  simp only [hfind, if_pos hgo]
  rfl
/-- A comparison in NARROW mode, by what it finds. -/
def refNarrow (c : CoreId) (e : Nat) (bad : Option (Fin 16)) (u : Units) : Units :=
  match bad with
  | none => updRef (coreKey c) e (refCount u.tick.number) u
  | some a =>
    let w := updRef (coreKey c) e (fun r => { refCount u.tick.number r with mismatches := r.mismatches + 1 }) u
    decideFault (.array c (Fin.ofNat 16 e) a) (sramTaint (coreKey c) (engOf u (coreKey c) e).lastAt (engOf u (coreKey c) e).lastOut.length
      (fwNotice 8 0x0202 0 [arrayLoc w (coreKey c) e a 0] w))
theorem refCompare_narrow {x : InBuf} {f : FF} (b : Option (Fin 16)) (hr : u.ref = [r]) (hm : refOf u (coreKey c) e r = true)
    (hmode : r.mode = 0) (hl : (engOf u (coreKey c) e).last = some (x, n, f)) (hp : x.row.poison = false) (hthr : u.pins.throt = false) :
    refCompare c e true b u = refNarrow c e b u := by
  unfold refCompare
  extract_lets k c' g mine upd
  have hfind : u.ref.find? mine = some r := find_refOf hr hm
  have hgo : ¬ ((!true) = true ∨ u.pins.throt = true) := by simp [hthr]
  have hrow : ¬ (x.row.poison = true ∨ (r.mode ≠ 0 ∧ x.src.isNone = true)) := by simp [hp, hmode]
  have hg : g.last = some (x, n, f) := hl
  simp only [hfind, if_neg hgo, hg, if_neg hrow, if_pos hmode]
  cases b <;> rfl

theorem mem_decideFault (x : RUnit) (u : Units) : x ∈ (decideFault x u).svc.decided := by
  unfold decideFault
  split
  · next h => simpa using h
  · simp
theorem decideFault_frame (x : RUnit) (u : Units) : ∃ l, decideFault x u = { u with svc := { u.svc with decided := l } } := by
  unfold decideFault
  split
  · exact ⟨u.svc.decided, rfl⟩
  · exact ⟨_, rfl⟩

theorem refCompare_mismatch (s : State) (c : CoreId) (e a : Fin 16) (r : RefRun) (x : InBuf) (n : Nat) (f : FF) (hr : s.u.ref = [r])
    (hrun : r.running = true) (hmode : r.mode = 0) (hk : r.die * 16 + r.core = coreKey c) (he : r.engine = e.val)
    (hfirst : r.first ≤ s.u.tick.number) (hlast : s.u.tick.number < r.first + r.ticks)
    (hl : (engOf s.u (coreKey c) e).last = some (x, n, f)) (hp : x.row.poison = false) (hthr : s.u.pins.throt = false)
    (hskip : r.skipAt ≠ some s.u.tick.number) :
    ∃ t, exec (.refCompare c e true (some a)) s = .next t ∧
      t.u.ref = [{ r with compared := r.compared + 1, mismatches := r.mismatches + 1, cmpAt := some s.u.tick.number }] ∧
      t.u.prodN = (fwNotice 8 0x0202 0 [arrayLoc s.u (coreKey c) e a 0] s.u).prodN ∧
      RUnit.array c e a ∈ t.u.svc.decided ∧
      ((engOf s.u (coreKey c) e).lastAt + (engOf s.u (coreKey c) e).lastOut.length ≤ 4194304 →
        ∀ y, y ∈ unitsOf (engOf s.u (coreKey c) e).lastAt (engOf s.u (coreKey c) e).lastOut.length → y ∈ (coreOf t c).pois) ∧
      t.q = s.q ∧ t.m = s.m := by
  have hm := refOf_self (u := s.u) hrun hk he hfirst hlast
  let r' : RefRun := { r with compared := r.compared + 1, mismatches := r.mismatches + 1, cmpAt := some s.u.tick.number }
  let w : Units := { s.u with ref := [r'] }
  let v := fwNotice 8 0x0202 0 [arrayLoc w (coreKey c) e a 0] w
  let y := sramTaint (coreKey c) (engOf s.u (coreKey c) e).lastAt (engOf s.u (coreKey c) e).lastOut.length v
  have hupd : updRef (coreKey c) e (fun r => { refCount s.u.tick.number r with mismatches := r.mismatches + 1 }) s.u = w := by
    rw [updRef_one hr hm]
    simp only [refCount, if_neg hskip]
    rfl
  have hact : refCompare c e true (some a) s.u = decideFault (.array c e a) y := by
    rw [refCompare_narrow (some a) hr hm hmode hl hp hthr, refNarrow]
    simp only [hupd, Fin.ofNat_val_eq_self]
    rfl
  have hv : v.ref = w.ref := by
    have h := fwNotice_frame 8 0x0202 0 [arrayLoc w (coreKey c) e a 0] w
    rw [noticeFrame] at h
    exact (congrArg Units.ref h :)
  have hprod : v.prodN = (fwNotice 8 0x0202 0 [arrayLoc s.u (coreKey c) e a 0] s.u).prodN := by
    rw [fwNotice, notice_prodN]
    show (fwNotice 8 0x0202 0 [arrayLoc w (coreKey c) e a 0] w).prodN = _
    rw [fwNotice, notice_prodN]
    rfl
  obtain ⟨l, hd⟩ := decideFault_frame (.array c e a) y
  have hmem := mem_decideFault (.array c e a) y
  rw [hd] at hact hmem
  exact ⟨_, next_of_units hact, hv, hprod, hmem, fun hfit z hz => mem_sramTaint hfit hz, rfl, rfl⟩

theorem refDone_ends (s : State) (c : CoreId) (e : Fin 16) (r : RefRun) (hr : s.u.ref = [r]) (hrun : r.running = true)
    (hstats : r.stats = []) (hk : r.die * 16 + r.core = coreKey c) (he : r.engine = e.val)
    (hlast : r.first + r.ticks ≤ s.u.tick.number) :
    exec (.refDone c e) s = .next (onUnits (fun u => fwNotice 8 0x0C02 0 [arrayLoc u (coreKey c) e 0 0, r.mismatches]
      { u with ref := [{ r with running := false }] }) s) := by
  refine next_of_units ?_
  unfold refDone
  extract_lets k mine w
  have hm : mine r = true := by simp [mine, k, hrun, hk, he, hlast]
  have hfind : s.u.ref.find? mine = some r := by rw [hr, List.find?_cons, hm]
  have hw : w = { s.u with ref := [{ r with running := false }] } := by
    show { s.u with ref := s.u.ref.map (fun x => if mine x then { x with running := false } else x) } = _
    rw [hr, List.map_cons, hm]
    rfl
  have hnone : r.stats.filter (fun st => fgt .fp32 (refMax st.2) r.tol) = [] := by
    rw [hstats]
    rfl
  simp only [hfind, hnone, hw]
  rfl

/-- Settles O33: the one run of the list found, and what is done to it. -/
theorem referenceMode : Obligations.ReferenceMode := by
  refine ⟨?start, ?skip, ?pass, refCompare_mismatch, refDone_ends, ?report⟩
  case start =>
    intro s mb p die core e h hk hmode hticks hloc hdie hslot hhead hthr hr
    refine next_of_answer h ?_
    have h1 : ¬ ((0 : Nat) ≠ 0 ∨ engineDies s.asm ≤ die ∨ (coreAt s.u (die * 16 + core)).slot ≠ some (le p 0 1)) := by
      simp [hdie, hslot]
    have h2 : ¬ (le p 1 1 ≠ 0 ∧ imgKind (slotAt s.u (le p 0 1)).img = 1) := by
      rintro ⟨hm, hi⟩
      exact hhead.elim hm fun hn => hn hi
    have h3 : ¬ s.u.pins.throt = true := by rw [hthr]; exact Bool.false_ne_true
    have h4 : ¬ ([] : List RefRun).any (fun r => r.running && r.die == die && r.core == core && r.engine == e) = true := Bool.false_ne_true
    simp only [hloc, if_neg (Nat.not_lt.mpr hk), if_neg (Nat.not_lt.mpr hmode), if_neg (Nat.pos_iff_ne_zero.mp hticks), if_neg h1,
      if_neg h2, if_neg h3, hr, if_neg h4]
    rfl
  case skip =>
    intro s c e r b hr hrun hk he hfirst hlast
    exact next_of_units (refCompare_skips b hr (refOf_self hrun hk he hfirst hlast) rfl)
  case pass =>
    intro s c e r x n f hr hrun hmode hk he hfirst hlast hl hp hthr
    have hm := refOf_self (u := s.u) hrun hk he hfirst hlast
    refine next_of_units ((refCompare_narrow none hr hm hmode hl hp hthr).trans ((updRef_one hr hm _).trans ?_))
    simp only [refCount]
    split <;> rfl
  case report =>
    intro s mb p r h hb hr hstats hs hup
    have hw := bufWrite_port0 (s := s) (ctx := mb) (data := []) hs hup (Nat.zero_le _)
    refine (next_of_heardS h).trans ?_
    simp only [hb, hr, List.getLastD, List.getLast, hstats, List.foldl_nil, List.take_nil, hw, Bool.not_true, Bool.false_eq_true, if_false]
    rfl

end Sys2Proof.Machine
end

section
/-! PROOFS. Retirement and spares (04, R123; 16, R433 to R435): the blocks of O34. -/
namespace Sys2Proof.Machine

variable {s t : State} {u v : Units} {k n : Nat} {a : Asm}

/- A replica without one of its cores (R123, R434). -/
/-- A core that loads. -/
def coreLoads (b : Bool) (c : CoreSt) : CoreSt := { c with loading := b }
theorem replicaOut_frame (k : Nat) (u : Units) : ∃ sl ch,
    replicaOut k u = { modCore k (coreLoads true) u with slot := sl, changes := ch } := by
  unfold replicaOut
  dsimp only
  split
  · exact ⟨u.slot, u.changes, rfl⟩
  · exact ⟨_, _, rfl⟩
/-- The replicas that are out once core k of replica rep is. -/
def outWith (rep k : Nat) (l : List (Nat × List Nat)) : List (Nat × List Nat) :=
  match l.find? (fun o => o.1 == rep) with
  | some _ => l.map (fun o => if o.1 = rep ∧ !o.2.contains k then (o.1, o.2 ++ [k]) else o)
  | none => l ++ [(rep, [k])]
theorem mem_outWith (rep k : Nat) (l : List (Nat × List Nat)) : ∃ o ∈ outWith rep k l, o.1 = rep ∧ k ∈ o.2 := by
  unfold outWith
  cases h : l.find? (fun o => o.1 == rep) with
  | none => exact ⟨(rep, [k]), List.mem_append_right _ (List.mem_singleton_self _), rfl, List.mem_singleton_self _⟩
  | some o =>
    have hrep : o.1 = rep := by simpa using List.find?_some h
    refine ⟨_, List.mem_map_of_mem (List.mem_of_find?_eq_some h), ?_⟩
    by_cases hk : k ∈ o.2
    · rw [if_neg (by simp [hk])]
      exact ⟨hrep, hk⟩
    · rw [if_pos (by simp [hk, hrep])]
      exact ⟨hrep, List.mem_append_right _ (List.mem_singleton_self _)⟩
/-- A slot with these replicas out. -/
def withOut (l : List (Nat × List Nat)) (x : Slot) : Slot := { x with out := l }
theorem replicaOut_eq (h : (coreAt u k).slot = some n) : replicaOut k u =
    recheckSoon (modSlot n (withOut (outWith (coreAt u k).rep k (slotAt u n).out)) (modCore k (coreLoads true) u)) := by
  unfold replicaOut outWith
  simp only [h]
  cases (slotAt u n).out.find? (fun o => o.1 == (coreAt u k).rep) <;> rfl
theorem slotAt_replicaOut (h : (coreAt u k).slot = some n) :
    slotAt (replicaOut k u) n = withOut (outWith (coreAt u k).rep k (slotAt u n).out) (slotAt u n) := by
  rw [replicaOut_eq h]
  exact slotAt_modSlot_self n (withOut (outWith (coreAt u k).rep k (slotAt u n).out)) (modCore k (coreLoads true) u)
theorem replicaOut_out (h : (coreAt u k).slot = some n) : ∃ o ∈ (slotAt (replicaOut k u) n).out, o.1 = (coreAt u k).rep ∧ k ∈ o.2 := by
  rw [slotAt_replicaOut h]
  exact mem_outWith ..
theorem replicaBack_frame (n k : Nat) (u : Units) : ∃ sl ch, replicaBack n k u = { u with slot := sl, changes := ch } := by
  unfold replicaBack
  extract_lets x out left w
  split
  · exact ⟨_, _, rfl⟩
  · exact ⟨_, u.changes, rfl⟩
/-- A core for which no load is left serves again. -/
theorem coreBack_frame (h : u.svc.planned = []) (k : Nat) : ∃ sl ch,
    coreBack k u = { modCore k (coreLoads false) u with slot := sl, changes := ch } := by
  have hno : stillLoading u k = false := by rw [stillLoading, h]; rfl
  unfold coreBack
  rw [hno]
  simp only [Bool.false_eq_true, if_false]
  split
  · obtain ⟨sl, ch, hb⟩ := replicaBack_frame _ k (modCore k (coreLoads false) u)
    exact ⟨sl, ch, hb⟩
  · exact ⟨u.slot, u.changes, rfl⟩

/- UNIT_RETIRE (R123, R433). -/
/-- The block as a fault retirement begins. -/
def retiring (x : RUnit) (u : Units) : Units :=
  setUnit { u with svc := { u.svc with decided := u.svc.decided.filter (· != x) } }
theorem not_mem_retiring (x : RUnit) (u : Units) : x ∉ (retiring x u).svc.decided := by
  intro h
  simp [retiring, setUnit] at h
theorem spareFree_retiring (x y : RUnit) (u : Units) : spareFree (retiring x u).svc y = spareFree u.svc y := rfl
/-- A retirement by fault at a tick edge. -/
theorem unitRetire_array {c : CoreId} (hdie : c.die.val < engineDies a) (hret : (coreAt u (coreKey c)).retired = false)
    (hedge : atEdge u = true) (e r : Fin 16) (reason : Nat) :
    unitRetire a (.array c e r) true reason u = arrayFault a c e r reason (retiring (.array c e r) u) := by
  have hgo : ¬ (engineDies a ≤ c.die ∨ (coreAt u (coreKey c)).retired = true) := by simp [hdie, hret]
  simp only [unitRetire, if_neg hgo, hedge, Bool.not_true, Bool.false_eq_true, if_false]
  rfl
theorem unitRetire_core {c : CoreId} (hdie : c.die.val < engineDies a) (hret : (coreAt u (coreKey c)).retired = false)
    (hedge : atEdge u = true) (reason : Nat) :
    unitRetire a (.core c) true reason u = coreFault a c reason (retiring (.core c) u) := by
  have hgo : ¬ (engineDies a ≤ c.die ∨ (coreAt u (coreKey c)).retired = true) := by simp [hdie, hret]
  simp only [unitRetire, if_neg hgo, hedge, Bool.not_true, Bool.false_eq_true, if_false]
  rfl
theorem planUnit_new {x : RUnit} (h : ∀ n, (x, n) ∉ u.svc.planned) (reason : Nat) :
    planUnit x reason u = { u with svc := { u.svc with planned := u.svc.planned ++ [(x, reason)] } } := by
  have hf : u.svc.planned.filter (fun p => p.1 != x) = u.svc.planned := List.filter_eq_self.mpr fun p hp => by
    obtain ⟨y, m⟩ := p
    have hne : y ≠ x := by
      rintro rfl
      exact h m hp
    simpa using hne
  rw [planUnit, hf]

theorem unitRetire_spare (s : State) (c : CoreId) (e r : Fin 16) (reason : Nat) (hdie : c.die.val < engineDies s.asm)
    (hret : (coreAt s.u (coreKey c)).retired = false) (hnew : ∀ n, (RUnit.array c e r, n) ∉ s.u.svc.planned)
    (hfree : 0 < spareFree s.u.svc (.array c e r)) (hedge : atEdge s.u = true) :
    ∃ t, exec (.unitRetire (.array c e r) true reason) s = .next t ∧
      t.u.svc.planned = s.u.svc.planned ++ [(.array c e r, reason)] ∧ (coreAt t.u (coreKey c)).loading = true ∧
      (∀ n, (coreAt s.u (coreKey c)).slot = some n →
        ∃ o, o ∈ (slotAt t.u n).out ∧ o.1 = (coreAt s.u (coreKey c)).rep ∧ coreKey c ∈ o.2) ∧
      t.u.blk.unit = true ∧ RUnit.array c e r ∉ t.u.svc.decided ∧
      (∀ k, k ≠ coreKey c → coreAt t.u k = coreAt s.u k) ∧ t.q = s.q ∧ t.m = s.m := by
  let x : RUnit := .array c e r
  let w := planUnit x reason (retiring x s.u)
  have hw : w = { retiring x s.u with svc := { (retiring x s.u).svc with planned := s.u.svc.planned ++ [(x, reason)] } } :=
    planUnit_new (u := retiring x s.u) hnew reason
  have hact : unitRetire s.asm x true reason s.u = replicaOut (coreKey c) w := by
    rw [unitRetire_array hdie hret hedge, arrayFault]
    exact if_pos (.inr hfree)
  have hout (n : Nat) (hn : (coreAt s.u (coreKey c)).slot = some n) :
      ∃ o ∈ (slotAt (replicaOut (coreKey c) w) n).out, o.1 = (coreAt s.u (coreKey c)).rep ∧ coreKey c ∈ o.2 := by
    rw [hw]
    exact replicaOut_out (u := { retiring x s.u with svc := { (retiring x s.u).svc with planned := s.u.svc.planned ++ [(x, reason)] } }) hn
  obtain ⟨sl, ch, hr⟩ := replicaOut_frame (coreKey c) w
  rw [hr] at hact hout
  rw [hw] at hact hout
  refine ⟨_, next_of_units hact, rfl, ?_, hout, rfl, not_mem_retiring x s.u, fun k hk => coreAt_modCore_other _ s.u hk, rfl, rfl⟩
  exact congrArg CoreSt.loading (coreAt_modCore (coreKey c) (coreLoads true) s.u)

/- A logical core bound to a free core (R433, R434). -/
theorem coreFree_of_head {m : Nat} (h : (freeOrder a u m).head? = some k) : coreFree a u k = true := by
  have hmem : k ∈ freeOrder a u m := List.mem_of_head? h
  obtain hm | hm := List.mem_append.mp hmem
  all_goals
    obtain ⟨-, hf⟩ := List.mem_filter.mp hm
    exact (Bool.and_eq_true_iff.mp hf).2
theorem slot_of_coreFree (h : coreFree a u k = true) : (coreAt u k).slot = none := by
  simp only [coreFree, Bool.and_eq_true, Option.isNone_iff_eq_none] at h
  obtain ⟨⟨⟨⟨-, hs⟩, -⟩, -⟩, -⟩ := h
  exact hs
theorem freeOrder_congr (h : ∀ j, coreFree a v j = coreFree a u j) (m : Nat) : freeOrder a v m = freeOrder a u m := by
  simp only [freeOrder, freeIn, h]
/-- The slot once a logical core of it has moved from a core to another. -/
def slotMoved (rep lidx old k : Nat) (x : Slot) : Slot := { x with
  bind := x.bind.map (fun b => if b.rep = rep ∧ b.lidx = lidx then { b with die := k / 16, core := k % 16 } else b)
  out := x.out.map (fun o => if o.1 = rep then (o.1, o.2.filter (· != old) ++ [k]) else o)
  wanting := x.wanting.filter (· != (rep, lidx)) }
theorem replaceCore_binds {rep lidx : Nat} (h : (freeOrder a u (slotAt u n).dieMask).head? = some k) (old reason : Nat) :
    ∃ v, replaceCore a n rep lidx old reason u = v ∧ v.blk = u.blk ∧ slotAt v n = slotMoved rep lidx old k (slotAt u n) ∧
      (coreAt v k).slot = some n ∧ (coreAt v k).rep = rep ∧ (coreAt v k).lidx = lidx ∧ (coreAt v k).loading = true ∧
      ∀ j, j ≠ k → coreAt v j = coreAt u j := by
  let ent := repairEnt a u (.core ⟨Fin.ofNat 26 (old / 16), Fin.ofNat 16 old⟩) 1 reason (k / 16 * 256 + (coreAt u k).phys.getD (k % 16))
  let w := repairAdd ent (modSlot n (slotMoved rep lidx old k) (bindCore n rep lidx k u))
  have hact : replaceCore a n rep lidx old reason u = fwNotice 8 0x0A03 0 ([n, rep] ++ repairArgs ent) w := by
    simp only [replaceCore, h]
    rfl
  have hf := fwNotice_frame 8 0x0A03 0 ([n, rep] ++ repairArgs ent) w
  rw [← hact] at hf
  obtain ⟨-, -, -, -, hcore, hslot, -, -, -, -, -, hblk, -⟩ := noticeFrame_keeps hf
  let f := fun c : CoreSt => { c with slot := some n, rep := rep, lidx := lidx, loading := true }
  have hk : coreAt w k = f (coreAt u k) := coreAt_modCore k f u
  refine ⟨_, rfl, hblk, ?_, ?_, ?_, ?_, ?_, fun j hj => ?_⟩
  · rw [slotAt, hslot]
    exact slotAt_modSlot_self n (slotMoved rep lidx old k) (bindCore n rep lidx k u)
  · rw [coreAt_of_core_eq hcore, hk]
  · rw [coreAt_of_core_eq hcore, hk]
  · rw [coreAt_of_core_eq hcore, hk]
  · rw [coreAt_of_core_eq hcore, hk]
  · rw [coreAt_of_core_eq hcore]
    exact coreAt_modCore_other f u hj

/-- The notice of a core that leaves service for want of a spare, its replica out. -/
def coreOut (a : Asm) (c : CoreId) (reason : Nat) (u : Units) : Units := noSpare a (.core c) reason true (replicaOut (coreKey c) u)
/-- A core retired. -/
def coreRetired (c : CoreSt) : CoreSt := { unbound c with retired := true }
theorem coreOut_keeps {c : CoreId} (h : (coreAt u (coreKey c)).slot = some n) (reason : Nat) :
    (coreOut a c reason u).blk = u.blk ∧ (coreOut a c reason u).temper = u.temper ∧
    (slotAt (coreOut a c reason u) n).dieMask = (slotAt u n).dieMask ∧ ∀ j, j ≠ coreKey c → coreAt (coreOut a c reason u) j = coreAt u j := by
  have hs := slotAt_replicaOut h
  obtain ⟨sl, ch, hr⟩ := replicaOut_frame (coreKey c) u
  have hf : noticeFrame (repairAdd (repairEnt a (replicaOut (coreKey c) u) (.core c) 2 reason 0) (replicaOut (coreKey c) u))
      (coreOut a c reason u) := fwNotice_frame ..
  generalize coreOut a c reason u = w at hf
  generalize repairEnt a (replicaOut (coreKey c) u) (.core c) 2 reason 0 = ent at hf
  rw [hr] at hf hs
  obtain ⟨-, -, -, -, hcore, hslot, -, -, -, -, -, hblk, htmp, -⟩ := noticeFrame_keeps hf
  refine ⟨hblk, htmp, ?_, fun j hj => (coreAt_of_core_eq hcore j).trans (coreAt_modCore_other (coreLoads true) u hj)⟩
  rw [slotAt, hslot]
  exact (congrArg Slot.dieMask hs :)
theorem coreGone_eq {c : CoreId} (h : (coreAt u (coreKey c)).slot = some n) (htemper : u.temper = []) (reason : Nat) :
    coreGone a c reason u = replaceCore a n (coreAt u (coreKey c)).rep (coreAt u (coreKey c)).lidx (coreKey c) reason
      (modCore (coreKey c) coreRetired (coreOut a c reason u)) := by
  have hgone : temperCoreGone (coreKey c) (some n) (coreAt u (coreKey c)).lidx (coreOut a c reason u) = coreOut a c reason u := by
    obtain ⟨-, htmp, -⟩ := coreOut_keeps (a := a) h reason
    rw [temperCoreGone, htmp, htemper]
    rfl
  have htwice : modCore (coreKey c) (fun c => { c with retired := true }) (unbindCore (coreKey c) (coreOut a c reason u)) =
      modCore (coreKey c) coreRetired (coreOut a c reason u) := by
    have hk : coreAt (unbindCore (coreKey c) (coreOut a c reason u)) (coreKey c) = unbound (coreAt (coreOut a c reason u) (coreKey c)) :=
      coreAt_modCore (coreKey c) unbound (coreOut a c reason u)
    rw [modCore, hk, unbindCore, modCore, setCore, setCore, tset_tset]
    rfl
  rw [coreOut] at hgone htwice ⊢
  simp only [coreGone, h, hgone, htwice]

theorem coreFree_congr {j : Nat} (hc : coreAt v j = coreAt u j) (ht : v.temper = u.temper) : coreFree a v j = coreFree a u j := by
  simp only [coreFree, temperHolds, hc, ht]
theorem coreFree_of_slot (h : (coreAt u k).slot = some n) : coreFree a u k = false := by
  simp [coreFree, h]
theorem coreFree_of_retired (h : (coreAt u k).retired = true) : coreFree a u k = false := by
  simp [coreFree, h]

theorem unitRetire_moves (s : State) (c : CoreId) (reason n k : Nat) (hdie : c.die.val < engineDies s.asm)
    (hret : (coreAt s.u (coreKey c)).retired = false) (hplanned : s.u.svc.planned = []) (hnone : spareFree s.u.svc (.core c) = 0)
    (htemper : s.u.temper = []) (hslot : (coreAt s.u (coreKey c)).slot = some n)
    (hfree : (freeOrder s.asm s.u (slotAt s.u n).dieMask).head? = some k) (hedge : atEdge s.u = true) :
    ∃ t, exec (.unitRetire (.core c) true reason) s = .next t ∧ (coreAt t.u (coreKey c)).retired = true ∧
      (coreAt t.u (coreKey c)).slot = none ∧ (coreAt t.u k).slot = some n ∧
      (coreAt t.u k).rep = (coreAt s.u (coreKey c)).rep ∧ (coreAt t.u k).lidx = (coreAt s.u (coreKey c)).lidx ∧
      (coreAt t.u k).loading = true ∧ (∀ j, j ≠ k → j ≠ coreKey c → coreAt t.u j = coreAt s.u j) ∧
      t.u.blk.unit = true ∧ t.q = s.q ∧ t.m = s.m := by
  let w := retiring (.core c) s.u
  obtain ⟨hblk, htmp, hmask, hkept⟩ := coreOut_keeps (u := w) (a := s.asm) hslot reason
  have hgone := coreGone_eq (u := w) (a := s.asm) hslot htemper reason
  let v := modCore (coreKey c) coreRetired (coreOut s.asm c reason w)
  have hv : coreAt v (coreKey c) = coreRetired (coreAt (coreOut s.asm c reason w) (coreKey c)) := coreAt_modCore ..
  have hvret : (coreAt v (coreKey c)).retired = true := by rw [hv]; rfl
  have hvslot : (coreAt v (coreKey c)).slot = none := by rw [hv]; rfl
  have hother (j : Nat) (hj : j ≠ coreKey c) : coreAt v j = coreAt s.u j := (coreAt_modCore_other coreRetired _ hj).trans (hkept j hj)
  have hcoreFree (j : Nat) : coreFree s.asm v j = coreFree s.asm s.u j := by
    by_cases hj : j = coreKey c
    · rw [hj, coreFree_of_retired hvret, coreFree_of_slot hslot]
    · exact coreFree_congr (hother j hj) htmp
  have hhead : (freeOrder s.asm v (slotAt v n).dieMask).head? = some k := by
    rw [freeOrder_congr hcoreFree]
    exact (congrArg (fun m => (freeOrder s.asm s.u m).head?) hmask).trans hfree
  obtain ⟨x, hx, hxblk, -, hs, hrep, hlidx, hload, hj⟩ := replaceCore_binds (rep := (coreAt s.u (coreKey c)).rep)
    (lidx := (coreAt s.u (coreKey c)).lidx) hhead (coreKey c) reason
  have hne : coreKey c ≠ k := by
    rintro rfl
    rw [slot_of_coreFree (coreFree_of_head hfree)] at hslot
    cases hslot
  have hact : unitRetire s.asm (.core c) true reason s.u = x := by
    have hgo : ¬ (w.svc.planned.any (fun p => p.1 == .core c) = true ∨ 0 < spareFree w.svc (.core c)) := by
      rintro (h | h)
      · rw [show w.svc.planned = [] from hplanned] at h
        cases h
      · rw [show spareFree w.svc (.core c) = 0 from hnone] at h
        cases h
    rw [unitRetire_core hdie hret hedge, coreFault]
    exact (if_neg hgo).trans (hgone.trans hx)
  refine ⟨_, next_of_units hact, ?_, ?_, hs, hrep, hlidx, hload, fun j hjk hjc => (hj j hjk).trans (hother j hjc), ?_, rfl, rfl⟩
  · show (coreAt x (coreKey c)).retired = true
    rw [hj _ hne]
    exact hvret
  · show (coreAt x (coreKey c)).slot = none
    rw [hj _ hne]
    exact hvslot
  · show x.blk.unit = true
    rw [hxblk]
    exact congrArg Blk.unit hblk

/- SPARE_TAKEOVER (R123, R433, R435). -/
/-- The block with no load of a spare left. -/
def noneLoads (u : Units) : Units := { u with svc := { u.svc with planned := [] } }
theorem dropped {x : RUnit} {reason : Nat} (h : u.svc.planned = [(x, reason)]) :
    ({ u with svc := { u.svc with planned := u.svc.planned.filter (fun p => p.1 != x) } } : Units) = noneLoads u := by
  rw [h, List.filter_cons_of_neg (by simp)]
  rfl
theorem found {x : RUnit} {reason : Nat} (h : u.svc.planned = [(x, reason)]) :
    u.svc.planned.find? (fun p => p.1 == x) = some (x, reason) := by
  rw [h]
  exact List.find?_cons_of_pos (by simp)
theorem spareTaken_keeps (a : Asm) (x : RUnit) (reason aux : Nat) (u : Units) : (spareTaken a x reason aux u).core = u.core ∧
    (spareTaken a x reason aux u).slot = u.slot ∧ (spareTaken a x reason aux u).blk = u.blk ∧
    (spareTaken a x reason aux u).svc = { u.svc with
      spares := u.svc.spares ++ [spareGroup x], repair := u.svc.repair ++ [repairEnt a u x 0 reason aux] } := by
  obtain ⟨-, -, hsvc, -, hcore, hslot, -, -, -, -, -, hblk, -⟩ := noticeFrame_keeps
    (fwNotice_frame 8 0x0A01 0 (repairArgs (repairEnt a u x 0 reason aux)) (repairAdd (repairEnt a u x 0 reason aux) (spareUse x u)))
  exact ⟨hcore, hslot, hblk, hsvc⟩
theorem loadFailed_keeps (a : Asm) (k addr : Nat) (u : Units) : noticeFrame u (loadFailed a k addr u) := by
  unfold loadFailed
  split
  · exact notice_frame ..
  · exact noticeFrame_refl u

/-- An engine one of whose arrays its spare has replaced. -/
def engTaken (cells : Tbl Nat) (r : Nat) (g : Eng) : Eng := { g with
  w := { g.w with cells := cells }, check := tmap cells (fun _ v => Config.rowCheck v), swept := g.swept.filter (fun x => x / 1024 != r)
  spareFor := some r, marked := g.marked.filter (· != r), scrubbed := g.scrubbed.filter (fun s => s.1 / 1024 != r) }
theorem arrayTakeover_eq {c : CoreId} {reason : Nat} (hne : reason ≠ 1) (e r : Fin 16) (u : Units) : arrayTakeover a c e r reason u =
    coreBack (coreKey c) (onEng (coreKey c) e (engTaken (shadowArray u (coreKey c) e r (engOf u (coreKey c) e).w.cells) r)
      (setUnit (spareTaken a (.array c e r) reason 16 u))) :=
  if_neg hne

theorem spareTakeover_array (s : State) (c : CoreId) (e r : Fin 16) (reason : Nat) (hp : s.u.svc.planned = [(.array c e r, reason)])
    (hne : reason ≠ 1) (hedge : atEdge s.u = true) (hgood : loadPoisoned s.asm s.u (coreKey c) (some (e.val, r.val)) = none) :
    ∃ t, exec (.spareTakeover (.array c e r)) s = .next t ∧ t.u.svc.planned = [] ∧
      (engOf t.u (coreKey c) e).spareFor = some r.val ∧ r.val ∉ (engOf t.u (coreKey c) e).marked ∧
      (coreAt t.u (coreKey c)).loading = false ∧ t.u.svc.spares = s.u.svc.spares ++ [spareGroup (.array c e r)] ∧
      (∀ k, k ≠ coreKey c → coreAt t.u k = coreAt s.u k) ∧ t.q = s.q ∧ t.m = s.m := by
  let k := coreKey c
  let f := engTaken (shadowArray (noneLoads s.u) k e r (engOf (noneLoads s.u) k e).w.cells) r
  let w := setUnit (spareTaken s.asm (.array c e r) reason 16 (noneLoads s.u))
  obtain ⟨hcore, -, -, hsvc⟩ := spareTaken_keeps s.asm (.array c e r) reason 16 (noneLoads s.u)
  obtain ⟨sl, ch, hb⟩ := coreBack_frame (u := onEng k e f w) (congrArg Svc.planned hsvc) k
  have hact : spareTakeover s.asm (.array c e r) s = { s with u := coreBack k (onEng k e f w) } := by
    unfold spareTakeover
    simp only [found hp, hgood, dropped hp, arrayTakeover_eq hne]
    rfl
  have hx : coreAt (modCore k (coreLoads false) (onEng k e f w)) k = coreLoads false (modEng e f (coreAt w k)) :=
    (coreAt_modCore k (coreLoads false) _).trans (congrArg (coreLoads false) (coreAt_modCore k (modEng e f) w))
  have heng : engOf (modCore k (coreLoads false) (onEng k e f w)) k e = f (engAt (coreAt w k) e) :=
    (congrArg (fun x => engAt x e.val) hx).trans (engAt_modEng_self ..)
  rw [hb] at hact
  refine ⟨_, congrArg Host.Outcome.next ((if_pos hedge).trans hact), congrArg Svc.planned hsvc, (congrArg Eng.spareFor heng :), ?_,
    (congrArg CoreSt.loading hx :), congrArg Svc.spares hsvc, fun j hj => ?_, rfl, rfl⟩
  · show r.val ∉ (engOf (modCore k (coreLoads false) (onEng k e f w)) k e).marked
    rw [heng]
    simp [f, engTaken]
  · exact (coreAt_modCore_other _ _ hj).trans ((coreAt_onEng_other e f w hj).trans (coreAt_of_core_eq hcore j))

theorem spareTakeover_poisoned (s : State) (c : CoreId) (e r : Fin 16) (reason addr : Nat)
    (hp : s.u.svc.planned = [(.array c e r, reason)])
    (hbad : loadPoisoned s.asm s.u (coreKey c) (some (e.val, r.val)) = some addr) (hedge : atEdge s.u = true) :
    ∃ t, exec (.spareTakeover (.array c e r)) s = .next t ∧ t.u.svc.planned = [] ∧ t.u.core = s.u.core ∧
      t.u.svc.spares = s.u.svc.spares ∧ t.q = s.q ∧ t.m = s.m := by
  have hact : spareTakeover s.asm (.array c e r) s = { s with u := loadFailed s.asm (coreKey c) addr (noneLoads s.u) } := by
    unfold spareTakeover
    simp only [found hp, hbad, dropped hp]
  obtain ⟨-, -, hsvc, -, hcore, -⟩ := noticeFrame_keeps (loadFailed_keeps s.asm (coreKey c) addr (noneLoads s.u))
  exact ⟨_, congrArg Host.Outcome.next ((if_pos hedge).trans hact), congrArg Svc.planned hsvc, hcore, (congrArg Svc.spares hsvc :), rfl, rfl⟩

/-- A spare core in its place, its arrays and its SRAM still without what the image gives. -/
def spareCore (c : CoreSt) : CoreSt := { c with
  phys := some 16, pois := []
  eng := tmap c.eng (fun _ g => { g with spareFor := none, marked := [], scrubbed := [], swept := [] }) }
/-- The spares in use once a core's spare has replaced it with its arrays. -/
def spareCoreTaken (a : Asm) (c : CoreId) (reason : Nat) (u : Units) : Units :=
  let w := setUnit (spareTaken a (.core c) reason 16 u)
  { w with svc := { w.svc with spares := w.svc.spares.filter (fun g => !(g.1 == 1 && g.2 / 16 == coreKey c)) } }
theorem coreTakeover_eq {c : CoreId} {reason : Nat} (hne : reason ≠ 1) (s : State) : coreTakeover a c reason s =
    onUnits (coreBack (coreKey c)) (coreLoaded (coreKey c) { s with
      u := modCore (coreKey c) spareCore (spareCoreTaken a c reason s.u), m := { s.m with sram := tset s.m.sram (coreKey c) [] } }) :=
  if_neg hne

theorem phys_coreLoaded (k : Nat) (s : State) : (coreAt (coreLoaded k s).u k).phys = (coreAt s.u k).phys := by
  cases h : (coreAt s.u k).slot with
  | none => rw [coreLoaded_none h]
  | some n =>
    rw [coreLoaded_eq h]
    unfold dataLoaded
    split
    · rw [coreAt_setCore]
      rfl
    · rw [sramWrite, coreAt_modCore, coreAt_setCore]
      rfl

theorem spareTakeover_core (s : State) (c : CoreId) (n reason : Nat) (hp : s.u.svc.planned = [(.core c, reason)]) (hne : reason ≠ 1)
    (hedge : atEdge s.u = true) (hgood : loadPoisoned s.asm s.u (coreKey c) none = none)
    (hslot : (coreAt s.u (coreKey c)).slot = some n) :
    ∃ t, exec (.spareTakeover (.core c)) s = .next t ∧ t.u.svc.planned = [] ∧ (coreAt t.u (coreKey c)).phys = some 16 ∧
      (coreAt t.u (coreKey c)).loading = false ∧
      (∀ e, e < 16 → (engOf t.u (coreKey c) e).w =
        imgWeights (slotAt s.u n).img (slotAt s.u n).imgLen (coreAt s.u (coreKey c)).lidx e) ∧
      (∀ k, k ≠ coreKey c → coreAt t.u k = coreAt s.u k ∧ sramOf t k = sramOf s k) ∧ t.q = s.q ∧ t.m.t1 = s.m.t1 ∧
      t.m.t2 = s.m.t2 := by
  let k := coreKey c
  let w := spareCoreTaken s.asm c reason (noneLoads s.u)
  let s' : State := { s with u := modCore k spareCore w, m := { s.m with sram := tset s.m.sram k [] } }
  obtain ⟨hcore, hsl, -, hsvc⟩ := spareTaken_keeps s.asm (.core c) reason 16 (noneLoads s.u)
  have hw (j : Nat) : coreAt w j = coreAt s.u j := coreAt_of_core_eq hcore j
  have hk : coreAt s'.u k = spareCore (coreAt s.u k) := (coreAt_modCore k spareCore w).trans (congrArg spareCore (hw k))
  have hs' : (coreAt s'.u k).slot = some n := by rw [hk]; exact hslot
  have hslots : slotAt s'.u n = slotAt s.u n := congrArg (fun t => tgetD t n ({} : Slot)) hsl
  have hloaded : Loaded (slotAt s.u n) n (coreAt s.u k).lidx (coreAt (coreLoaded k s').u k) := by
    have h := loaded_coreLoaded hs'
    rw [hslots, hk] at h
    exact h
  have hplanned : s'.u.svc.planned = [] := congrArg Svc.planned hsvc
  have hact : spareTakeover s.asm (.core c) s = onUnits (coreBack k) (coreLoaded k s') := by
    unfold spareTakeover
    simp only [found hp, hgood, dropped hp, coreTakeover_eq hne]
    rfl
  have hphys : (coreAt (coreLoaded k s').u k).phys = some 16 := by rw [phys_coreLoaded, hk]; rfl
  have hother (j : Nat) (hj : j ≠ k) := coreLoaded_other hj s'
  have hframe := coresFrame_coreLoaded k s'
  generalize coreLoaded k s' = r at hact hphys hother hframe hloaded
  obtain ⟨d, m, rfl⟩ := hframe
  obtain ⟨sl, ch, hb⟩ := coreBack_frame (u := { s'.u with core := d }) hplanned k
  have hx : coreAt (modCore k (coreLoads false) { s'.u with core := d }) k = coreLoads false (coreAt { s'.u with core := d } k) :=
    coreAt_modCore ..
  refine ⟨_, congrArg Host.Outcome.next ((if_pos hedge).trans (hact.trans (congrArg (fun u => ({ s with u := u, m := { s'.m with sram := m } } : State)) hb))),
    hplanned, ?_, (congrArg CoreSt.loading hx :), fun e he => ?_, fun j hj => ⟨?_, ?_⟩, rfl, rfl, rfl⟩
  · exact (congrArg CoreSt.phys hx).trans hphys
  · obtain ⟨-, -, -, hwt, -⟩ := hloaded
    exact (congrArg (fun x => (engAt x e).w) hx).trans (hwt e he)
  · exact (coreAt_modCore_other _ _ hj).trans ((hother j hj).1.trans ((coreAt_modCore_other spareCore w hj).trans (hw j)))
  · exact (hother j hj).2.trans (tgetD_tset_other _ _ _ hj)

/- REPLACE_RETRY (R434). -/
theorem replaceRetry_binds (s : State) (n : Fin 32) (rep lidx k : Nat) (b : Binding) (hw : (slotAt s.u n).wanting = [(rep, lidx)])
    (hb : (slotAt s.u n).bind.find? (fun b => b.rep == rep && b.lidx == lidx) = some b)
    (hfree : (freeOrder s.asm s.u (slotAt s.u n).dieMask).head? = some k) :
    ∃ t, exec (.replaceRetry n) s = .next t ∧ (slotAt t.u n).wanting = [] ∧ (coreAt t.u k).slot = some n.val ∧
      (coreAt t.u k).rep = rep ∧ (coreAt t.u k).lidx = lidx ∧ (coreAt t.u k).loading = true ∧
      (∀ j, j ≠ k → coreAt t.u j = coreAt s.u j) ∧ t.q = s.q ∧ t.m = s.m := by
  let ent := s.u.svc.repair.reverse.find? (fun r => r.kind == 2 && r.state == 2 && r.die == b.die && r.pos == b.core)
  have hne : (freeOrder s.asm s.u (slotAt s.u n).dieMask).isEmpty = false := by
    cases h : freeOrder s.asm s.u (slotAt s.u n).dieMask with
    | nil => rw [h] at hfree; cases hfree
    | cons x l => rfl
  obtain ⟨v, hv, -, hslot, hs, hrep, hlidx, hload, hother⟩ :=
    replaceCore_binds (rep := rep) (lidx := lidx) hfree (bindKey b) ((ent.map (·.reason)).getD 6)
  have hact : replaceRetry s.asm n s.u = v := by
    rw [← hv]
    unfold replaceRetry forAll
    rw [hw, List.foldl_cons, List.foldl_nil]
    simp only [hb, hne, Bool.false_eq_true, if_false]
    rfl
  refine ⟨_, next_of_units hact, ?_, hs, hrep, hlidx, hload, hother, rfl, rfl⟩
  refine (congrArg Slot.wanting hslot).trans ?_
  simp [slotMoved, hw]

theorem replaceRetry_still (s : State) (n : Fin 32) (h : freeOrder s.asm s.u (slotAt s.u n).dieMask = []) :
    exec (.replaceRetry n) s = .next s := by
  refine next_of_units (v := s.u) ?_
  unfold replaceRetry forAll
  refine foldl_keeps (· = s.u) _ _ _ rfl fun v w hv => ?_
  subst hv
  dsimp only
  split
  · rfl
  · exact if_pos (by rw [h]; rfl)

/-- Settles O34: a fault at an edge by what it finds free; a takeover by the load that ends. -/
theorem retirementAndSpares : Obligations.RetirementAndSpares := by
  refine ⟨unitRetire_spare, ?decided, ?planned, unitRetire_moves, spareTakeover_array, spareTakeover_poisoned, spareTakeover_core,
    replaceRetry_binds, replaceRetry_still, ?between⟩
  case decided =>
    intro s c e r reason hdie hret hedge
    have hgo : ¬ (engineDies s.asm ≤ c.die ∨ (coreAt s.u (coreKey c)).retired = true) := by simp [hdie, hret]
    constructor
    all_goals
      refine next_of_units ?_
      simp only [unitRetire, if_neg hgo, hedge, Bool.not_true, Bool.not_false, Bool.false_eq_true, if_false, if_true]
  case planned =>
    intro s c n hdie hret hfree hp
    have hgo : ¬ (engineDies s.asm ≤ c.die ∨ (coreAt s.u (coreKey c)).retired = true) := by simp [hdie, hret]
    have hgo' : ¬ (([] : List (RUnit × Nat)).any (fun p => p.1 == .core c) = true ∨ spareFree s.u.svc (.core c) = 0) := by
      simp
      omega
    refine next_of_units ?_
    simp only [unitRetire, if_neg hgo, hp, if_neg hgo', Bool.not_false, if_true, planUnit]
    rfl
  case between =>
    intro s x h
    refine congrArg Host.Outcome.next ?_
    rw [h]
    rfl

end Sys2Proof.Machine
end

section
/-! PROOFS. Wear, channels, rows and lanes (16, R431, R432, R436 to R440): the blocks of O35. -/
namespace Sys2Proof.Machine

variable {s t : State} {u v : Units} {a : Asm} {x : RUnit}

/- WEAR_CHECK (R431, R432). -/
/-- The unit's counts after a reading join those of the others. -/
def wearNoted (x : RUnit) (w : Wear) (u : Units) : Units :=
  { u with svc := { u.svc with wear := u.svc.wear.filter (fun e => e.1 != x) ++ [(x, w)] } }
/-- A fault level reached is decided once. -/
def wearJudged (b : Bool) (x : RUnit) (u : Units) : Units :=
  if b && !u.svc.decided.contains x then { u with svc := { u.svc with decided := u.svc.decided ++ [x] } } else u
theorem wearCheck_eq {r : WearIn} {w : Wear} (hrole : roleRuns u 8 = true) (hfit : unitFitted a x = true)
    (hw : w = wearCount u x r (((u.svc.wear.find? (fun e => e.1 == x)).map (·.2)).getD {})) (failed : Bool) :
    wearCheck a x (wearRow x) r failed u = wearJudged (wearFaults x w failed) x
      (if wearPlans x r w then wearPlanned a x (wearRow x) (wearNoted x w u) else wearNoted x w u) := by
  have hgo : ¬ ((!roleRuns u 8) = true ∨ (!unitFitted a x) = true ∨ wearRow x ≠ wearRow x) := by simp [hrole, hfit]
  subst hw
  exact if_neg hgo

theorem wearCheck_plans (s : State) (c : CoreId) (r : WearIn) (w : Wear) (hrole : roleRuns s.u 8 = true)
    (hfit : unitFitted s.asm (.core c) = true)
    (hw : w = wearCount s.u (.core c) r (((s.u.svc.wear.find? (fun e => e.1 == RUnit.core c)).map (·.2)).getD {}))
    (hplan : wearPlans (.core c) r w = true) (hfault : wearFaults (.core c) w false = false)
    (hnew : (RUnit.core c, 2) ∉ s.u.svc.warned) (hp : s.u.svc.planned = []) (hfree : 0 < spareFree s.u.svc (.core c)) :
    ∃ t, exec (.wearCheck (.core c) 2 r false) s = .next t ∧ t.u.svc.planned = [(.core c, 1)] ∧
      t.u.svc.warned = s.u.svc.warned ++ [(.core c, 2)] ∧
      t.u.prodN = (fwNotice 8 0x0A05 0 [unitLoc s.asm (.core c), 2] s.u).prodN ∧ t.u.core = s.u.core ∧ t.q = s.q ∧ t.m = s.m := by
  let y := wearNoted (.core c) w s.u
  let y' : Units := { y with svc := { y.svc with warned := y.svc.warned ++ [(.core c, 2)] } }
  let z := fwNotice 8 0x0A05 0 [unitLoc s.asm (.core c), 2] y'
  obtain ⟨-, -, hsvc, -, hcore, -⟩ := noticeFrame_keeps (fwNotice_frame 8 0x0A05 0 [unitLoc s.asm (.core c), 2] y')
  have hzsvc : z.svc = y'.svc := hsvc
  have hzp : z.svc.planned = [] := by rw [hzsvc]; exact hp
  have hzfree : ¬ spareFree z.svc (.core c) = 0 := by
    rw [hzsvc]
    exact Nat.pos_iff_ne_zero.mp hfree
  have hact : wearPlanned s.asm (.core c) 2 y = { z with svc := { z.svc with planned := [(.core c, 1)] } } := by
    have hno : ¬ y.svc.warned.contains (RUnit.core c, 2) = true := by
      rw [List.contains_iff_mem]
      exact hnew
    have hany : ¬ z.svc.planned.any (fun p => p.1 == .core c) = true := by rw [hzp]; exact Bool.false_ne_true
    refine (if_neg hno).trans ((if_neg hzfree).trans ((if_neg hany).trans ?_))
    show ({ z with svc := { z.svc with planned := z.svc.planned ++ [(.core c, 1)] } } : Units) = _
    rw [hzp]
    rfl
  have hall : wearCheck s.asm (.core c) 2 r false s.u = { z with svc := { z.svc with planned := [(.core c, 1)] } } := by
    refine (wearCheck_eq (x := .core c) hrole hfit hw false).trans ?_
    rw [hplan, if_pos rfl]
    refine (congrArg (wearJudged (wearFaults (.core c) w false) (.core c)) hact).trans ?_
    rw [hfault]
    rfl
  refine ⟨_, next_of_units hall, rfl, congrArg Svc.warned hzsvc, ?_, hcore, rfl, rfl⟩
  show (fwNotice _ _ _ _ _).prodN = (fwNotice _ _ _ _ _).prodN
  rw [fwNotice, fwNotice, notice_prodN, notice_prodN]
  rfl

/- ROW_REPAIR (R438). -/
/-- Units poisoned as their row is repaired. -/
def unitsPoisoned (l : List Nat) (u : Units) : Units :=
  { u with tier := { u.tier with pois1 := u.tier.pois1 ++ l.filter (fun k => !u.tier.pois1.contains k) } }
theorem mem_unitsPoisoned {l : List Nat} {k : Nat} (h : k ∈ l) (u : Units) : k ∈ (unitsPoisoned l u).tier.pois1 := by
  by_cases hk : k ∈ u.tier.pois1
  · exact List.mem_append_left _ hk
  · exact List.mem_append_right _ (List.mem_filter.mpr ⟨h, by simpa using hk⟩)
theorem rowRepair_goes {st : Fin 12} {ch : Fin 16} {bank row : Nat} (hst : st.val < nStacks a)
    (hfree : 0 < spareFree u.svc (.row st ch bank row)) (hp : u.svc.planned = []) (hw : u.svc.rowWait = []) (l : List Nat) :
    rowRepair a st ch bank row l u = if running u then
      { unitsPoisoned l u with svc := { u.svc with rowWait := [(.row st ch bank row, row, false)] } }
      else rowRemap a (.row st ch bank row, row, false) (unitsPoisoned l u) := by
  have hgo : ¬ (nStacks a ≤ st ∨ spareFree u.svc (.row st ch bank row) = 0 ∨
      ([] : List (RUnit × Nat × Bool)).any (fun w => w.1 == .row st ch bank row) = true) := by
    simp
    omega
  unfold rowRepair
  simp only [hp, hw, if_neg hgo]
  rfl

/-- A row of the map that waits and is judged no more. -/
def rowGone (x : RUnit) (u : Units) : Units := { u with svc := { u.svc with
  rowsUsed := tset u.svc.rowsUsed (spareGroup x).2 (tgetD u.svc.rowsUsed (spareGroup x).2 0 + 1)
  planned := u.svc.planned.filter (fun p => p.1 != x), decided := u.svc.decided.filter (fun y => y != x) } }
theorem rowRemap_eq {row : Nat} {planned : Bool} (h : 0 < spareFree u.svc x) : ∃ d, rowRemap a (x, row, planned) u =
    dieBump d 0x64 1 (rowGone x (spareTaken a x (if planned then 1 else 4) row u)) :=
  ⟨_, if_neg (Nat.pos_iff_ne_zero.mp h)⟩
/-- A row's remap: its entry, its spare and its decision (R438). -/
theorem rowRemap_keeps {row : Nat} {planned : Bool} (h : 0 < spareFree u.svc x) : (rowRemap a (x, row, planned) u).core = u.core ∧
    (rowRemap a (x, row, planned) u).tier = u.tier ∧
    (rowRemap a (x, row, planned) u).svc = (rowGone x { u with svc := { u.svc with
      spares := u.svc.spares ++ [spareGroup x]
      repair := u.svc.repair ++ [repairEnt a u x 0 (if planned then 1 else 4) row] } }).svc := by
  obtain ⟨d, hd⟩ := rowRemap_eq (a := a) (row := row) (planned := planned) h
  obtain ⟨-, -, hsvc, -, hcore, -, -, -, htier, -⟩ := noticeFrame_keeps (fwNotice_frame 8 0x0A01 0
    (repairArgs (repairEnt a u x 0 (if planned then 1 else 4) row)) (repairAdd (repairEnt a u x 0 (if planned then 1 else 4) row) (spareUse x u)))
  rw [hd, dieBump_eq]
  refine ⟨hcore, htier, ?_⟩
  show (rowGone x (spareTaken a x (if planned then 1 else 4) row u)).svc = _
  rw [rowGone, rowGone]
  rw [show (spareTaken a x (if planned then 1 else 4) row u).svc = _ from hsvc]
  rfl

theorem rowRepair_remaps (s : State) (st : Fin 12) (ch : Fin 16) (bank row : Nat) (l : List Nat) (hst : st.val < nStacks s.asm)
    (hfree : 0 < spareFree s.u.svc (.row st ch bank row)) (hp : s.u.svc.planned = []) (hw : s.u.svc.rowWait = [])
    (hrun : running s.u = false) :
    ∃ t, exec (.rowRepair st ch bank row l) s = .next t ∧ (∀ k, k ∈ l → k ∈ t.u.tier.pois1) ∧
      t.u.svc.repair = s.u.svc.repair ++ [repairEnt s.asm s.u (.row st ch bank row) 0 4 row] ∧
      t.u.svc.spares = s.u.svc.spares ++ [spareGroup (.row st ch bank row)] ∧ RUnit.row st ch bank row ∉ t.u.svc.decided ∧
      t.u.core = s.u.core ∧ t.q = s.q ∧ t.m = s.m := by
  have hact := rowRepair_goes (u := s.u) hst hfree hp hw l
  rw [hrun] at hact
  obtain ⟨hcore, htier, hsvc⟩ := rowRemap_keeps (a := s.asm) (u := unitsPoisoned l s.u) (row := row) (planned := false) hfree
  refine ⟨_, next_of_units hact, fun k hk => ?_, ?_, ?_, fun hm => ?_, hcore, rfl, rfl⟩
  · show k ∈ (rowRemap _ _ _).tier.pois1
    rw [htier]
    exact mem_unitsPoisoned hk s.u
  · exact (congrArg Svc.repair hsvc :)
  · exact (congrArg Svc.spares hsvc :)
  · replace hm : _ ∈ (rowRemap s.asm (.row st ch bank row, row, false) (unitsPoisoned l s.u)).svc.decided := hm
    rw [hsvc] at hm
    simp [rowGone] at hm

/-- What becomes of the channels at an edge, the rows done. -/
def chanDone (a : Asm) (u : Units) : Units :=
  forAll (u.svc.copyDone.filter (fun k => !u.svc.chanFault.contains k)) (fun k u => copyEnd a k (spareTaken a (chanUnit k) 1 16 u))
    (forAll u.svc.chanFault (fun k u => setUnit (copyEnd a k (chanLoss a k (spareTaken a (chanUnit k) 8 16 u)))) u)
theorem chanEdge_eq (a : Asm) (u : Units) : chanEdge a u =
    chanDone a (forAll u.svc.rowWait (rowRemap a) { u with svc := { u.svc with rowWait := [] } }) := rfl
theorem chanDone_none (hf : u.svc.chanFault = []) (hc : u.svc.copyDone = []) : chanDone a u = u := by
  rw [chanDone, hf, hc]
  rfl
/-- A row that waits is remapped at the edge (R438). -/
theorem chanEdge_remaps (a : Asm) (u : Units) (x : RUnit) (row : Nat) (hw : u.svc.rowWait = [(x, row, false)])
    (hf : u.svc.chanFault = []) (hc : u.svc.copyDone = []) (hfree : 0 < spareFree u.svc x) :
    (chanEdge a u).svc.rowWait = [] ∧ (chanEdge a u).svc.repair = u.svc.repair ++ [repairEnt a u x 0 4 row] ∧
      (chanEdge a u).svc.spares = u.svc.spares ++ [spareGroup x] ∧ (chanEdge a u).tier = u.tier := by
  let v : Units := { u with svc := { u.svc with rowWait := [] } }
  obtain ⟨-, htier, hsvc⟩ := rowRemap_keeps (a := a) (u := v) (row := row) (planned := false) hfree
  have hent : repairEnt a v x 0 4 row = repairEnt a u x 0 4 row := by cases x <;> rfl
  have hact : chanEdge a u = rowRemap a (x, row, false) v := by
    have hf' : (rowRemap a (x, row, false) v).svc.chanFault = [] := by rw [hsvc]; exact hf
    have hc' : (rowRemap a (x, row, false) v).svc.copyDone = [] := by rw [hsvc]; exact hc
    rw [chanEdge_eq, hw]
    exact chanDone_none hf' hc'
  rw [hact]
  refine ⟨(congrArg Svc.rowWait hsvc :), ?_, (congrArg Svc.spares hsvc :), htier⟩
  rw [← hent]
  exact (congrArg Svc.repair hsvc :)

/- LANE_RETRAIN (R439). -/
theorem laneRetrain_takes (s : State) (io : Fin 6) (g : Bool) (l : Fin 32) (hfit : unitFitted s.asm (.lane io g l) = true)
    (hfree : 0 < spareFree s.u.svc (.lane io g l)) (hp : s.u.svc.planned = []) :
    ∃ t, exec (.laneRetrain io g l) s = .next t ∧
      t.u.svc.repair = s.u.svc.repair ++ [repairEnt s.asm s.u (.lane io g l) 0 8
        (groupLanes io g + (2 - spareFree s.u.svc (.lane io g l)))] ∧
      t.u.svc.spares = s.u.svc.spares ++ [spareGroup (.lane io g l)] ∧ RUnit.lane io g l ∉ t.u.svc.decided ∧
      t.u.blk.unit = true ∧ t.u.core = s.u.core ∧ t.q = s.q ∧ t.m = s.m := by
  let x : RUnit := .lane io g l
  let w := spareTaken s.asm x 8 (groupLanes io g + (2 - spareFree s.u.svc x)) s.u
  obtain ⟨hcore, -, -, hsvc⟩ := spareTaken_keeps s.asm x 8 (groupLanes io g + (2 - spareFree s.u.svc x)) s.u
  have hact : laneRetrain s.asm io g l s.u = setUnit { w with svc := { w.svc with
      planned := w.svc.planned.filter (fun p => p.1 != x), decided := w.svc.decided.filter (fun y => y != x) } } := by
    have hany : s.u.svc.planned.any (fun p => p.1 == x) = false := by rw [hp]; rfl
    have hno : ¬ spareFree s.u.svc x = 0 := Nat.pos_iff_ne_zero.mp hfree
    have hfit' : unitFitted s.asm x = true := hfit
    rw [laneRetrain]
    simp only [x] at hany hno hfit'
    simp only [hfit', hany, if_neg hno, Bool.not_true, Bool.false_eq_true, if_false]
    rfl
  refine ⟨_, next_of_units hact, (congrArg Svc.repair hsvc :), (congrArg Svc.spares hsvc :), fun hm => ?_, rfl, hcore, rfl, rfl⟩
  simp [setUnit, x] at hm

/-- Settles O35: each command by the part of the service state that it changes. -/
theorem wearAndRepair : Obligations.WearAndRepair := by
  refine ⟨?wear, wearCheck_plans, ?slack, ?copied, ?retired, ?rowWaits, rowRepair_remaps, chanEdge_remaps, laneRetrain_takes, ?read⟩
  case wear =>
    intro s x r failed w hrole hfit hw hplan
    refine next_of_units ((wearCheck_eq hrole hfit hw failed).trans ?_)
    rw [hplan, if_neg Bool.false_ne_true, wearJudged]
    by_cases hf : (wearFaults x w failed && !s.u.svc.decided.contains x) = true
    · simp only [if_pos hf]
      exact if_pos hf
    · simp only [if_neg hf]
      exact if_neg hf
  case slack =>
    intro u x r w v f hr hc
    simp only [wearCount, hr, hc, Bool.not_true, Bool.false_eq_true, if_false]
  case copied =>
    intro s st ch hin hout
    refine next_of_units (if_pos ?_)
    simp [hin, hout]
  case retired =>
    intro s st ch hst hnew hfree
    have hgo : ¬ (nStacks s.asm ≤ st ∨ s.u.svc.chanFault.contains (st.val * 16 + ch.val) = true) := by simp [hst, hnew]
    exact next_of_units ((if_neg hgo).trans (if_pos hfree))
  case rowWaits =>
    intro s st ch bank row l hst hfree hp hw hrun
    have hact := rowRepair_goes (u := s.u) hst hfree hp hw l
    rw [hrun] at hact
    exact ⟨_, next_of_units hact, fun k hk => mem_unitsPoisoned hk s.u, rfl, rfl⟩
  case read =>
    intro s mb p h hb hs hup
    have hw := bufWrite_port0 (s := s) (ctx := mb) hs hup
      (data := (repairImage s.u.svc).take ((bufOf p 16).len / 16 * 16)) (Nat.le_trans (List.length_take_le ..) (Nat.div_mul_le_self ..))
    refine (next_of_heardS h).trans ?_
    simp only [hb, hw, Bool.not_true, Bool.false_eq_true, if_false]
    rfl

end Sys2Proof.Machine
end

section
/-! PROOFS. Background work and the journal (14, R402 to R404; 15, R420, R423; 16, R447): the blocks of O36. Calibration over the
SMBus (16, R443; 17, R470 to R472): the blocks of O37. -/
namespace Sys2Proof.Machine

variable {s t : State} {u v : Units} {a : Asm}

/- Background work (R402, R404). -/
theorem bgMissed_reports (s : State) (k : Fin 9) (l : W64) (hk : k.val ≠ 0) :
    ∃ t, exec (.bgMissed k l) s = .next t ∧ (k.val, l.toNat) ∉ t.u.svc.urgent ∧
      t.u.prodN = (fwNotice 8 0x0E03 0 [k.val, l.toNat] s.u).prodN ∧ t.q = s.q ∧ t.m = s.m := by
  obtain ⟨-, -, hsvc, -⟩ := noticeFrame_keeps
    (fwNotice_frame 8 0x0E03 0 [k.val, l.toNat] (urgentDone k.val (some l.toNat) s.u))
  refine ⟨_, next_of_units (if_neg hk), fun hm => ?_, ?_, rfl, rfl⟩
  · replace hm : (k.val, l.toNat) ∈ (fwNotice 8 0x0E03 0 [k.val, l.toNat] (urgentDone k.val (some l.toNat) s.u)).svc.urgent := hm
    rw [hsvc] at hm
    simp [urgentDone] at hm
  · show (fwNotice _ _ _ _ _).prodN = (fwNotice _ _ _ _ _).prodN
    rw [fwNotice, fwNotice, notice_prodN, notice_prodN]
    rfl

/- PATROL_SCRUB (R403, R423). -/
/-- The end of a patrol read: its unit counts for a copy in progress, and the stack's patrol is urgent no longer. -/
def patrolEnd (a : Asm) (unit : Nat) (u : Units) : Units :=
  urgentDone 5 (some (locDie 0 (stackDie a (unit % nStacks a))))
    (if u.svc.copying.contains (chanOf a (64 * unit)) && !u.svc.copied.contains unit then
      { u with svc := { u.svc with copied := u.svc.copied ++ [unit] } } else u)
theorem patrolEnd_frame (a : Asm) (unit : Nat) (u : Units) : ∃ x, patrolEnd a unit u = { u with svc := x } := by
  unfold patrolEnd
  split <;> exact ⟨_, rfl⟩
/-- The counts of a patrol read. -/
def patrolCounts (a : Asm) (unit corr uncorr : Nat) (u : Units) : Units :=
  dieBump (dieKey 0 (stackDie a (unit % nStacks a))) 0x65 1 (dieBump (dieKey 0 (stackDie a (unit % nStacks a))) 0x62 corr
    (dieBump (dieKey 0 (stackDie a (unit % nStacks a))) 0x63 uncorr u))
theorem dieBump_frame (d n k : Nat) (u : Units) : ∃ x, dieBump d n k u = { u with cnt := { u.cnt with die := x } } := ⟨_, dieBump_eq d n k u⟩
theorem patrolCounts_frame (a : Asm) (unit corr uncorr : Nat) (u : Units) :
    ∃ x, patrolCounts a unit corr uncorr u = { u with cnt := { u.cnt with die := x } } := by
  rw [patrolCounts, dieBump_eq, dieBump_eq, dieBump_eq]
  exact ⟨_, rfl⟩
theorem patrolScrub_eq {unit : Nat} (h : 4096 * unit < tier1Bytes a) (corr uncorr : List Nat) (u : Units) :
    patrolScrub a unit corr uncorr u = patrolEnd a unit (forAll uncorr (fun k u => t1Uncorr a (64 * unit + k) u)
      (if corr.isEmpty then patrolCounts a unit corr.length uncorr.length u
        else setCorr (patrolCounts a unit corr.length uncorr.length u))) :=
  if_neg (Nat.not_le.mpr h)

/-- A 64-byte unit poisoned by its own address. -/
theorem pois1_t1Poison (k : Nat) (t : Tiers) :
    (t1Poison (64 * k) 64 t).pois1 = t.pois1 ++ [k].filter (fun k => !t.pois1.contains k) := by
  have hlo : 64 * k / 64 = k := by omega
  have hn : ceilDiv (64 * k + 64) 64 - k = 1 := by
    rw [ceilDiv]
    omega
  rw [t1Poison, hlo, hn, fromN]
  rfl
theorem tier_t1Uncorr (a : Asm) (k : Nat) (u : Units) : (t1Uncorr a k u).tier = t1Poison (64 * k) 64 u.tier := by
  have hall (l : List Nat) (die : Nat) (u : Units) : (forAll l (fun n u => notice die 0x0F06 0 [n, 64 * k] u) u).tier = u.tier :=
    foldl_keeps (fun v : Units => v.tier = u.tier) (fun (u : Units) n => notice die 0x0F06 0 [n, 64 * k] u) l u rfl fun v n h => by
      obtain ⟨-, -, -, -, -, -, -, -, htier, -⟩ := noticeFrame_keeps (notice_frame die 0x0F06 0 [n, 64 * k] v)
      exact htier.trans h
  obtain ⟨-, -, -, -, -, -, -, -, htier, -⟩ := noticeFrame_keeps (notice_frame (dieKey 0 (stackDie a (k / 64 % nStacks a))) 0x0F05 0
    [64 * k] { u with tier := t1Poison (64 * k) 64 u.tier })
  exact (hall _ _ _).trans htier

theorem patrolScrub_clean (s : State) (unit : Nat) (corr : List (Fin 64)) (h : 4096 * unit < tier1Bytes s.asm) :
    ∃ t, exec (.patrolScrub unit corr []) s = .next t ∧ t.u.tier = s.u.tier ∧ (corr ≠ [] → t.u.blk.corr = true) ∧
      t.u.prodN = s.u.prodN ∧ t.q = s.q ∧ t.m = s.m := by
  have hact := patrolScrub_eq h (corr.map (·.val)) [] s.u
  obtain ⟨x, hx⟩ := patrolCounts_frame s.asm unit (corr.map (·.val)).length 0 s.u
  rw [show ([] : List Nat).length = 0 from rfl, hx, forAll, List.foldl_nil] at hact
  cases corr with
  | nil =>
    obtain ⟨y, hy⟩ := patrolEnd_frame s.asm unit { s.u with cnt := { s.u.cnt with die := x } }
    exact ⟨_, next_of_units (hact.trans hy), rfl, fun hne => absurd rfl hne, rfl, rfl, rfl⟩
  | cons c l =>
    obtain ⟨y, hy⟩ := patrolEnd_frame s.asm unit (setCorr { s.u with cnt := { s.u.cnt with die := x } })
    exact ⟨_, next_of_units (hact.trans hy), rfl, fun _ => rfl, rfl, rfl, rfl⟩

theorem patrolScrub_poisons (s : State) (unit : Nat) (k : Fin 64) (h : 4096 * unit < tier1Bytes s.asm) :
    ∃ t, exec (.patrolScrub unit [] [k]) s = .next t ∧ 64 * unit + k.val ∈ t.u.tier.pois1 ∧
      (∀ x, x ∈ s.u.tier.pois1 → x ∈ t.u.tier.pois1) ∧
      (∀ x, x ∈ t.u.tier.pois1 → x ∈ s.u.tier.pois1 ∨ x = 64 * unit + k.val) ∧ t.q = s.q ∧ t.m = s.m := by
  let w := t1Uncorr s.asm (64 * unit + k.val) (patrolCounts s.asm unit 0 1 s.u)
  obtain ⟨x, hx⟩ := patrolCounts_frame s.asm unit 0 1 s.u
  have hw : w.tier.pois1 = s.u.tier.pois1 ++ [64 * unit + k.val].filter (fun k => !s.u.tier.pois1.contains k) := by
    show (t1Uncorr s.asm (64 * unit + k.val) (patrolCounts s.asm unit 0 1 s.u)).tier.pois1 = _
    rw [hx, tier_t1Uncorr, pois1_t1Poison]
  obtain ⟨y, hy⟩ := patrolEnd_frame s.asm unit w
  have hact : patrolScrub s.asm unit [] [k.val] s.u = { w with svc := y } := (patrolScrub_eq h [] [k.val] s.u).trans hy
  refine ⟨_, next_of_units hact, ?_, fun z hz => ?_, fun z hz => ?_, rfl, rfl⟩
  · show 64 * unit + k.val ∈ w.tier.pois1
    rw [hw]
    by_cases hin : 64 * unit + k.val ∈ s.u.tier.pois1
    · exact List.mem_append_left _ hin
    · exact List.mem_append_right _ (by simp [hin])
  · show z ∈ w.tier.pois1
    rw [hw]
    exact List.mem_append_left _ hz
  · replace hz : z ∈ w.tier.pois1 := hz
    rw [hw] at hz
    exact (List.mem_append.mp hz).imp_right fun hz => by simpa using (List.mem_filter.mp hz).1

/- JOURNAL_WRITE (R447). -/
/-- A copy below 75 % of its blocks takes no snapshot (R449). -/
theorem journalSnap_room (h : u.svc.journal.length * 4 < journalBlocks u.svc 0 * 16 * 3) : journalSnap a u = u := if_pos (.inl h)
theorem journalWrite_adds (s : State) (type : Nat) (b : Bytes) (hup : isUp s.u = true) (htrip : s.u.blk.tripped = false)
    (hrole : (tgetD s.u.fw.roles 0 {}).state = 0) (hpos : 0 < type) (hmax : type ≤ 0x0A) (hne : type ≠ 3) (hlen : b.length ≤ 16352)
    (h0 : 0 < journalBlocks s.u.svc 0) (h1 : 0 < journalBlocks s.u.svc 1)
    (hroom : (s.u.svc.journal.length + 1) * 4 < journalBlocks s.u.svc 0 * 16 * 3) :
    ∃ t, exec (.journalWrite type b .ok .ok) s = .next t ∧
      t.u.svc = { s.u.svc with jseq := s.u.svc.jseq + 1, journal := s.u.svc.journal ++ [{
        seq := s.u.svc.jseq, type := type, payload := b, c0 := true, c1 := true }] } ∧
      t = { s with u := { s.u with svc := t.u.svc, cnt := { s.u.cnt with die := t.u.cnt.die } } } := by
  let w := dieBump (dieKey 3 1) 0x308 1 (dieBump (dieKey 3 0) 0x308 1 s.u)
  have hw : ∃ x, w = { s.u with cnt := { s.u.cnt with die := x } } := by
    obtain ⟨x, hx⟩ := dieBump_frame (dieKey 3 0) 0x308 1 s.u
    obtain ⟨y, hy⟩ := dieBump_frame (dieKey 3 1) 0x308 1 { s.u with cnt := { s.u.cnt with die := x } }
    exact ⟨y, (congrArg (dieBump (dieKey 3 1) 0x308 1) hx).trans hy⟩
  have hp0 : journalPage s.asm 0 .ok s.u = (dieBump (dieKey 3 0) 0x308 1 s.u, true) := by
    have h : 0 < journalBlocks (dieBump (dieKey 3 0) 0x308 1 s.u).svc 0 := by
      rw [dieBump_eq]
      exact h0
    simp only [journalPage, h, decide_true]
  have hp1 : journalPage s.asm 1 .ok (dieBump (dieKey 3 0) 0x308 1 s.u) = (w, true) := by
    have h : 0 < journalBlocks w.svc 1 := by
      obtain ⟨x, hx⟩ := hw
      rw [hx]
      exact h1
    simp only [journalPage, w] at h ⊢
    simp only [h, decide_true]
  have hgo : ¬ ((!isUp s.u) = true ∨ s.u.blk.tripped = true ∨ (tgetD s.u.fw.roles 0 {}).state ≠ 0 ∨ type = 0 ∨ 0x0A < type ∨
      16352 < b.length) := by
    simp [hup, htrip, hrole]
    omega
  have hact : journalWrite s.asm type b .ok .ok s.u = { w with svc := journalAdd type b true true w.svc } := by
    unfold journalWrite
    simp only [if_neg hgo, hp0, hp1, hne, false_and, if_false]
    refine journalSnap_room ?_
    obtain ⟨x, hx⟩ := hw
    rw [hx]
    simpa [journalAdd, journalBlocks] using hroom
  obtain ⟨x, hx⟩ := hw
  rw [hx] at hact
  exact ⟨_, next_of_units hact, rfl, rfl⟩

/-- Settles O36: urgency by its list, a patrol read by the units it poisons, the journal by the record that joins it. -/
theorem backgroundWorkAndJournal : Obligations.BackgroundWorkAndJournal := by
  refine ⟨?urgent, ?again, bgMissed_reports, patrolScrub_clean, patrolScrub_poisons, journalWrite_adds⟩
  case urgent =>
    intro s k l hk hnew
    exact next_of_units (if_neg (by simp [hk, hnew]))
  case again =>
    intro s k l hin
    exact next_of_units (v := s.u) (if_pos (.inr (by simpa using hin)))

/- Calibration over the SMBus (R443, R471, R472). -/
theorem smbWrite_good (h : smbLive u = true) (f : Units → Units) : smbWrite true f u = f u := by
  simp only [smbWrite, h, Bool.not_true, Bool.false_eq_true, if_false, if_true]
/-- Whether every entry of a commit lies in its range (R441). -/
def calInRange (l : List CalEnt) : Bool :=
  l.all (fun e => match calUserRange e.item with
    | some (lo, hi) => lo ≤ e.user && e.user ≤ hi
    | none => false)
theorem calInRange_of {l : List CalEnt} (h : ∀ e, e ∈ l → ∃ lo hi, calUserRange e.item = some (lo, hi) ∧ lo ≤ e.user ∧ e.user ≤ hi) :
    calInRange l = true := by
  refine List.all_eq_true.mpr fun e he => ?_
  obtain ⟨lo, hi, hr, hlo, hhi⟩ := h e he
  simp [hr, hlo, hhi]
theorem not_calInRange {l : List CalEnt} {e : CalEnt} (he : e ∈ l)
    (h : ∀ lo hi, calUserRange e.item = some (lo, hi) → e.user < lo ∨ hi < e.user) : calInRange l = false := by
  refine List.all_eq_false.mpr ⟨e, he, ?_⟩
  cases hr : calUserRange e.item with
  | none => exact Bool.false_ne_true
  | some r =>
    obtain ⟨lo, hi⟩ := r
    have := h lo hi hr
    simp
    omega
theorem calCommit_eq {l : List CalEnt} (h : u.svc.calOpen = some l) (o : StoreOut) : calCommit o u =
    if calInRange l then calStore l o { u with svc := { u.svc with calOpen := none } }
    else calResult 1 { u with svc := { u.svc with calOpen := none } } := by
  unfold calCommit
  rw [h]
  rfl

/-- Settles O37: each command by what its right PEC lets through. -/
theorem calibrationOverSmbus : Obligations.CalibrationOverSmbus := by
  refine ⟨fun s h => next_of_units (smbWrite_good h _), ?part, ?stores, ?range, ?closed, ?fails, ?clear, ?pec⟩
  case part =>
    intro s b l h hl
    refine next_of_units ((smbWrite_good h _).trans ?_)
    rw [hl]
    rfl
  case stores =>
    intro s l h hl hr
    refine ⟨_, next_of_units ((smbWrite_good h _).trans ((calCommit_eq hl .ok).trans (if_pos (calInRange_of hr)))),
      rfl, rfl, rfl, rfl, ?_, rfl, rfl⟩
    exact List.length_append
  case range =>
    intro s l e o h hl he hr
    exact next_of_units ((smbWrite_good h _).trans ((calCommit_eq hl o).trans
      (if_neg (by rw [not_calInRange he hr]; exact Bool.false_ne_true))))
  case closed =>
    intro s o h hl
    refine next_of_units ((smbWrite_good h _).trans ?_)
    rw [calCommit, hl]
    rfl
  case fails =>
    intro s l b h hl hr
    exact next_of_units ((smbWrite_good h _).trans ((calCommit_eq hl (.fail b)).trans (if_pos (calInRange_of hr))))
  case clear =>
    intro s h
    exact ⟨_, next_of_units (smbWrite_good h _), rfl, rfl, rfl, rfl, rfl⟩
  case pec =>
    intro s o h
    refine next_of_units ?_
    simp only [smbWrite, h, Bool.not_true, Bool.false_eq_true, if_false]

end Sys2Proof.Machine
end

section
/-! PROOFS. The other SMBus commands, the sense outputs and the throttle (17, R470 to R472, R474, R476 to R478): the blocks of
O38. -/
namespace Sys2Proof.Machine

variable {s t : State} {u v : Units} {a : Asm}

/- Reads over the SMBus (R470). -/
/-- What a read sends: its bytes behind their count, and a PEC. -/
theorem smbRead_sends (h : smbLive u = true) (cmd : Nat) (block : Bool) (data : Bytes) :
    ∃ c, smbRead cmd block data u = emit (.smb ((if block then leBytes 1 data.length else []) ++ data ++ [c])) u := by
  rw [smbRead, if_neg (by simp [h])]
  exact ⟨_, rfl⟩
theorem smbRead_block (h : smbLive u = true) (cmd : Nat) {data : Bytes} {n : Nat} (hn : data.length = n) :
    ∃ c, smbRead cmd true data u = emit (.smb ([BitVec.ofNat 8 n] ++ data ++ [c])) u := by
  obtain ⟨c, hc⟩ := smbRead_sends h cmd true data
  refine ⟨c, hc.trans ?_⟩
  rw [if_pos rfl, hn]
  rfl
theorem words_length (f : Nat → Nat) : ((List.range 8).flatMap (fun g => leBytes 2 (f g))).length = 16 := by
  rw [length_flatMap_const (m := 2) _ fun g => leBytes_length 2 (f g), List.length_range]

theorem ident_sends (s : State) (h : smbLive s.u = true) :
    ∃ c d, exec .ident s = .next (onUnits (emit (.smb ([24] ++ leBytes 8 s.asm.serial ++ leBytes 1 s.asm.variant ++ d ++ [c]))) s) ∧
      d.length = 15 := by
  let d := leBytes 6 s.asm.mac0 ++ leBytes 6 s.asm.mac1 ++ leBytes 1 (bitsOf s.u.fw.run.ver 31 24) ++
    leBytes 1 (bitsOf s.u.fw.run.ver 23 16) ++ leBytes 1 (bitsOf s.u.fw.run.ver 7 0)
  obtain ⟨c, hc⟩ := smbRead_block h 0x01 (data := leBytes 8 s.asm.serial ++ leBytes 1 s.asm.variant ++ d) (n := 24) (by simp [d])
  refine ⟨c, d, next_of_units (f := smbRead 0x01 true (leBytes 8 s.asm.serial ++ leBytes 1 s.asm.variant ++ leBytes 6 s.asm.mac0
    ++ leBytes 6 s.asm.mac1 ++ leBytes 1 (bitsOf s.u.fw.run.ver 31 24) ++ leBytes 1 (bitsOf s.u.fw.run.ver 23 16)
    ++ leBytes 1 (bitsOf s.u.fw.run.ver 7 0))) ?_, by simp [d]⟩
  simp only [d, List.append_assoc] at hc ⊢
  exact hc

/- Sense outputs (R474). -/
/-- What the readings make of the pins. -/
def sensedPins (a : Asm) (x : Sensed) (p : Pins) : Pins := { p with
  temps := (List.range 8).map (fun g => tsHottest a x.sensors g (p.temps.getD g none))
  vs := (List.range 6).map (fun k => (k, (x.rails.getD k 0).toInt)) }
/-- Outputs made one after the other. -/
def emitAll (l : List Out) (u : Units) : Units := { u with out := u.out ++ l }
theorem emitAll_emitAll (l r : List Out) (u : Units) : emitAll r (emitAll l u) = emitAll (l ++ r) u := by
  rw [emitAll, emitAll, emitAll, List.append_assoc]
/-- The levels put out stand behind what was put out before. -/
theorem senseOuts_emit (l : List Nat) (u : Units) : ∃ r, forAll l senseOut u = emitAll r u ∧
    ∀ o ∈ l, ∀ v, senseLevel u o = some v → Out.level o v ∈ r := by
  induction l generalizing u with
  | nil => exact ⟨[], by rw [emitAll, List.append_nil]; rfl, fun o ho => absurd ho List.not_mem_nil⟩
  | cons o l ih =>
    cases h : senseLevel u o with
    | none =>
      have ho : senseOut o u = u := by rw [senseOut, h]
      obtain ⟨r, hr, hm⟩ := ih u
      refine ⟨r, ?_, fun i hi v hv => ?_⟩
      · rw [forAll, List.foldl_cons, ho]
        exact hr
      · obtain rfl | hi := List.mem_cons.mp hi
        · rw [h] at hv
          cases hv
        · exact hm i hi v hv
    | some x =>
      have ho : senseOut o u = emitAll [.level o x] u := by rw [senseOut, h]; rfl
      obtain ⟨r, hr, hm⟩ := ih (emitAll [.level o x] u)
      refine ⟨.level o x :: r, ?_, fun i hi v hv => ?_⟩
      · rw [forAll, List.foldl_cons, ho]
        exact hr.trans (emitAll_emitAll ..)
      · obtain rfl | hi := List.mem_cons.mp hi
        · rw [h] at hv
          cases hv
          exact List.mem_cons_self
        · exact List.mem_cons_of_mem _ (hm i hi v hv)
theorem sensed_emits (a : Asm) (x : Sensed) (u : Units) : ∃ r,
    sensed a x u = { u with pins := sensedPins a x u.pins, out := u.out ++ r } ∧
    ∀ o, o < 14 → ∀ v, senseLevel { u with pins := sensedPins a x u.pins } o = some v → Out.level o v ∈ r := by
  obtain ⟨r, hr, hm⟩ := senseOuts_emit (List.range 14) { u with pins := sensedPins a x u.pins }
  exact ⟨r, hr, fun o ho => hm o (List.mem_range.mpr ho)⟩
theorem isUp_of_smbLive (h : smbLive u = true) : isUp u = true := (Bool.and_eq_true_iff.mp h).1
theorem senseLevel_driven {o : Nat} (hup : isUp u = true) (hpark : tget u.pins.sensePark o = none) : senseLevel u o =
    if o < 8 then (u.pins.temps.getD o none).map tsLevel else tget u.pins.vs (o - 8) :=
  if_neg (by simp [hup, hpark])

theorem temps_sends (s : State) (x : Sensed) (h : smbLive s.u = true) :
    ∃ t c, exec (.temps x) s = .next t ∧ t.u.out = (sensed s.asm x s.u).out ++ [.smb ([16] ++ (List.range 8).flatMap (fun g =>
        leBytes 2 (unsigned 16 (tsReported s.asm s.u.svc x.sensors g))) ++ [c])] ∧
      (∀ g v, g < 8 → tsHottest s.asm x.sensors g (s.u.pins.temps.getD g none) = some v → tget s.u.pins.sensePark g = none →
        Out.level g (clampI 100000 1750000 (500000 + 625 * v)) ∈ t.u.out) ∧
      (∀ k, k < 6 → tget s.u.pins.sensePark (8 + k) = none → Out.level (8 + k) (x.rails.getD k 0).toInt ∈ t.u.out) ∧
      t = { s with u := { s.u with out := t.u.out, pins := { s.u.pins with temps := t.u.pins.temps, vs := t.u.pins.vs } } } := by
  obtain ⟨r, hr, hm⟩ := sensed_emits s.asm x s.u
  have hup := isUp_of_smbLive h
  let w : Units := { s.u with pins := sensedPins s.asm x s.u.pins, out := s.u.out ++ r }
  obtain ⟨c, hc⟩ := smbRead_block (u := w) h 0x03 (words_length fun g => unsigned 16 (tsReported s.asm s.u.svc x.sensors g))
  have hact : temps s.asm x s.u = emit (.smb ([16] ++ (List.range 8).flatMap (fun g =>
      leBytes 2 (unsigned 16 (tsReported s.asm s.u.svc x.sensors g))) ++ [c])) w := by
    rw [temps, hr]
    exact hc
  refine ⟨_, c, next_of_units hact, by rw [hr]; rfl, fun g v hg hv hpark => ?_, fun k hk hpark => ?_, rfl⟩
  · refine List.mem_append_left _ (List.mem_append_right _ (hm g (by omega) _ ?_))
    refine (senseLevel_driven (u := { s.u with pins := sensedPins s.asm x s.u.pins }) hup hpark).trans ?_
    rw [if_pos hg]
    have hg' : (sensedPins s.asm x s.u.pins).temps.getD g none = tsHottest s.asm x.sensors g (s.u.pins.temps.getD g none) := by
      simp [sensedPins, List.getD_eq_getElem?_getD, hg]
    show ((sensedPins s.asm x s.u.pins).temps.getD g none).map tsLevel = _
    rw [hg', hv]
    rfl
  · refine List.mem_append_left _ (List.mem_append_right _ (hm (8 + k) (by omega) _ ?_))
    refine (senseLevel_driven (u := { s.u with pins := sensedPins s.asm x s.u.pins }) hup hpark).trans ?_
    rw [if_neg (by omega), Nat.add_sub_cancel_left]
    show tget ((List.range 6).map (fun k => (k, (x.rails.getD k 0).toInt))) k = _
    obtain rfl | rfl | rfl | rfl | rfl | rfl : k = 0 ∨ k = 1 ∨ k = 2 ∨ k = 3 ∨ k = 4 ∨ k = 5 := by omega
    all_goals rfl

/- Rails forwarded (R477, R478). -/
/-- The pins with a rail's corrected value, and its readings out of tolerance in a row. -/
def railPins (k run : Nat) (e : Int) (time : Nat) (p : Pins) : Pins :=
  { p with rail := tset p.rail k e, railRun := tset p.railRun k run, lastFwd := time, senseStale := false }
/-- The third reading out of tolerance in a row is reported. -/
def railJudged (k run : Nat) (e : Int) (u : Units) : Units :=
  if run = 3 then fwNotice 8 0x0963 0 [k, unsigned 64 e] { u with pins := { u.pins with alert := setBit u.pins.alert 1 true } } else u
theorem railForward_eq {k : Nat} (x : Int) (hpark : tget u.pins.sensePark (8 + k) = none) : ∃ run,
    railForward k x u = railJudged k run (railEffective u.svc k x) { u with
      pins := railPins k run (railEffective u.svc k x) u.tick.time u.pins } := by
  have hgo : ¬ (tget u.pins.sensePark (8 + k)).isSome = true := by rw [hpark]; exact Bool.false_ne_true
  exact ⟨_, if_neg hgo⟩
theorem railJudged_keeps (k run : Nat) (e : Int) (u : Units) : (railJudged k run e u).svc = u.svc ∧
    (railJudged k run e u).tick = u.tick ∧ ∃ a, (railJudged k run e u).pins = { u.pins with alert := a } := by
  unfold railJudged
  split
  · obtain ⟨htick, -, hsvc, -, -, -, -, -, -, -, -, -, -, -, hpins, -⟩ := noticeFrame_keeps (fwNotice_frame 8 0x0963 0
      [k, unsigned 64 e] { u with pins := { u.pins with alert := setBit u.pins.alert 1 true } })
    exact ⟨hsvc, htick, _, hpins⟩
  · exact ⟨rfl, rfl, u.pins.alert, rfl⟩
theorem railForward_keeps {k : Nat} (x : Int) (hpark : tget u.pins.sensePark (8 + k) = none) :
    (railForward k x u).svc = u.svc ∧ (railForward k x u).tick = u.tick ∧ (railForward k x u).pins.sensePark = u.pins.sensePark ∧
    (railForward k x u).pins.rail = tset u.pins.rail k (railEffective u.svc k x) ∧ (railForward k x u).pins.senseStale = false ∧
    (railForward k x u).pins.lastFwd = u.tick.time := by
  obtain ⟨run, hr⟩ := railForward_eq x hpark
  obtain ⟨hsvc, htick, b, hpins⟩ := railJudged_keeps k run (railEffective u.svc k x)
    { u with pins := railPins k run (railEffective u.svc k x) u.tick.time u.pins }
  rw [hr, hpins]
  exact ⟨hsvc, htick, rfl, rfl, rfl, rfl⟩
/-- The rails forwarded one after the other. -/
def railsForward (l : List (BitVec 32)) (n : Nat) (u : Units) : Units :=
  forAll (List.range n) (fun k u => railForward k (l.getD k 0).toInt u) u
theorem railsForward_keeps (l : List (BitVec 32)) (n : Nat) (hpark : ∀ k, k < n → tget u.pins.sensePark (8 + k) = none) :
    (railsForward l n u).svc = u.svc ∧ (railsForward l n u).tick = u.tick ∧
    (railsForward l n u).pins.sensePark = u.pins.sensePark ∧
    (∀ k, k < n → tgetD (railsForward l n u).pins.rail k 0 = railEffective u.svc k (l.getD k 0).toInt) ∧
    (0 < n → (railsForward l n u).pins.senseStale = false ∧ (railsForward l n u).pins.lastFwd = u.tick.time) := by
  induction n with
  | zero => exact ⟨rfl, rfl, rfl, fun k hk => absurd hk (Nat.not_lt_zero k), fun h => absurd h (Nat.not_lt_zero 0)⟩
  | succ n ih =>
    obtain ⟨hsvc, htick, hsp, hrail, -⟩ := ih fun k hk => hpark k (by omega)
    have hstep : railsForward l (n + 1) u = railForward n (l.getD n 0).toInt (railsForward l n u) := by
      rw [railsForward, forAll, List.range_succ, List.foldl_append]
      rfl
    obtain ⟨hsvc', htick', hsp', hrail', hst, hlast⟩ := railForward_keeps (u := railsForward l n u) (l.getD n 0).toInt
      (by rw [hsp]; exact hpark n (by omega))
    rw [hstep]
    refine ⟨hsvc'.trans hsvc, htick'.trans htick, hsp'.trans hsp, fun k hk => ?_, fun _ => ⟨hst, hlast.trans (by rw [htick])⟩⟩
    rw [hrail', hsvc]
    by_cases hkn : k = n
    · rw [hkn]
      exact tgetD_tset_self ..
    · exact (tgetD_tset_other _ _ _ hkn).trans (hrail k (by omega))

theorem senseFwd_records (s : State) (l : List (BitVec 32)) (h : smbLive s.u = true)
    (hpark : ∀ k, k < 6 → tget s.u.pins.sensePark (8 + k) = none) :
    ∃ t, exec (.senseFwd l true) s = .next t ∧ t.u.pins.senseStale = false ∧ t.u.pins.lastFwd = s.u.tick.time ∧
      (∀ k, k < 6 → tgetD t.u.pins.rail k 0 = railEffective s.u.svc k (l.getD k 0).toInt) ∧ t.u.svc = s.u.svc ∧ t.q = s.q ∧
      t.m = s.m := by
  obtain ⟨hsvc, -, -, hrail, hlast⟩ := railsForward_keeps l 6 hpark
  obtain ⟨hst, hl⟩ := hlast (by decide)
  exact ⟨_, next_of_units (v := railsForward l 6 s.u) (smbWrite_good h _), hst, hl, hrail, hsvc, rfl, rfl⟩

/-- The pins without a forward for a second (R477). -/
def pinsStale (p : Pins) : Pins := { p with senseStale := true, alert := setBit p.alert 2 true }
theorem senseStale_eq (h : u.pins.senseStale = false) : ∃ w : Units, w.pins = u.pins ∧ senseStale u =
    fwNotice 8 0x0964 0 [(w.tick.time - w.pins.lastFwd) / 1000000] { w with pins := pinsStale w.pins } := by
  have hw : (advTo (u.pins.lastFwd + 1000000000) u).pins = u.pins := by rw [advTo_eq]
  refine ⟨advTo (u.pins.lastFwd + 1000000000) u, hw, ?_⟩
  unfold senseStale
  rw [if_neg (by rw [h]; exact Bool.false_ne_true)]
  generalize advTo (u.pins.lastFwd + 1000000000) u = w
  rfl
theorem senseStale_reports (s : State) (h : s.u.pins.senseStale = false) :
    ∃ t, exec .senseStale s = .next t ∧ t.u.pins.senseStale = true ∧
      t.u.pins.alert = setBit s.u.pins.alert 2 true ∧ t.q = s.q ∧ t.m = s.m := by
  obtain ⟨w, hw, hact⟩ := senseStale_eq h
  obtain ⟨-, -, -, -, -, -, -, -, -, -, -, -, -, -, hpins, -⟩ := noticeFrame_keeps (fwNotice_frame 8 0x0964 0
    [(w.tick.time - w.pins.lastFwd) / 1000000] { w with pins := pinsStale w.pins })
  rw [← hact, hw] at hpins
  exact ⟨_, next_of_units rfl, congrArg Pins.senseStale hpins, congrArg Pins.alert hpins, rfl, rfl⟩

/-- Settles O38: each read by the bytes that it sends; the sense outputs by the levels put out in their turn; the throttle by what
asks for it. -/
theorem sensingAndThrottle : Obligations.SensingAndThrottle := by
  refine ⟨?status, ident_sends, ?limits, temps_sends, ?cause, ?response, ?noAlert, senseFwd_records, senseStale_reports, ?park, ?parkEnd,
    ?onSensor, ?onPin, ?off⟩
  case status =>
    intro s h
    obtain ⟨c, hc⟩ := smbRead_sends h 0x02 false (leBytes 2 (smbStatusWord s.u))
    exact ⟨c, next_of_units hc⟩
  case limits =>
    intro s h
    obtain ⟨c, hc⟩ := smbRead_block h 0x04 (words_length fun g => unsigned 16 (s.asm.critTemp.getD g 0))
    exact ⟨c, next_of_units hc⟩
  case cause =>
    intro s h
    have hw : smbLive { s.u with pins := { s.u.pins with alert := 0 } } = true := h
    obtain ⟨c, hc⟩ := smbRead_sends hw 0x30 false (leBytes 2 (s.u.pins.alert % 32 + s.u.pins.calResult * 256))
    exact ⟨_, c, next_of_units ((congrArg (smbRead 0x30 false (leBytes 2 (s.u.pins.alert % 32 + s.u.pins.calResult * 256)))
      (if_pos h)).trans hc), rfl, rfl, rfl⟩
  case response =>
    intro s h ha
    exact ⟨_, next_of_units (if_pos (by simp [h, ha]))⟩
  case noAlert =>
    intro s ha
    exact next_of_units (v := s.u) (if_neg (by simp [ha]))
  case park =>
    intro s w h ho hpos hmax
    exact next_of_units ((smbWrite_good h _).trans (if_neg (by omega)))
  case parkEnd =>
    intro s o x hx hle
    refine next_of_units ?_
    have hadv : advTo x s.u = s.u := if_pos hle
    simp only [senseParkEnd, hx, hadv]
  case onSensor =>
    intro s g y hthr hedge hgroup hlevel
    have hask : throtAsked s.asm (.sensor y) g s.u = true := by
      rw [throtAsked, hgroup, throtLevel, decide_eq_true hlevel, beq_self_eq_true]
      rfl
    exact next_of_units (if_neg (by simp [hthr, hask, hedge]))
  case onPin =>
    intro s g k x hthr hedge hmem hfunc hpark
    have hask : throtAsked s.asm .pin g s.u = true := List.any_eq_true.mpr ⟨(k, x), hmem, by simp [hfunc, hpark]⟩
    exact next_of_units (if_neg (by simp [hthr, hask, hedge]))
  case off =>
    intro s hthr hedge
    exact next_of_units (if_pos ⟨hthr, hedge⟩)

end Sys2Proof.Machine
end

section
/-! PROOFS. Reset, power, thermal trips, host ports and links (16, R451, R452; 17, R457 to R459, R461, R464, R468): the blocks of O39.
The management ports and the TAP (17, R462, R473): the blocks of O40. -/
namespace Sys2Proof.Machine

variable {s t : State} {u v : Units} {a : Asm}

/- Thermal trips (R451, R452). -/
theorem tripStop_idle (h : u.fw.loading = none) : tripStop u = { u with blk := { u.blk with tripped := true } } := by
  unfold tripStop
  simp only [h]
theorem thermTrip_records (s : State) (kind : Fin 4) (die : Fin 32) (x : BitVec 16) (htrip : s.u.blk.tripped = false)
    (hshut : s.u.blk.shutdown = false) (hl : s.u.fw.loading = none) :
    ∃ t, exec (.thermTrip kind die x) s = .next t ∧ t.u.blk = { s.u.blk with tripped := true } ∧
      t.u.pins = { s.u.pins with tripIn := true } ∧
      t.u.svc.tripRecord = some (leBytes 8 s.u.tick.number ++ leBytes 2 (kind.val * 64 + die.val) ++ leBytes 2 x.toNat) ∧
      t = { s with u := { s.u with blk := t.u.blk, pins := t.u.pins, svc := { s.u.svc with
        jseq := t.u.svc.jseq, journal := t.u.svc.journal, tripRecord := t.u.svc.tripRecord } } } := by
  let r := leBytes 8 s.u.tick.number ++ leBytes 2 (kind.val * 64 + die.val) ++ leBytes 2 x.toNat
  let w : Units := { s.u with blk := { s.u.blk with tripped := true }, pins := { s.u.pins with tripIn := true } }
  have hact : thermTrip kind die x.toNat s.u = { w with svc := { journalAdd 0x0A r true false w.svc with tripRecord := some r } } := by
    have hgo : ¬ (s.u.blk.tripped = true ∨ s.u.blk.shutdown = true) := by simp [htrip, hshut]
    have hstop : tripStop { s.u with pins := { s.u.pins with tripIn := true } } = w := tripStop_idle hl
    simp only [thermTrip, if_neg hgo, hstop]
    rfl
  exact ⟨_, next_of_units hact, rfl, rfl, rfl, rfl⟩

theorem thermalShutdown_clears (s : State) (h : s.u.blk.tripped = true) :
    ∃ t, exec .thermalShutdown s = .next t ∧ t.u.blk = { ({} : Blk) with shutdown := true, tripped := true } ∧
      t.q = s.q ∧ t.m = {} ∧ t.u.svc.journal = s.u.svc.journal ∧ t.u.mbx = [] ∧
      t.u.prodN = { s.u.prodN with wait := [] } :=
  ⟨_, if_pos h, rfl, rfl, rfl, rfl, rfl, rfl⟩

/- A CXL link lost (R461). -/
theorem condBroken_frame (n c : Nat) (u : Units) : ∃ l, condBroken n c u = { u with conds := l } ∧ (n, c) ∈ l ∧ ∀ x ∈ u.conds, x ∈ l := by
  unfold condBroken
  split
  · next h => exact ⟨u.conds, rfl, by simpa using h, fun _ hx => hx⟩
  · exact ⟨_, rfl, List.mem_append_right _ (List.mem_singleton_self _), fun _ hx => List.mem_append_left _ hx⟩
/-- A condition broken for every context of a list. -/
theorem condsBroken_frame (n : Nat) (l : List Nat) (u : Units) : ∃ r, forAll l (condBroken n) u = { u with conds := r } ∧
    (∀ c ∈ l, (n, c) ∈ r) ∧ ∀ x ∈ u.conds, x ∈ r := by
  induction l generalizing u with
  | nil => exact ⟨u.conds, rfl, fun c hc => absurd hc List.not_mem_nil, fun _ hx => hx⟩
  | cons c l ih =>
    obtain ⟨r, hr, hc, hkeep⟩ := condBroken_frame n c u
    obtain ⟨r', hr', hl, hkeep'⟩ := ih { u with conds := r }
    refine ⟨r', ?_, fun i hi => ?_, fun x hx => hkeep' x (hkeep x hx)⟩
    · rw [forAll, List.foldl_cons, hr]
      exact hr'
    · obtain rfl | hi := List.mem_cons.mp hi
      · exact hkeep' _ hc
      · exact hl i hi

theorem cxlLinkDown_reports (s : State) (l : Fin 12) (to_ : Bool) (hl : l.val < nLinks s.asm) (hin : l.val ∉ s.u.tier.linksOut) :
    ∃ t, exec (.cxlLinkDown l to_) s = .next t ∧ t.u.tier = { s.u.tier with linksOut := s.u.tier.linksOut ++ [l.val] } ∧
      t.u.blk.iface = true ∧ (∀ c, c ∈ tier2Ctxs s.u → (4, c) ∈ t.u.conds) ∧
      t.u.prodN = (notice (dieKey 2 (l.val / 2)) 0x0967 0 [l.val, b2n to_] s.u).prodN ∧ t.q = s.q ∧ t.m = s.m := by
  let v : Units := { s.u with tier := { s.u.tier with linksOut := s.u.tier.linksOut ++ [l.val] } }
  obtain ⟨r, hr, hmem, -⟩ := condsBroken_frame 4 (tier2Ctxs s.u) v
  let w : Units := setIface { v with conds := r }
  have hact : cxlLinkDown s.asm l to_ s.u = notice (dieKey 2 (l.val / 2)) 0x0967 0 [l.val, b2n to_] w := by
    have hgo : ¬ (nLinks s.asm ≤ l.val ∨ s.u.tier.linksOut.contains l.val = true) := by simp [hl, hin]
    refine (if_neg hgo).trans ?_
    exact congrArg (fun v => notice (dieKey 2 (l.val / 2)) 0x0967 0 [l.val, b2n to_] (setIface v)) hr
  have hf := notice_frame (dieKey 2 (l.val / 2)) 0x0967 0 [l.val, b2n to_] w
  obtain ⟨-, -, -, -, -, -, -, -, htier, -, -, hblk, -⟩ := noticeFrame_keeps hf
  have hconds : (notice (dieKey 2 (l.val / 2)) 0x0967 0 [l.val, b2n to_] w).conds = r := by
    rw [noticeFrame] at hf
    exact (congrArg Units.conds hf :)
  refine ⟨_, next_of_units hact, htier, congrArg Blk.iface hblk, fun c hc => ?_, ?_, rfl, rfl⟩
  · show (4, c) ∈ (notice (dieKey 2 (l.val / 2)) 0x0967 0 [l.val, b2n to_] w).conds
    rw [hconds]
    exact hmem c hc
  · show (notice _ _ _ _ _).prodN = _
    rw [notice_prodN, notice_prodN]
    rfl

/- Configuration requests (R454 to R456, R459). -/
theorem configurationRequest_ready (hup : isUp u = true) (hst : u.fw.stage ≠ 0) : ¬ ((!isUp u) = true ∨ u.fw.stage = 0) := by
  simp [hup, hst]
theorem msixUnmask_signals (s : State) (v : Fin 2048) (hup : isUp s.u = true) (hst : s.u.fw.stage ≠ 0) (hen : s.u.port0.msixEn = true)
    (hd3 : s.u.port0.d3hot = false) (hp : s.u.port0.pend = [v.val]) :
    ∃ t, exec (.configurationRequest 0 (.msixMask v false)) s = .next t ∧ t.u.out = s.u.out ++ [.msix 0 v.val] ∧
      t.u.port0.pend = [] ∧ v.val ∈ t.u.port0.unmasked ∧ t.q = s.q ∧ t.m = s.m := by
  let x : Port := { s.u.port0 with unmasked := s.u.port0.unmasked.filter (fun k => k != v.val) ++ [v.val] }
  have hact : configurationRequest s.asm 0 (.msixMask v false) s.u = flushVectors 0 { s.u with port0 := x } :=
    if_neg (configurationRequest_ready hup hst)
  have hgo : x.pend.filter (fun k => x.msixEn && x.unmasked.contains k && !x.d3hot) = [v.val] := by
    simp [x, hen, hd3, hp]
  have hflush : flushVectors 0 { s.u with port0 := x } = { s.u with
      port0 := { x with pend := x.pend.filter (fun k => !([v.val] : List Nat).contains k) }
      port1 := { s.u.port1 with pend := s.u.port1.pend.filter (fun k => !([v.val] : List Nat).contains k) }
      out := s.u.out ++ [.msix 0 v.val] } := by
    have h0 : portGet { s.u with port0 := x } 0 = x := rfl
    unfold flushVectors
    simp only [h0, hgo]
    rfl
  refine ⟨_, next_of_units (hact.trans hflush), rfl, ?_, List.mem_append_right _ (List.mem_singleton_self _), rfl, rfl⟩
  simp [x, hp]

/-- Settles O39: a reset by the state that it leaves, a port or a link by its record and its notice. -/
theorem resetPowerAndPorts : Obligations.ResetPowerAndPorts := by
  refine ⟨fun s => rfl, fun s => rfl, fun u => ⟨rfl, rfl, rfl, rfl, rfl, rfl, rfl, rfl, rfl, rfl, rfl, rfl, rfl⟩, thermTrip_records,
    ?critical, thermalShutdown_clears, fun s => rfl, fun s => rfl, fun s x => rfl, fun s x => rfl, cxlLinkDown_reports, ?parkEnd,
    fun s p c hup hst => next_of_units (if_pos (.inr hst)),
    fun s b hup hst => next_of_units (if_neg (configurationRequest_ready hup hst)), msixUnmask_signals⟩
  case critical =>
    intro s kind die hl htrip
    refine next_of_units ?_
    have hstop : tripStop { s.u with pins := { s.u.pins with tripOut := true, tripIn := true } } = _ := tripStop_idle hl
    simp only [thermCritical, htrip, Bool.false_eq_true, if_false, hstop]
  case parkEnd =>
    intro s n v h
    exact next_of_units (if_pos (Option.isSome_iff_ne_none.mpr h))

/- The management ports (R462). -/
/-- A reply names the port's own address as its source. -/
theorem mgmtReply_source {mac ip : Nat} {p r : Bytes} (h : mgmtReply mac ip p = some r) :
    (r.drop 6).take 6 = leBytes 6 mac ∧ (be p 12 2 = 0x0806 ∨ be p 12 2 = 0x0800) := by
  have hsource (rest : Bytes) (hp : 12 ≤ p.length) :
      (((p.drop 6).take 6 ++ (leBytes 6 mac ++ rest)).drop 6).take 6 = leBytes 6 mac := by
    have hlen : ((p.drop 6).take 6).length = 6 := by simp; omega
    rw [List.drop_left' hlen, List.take_left' (leBytes_length ..)]
  unfold mgmtReply at h
  extract_lets src own hl opts h0 addrs hdr body c at h
  split at h
  · next hc =>
    simp only [Bool.and_eq_true, beq_iff_eq, decide_eq_true_eq] at hc
    obtain ⟨⟨⟨⟨⟨⟨htype, -⟩, -⟩, -⟩, -⟩, -⟩, hlen⟩ := hc
    cases h
    refine ⟨?_, .inl htype⟩
    simp only [List.append_assoc]
    exact hsource _ (by omega)
  · split at h
    · next hc =>
      simp only [Bool.and_eq_true, beq_iff_eq, decide_eq_true_eq] at hc
      cases h
      obtain ⟨⟨⟨⟨⟨⟨htype, -⟩, -⟩, -⟩, -⟩, -⟩, hlen⟩ := hc
      refine ⟨?_, .inr htype⟩
      simp only [List.append_assoc]
      exact hsource _ (by omega)
    · cases h

/-- Settles O40: the reply that leaves or none; each scan by the register it goes through. -/
theorem managementPortsAndTap : Obligations.ManagementPortsAndTap := by
  refine ⟨?reply, ?silent, fun mac ip p r h => mgmtReply_source h, fun s l => rfl, ?idcode, fun s l x => rfl, ?reset, ?outside, fun s => rfl⟩
  case reply =>
    intro s d p r hup hst hr
    refine next_of_units ?_
    have hgo : ¬ ((!isUp s.u) = true ∨ s.u.fw.stage ≠ 4) := by simp [hup, hst]
    simp only [mgmtPacket, if_neg hgo, hr]
  case silent =>
    intro s d p h
    refine next_of_units (v := s.u) ?_
    unfold mgmtPacket
    by_cases hgo : (!isUp s.u) = true ∨ s.u.fw.stage ≠ 4
    · rw [if_pos hgo]
    · obtain hst | hup | hnone := h
      · exact absurd (.inr hst) hgo
      · exact absurd (.inl (by rw [hup]; rfl)) hgo
      · simp only [if_neg hgo, hnone]
  case idcode =>
    intro s l hl
    have hscan : (scan ((List.range 32).map (bitAt (idcode s.asm))) l).1 = (List.range 32).map (bitAt (idcode s.asm)) := by
      rw [scan, hl]
      exact List.take_left' (by simp)
    exact congrArg (fun b => (Host.Outcome.next { s with
      u := emit (.tdo b) { s.u with pins := { s.u.pins with jtagIr := 2 } } } : Res)) hscan
  case reset =>
    intro s l x h
    have hin : inReset s.u = true := by
      obtain h | h := h <;> simp [inReset, h]
    exact ⟨next_of_units (f := fun u => if inReset u then tapBoundary 3 l x u else tapBypass 0 l u) (if_pos hin),
      next_of_units (f := fun u => tapBypass (if inReset u then 4 else 0) l u)
        (congrArg (fun n => tapBypass n l s.u) (if_pos hin)),
      next_of_units (f := fun u => tapBypass (if inReset u then 5 else 0) l u)
        (congrArg (fun n => tapBypass n l s.u) (if_pos hin))⟩
  case outside =>
    intro s l x h1 h2
    have hin : ¬ inReset s.u = true := by simp [inReset, h1, h2]
    exact ⟨next_of_units (f := fun u => if inReset u then tapBoundary 3 l x u else tapBypass 0 l u) (if_neg hin),
      next_of_units (f := fun u => tapBypass (if inReset u then 4 else 0) l u)
        (congrArg (fun n => tapBypass n l s.u) (if_neg hin)),
      next_of_units (f := fun u => tapBypass (if inReset u then 5 else 0) l u)
        (congrArg (fun n => tapBypass n l s.u) (if_neg hin))⟩

end Sys2Proof.Machine
end

section
/-! PROOFS. Messages on streams (09; 12, R355). -/
namespace Sys2Proof.Machine

variable {s : State} {u : Units} {p : Bytes}

/- A stream of the table, changed. -/
theorem modStr_eq {x : Str} (h : tget u.str k = some x) (f : Str → Str) : modStr k f u = { u with str := tset u.str k (f x) } := by
  rw [modStr, tupd, h]
theorem tgetD_of_tget {α : Type} {t : Tbl α} {a : α} (h : tget t k = some a) (d : α) : tgetD t k d = a := by
  rw [tgetD, h]
  rfl

/- A field of bytes written one after another. -/
theorem le_leBytes_append_here (n v : Nat) (b : Bytes) : le (leBytes n v ++ b) 0 n = v % 256 ^ n :=
  (le_append_left (by simp)).trans (le_leBytes n v)
theorem le_leBytes_append_skip {n j : Nat} (v : Nat) (b : Bytes) (m : Nat) (h : n ≤ j) :
    le (leBytes n v ++ b) j m = le b (j - n) m := by
  obtain ⟨i, rfl⟩ := Nat.exists_eq_add_of_le h
  have hread := le_append_right (leBytes n v) b i m
  rw [leBytes_length] at hread
  rw [hread, Nat.add_sub_cancel_left]

/-- A stream message that joins the decisions waits for its answer behind those of its context that wait already. -/
theorem enqueueMsg_waits (t : State) (mb : Fin 64) (desc : Bytes) (r : Option Bytes) (h : heard s.u mb op p)
    (ht : t = { s with u := await mb (enqueueMsg mb mb desc r s.u) }) :
    awaits t mb ∧ (tgetD t.u.ctx mb {}).waiting = (tgetD s.u.ctx mb {}).waiting ++
        [{ desc := sliceZ desc 0 64, srec := r, tick := nextTick s.u, mb := some mb.val }] ∧
      t = { s with u := { s.u with mbx := t.u.mbx, ctx := t.u.ctx } } := by
  subst ht
  exact ⟨awaits_of_heard rfl h rfl, congrArg Ctx.waiting (tgetD_tset_self ..), rfl⟩

theorem streamOpen_waits (s : State) (mb : Fin 64) (p : Bytes) (l : List (Nat × Nat)) (h : heard s.u mb 0x0401 p)
    (hpol : le p 0 2 ≤ 1023) (hcur : (polCur s.u (le p 0 2)).isEmpty = false)
    (hj : sampJudge s mb (le p 0 2) (tgetD s.u.ctx mb {}).headSlot (sliceZ p 8 64) = .inl l) :
    ∃ t, exec (.streamOpen mb) s = .next t ∧ awaits t mb ∧ (tgetD t.u.ctx mb {}).waiting = (tgetD s.u.ctx mb {}).waiting ++ [{
        desc := sliceZ (leBytes 1 2 ++ leBytes 1 (le p 2 1) ++ leBytes 2 (le p 0 2) ++ leBytes 4 (le p 4 4)) 0 64
        srec := some (sliceZ p 8 64), tick := nextTick s.u, mb := some mb.val }] ∧
      t = { s with u := { s.u with mbx := t.u.mbx, ctx := t.u.ctx } } := by
  have hgo : ¬ (1023 < le p 0 2 ∨ (polCur s.u (le p 0 2)).isEmpty = true) := by simp [hcur, hpol]
  refine ⟨_, (next_of_heardS h).trans ?_, enqueueMsg_waits _ mb _ _ h rfl⟩
  simp only [if_neg hgo, hj]
  rfl

theorem streamOpen_refuses (s : State) (mb : Fin 64) (p : Bytes) (off : Nat) (h : heard s.u mb 0x0401 p)
    (hpol : le p 0 2 ≤ 1023) (hcur : (polCur s.u (le p 0 2)).isEmpty = false)
    (hj : sampJudge s mb (le p 0 2) (tgetD s.u.ctx mb {}).headSlot (sliceZ p 8 64) = .inr off) :
    exec (.streamOpen mb) s = .next (onUnits (answer mb (bad 7 0 (8 + off) 0)) s) := by
  have hgo : ¬ (1023 < le p 0 2 ∨ (polCur s.u (le p 0 2)).isEmpty = true) := by simp [hcur, hpol]
  refine (next_of_heardS h).trans ?_
  simp only [if_neg hgo, hj]
  rfl

theorem streamSampling_schedules (s : State) (mb : Fin 64) (p : Bytes) (k : Nat) (l : List (Nat × Nat)) (h : heard s.u mb 0x0402 p)
    (hk : handleSlotOf s.u mb (le p 0 4) = .inl k)
    (hj : sampJudge s mb (tgetD s.u.str k {}).policy (tgetD s.u.str k {}).headSlot (sliceZ p 8 64) = .inl l)
    (hlag : lagOf (sliceZ p 8 64) = lagOf (tgetD s.u.str k {}).samp) :
    exec (.streamSampling mb) s = .next (onUnits (fun u =>
      answer mb (ok (le8 (cohortTick u (tgetD u.str k {}).cohort + 1))) { u with
        changes := u.changes ++ [(cohortTick u (tgetD u.str k {}).cohort + 1,
          .sampling k (tgetD u.str k {}).gen (sliceZ p 8 64) l)] }) s) := by
  have hgo : ¬ (lagOf (sliceZ p 8 64) ≠ lagOf (tgetD s.u.str k {}).samp ∧
      ((!(tgetD s.u.str k {}).hold.isEmpty) = true ∨ (!(tgetD s.u.str k {}).outToks.isEmpty) = true)) := fun hc => hc.1 hlag
  refine (next_of_heardS h).trans ?_
  simp only [hk, hj, if_neg hgo]
  rfl

/-- The cancellation of a stream that is not closing and not cancelled yet is noted for its next boundary. -/
theorem streamCancel_notes {x : Str} {v : Units} (mb : Fin 64) (h : heard s.u mb 0x0403 p) (hk : handleSlotOf s.u mb (le p 0 4) = .inl k)
    (hx : tget s.u.str k = some x) (hst : x.st ≠ .closing) (hc : x.cancelAt = none) (hcur : s.u.tick.st = .current)
    (hv : modStr k (fun y => { y with cancelAt := some (cohortTick s.u x.cohort + 1) })
      (withdrawPause k s.u) = v) (hnum : cohortTick (withdrawPause k s.u) x.cohort = cohortTick s.u x.cohort)
    (htick : (withdrawPause k s.u).tick = s.u.tick) :
    exec (.streamCancel mb) s = .next { s with u := answer mb (ok (le8 (cohortTick s.u x.cohort + 1))) v } := by
  have hrun : ¬ ((withdrawPause k s.u).tick.st = .coasting ∨ (withdrawPause k s.u).tick.st = .halted) := by
    rw [htick, hcur]
    simp
  refine next_of_answer (v := v) h ?_
  simp only [hk, tgetD_of_tget hx, if_neg hst, hc, Option.getD_none, if_neg hrun, hnum, hv]

theorem streamCancel_plain (s : State) (mb : Fin 64) (p : Bytes) (k : Nat) (x : Str) (h : heard s.u mb 0x0403 p)
    (hk : handleSlotOf s.u mb (le p 0 4) = .inl k) (hx : tget s.u.str k = some x) (hst : x.st ≠ .closing) (hc : x.cancelAt = none)
    (hcur : s.u.tick.st = .current)
    (hno : ∀ r e, x.pause = some r → r.at_ = s.u.tick.number → e ∈ x.outEvts → isAck r.id e.2 = false) :
    exec (.streamCancel mb) s = .next (onUnits (fun u => answer mb (ok (le8 (cohortTick u x.cohort + 1))) { u with
      str := tset u.str k { x with cancelAt := some (cohortTick u x.cohort + 1) } }) s) := by
  have hw : withdrawPause k s.u = s.u := by
    unfold withdrawPause
    simp only [tgetD_of_tget hx]
    cases hp : x.pause with
    | none => rfl
    | some r =>
      refine if_neg fun ⟨hat, hany⟩ => ?_
      obtain ⟨e, he, hack⟩ := List.any_eq_true.mp hany
      exact Bool.false_ne_true ((hno r e hp hat he).symm.trans hack)
  refine streamCancel_notes mb h hk hx hst hc hcur ?_ (by rw [hw]) (by rw [hw])
  rw [hw]
  exact modStr_eq hx _

theorem streamCancel_withdraws (s : State) (mb : Fin 64) (p : Bytes) (k : Nat) (x : Str) (r : PauseReq) (e : Nat × Bytes)
    (h : heard s.u mb 0x0403 p) (hk : handleSlotOf s.u mb (le p 0 4) = .inl k) (hx : tget s.u.str k = some x) (hst : x.st ≠ .closing)
    (hc : x.cancelAt = none) (hcur : s.u.tick.st = .current) (hp : x.pause = some r) (hat : r.at_ = s.u.tick.number)
    (hev : x.outEvts = [e]) (hack : isAck r.id e.2 = true) :
    exec (.streamCancel mb) s = .next (onUnits (fun u => answer mb (ok (le8 (cohortTick u x.cohort + 1))) { u with
      str := tset u.str k { x with
        pause := none, cancelAt := some (cohortTick u x.cohort + 1)
        outEvts := [(e.1, eventEntry 0x21 8 1 (le e.2 4 4) (handleOf k x) 0 0 0 0 0)] } }) s) := by
  let y : Str := { x with pause := none, outEvts := [(e.1, eventEntry 0x21 8 1 (le e.2 4 4) (handleOf k x) 0 0 0 0 0)] }
  have hw : withdrawPause k s.u = { s.u with str := tset s.u.str k y } := by
    unfold withdrawPause
    have hgo : r.at_ = s.u.tick.number ∧ x.outEvts.any (fun e => isAck r.id e.2) = true := ⟨hat, by simp [hev, hack]⟩
    simp only [tgetD_of_tget hx, hp, if_pos hgo, modStr_eq hx]
    simp only [hev, List.map_cons, List.map_nil, hack, if_true]
    rfl
  refine streamCancel_notes mb h hk hx hst hc hcur ?_ (by rw [hw]; rfl) (by rw [hw])
  rw [hw, modStr_eq (x := y) (tget_tset_self ..)]
  exact congrArg (fun t => { s.u with str := t }) (tset_tset ..)

theorem streamPause_waits (s : State) (mb : Fin 64) (p : Bytes) (k : Nat) (h : heard s.u mb 0x0404 p)
    (hk : handleSlotOf s.u mb (le p 0 4) = .inl k) (hf : pauseFault s.u (le p 4 4) (le p 8 1) = none) :
    ∃ t, exec (.streamPause mb) s = .next t ∧ awaits t mb ∧ (tgetD t.u.ctx mb {}).waiting = (tgetD s.u.ctx mb {}).waiting ++ [{
        desc := sliceZ (leBytes 1 3 ++ leBytes 1 (le p 8 1) ++ leBytes 6 0 ++ leBytes 4 (le p 0 4) ++ leBytes 4 (le p 4 4)) 0 64
        tick := nextTick s.u, mb := some mb.val }] ∧
      t = { s with u := { s.u with mbx := t.u.mbx, ctx := t.u.ctx } } := by
  refine ⟨_, next_of_wait h ?_, enqueueMsg_waits _ mb _ _ h rfl⟩
  simp only [hk, hf]

theorem streamResume_waits (s : State) (mb : Fin 64) (p : Bytes) (h : heard s.u mb 0x0405 p) (hhas : le p 4 1 = 0) :
    ∃ t, exec (.streamResume mb) s = .next t ∧ awaits t mb ∧ (tgetD t.u.ctx mb {}).waiting = (tgetD s.u.ctx mb {}).waiting ++ [{
        desc := sliceZ (leBytes 1 4 ++ leBytes 1 0 ++ leBytes 6 0 ++ leBytes 4 (le p 0 4)) 0 64
        tick := nextTick s.u, mb := some mb.val }] ∧
      t = { s with u := { s.u with mbx := t.u.mbx, ctx := t.u.ctx } } := by
  refine ⟨_, (next_of_heardS h).trans ?_, enqueueMsg_waits _ mb _ _ h rfl⟩
  simp only [hhas, if_neg (show ¬ 1 < 0 by omega), if_true]
  rfl

theorem streamStatus_answers (s : State) (mb : Fin 64) (p : Bytes) (k : Nat) (h : heard s.u mb 0x0406 p)
    (hk : handleSlotOf s.u mb (le p 0 4) = .inl k) :
    ∃ r, exec (.streamStatus mb) s = .next (onUnits (answer mb (ok r)) s) ∧ le r 0 1 = strCode (tgetD s.u.str k {}).st ∧
      le r 1 1 = bitsOf (le (tgetD s.u.str k {}).samp 33 1) 5 4 ∧ le r 2 1 = (tgetD s.u.str k {}).rew % 256 ∧
      le r 3 1 = min 255 (tgetD s.u.str k {}).hold.length ∧ le r 4 4 = (tgetD s.u.str k {}).pos % 2 ^ 32 := by
  refine ⟨_, next_of_answer h (by simp only [hk]; rfl), ?state, ?kind, ?rew, ?hold, ?pos⟩
  all_goals
    simp only [List.append_assoc, le_leBytes_append_here, le_leBytes_append_skip, Nat.le_refl, Nat.reduceLeDiff, Nat.reduceSub]
  case state => exact Nat.mod_eq_of_lt (by cases (tgetD s.u.str k {}).st <;> decide)
  case kind => exact Nat.mod_eq_of_lt (Nat.lt_trans (Nat.mod_lt _ (by decide)) (by decide))
  case hold => exact Nat.mod_eq_of_lt (Nat.lt_of_le_of_lt (Nat.min_le_left ..) (by decide))
  all_goals rfl

/-- Settles O41: a message's body is run on the conditions its clause names; what joins the decisions does so by `enqueueMsg`. -/
theorem streamMessages : Obligations.StreamMessages := by
  refine ⟨streamOpen_waits, streamOpen_refuses, streamSampling_schedules, streamCancel_plain, streamCancel_withdraws,
    streamPause_waits, streamResume_waits, streamStatus_answers, ?known, ?unknown, ?handle⟩
  case known =>
    intro s mb p e v h hv
    refine next_of_answer h ?_
    simp only [hv]
  case unknown =>
    intro s mb p h hv
    refine next_of_answer h ?_
    simp only [hv]
    rfl
  case handle =>
    intro s mb p h hk
    refine next_of_answer h ?_
    simp only [hk]
    rfl

end Sys2Proof.Machine
end

section
/-! PROOFS. Decisions on streams (09; R264 to R266, R279, R284). -/
namespace Sys2Proof.Machine

variable {s : State} {u : Units} {w : Waiting}

/- A waiting entry decided. -/
theorem admissionHeld_congr {v : Units} (ht : v.tick = u.tick) (hb : v.blk = u.blk) (hp : v.pins = u.pins)
    (hst : (tgetD v.ctx c {}).state = (tgetD u.ctx c {}).state)
    (hh : (tgetD v.ctx c {}).holdFrom = (tgetD u.ctx c {}).holdFrom) :
    heldPlain v c = heldPlain u c ∧ admissionHeld v c = admissionHeld u c := by
  have hplain : heldPlain v c = heldPlain u c := by
    unfold heldPlain
    simp only [ht, hb, hst, hh]
  exact ⟨hplain, by rw [admissionHeld, admissionHeld, hplain, hp]⟩
/-- An entry decided leaves the waiting list of its context. -/
theorem tgetD_leaveWaiting (t : Tbl Ctx) (c : Nat) (w : Waiting) :
    tgetD (tupd t c (fun c => { c with waiting := c.waiting.erase w })) c {} =
      { tgetD t c {} with waiting := (tgetD t c {}).waiting.erase w } := by
  cases hc : tget t c with
  | none =>
    have hdef : tgetD t c {} = {} := by rw [tgetD, hc]; rfl
    rw [tupd, hc, hdef]
    exact congrArg (fun l => ({ ({} : Ctx) with waiting := l } : Ctx)) (List.erase_nil w).symm
  | some x => exact tgetD_tupd_self _ _ _ _ (by rw [hc]; exact Option.some_ne_none x)
/-- A message decided leaves the waiting list of its context, and the round goes on; nothing else changes. -/
theorem decided_frame (c : Nat) (u : Units) (hm : w.mb = some m) :
    ∃ cx, decided c w u = { u with round := (u.tick.number, c), ctx := cx } ∧
      tgetD cx c {} = { tgetD u.ctx c {} with waiting := (tgetD u.ctx c {}).waiting.erase w } ∧
      heldPlain { u with round := (u.tick.number, c), ctx := cx } c = heldPlain u c ∧
      admissionHeld { u with round := (u.tick.number, c), ctx := cx } c = admissionHeld u c := by
  let cx := tupd u.ctx c (fun c => { c with waiting := c.waiting.erase w })
  have hcx := tgetD_leaveWaiting u.ctx c w
  refine ⟨cx, ?_, hcx, admissionHeld_congr (v := { u with round := (u.tick.number, c), ctx := cx }) rfl rfl rfl ?_ ?_⟩
  · rw [decided, hm]
    rfl
  · exact (congrArg Ctx.state hcx :)
  · exact (congrArg Ctx.holdFrom hcx :)

/-- A refused message of a decision is answered; no stream and no tier changes. -/
theorem refuseOp_answers (s : State) {v : Units} (c type cause : Nat) (hm : w.mb = some m) (hw : awaits s m) (hc : cause ≠ 0)
    (hv : v.mbx = s.u.mbx) (t : State) (ht : t = { s with u := refuseOp c type cause 0 w v }) :
    answered t m (bad 1 2 0xFFFF cause) ∧ t.u.str = v.str ∧ t.u.tier = v.tier ∧ t.q = s.q ∧ t.m = s.m := by
  have hr : refuseOp c type cause 0 w v = answerWaiting (some m) (bad 1 2 0xFFFF cause) (dieBump 56 0x303 1 v) := by
    rw [refuseOp, hm]
    simp only [if_neg hc]
  obtain ⟨mb, hmb⟩ := answerWaiting_frame (some m) (bad 1 2 0xFFFF cause) (dieBump 56 0x303 1 v)
  refine ⟨answered_of_waiting (v := dieBump 56 0x303 1 v) (by rw [ht]; exact hr) hw hv, ?_, ?_, by rw [ht], by rw [ht]⟩ <;>
  · rw [ht, hr, hmb]
    rfl

/- Opens (R265, R266). -/
/-- The pages of an open for which the main quota has room are taken from it, one for each chunk. -/
theorem openPages_taken (l : List Nat) (u : Units) (hroom : l = [] ∨ (u.tier.mainUse + l.length ≤ u.tier.pageMain ∧
      (u.tier.mainUse + l.length) * 1024 ≤ u.tier.pageMain * u.tier.highWm)) :
    ∃ pages tr, (if l.isEmpty = true then some ([], u) else takeHigh l.length u) = some (pages, { u with tier := tr }) ∧
      tr.mainUse = u.tier.mainUse + l.length := by
  cases l with
  | nil => exact ⟨[], u.tier, rfl, rfl⟩
  | cons a l =>
    obtain h | ⟨hmain, hhigh⟩ := hroom
    · cases h
    · refine ⟨lowestFree u.tier.t1 (l.length + 1), { u.tier with
        t1 := u.tier.t1 ++ lowestFree u.tier.t1 (l.length + 1), mainUse := u.tier.mainUse + (l.length + 1) }, ?_, rfl⟩
      rw [if_neg (by simp), takeHigh, if_pos hhigh, takeMain, if_pos hmain]
      rfl
theorem tkeys_pageMap_openChunks (r : Bytes) (maxPos : Nat) (pages : List Nat) :
    tkeys (pageMap (openChunks r maxPos) pages) = openChunks r maxPos := by
  have hcases : openChunks r maxPos = [] ∨ openChunks r maxPos = [0] ∨ openChunks r maxPos = [0, 1] := by
    unfold openChunks
    by_cases hlag : lagOf r = 0
    · exact .inl (if_pos hlag)
    · rw [if_neg hlag]
      by_cases h0 : 0 < maxPos / 16
      · by_cases h1 : 1 < maxPos / 16
        · exact .inr (.inr (by simp [List.range_succ, h0, h1]))
        · exact .inr (.inl (by simp [List.range_succ, h0, h1]))
      · exact .inl (by simp [List.range_succ]; omega)
  obtain h | h | h := hcases <;> rw [h] <;> rfl

/-- What a decision on an open comes to, once nothing makes its message invalid. -/
theorem openDecide_judged {r : Bytes} {l : List (Nat × Nat)} {v : Units} (c : Nat) (hv : decided c w s.u = v) (hsrec : w.srec = some r)
    (hpol : le w.desc 2 2 ≤ 1023) (hcur : (polCur s.u (le w.desc 2 2)).isEmpty = false) (hpv : v.pol = s.u.pol)
    (hj : sampJudge s c (le w.desc 2 2) (tgetD s.u.ctx c {}).headSlot r = .inl l) :
    (admissionHeld v c = true → openDecide c w s = { s with u := refuseOp c 0x20 3 0 w v }) ∧
    (admissionHeld v c = false → (tgetD s.u.ctx c {}).maxStreams ≤ ctxStreams v c →
      openDecide c w s = { s with u := refuseOp c 0x20 1 0 w v }) := by
  have hcur' : (polCur v (le w.desc 2 2)).isEmpty = false := by
    rw [polCur, hpv]
    exact hcur
  have hgo : ¬ (1023 < le w.desc 2 2 ∨ (polCur v (le w.desc 2 2)).isEmpty = true) := by simp [hcur', hpol]
  constructor
  · intro hheld
    simp only [openDecide, hv, if_neg hgo, hsrec, hj, hheld, if_true]
  · intro hheld hfull
    simp only [openDecide, hv, if_neg hgo, hsrec, hj, hheld, Bool.false_eq_true, if_false, if_pos hfull]

/-- The slot of a stream that an open, admitted for a context, takes. -/
def openedStr (u : Units) (c : Nat) (x : Ctx) (w : Waiting) (k : Nat) (r : Bytes) (l : List (Nat × Nat)) (pages : List Nat) : Str :=
  let pol := polCur u (le w.desc 2 2)
  let m := pinState u pol (freshState u (polProf u pol 12))
  { gen := nextGen (tgetD u.str k {}).gen, st := .opening, ctx := c, cohort := x.cohort, policy := le w.desc 2 2, samp := r, bias := l
    hostTag := le w.desc 4 4, start := u.tick.number + 1 + le w.desc 1 1, headSlot := x.headSlot
    ansSlot := boundAns u (le w.desc 2 2) r, maxPos := x.maxPos, ms := m, ms0 := m, pages := pageMap (openChunks r x.maxPos) pages }

/-- An open that no cause refuses puts its stream into the slot that is next, with an event, and is answered. -/
theorem openDecide_admits {r : Bytes} {l : List (Nat × Nat)} {v v' : Units} {pages : List Nat} (c : Nat) (hv : decided c w s.u = v)
    (hsrec : w.srec = some r) (hpol : le w.desc 2 2 ≤ 1023) (hcur : (polCur v (le w.desc 2 2)).isEmpty = false)
    (hj : sampJudge s c (le w.desc 2 2) (tgetD s.u.ctx c {}).headSlot r = .inl l) (hheld : admissionHeld v c = false)
    (hfull : ctxStreams v c < (tgetD s.u.ctx c {}).maxStreams) (hslot : allocSlot v (tgetD s.u.ctx c {}).cohort = some k)
    (hpages : (if (openChunks r (tgetD s.u.ctx c {}).maxPos).isEmpty = true then some ([], v)
      else takeHigh (openChunks r (tgetD s.u.ctx c {}).maxPos).length v) = some (pages, v')) :
    ∃ e : Bytes, openDecide c w s = { s with
      u := answerWaiting w.mb (ok (leBytes 8 (handleOf k (openedStr v' c (tgetD s.u.ctx c {}) w k r l pages))
          ++ le8 (v'.tick.number + 1 + le w.desc 1 1)))
        (addEvent k (dueTick v' (tgetD s.u.ctx c {}).cohort) e
          (blkBump 9 1 { v' with str := tset v'.str k (openedStr v' c (tgetD s.u.ctx c {}) w k r l pages) })) } := by
  have hgo : ¬ (1023 < le w.desc 2 2 ∨ (polCur v (le w.desc 2 2)).isEmpty = true) := by simp [hcur, hpol]
  refine ⟨eventEntry 0x20 0 0 (le w.desc 4 4) (handleOf k (openedStr v' c (tgetD s.u.ctx c {}) w k r l pages)) 0 0 0
    (v'.tick.number + 1 + le w.desc 1 1) 0, ?_⟩
  simp only [openDecide, hv, if_neg hgo, hsrec, hj, hheld, Bool.false_eq_true, if_false, if_neg (Nat.not_le.mpr hfull), hslot, hpages]
  rfl

/-- A new record of a stream's slot, with an event of its own, in a state that answers its message. -/
theorem slotTaken_frame {v : Units} (k due : Nat) (e : Bytes) (x : Str) (mb : Option Nat) (a : Ans) (n b : Nat) :
    ∃ cnt ms, answerWaiting mb a (addEvent k due e (blkBump n b { v with str := tset v.str k x })) =
      { v with cnt := cnt, mbx := ms, str := tset v.str k { x with outEvts := x.outEvts ++ [(due, e)] } } := by
  obtain ⟨ms, hms⟩ := answerWaiting_frame mb a (addEvent k due e (blkBump n b { v with str := tset v.str k x }))
  have hbump : ∃ cnt, blkBump n b { v with str := tset v.str k x } = { v with cnt := cnt, str := tset v.str k x } := by
    unfold blkBump
    split <;> exact ⟨_, rfl⟩
  obtain ⟨cnt, hcnt⟩ := hbump
  refine ⟨cnt, ms, hms.trans ?_⟩
  rw [hcnt, addEvent, modStr_eq (tget_tset_self ..)]
  simp only [tset_tset]

theorem streamOpenDecision_admits (s : State) (c : Fin 64) (w : Waiting) (m k : Nat) (r : Bytes) (l : List (Nat × Nat))
    (hw : decides s.u c 2 = some w) (hm : w.mb = some m) (hwait : awaits s m) (hsrec : w.srec = some r) (hpol : le w.desc 2 2 ≤ 1023)
    (hcur : (polCur s.u (le w.desc 2 2)).isEmpty = false)
    (hj : sampJudge s c (le w.desc 2 2) (tgetD s.u.ctx c {}).headSlot r = .inl l) (hheld : admissionHeld s.u c = false)
    (hfull : ctxStreams s.u c < (tgetD s.u.ctx c {}).maxStreams) (hslot : allocSlot s.u (tgetD s.u.ctx c {}).cohort = some k)
    (hroom : openChunks r (tgetD s.u.ctx c {}).maxPos = [] ∨
      (s.u.tier.mainUse + (openChunks r (tgetD s.u.ctx c {}).maxPos).length ≤ s.u.tier.pageMain ∧
        (s.u.tier.mainUse + (openChunks r (tgetD s.u.ctx c {}).maxPos).length) * 1024 ≤ s.u.tier.pageMain * s.u.tier.highWm)) :
    ∃ t, exec (.streamOpenDecision c) s = .next t ∧
      answered t m (ok (leBytes 8 (c.val * 2 ^ 24 + nextGen (tgetD s.u.str k {}).gen * 2 ^ 12 + k)
        ++ le8 (s.u.tick.number + 1 + le w.desc 1 1))) ∧
      (tgetD t.u.str k {}).st = .opening ∧ (tgetD t.u.str k {}).gen = nextGen (tgetD s.u.str k {}).gen ∧
      (tgetD t.u.str k {}).ctx = c.val ∧ (tgetD t.u.str k {}).samp = r ∧ (tgetD t.u.str k {}).bias = l ∧
      (tgetD t.u.str k {}).policy = le w.desc 2 2 ∧ (tgetD t.u.str k {}).start = s.u.tick.number + 1 + le w.desc 1 1 ∧
      tkeys (tgetD t.u.str k {}).pages = openChunks r (tgetD s.u.ctx c {}).maxPos ∧
      t.u.tier.mainUse = s.u.tier.mainUse + (openChunks r (tgetD s.u.ctx c {}).maxPos).length ∧
      (∀ j, j ≠ k → tget t.u.str j = tget s.u.str j) ∧
      (tgetD t.u.ctx c {}).waiting = (tgetD s.u.ctx c {}).waiting.erase w ∧ t.q = s.q ∧ t.m = s.m := by
  obtain ⟨cx, hv, hcx, hplain, hadm⟩ := decided_frame c.val s.u hm
  obtain ⟨pages, tr, htake, huse⟩ := openPages_taken (openChunks r (tgetD s.u.ctx c {}).maxPos)
    { s.u with round := (s.u.tick.number, c.val), ctx := cx } hroom
  obtain ⟨e, hgo⟩ := openDecide_admits (v := { s.u with round := (s.u.tick.number, c.val), ctx := cx }) c.val hv hsrec hpol hcur hj
    (hadm.trans hheld) hfull hslot htake
  let x := openedStr { s.u with round := (s.u.tick.number, c.val), ctx := cx, tier := tr } c (tgetD s.u.ctx c {}) w k r l pages
  obtain ⟨cnt, ms, hend⟩ := slotTaken_frame (v := { s.u with round := (s.u.tick.number, c.val), ctx := cx, tier := tr }) k
    (dueTick { s.u with round := (s.u.tick.number, c.val), ctx := cx, tier := tr } (tgetD s.u.ctx c {}).cohort) e x w.mb
    (ok (leBytes 8 (handleOf k x) ++ le8 (s.u.tick.number + 1 + le w.desc 1 1))) 9 1
  have hstep : exec (.streamOpenDecision c) s = .next (openDecide c w s) := by
    show Host.Outcome.next (streamOpenDecision c s) = _
    rw [streamOpenDecision, hw]
  have hself (t : Tbl Str) (y : Str) : tgetD (tset t k y) k {} = y := tgetD_tset_self ..
  refine ⟨_, hstep.trans (congrArg _ hgo), answered_of_waiting (congrArg (fun o => answerWaiting o _ _) hm) hwait ?_,
    ?_, ?_, ?_, ?_, ?_, ?_, ?_, ?_, ?_, ?_, ?_, rfl, rfl⟩
  · rfl
  all_goals rw [hend]
  all_goals simp only [hself]
  · rfl
  · rfl
  · rfl
  · rfl
  · rfl
  · rfl
  · rfl
  · exact tkeys_pageMap_openChunks ..
  · exact huse
  · exact fun j hj => tget_tset_other _ _ hj
  · rw [hcx]

theorem streamOpenDecision_refuses (s : State) (c : Fin 64) (w : Waiting) (m : Nat) (r : Bytes) (l : List (Nat × Nat))
    (hw : decides s.u c 2 = some w) (hm : w.mb = some m) (hwait : awaits s m) (hsrec : w.srec = some r) (hpol : le w.desc 2 2 ≤ 1023)
    (hcur : (polCur s.u (le w.desc 2 2)).isEmpty = false)
    (hj : sampJudge s c (le w.desc 2 2) (tgetD s.u.ctx c {}).headSlot r = .inl l) (cause : Nat)
    (hcause : (cause = 3 ∧ admissionHeld s.u c = true) ∨
      (cause = 1 ∧ admissionHeld s.u c = false ∧ (tgetD s.u.ctx c {}).maxStreams ≤ ctxStreams s.u c)) :
    ∃ t, exec (.streamOpenDecision c) s = .next t ∧ answered t m (bad 1 2 0xFFFF cause) ∧ t.u.str = s.u.str ∧
      t.u.tier = s.u.tier ∧ t.q = s.q ∧ t.m = s.m := by
  obtain ⟨cx, hv, hcx, hplain, hadm⟩ := decided_frame c.val s.u hm
  obtain ⟨hheld, hquota⟩ := openDecide_judged c.val hv hsrec hpol hcur rfl hj
  have hstep : exec (.streamOpenDecision c) s = .next (openDecide c w s) := by
    show Host.Outcome.next (streamOpenDecision c s) = _
    rw [streamOpenDecision, hw]
  refine ⟨_, hstep, ?_⟩
  obtain ⟨rfl, h⟩ | ⟨rfl, h, hfull⟩ := hcause
  · exact refuseOp_answers s (v := { s.u with round := (s.u.tick.number, c.val), ctx := cx }) c.val 0x20 3 hm hwait (by decide) rfl _ (hheld (hadm.trans h))
  · exact refuseOp_answers s (v := { s.u with round := (s.u.tick.number, c.val), ctx := cx }) c.val 0x20 1 hm hwait (by decide) rfl _ (hquota (hadm.trans h) hfull)

/- Pauses (R279). -/
/-- With room enough no saved state is forced out. -/
theorem forceRoom_none {n : Nat} (before : Option Nat) (l : List (Nat × Saved)) (h : n ≤ roomAt u 0) :
    forceRoom n before l u = some u := by
  cases l <;> exact if_pos h

theorem pauseDecision_admits (s : State) (c : Fin 64) (w : Waiting) (m k e : Nat) (x : Str) (hw : decides s.u c 3 = some w)
    (hm : w.mb = some m) (hwait : awaits s m) (htar : le w.desc 1 1 = 0) (hf : pauseFault s.u (le w.desc 12 4) 0 = none)
    (hk : handleSlotOf s.u c (le w.desc 8 4) = .inl k) (hx : tget s.u.str k = some x) (hheld : heldPlain s.u c = false)
    (hroom : x.pages.length + 1 ≤ roomAt s.u 0) (he : freeEntry s.u = some e) (hst : x.st = .active ∨ x.st = .waiting)
    (hp : x.pause = none) (hc : x.cancelAt = none) (hcnt : tgetD s.u.tier.useCount e 0 < 0xFFFF) :
    ∃ t, exec (.pauseDecision c) s = .next t ∧
      answered t m (ok (leBytes 4 ((tgetD s.u.tier.useCount e 0 + 1) * 65536 + e))) ∧
      tget t.u.str k = some { x with pause := some {
        id := (tgetD s.u.tier.useCount e 0 + 1) * 65536 + e, target := 0, room := x.pages.length + 1
        ttl := if le w.desc 12 4 = 0 then (tgetD s.u.ctx c {}).defTtl else le w.desc 12 4
        at_ := s.u.tick.number } } ∧
      (∀ j, j ≠ k → tget t.u.str j = tget s.u.str j) ∧ t.u.tier.saved = s.u.tier.saved ∧ t.q = s.q ∧ t.m = s.m := by
  obtain ⟨cx, hv, hcx, hplain, hadm⟩ := decided_frame c.val s.u hm
  let v : Units := { s.u with round := (s.u.tick.number, c.val), ctx := cx }
  have hheld' : heldPlain v c.val = false := hplain.trans hheld
  have hf' : pauseFault v (le w.desc 12 4) 0 = none := hf
  have hk' : handleSlotOf v c.val (le w.desc 8 4) = .inl k := hk
  have he' : freeEntry v = some e := he
  have hx' : tget v.str k = some x := hx
  let ttl := if le w.desc 12 4 = 0 then (tgetD s.u.ctx c {}).defTtl else le w.desc 12 4
  have hroom' (t : Nat) : pauseRoom v 0 (x.pages.length + 1) t = some v := (if_pos rfl).trans (forceRoom_none _ _ hroom)
  have hcnt' : ¬ 0xFFFF ≤ tgetD v.tier.useCount e 0 := Nat.not_le.mpr hcnt
  have hgo : ¬ ((x.st ≠ .active ∧ x.st ≠ .waiting) ∨ x.pause.isSome = true ∨ x.cancelAt.isSome = true) := by
    rw [hp, hc]
    obtain h | h := hst <;> simp [h]
  have hstep : pauseDecision c s.u = answerWaiting (some m) (ok (leBytes 4 ((tgetD s.u.tier.useCount e 0 + 1) * 65536 + e)))
      { v with
        tier := { v.tier with useCount := tset v.tier.useCount e (tgetD s.u.tier.useCount e 0 + 1) }
        str := tset v.str k { x with pause := some {
          id := (tgetD s.u.tier.useCount e 0 + 1) * 65536 + e, ttl := ttl, target := 0, room := x.pages.length + 1
          at_ := s.u.tick.number } } } := by
    have hdec : pauseDecision c s.u = pauseDecide c w s.u := by rw [pauseDecision, hw]
    rw [hdec, pauseDecide]
    simp only [show decided c w s.u = v from hv, htar, hf', hk', hheld', he', hm, tgetD_of_tget hx', hroom', Bool.false_eq_true, if_false,
      if_neg (show ¬ 0 = 255 by decide), if_neg hgo, if_neg hcnt']
    refine congrArg (answerWaiting _ _) ?_
    rw [modStr_eq (x := x)]
    exact hx'
  refine ⟨_, next_of_units hstep, answered_of_waiting rfl hwait rfl, ?_⟩
  obtain ⟨ms, hms⟩ := answerWaiting_frame (some m) (ok (leBytes 4 ((tgetD s.u.tier.useCount e 0 + 1) * 65536 + e))) { v with
    tier := { v.tier with useCount := tset v.tier.useCount e (tgetD s.u.tier.useCount e 0 + 1) }
    str := tset v.str k { x with pause := some {
      id := (tgetD s.u.tier.useCount e 0 + 1) * 65536 + e, ttl := ttl, target := 0, room := x.pages.length + 1
      at_ := s.u.tick.number } } }
  rw [hms]
  exact ⟨tget_tset_self .., fun j hj => tget_tset_other _ _ hj, rfl, rfl, rfl⟩

/- Resumes without a sampling record of their own (R284, R266). -/
theorem resumeChunks_lagless {v : Saved} {samp : Bytes} (h : lagOf samp = 0) : resumeChunks v samp = [] := if_pos h
/-- What refuses a resume once its context may have one more stream and its pages are taken. -/
theorem resumeDecide_refuses (c : Nat) {v : Units} {cause : Nat} (hv : decided c w s.u = v) (hhas : le w.desc 1 1 = 0)
    (hheld : admissionHeld v c = false) (hfull : ctxStreams v c < (tgetD s.u.ctx c {}).maxStreams)
    (hlag : ∀ e, savedOf v c (le w.desc 8 4) = some e → lagOf e.2.str.samp = 0)
    (hc : resumeCause v (savedOf v c (le w.desc 8 4))
      (match savedOf v c (le w.desc 8 4) with | some e => e.2.str | none => {}).samp = cause) (h0 : cause ≠ 0) :
    resumeDecide c w s = { s with u := refuseOp c 0x22 cause 0 w v } := by
  cases hsv : savedOf v c (le w.desc 8 4) with
  | none =>
    rw [hsv] at hc
    have hfive : cause = 5 := hc.symm
    subst hfive
    simp only [resumeDecide, hv, hsv, hhas, if_neg (show ¬ 1 < 0 by decide), if_true, hheld, Bool.false_eq_true, if_false,
      if_neg (Nat.not_le.mpr hfull), List.length_nil, resumePages, resumeCause, if_neg (show ¬ 5 = 0 by decide)]
  | some e =>
    obtain ⟨e, x⟩ := e
    rw [hsv] at hc
    simp only [resumeDecide, hv, hsv, hhas, if_neg (show ¬ 1 < 0 by decide), if_true, hheld, Bool.false_eq_true, if_false,
      if_neg (Nat.not_le.mpr hfull), resumeChunks_lagless (hlag (e, x) hsv), List.length_nil, resumePages, hc]
    obtain ⟨n, rfl⟩ := Nat.exists_eq_succ_of_ne_zero h0
    rfl

theorem resumeDecision_step (c : Fin 64) (hw : decides s.u c 4 = some w) :
    exec (.resumeDecision c) s = .next (resumeDecide c w s) := by
  show Host.Outcome.next (resumeDecision c s) = _
  rw [resumeDecision, hw]

/-- The slot that a resume without pages and without a sampling record of its own takes. -/
def resumedStr (u : Units) (x : Ctx) (w : Waiting) (k : Nat) (v : Saved) : Str :=
  { v.str with
      gen := nextGen (tgetD u.str k {}).gen, st := .resuming, cohort := x.cohort, hostTag := le w.desc 4 4
      start := u.tick.number + 2, headSlot := x.headSlot, ansSlot := boundAns u v.str.policy v.str.samp
      stepped := v.str.stepped.filter (fun n => n == x.headSlot || n == boundAns u v.str.policy v.str.samp)
      restoring := v.id, pages := [], copyFail := false }

theorem resumeDecision_admits (s : State) (c : Fin 64) (w : Waiting) (m k e : Nat) (v : Saved) (hw : decides s.u c 4 = some w)
    (hm : w.mb = some m) (hwait : awaits s m) (hhas : le w.desc 1 1 = 0) (hsv : savedOf s.u c (le w.desc 8 4) = some (e, v))
    (htab : tget s.u.tier.saved e = some v) (hst : v.st = 1) (hlag : lagOf v.str.samp = 0)
    (himg : v.imageId = ansImage s.u v.str.policy 255) (hheld : admissionHeld s.u c = false)
    (hfull : ctxStreams s.u c < (tgetD s.u.ctx c {}).maxStreams) (hslot : allocSlot s.u (tgetD s.u.ctx c {}).cohort = some k) :
    ∃ t, exec (.resumeDecision c) s = .next t ∧
      answered t m (ok (leBytes 4 (v.str.ctx * 2 ^ 24 + nextGen (tgetD s.u.str k {}).gen * 2 ^ 12 + k) ++ leBytes 4 v.str.pos
        ++ le8 (s.u.tick.number + 2))) ∧
      (tgetD t.u.str k {}).st = .resuming ∧ (tgetD t.u.str k {}).restoring = v.id ∧ (tgetD t.u.str k {}).pos = v.str.pos ∧
      (tgetD t.u.str k {}).samp = v.str.samp ∧ (tgetD t.u.str k {}).start = s.u.tick.number + 2 ∧
      tget t.u.tier.saved e = some { v with st := 3 } ∧ (∀ j, j ≠ k → tget t.u.str j = tget s.u.str j) ∧
      t.q = s.q ∧ t.m = s.m := by
  obtain ⟨cx, hv, hcx, hplain, hadm⟩ := decided_frame c.val s.u hm
  let v' : Units := { s.u with round := (s.u.tick.number, c.val), ctx := cx }
  have hsv' : savedOf v' c (le w.desc 8 4) = some (e, v) := hsv
  have hheld' : admissionHeld v' c = false := hadm.trans hheld
  have hfull' : ¬ (tgetD s.u.ctx c {}).maxStreams ≤ ctxStreams v' c := Nat.not_le.mpr hfull
  have hslot' : allocSlot v' (tgetD s.u.ctx c {}).cohort = some k := hslot
  have hcause : resumeCause v' (some (e, v)) v.str.samp = 0 := by
    have hb : boundAns v' v.str.policy v.str.samp = 255 := if_pos hlag
    have hi : ¬ v.imageId ≠ ansImage v' v.str.policy 255 := not_not_intro himg
    simp only [resumeCause, hst, hb, if_neg hi, if_neg (show ¬ 1 = 2 by decide), if_neg (show ¬ 1 ≠ 1 by decide)]
  let x := resumedStr v' (tgetD s.u.ctx c {}) w k v
  let ev := eventEntry 0x22 0 0 x.hostTag (handleOf k x) v.id x.pos 0 (s.u.tick.number + 2) 0
  let a := ok (leBytes 4 (handleOf k x) ++ leBytes 4 x.pos ++ le8 (s.u.tick.number + 2))
  let tr : Tiers := { s.u.tier with saved := tset s.u.tier.saved e { v with st := 3 } }
  have hmod : modSaved e (fun s => { s with st := 3 }) (blkBump 9 1 { v' with str := tset v'.str k x }) =
      blkBump 9 1 { { v' with tier := tr } with str := tset v'.str k x } := by
    have hput : tupd s.u.tier.saved e (fun s => { s with st := 3 }) = tset s.u.tier.saved e { v with st := 3 } := by
      rw [tupd, htab]
    exact congrArg (fun sv => blkBump 9 1 { { v' with tier := { s.u.tier with saved := sv } } with str := tset v'.str k x }) hput
  let wv := addEvent k (dueTick v' (tgetD s.u.ctx c {}).cohort) ev
    (modSaved e (fun s => { s with st := 3 }) (blkBump 9 1 { v' with str := tset v'.str k x }))
  have hgo : resumeDecide c w s = { s with u := answerWaiting w.mb a wv } := by
    simp only [resumeDecide, show decided c w s.u = v' from hv, hsv', hhas, if_neg (show ¬ 1 < 0 by decide), if_true, hheld',
      Bool.false_eq_true, if_false, if_neg hfull', resumeChunks_lagless hlag, List.length_nil, resumePages, hcause, hslot',
      Nat.min_zero, addMove]
    rfl
  obtain ⟨cnt, ms, hend⟩ := slotTaken_frame (v := { v' with tier := tr }) k (dueTick v' (tgetD s.u.ctx c {}).cohort) ev x w.mb a 9 1
  rw [← hmod] at hend
  have hself (t : Tbl Str) (y : Str) : tgetD (tset t k y) k {} = y := tgetD_tset_self ..
  refine ⟨_, (resumeDecision_step c hw).trans (congrArg _ hgo), answered_of_waiting (congrArg (fun o => answerWaiting o a wv) hm) hwait
    rfl, ?_, ?_, ?_, ?_, ?_, ?_, ?_, rfl, rfl⟩
  all_goals rw [hend]
  all_goals simp only [hself]
  · rfl
  · rfl
  · rfl
  · rfl
  · rfl
  · exact tget_tset_self ..
  · exact fun j hj => tget_tset_other _ _ hj

/-- Settles O42: each decision is run on the state its waiting entry has left, and what its slot then holds is read off. -/
theorem streamDecisions : Obligations.StreamDecisions := by
  refine ⟨streamOpenDecision_admits, ?quota, ?held, ?idle, pauseDecision_admits, resumeDecision_admits, ?unknown, ?image⟩
  case quota =>
    intro s c w m r l hw hm hwait hsrec hpol hcur hj hheld hfull
    exact streamOpenDecision_refuses s c w m r l hw hm hwait hsrec hpol hcur hj 1 (.inr ⟨rfl, hheld, hfull⟩)
  case held =>
    intro s c w m r l hw hm hwait hsrec hpol hcur hj hheld
    exact streamOpenDecision_refuses s c w m r l hw hm hwait hsrec hpol hcur hj 3 (.inl ⟨rfl, hheld⟩)
  case idle =>
    intro s c hw
    show Host.Outcome.next (streamOpenDecision c s) = _
    rw [streamOpenDecision, hw]
  case unknown =>
    intro s c w m hw hm hwait hhas hsv hheld hfull
    obtain ⟨cx, hv, -, -, hadm⟩ := decided_frame c.val s.u hm
    let v' : Units := { s.u with round := (s.u.tick.number, c.val), ctx := cx }
    have hsv' : savedOf v' c (le w.desc 8 4) = none := hsv
    exact ⟨_, resumeDecision_step c hw, refuseOp_answers s (v := v') c.val 0x22 5 hm hwait (by decide) rfl _
      (resumeDecide_refuses c.val hv hhas (hadm.trans hheld) hfull (fun e he => by rw [hsv'] at he; cases he)
        (by rw [hsv']; rfl) (by decide))⟩
  case image =>
    intro s c w m e v hw hm hwait hhas hsv hst hlag himg hheld hfull
    obtain ⟨cx, hv, -, -, hadm⟩ := decided_frame c.val s.u hm
    let v' : Units := { s.u with round := (s.u.tick.number, c.val), ctx := cx }
    have hsv' : savedOf v' c (le w.desc 8 4) = some (e, v) := hsv
    have hcause : resumeCause v' (some (e, v)) v.str.samp = 7 := by
      have hb : boundAns v' v.str.policy v.str.samp = 255 := if_pos hlag
      have hi : v.imageId ≠ ansImage v' v.str.policy 255 := himg
      simp only [resumeCause, hst, hb, if_pos hi, if_neg (show ¬ 1 = 2 by decide), if_neg (show ¬ 1 ≠ 1 by decide)]
    refine ⟨_, resumeDecision_step c hw, refuseOp_answers s (v := v') c.val 0x22 7 hm hwait (by decide) rfl _
      (resumeDecide_refuses c.val hv hhas (hadm.trans hheld) hfull (fun e' he => ?_) (by rw [hsv']; exact hcause) (by decide))⟩
    rw [hsv'] at he
    rw [← Option.some.inj he]
    exact hlag

end Sys2Proof.Machine
end

section
/-! PROOFS. Streams at their boundaries (09, R267, R276 to R289). -/
namespace Sys2Proof.Machine

variable {s : State} {u v w : Units} {l l' : List Nat}

/- Seats (R287). -/
/-- Seats given and taken among the streams of a list: of each only its slot's state, its seat and its wait change. -/
structure SeatsOf (l : List Nat) (u v : Units) : Prop where
  frame : ∃ t, v = { u with str := t }
  same : ∀ n, n ∉ l → tget v.str n = tget u.str n
  seat : ∀ n x, tget u.str n = some x → ∃ a b c, tget v.str n = some { x with st := a, seat := b, waitSince := c }
  sorted : Tsorted u.str = true → Tsorted v.str = true

theorem SeatsOf.refl (l : List Nat) (u : Units) : SeatsOf l u u :=
  ⟨⟨u.str, rfl⟩, fun _ _ => rfl, fun _ x h => ⟨x.st, x.seat, x.waitSince, h⟩, id⟩
theorem SeatsOf.trans (h : SeatsOf l u v) (h' : SeatsOf l' v w) (hl : ∀ n, n ∈ l' → n ∈ l) : SeatsOf l u w where
  frame := by
    obtain ⟨t, rfl⟩ := h.frame
    obtain ⟨t', rfl⟩ := h'.frame
    exact ⟨t', rfl⟩
  same n hn := (h'.same n (fun hm => hn (hl n hm))).trans (h.same n hn)
  seat n x hx := by
    obtain ⟨a, b, c, hy⟩ := h.seat n x hx
    obtain ⟨a', b', c', hz⟩ := h'.seat n _ hy
    exact ⟨a', b', c', hz⟩
  sorted hs := h'.sorted (h.sorted hs)
theorem SeatsOf.mono (h : SeatsOf l u v) (hl : ∀ n, n ∈ l → n ∈ l') : SeatsOf l' u v :=
  ⟨h.frame, fun n hn => h.same n (fun hm => hn (hl n hm)), h.seat, h.sorted⟩

theorem seatsOf_modStr (n : Nat) (f : Str → Str) (u : Units)
    (hf : ∀ x, ∃ a b c, f x = { x with st := a, seat := b, waitSince := c }) : SeatsOf [n] u (modStr n f u) where
  frame := ⟨_, rfl⟩
  same k hk := tget_tupd_other _ _ (fun h => hk (by rw [h]; exact List.mem_singleton.mpr rfl))
  seat k x hx := by
    by_cases h : k = n
    · subst h
      obtain ⟨a, b, c, hfx⟩ := hf x
      refine ⟨a, b, c, ?_⟩
      rw [modStr_eq hx, ← hfx]
      exact tget_tset_self ..
    · exact ⟨x.st, x.seat, x.waitSince, (tget_tupd_other _ _ h).trans hx⟩
  sorted hs := by
    show Tsorted (tupd u.str n f) = true
    unfold tupd
    split
    · exact tsorted_tset _ _ hs
    · exact hs
theorem seatOrWait_seats (n : Nat) (u : Units) : SeatsOf [n] u (seatOrWait n u) := by
  unfold seatOrWait
  simp only
  generalize (if boundOk u (tgetD u.str n {}) = true then freeSeat u (tgetD u.str n {}).headSlot (tgetD u.str n {}).cohort
    else none) = r
  cases r with
  | some r => exact seatsOf_modStr n _ u fun x => ⟨.active, some r, x.waitSince, rfl⟩
  | none =>
    refine seatsOf_modStr n _ u fun x => ?_
    split
    · exact ⟨x.st, x.seat, x.waitSince, rfl⟩
    · exact ⟨.waiting, none, boundTick u (tgetD u.str n {}).cohort, rfl⟩
theorem reseat_seats (n : Nat) (u : Units) : SeatsOf [n] u (reseat n u) := by
  have hlost : SeatsOf [n] u (modStr n (fun s => { s with seat := none }) u) :=
    seatsOf_modStr n _ u fun x => ⟨x.st, none, x.waitSince, rfl⟩
  unfold reseat
  simp only
  split
  · exact hlost.trans (seatOrWait_seats n _) fun _ h => h
  · split
    · next r _ => exact hlost.trans (seatsOf_modStr n _ _ fun x => ⟨x.st, some r, x.waitSince, rfl⟩) fun _ h => h
    · exact hlost
theorem forAll_seats {f : Nat → Units → Units} (hf : ∀ n u, SeatsOf [n] u (f n u)) (l : List Nat) (u : Units) :
    SeatsOf l u (forAll l f u) := by
  induction l generalizing u with
  | nil => exact SeatsOf.refl [] u
  | cons n l ih =>
    refine ((hf n u).mono (l' := n :: l) (by simp)).trans (ih (f n u)) fun k hk => List.mem_cons_of_mem n hk

/-- An entry of a table whose indices rise is the one read under its index. -/
theorem tget_of_mem {α : Type} {t : Tbl α} (hs : Tsorted t = true) {k : Nat} {a : α} (h : (k, a) ∈ t) : tget t k = some a := by
  induction t with
  | nil => cases h
  | cons e r ih =>
    obtain ⟨i, b⟩ := e
    simp only [Tsorted, Bool.and_eq_true, List.all_eq_true, decide_eq_true_eq] at hs
    obtain ⟨hall, hr⟩ := hs
    obtain h | h := List.mem_cons.mp h
    · cases h
      simp [tget]
    · have hne : k ≠ i := fun hk => Nat.lt_irrefl i (hk ▸ hall _ h)
      simp only [tget, hne, if_false]
      exact ih hr h

theorem mem_sortBy {α : Type} {b : α → α → Bool} {x : α} {l : List α} : x ∈ sortBy b l ↔ x ∈ l := by
  have hins (y : α) (r : List α) : x ∈ insertBy b y r ↔ x = y ∨ x ∈ r := by
    induction r with
    | nil => simp [insertBy]
    | cons z r ih =>
      simp only [insertBy]
      split
      · simp only [List.mem_cons, ih]
        exact or_left_comm
      · simp
  induction l with
  | nil => rfl
  | cons y l ih => exact (hins y (sortBy b l)).trans ((or_congr_right ih).trans List.mem_cons.symm)

/-- The streams whose seats an assignment of a cohort may change. -/
theorem seatAssign_seats (c : Nat) (u : Units) :
    ∃ l, SeatsOf l u (seatAssign c u) ∧ ∀ n x, Tsorted u.str = true → tget u.str n = some x → x.cohort ≠ c → n ∉ l := by
  unfold seatAssign
  split
  · exact ⟨[], SeatsOf.refl [] u, fun _ _ _ _ _ h => by cases h⟩
  · simp only
    generalize hl : (u.str.filter (fun e => (e.2.st == .active || e.2.st == .draining) && e.2.cohort == c &&
      seatLost u e.2)).map (·.1) = lost
    have hreseat := forAll_seats reseat_seats lost u
    generalize forAll lost reseat u = v at hreseat
    generalize hw : (sortBy (fun (a b : Nat × Str) => a.2.waitSince < b.2.waitSince || (a.2.waitSince == b.2.waitSince && a.1 < b.1))
      (v.str.filter (fun e => e.2.st == .waiting && e.2.cohort == c))).map (·.1) = wait
    refine ⟨lost ++ wait, (hreseat.mono (by simp +contextual)).trans (forAll_seats seatOrWait_seats wait v)
      (by simp +contextual), fun n x hs hx hne hmem => ?_⟩
    have hlost : n ∉ lost := by
      intro hm
      rw [← hl] at hm
      obtain ⟨e, he, rfl⟩ := List.mem_map.mp hm
      obtain ⟨hin, hsel⟩ := List.mem_filter.mp he
      simp only [Bool.and_eq_true, beq_iff_eq] at hsel
      rw [tget_of_mem (a := e.2) hs hin] at hx
      exact hne (by rw [← Option.some.inj hx]; exact hsel.1.2)
    obtain hm | hm := List.mem_append.mp hmem
    · exact hlost hm
    · rw [← hw] at hm
      obtain ⟨e, he, rfl⟩ := List.mem_map.mp hm
      obtain ⟨hin, hsel⟩ := List.mem_filter.mp (mem_sortBy.mp he)
      simp only [Bool.and_eq_true, beq_iff_eq] at hsel
      have hx' : tget v.str e.1 = some x := (hreseat.same _ hlost).trans hx
      rw [tget_of_mem (a := e.2) (hreseat.sorted hs) hin] at hx'
      exact hne (by rw [← Option.some.inj hx']; exact hsel.2)

theorem seatOrWait_seated {x : Str} (hx : tget u.str n = some x) (hb : boundOk u x = true) (hr : freeSeat u x.headSlot x.cohort = some r) :
    seatOrWait n u = { u with str := tset u.str n { x with st := .active, seat := some r } } := by
  unfold seatOrWait
  simp only [tgetD_of_tget hx, hb, if_true, hr]
  exact modStr_eq hx _
theorem seatOrWait_waits {x : Str} (hx : tget u.str n = some x) (hb : boundOk u x = false ∨ freeSeat u x.headSlot x.cohort = none)
    (hst : x.st ≠ .waiting) :
    seatOrWait n u = { u with str := tset u.str n { x with st := .waiting, seat := none, waitSince := boundTick u x.cohort } } := by
  have hnone : (if boundOk u x = true then freeSeat u x.headSlot x.cohort else none) = none := by
    split
    · next h =>
      obtain hb | hb := hb
      · rw [hb] at h
        cases h
      · exact hb
    · rfl
  unfold seatOrWait
  simp only [tgetD_of_tget hx, hnone]
  rw [modStr_eq hx]
  simp only [if_neg hst]

theorem seatAssign_one (s : State) (c : Fin 2) (n r : Nat) (x : Str) (hat : atBoundary s.u c = true) (hstr : s.u.str = [(n, x)])
    (hst : x.st = .waiting) (hc : x.cohort = c.val) (hb : boundOk s.u x = true) (hr : freeSeat s.u x.headSlot x.cohort = some r) :
    exec (.seatAssign c) s = .next (onUnits (fun u => { u with str := [(n, { x with st := .active, seat := some r })] }) s) := by
  have hx : tget s.u.str n = some x := by simp [hstr, tget]
  refine next_of_units (f := seatAssign c) ?_
  have hlost : ((x.st == .active || x.st == .draining) && x.cohort == c.val && seatLost s.u x) = false := by simp [hst]
  have hwait : (x.st == .waiting && x.cohort == c.val) = true := by simp [hst, hc]
  have hput : tset s.u.str n { x with st := .active, seat := some r } = [(n, { x with st := .active, seat := some r })] := by
    rw [hstr]
    simp [tset]
  have hrun : seatAssign c s.u = seatOrWait n s.u := by
    rw [seatAssign, hat]
    simp only [Bool.not_true, Bool.false_eq_true, if_false, hstr, List.filter_cons, hlost, List.filter_nil, List.map_nil, forAll,
      List.foldl_nil, hwait, if_true, sortBy, insertBy, List.map_cons, List.foldl_cons]
  exact (hrun.trans (seatOrWait_seated hx hb hr)).trans (congrArg (fun t => { s.u with str := t }) hput)

/- Starts (R267). -/
/-- A stream that starts, the first of its boundary, takes a seat or waits. -/
theorem streamStart_first (s : State) (n : Fin 4096) (x : Str) (hx : tget s.u.str n = some x) (hst : x.st = .opening)
    (hstart : x.start ≤ boundTick s.u x.cohort) (hcur : s.u.tick.st = .current) (hat : atBoundary s.u x.cohort = true)
    (hc : x.cancelAt = none) (hseats : seatAssign x.cohort s.u = s.u)
    (hlow : ∀ e, e ∈ s.u.str → e.1 < n.val → e.2.st ≠ .opening ∧ e.2.st ≠ .resuming) :
    streamStart n s.u = seatOrWait n s.u := by
  have hdue : startDue s.u x = true := by simp [startDue, hst, hstart, hcur, cancelDue, hc]
  have hgo : ¬ ((!startDue s.u x) = true ∨ (!atBoundary s.u x.cohort) = true) := by simp [hdue, hat]
  have hstarts : s.u.str.filter (fun e => decide (e.1 < n.val) && e.2.cohort == x.cohort && startDue s.u e.2) = [] := by
    refine List.filter_eq_nil_iff.mpr fun e he => ?_
    simp only [Bool.and_eq_true, decide_eq_true_eq, beq_iff_eq, not_and]
    intro ⟨hlt, _⟩ hd
    have hne := (hlow e he hlt).1
    simp [startDue, hne] at hd
  have hkept : s.u.str.filter (fun e => decide (e.1 < n.val) && e.2.cohort == x.cohort && e.2.headSlot == x.headSlot &&
      pageInReady s.u e.1 e.2) = [] := by
    refine List.filter_eq_nil_iff.mpr fun e he => ?_
    simp only [Bool.and_eq_true, decide_eq_true_eq, beq_iff_eq, not_and]
    intro ⟨⟨hlt, _⟩, _⟩ hd
    have hne := (hlow e he hlt).2
    simp [pageInReady, hne] at hd
  simp only [streamStart, tgetD_of_tget hx, if_neg hgo, seatInOrder, hseats, hstarts, List.map_nil, forAll, List.foldl_nil, hkept,
    List.length_nil, ne_eq, not_true_eq_false, false_and, if_false]

/- Leaving a slot (R276, R277). -/
/-- Pages given up change what local tier 2 holds and what awaits its crediting; what awaits it already stays. -/
theorem freePageAll_frame (l : List Page) (u : Units) :
    ∃ a b, forAll l freePage u = { u with tier := { u.tier with t2 := a, freed := b } } ∧ (∀ p, p ∈ u.tier.freed → p ∈ b) ∧
      ∀ p, p ∈ l → p.tier2 = false → p.page ∈ b := by
  induction l generalizing u with
  | nil => exact ⟨u.tier.t2, u.tier.freed, rfl, fun _ h => h, fun _ h => by cases h⟩
  | cons p l ih =>
    have hone : ∃ a b, freePage p u = { u with tier := { u.tier with t2 := a, freed := b } } ∧ (∀ q, q ∈ u.tier.freed → q ∈ b) ∧
        (p.tier2 = false → p.page ∈ b) := by
      unfold freePage
      cases htwo : p.tier2 <;> cases hto : p.to_ <;> refine ⟨_, _, rfl, ?_, ?_⟩ <;> simp +contextual
    obtain ⟨a, b, hfree, hold, hnew⟩ := hone
    obtain ⟨a', b', hrest, hold', hnew'⟩ := ih (freePage p u)
    have hkeep (q : Nat) (hq : q ∈ b) : q ∈ b' := hold' q (by rw [hfree]; exact hq)
    refine ⟨a', b', ?_, fun q hq => hkeep q (hold q hq), fun q hq htwo => ?_⟩
    · show forAll l freePage (freePage p u) = _
      rw [hrest, hfree]
    · obtain rfl | hq := List.mem_cons.mp hq
      · exact hkeep _ (hnew htwo)
      · exact hnew' q hq htwo

theorem dropMoves_frame (f : MoveId → Bool) (u : Units) :
    ∃ tx wt, dropMoves f u = { u with tier := { u.tier with moves := u.tier.moves.filter (fun m => !f m.id), txns := tx, waitTx := wt } } :=
  ⟨_, _, rfl⟩

/-- The pages of a stream that a condition on their chunk selects, given up: the stream keeps the others. -/
theorem freePages_frame {x : Str} (n : Nat) (f : Nat → Bool) (u : Units) (hx : tget u.str n = some x) :
    ∃ a b g tx wt, freePages n f u = { u with
        str := tset u.str n { x with pages := x.pages.filter (fun e => !f e.1) }
        tier := { u.tier with t2 := a, freed := b, moves := u.tier.moves.filter g, txns := tx, waitTx := wt } } ∧
      (∀ p, p ∈ u.tier.freed → p ∈ b) ∧ ∀ p, p ∈ x.pages → f p.1 = true → p.2.tier2 = false → p.2.page ∈ b := by
  obtain ⟨a, b, hfree, hold, hnew⟩ := freePageAll_frame ((x.pages.filter (fun e => f e.1)).map (·.2)) u
  let mine (i : MoveId) : Bool := match i with | .back k c => k == n && f c | _ => false
  obtain ⟨tx, wt, hdrop⟩ := dropMoves_frame mine
    { u with
        str := tset u.str n { x with pages := x.pages.filter (fun e => !f e.1) }
        tier := { u.tier with t2 := a, freed := b } }
  refine ⟨a, b, fun m => !mine m.id, tx, wt, Eq.trans ?_ hdrop, hold,
    fun p hp hf htwo => hnew p.2 (List.mem_map.mpr ⟨p, List.mem_filter.mpr ⟨hp, hf⟩, rfl⟩) htwo⟩
  rw [freePages, tgetD_of_tget hx]
  simp only
  rw [hfree]
  exact congrArg (dropMoves mine) (modStr_eq (x := x) (by exact hx) _)

/-- What is owed to a context for a stream that has left its slot. -/
def goneOf (n : Nat) (x : Str) (evts : List (Nat × Bytes)) (ind : Bool) : Gone :=
  { slot := n, handle := handleOf n x, toks := x.outToks, evts := x.outEvts ++ evts, since := x.since
    endInd := if ind then some (x.pos, x.rew) else none }

theorem leaveSlot_frame {x : Str} (n : Nat) (evts : List (Nat × Bytes)) (ind : Bool) (u : Units) (hx : tget u.str n = some x) :
    ∃ a b g tx wt, leaveSlot n evts ind u = { u with
        str := tset u.str n { gen := x.gen, ctx := x.ctx, cohort := x.cohort }
        mat := { u.mat with replay := u.mat.replay.filter (fun y => y.1 != n) }
        ctx := if !(goneOf n x evts ind).toks.isEmpty || !(goneOf n x evts ind).evts.isEmpty || ind then
          tmod u.ctx x.ctx {} (fun c => { c with gone := c.gone ++ [goneOf n x evts ind] }) else u.ctx
        tier := { u.tier with t2 := a, freed := b, moves := u.tier.moves.filter g, txns := tx, waitTx := wt } } ∧
      ∀ p, p ∈ x.pages → p.2.tier2 = false → p.2.page ∈ b := by
  obtain ⟨a, b, g, tx, wt, hfree, -, hnew⟩ := freePages_frame n (fun _ => true) u hx
  obtain ⟨tx', wt', hdrop⟩ := dropMoves_frame (fun i => i == .resume n || i == .pause n) (freePages n (fun _ => true) u)
  refine ⟨a, b, fun m => !(m.id == .resume n || m.id == .pause n) && g m, tx', wt', ?_, fun p hp => hnew p hp rfl⟩
  rw [leaveSlot, tgetD_of_tget hx]
  simp only
  rw [hdrop, hfree]
  simp only [tset_tset, List.filter_filter]
  rfl

theorem streamCancelEffect_leaves (s : State) (n : Fin 4096) (k : Nat) (x : Str) (hx : tget s.u.str n = some x) (hfree : x.st ≠ .free)
    (hclosing : x.st ≠ .closing) (hres : x.st ≠ .resuming) (hopen : x.st ≠ .opening) (hp : x.pause = none) (hc : x.cancelAt = some k)
    (hcoast : k ≠ coastEnd) (hk : k ≤ boundTick s.u x.cohort) (hrun : running s.u = true) :
    ∃ t, exec (.streamCancelEffect n) s = .next t ∧
      tget t.u.str n = some { gen := x.gen, ctx := x.ctx, cohort := x.cohort } ∧
      (tgetD t.u.ctx x.ctx {}).gone = (tgetD s.u.ctx x.ctx {}).gone ++ [{ slot := n.val, handle := handleOf n x, toks := x.outToks
                                                                          evts := x.outEvts ++ [(boundTick s.u x.cohort,
                                                                            endEntry n x 5 0x30 (boundTick s.u x.cohort))]
                                                                          since := x.since, endInd := some (x.pos, x.rew) }] ∧
      (∀ p, p ∈ x.pages → p.2.tier2 = false → p.2.page ∈ t.u.tier.freed) ∧ (∀ j, j ≠ n.val → tget t.u.str j = tget s.u.str j) ∧
      t.q = s.q ∧ t.m = s.m := by
  have hdue : cancelDue s.u x = true := by simp [cancelDue, hc, hcoast, hk]
  have hgo : ¬ ((!holds x) = true ∨ x.st = .closing ∨ (!cancelDue s.u x) = true ∨ (!running s.u) = true) := by
    simp [holds, hfree, hclosing, hdue, hrun]
  have hreason : ¬ (x.st = .opening ∧ boundTick s.u x.cohort ≤ x.start) := fun h => hopen h.1
  have hstep : streamCancelEffect n s.u =
      leaveSlot n [(boundTick s.u x.cohort, endEntry n x 5 0x30 (boundTick s.u x.cohort))] true s.u := by
    simp only [streamCancelEffect, tgetD_of_tget hx, if_neg hgo, if_neg hreason, if_neg hres, pauseGiveUp, hp]
  obtain ⟨a, b, g, tx, wt, hleave, hpages⟩ := leaveSlot_frame n
    [(boundTick s.u x.cohort, endEntry n x 5 0x30 (boundTick s.u x.cohort))] true s.u hx
  refine ⟨_, next_of_units (hstep.trans hleave), tget_tset_self .., ?_, hpages, fun j hj => tget_tset_other _ _ hj, rfl, rfl⟩
  simp only [Bool.or_true, if_true]
  exact congrArg Ctx.gone (tgetD_tset_self ..)

theorem streamSlotFree_leaves (s : State) (n : Fin 4096) (x : Str) (hx : tget s.u.str n = some x) (hst : x.st = .closing)
    (hat : x.closeAt ≤ boundTick s.u x.cohort) :
    ∃ t, exec (.streamSlotFree n) s = .next t ∧ tget t.u.str n = some { gen := x.gen, ctx := x.ctx, cohort := x.cohort } ∧
      (∀ j, j ≠ n.val → tget t.u.str j = tget s.u.str j) ∧ t.q = s.q ∧ t.m = s.m := by
  have hgo : ¬ (x.st ≠ .closing ∨ boundTick s.u x.cohort < x.closeAt) := by
    simp [hst]
    omega
  have hstep : streamSlotFree n s.u = leaveSlot n [] false s.u := by
    simp only [streamSlotFree, tgetD_of_tget hx, if_neg hgo]
  obtain ⟨a, b, g, tx, wt, hleave, -⟩ := leaveSlot_frame n [] false s.u hx
  exact ⟨_, next_of_units (hstep.trans hleave), tget_tset_self .., fun j hj => tget_tset_other _ _ hj, rfl, rfl⟩

/- Pauses (R279 to R283). -/
/-- A list with one number more than another has names one the other has not: one free number is always found. -/
theorem lowestFree_one (l : List Nat) : ∃ p, lowestFree l 1 = [p] := by
  have hex : ∃ k, k ∈ (List.range (l.length + 1)).filter (fun k => !l.contains k) := by
    refine Classical.byContradiction fun hno => ?_
    have hsub : List.range (l.length + 1) ⊆ l := by
      intro k hk
      refine Classical.byContradiction fun hkl => ?_
      exact hno ⟨k, List.mem_filter.mpr ⟨hk, by simpa using hkl⟩⟩
    have hle := List.nodup_range.length_le_of_subset hsub
    rw [List.length_range] at hle
    exact Nat.not_succ_le_self _ hle
  obtain ⟨k, hk⟩ := hex
  unfold lowestFree
  cases hl : (List.range (l.length + 1)).filter (fun k => !l.contains k) with
  | nil =>
    rw [hl] at hk
    cases hk
  | cons p r => exact ⟨p, rfl⟩

/-- A stream without pages gives none up. -/
theorem freePages_nil {x : Str} (n : Nat) (f : Nat → Bool) (u : Units) (hx : tget u.str n = some x) (hp : x.pages = []) :
    ∃ g tx wt, freePages n f u = { u with
      str := tset u.str n x, tier := { u.tier with moves := u.tier.moves.filter g, txns := tx, waitTx := wt } } := by
  let mine (i : MoveId) : Bool := match i with | .back k c => k == n && f c | _ => false
  obtain ⟨tx, wt, hdrop⟩ := dropMoves_frame mine { u with str := tset u.str n x }
  refine ⟨fun m => !mine m.id, tx, wt, Eq.trans ?_ hdrop⟩
  have hself : ({ x with pages := [] } : Str) = x := by rw [← hp]
  rw [freePages, tgetD_of_tget hx, hp]
  simp only [List.filter_nil, List.map_nil, forAll, List.foldl_nil]
  exact congrArg (dropMoves mine) ((modStr_eq hx _).trans (by rw [hp, List.filter_nil, hself]))

theorem pausingEnter_copies (s : State) (n : Fin 4096) (x : Str) (r : PauseReq) (hx : tget s.u.str n = some x) (hp : x.pause = some r)
    (htar : r.target = 0) (hst : x.st = .pauseDrain) (hd : drained x = true) (hat : atBoundary s.u x.cohort = true)
    (hpages : x.pages = []) :
    ∃ t, exec (.pausingEnter n) s = .next t ∧
      tget t.u.str n = some { x with
        st := .pausing, copyFail := false
        pause := some { r with pages := lowestFree s.u.tier.t2 1, entered := boundTick s.u x.cohort } } ∧
      t.u.tier.t2 = s.u.tier.t2 ++ lowestFree s.u.tier.t2 1 ∧
      { id := .pause n.val, left := 1, first := s.u.tick.number } ∈ t.u.tier.moves ∧
      (∀ j, j ≠ n.val → tget t.u.str j = tget s.u.str j) ∧
      t = { s with u := { s.u with str := t.u.str, tier := t.u.tier } } := by
  have hgo : ¬ (x.st ≠ .pauseDrain ∨ (!drained x) = true ∨ (!atBoundary s.u x.cohort) = true) := by simp [hst, hd, hat]
  obtain ⟨p, hfresh⟩ := lowestFree_one s.u.tier.t2
  have hnew : p ∉ s.u.tier.t2 := by
    have hmem : p ∈ lowestFree s.u.tier.t2 1 := by rw [hfresh]; exact List.mem_singleton_self p
    have hm := (List.mem_filter.mp (List.mem_of_mem_take hmem)).2
    simpa using hm
  have hself : ({ x with pages := [] } : Str) = x := by rw [← hpages]
  have hr (t : Nat) : ({ r with target := 0, pages := [p], entered := t } : PauseReq) = { r with pages := [p], entered := t } := by
    rw [← htar]
  have hall (f : Nat → Bool) (m : MoveId → Bool) : ∃ mv tx wt,
      freePages n f (modStr n (fun s => { s with pages := s.pages.map (fun e => (e.1, { e.2 with to_ := none })) }) (dropMoves m s.u)) =
        { s.u with str := tset s.u.str n x, tier := { s.u.tier with moves := mv, txns := tx, waitTx := wt } } := by
    obtain ⟨tx, wt, hdrop⟩ := dropMoves_frame m s.u
    rw [hdrop, modStr_eq (x := x) (by exact hx), hpages, List.map_nil, hself]
    obtain ⟨g, tx', wt', hfree⟩ := freePages_nil n f { s.u with
      str := tset s.u.str n x, tier := { s.u.tier with moves := s.u.tier.moves.filter (fun y => !m y.id), txns := tx, waitTx := wt } }
      (tget_tset_self ..) hpages
    exact ⟨_, tx', wt', hfree.trans (by rw [tset_tset])⟩
  obtain ⟨mv, tx, wt, hrun⟩ : ∃ mv tx wt, pausingEnter n s = { s with u := { s.u with
      str := tset s.u.str n { x with
        st := .pausing, copyFail := false, pause := some { r with pages := [p], entered := boundTick s.u x.cohort } }
      tier := { s.u.tier with
        t2 := s.u.tier.t2 ++ [p], txns := tx, waitTx := wt
        moves := mv ++ [{ id := .pause n.val, left := 1, first := s.u.tick.number }] } } } := by
    simp only [pausingEnter, tgetD_of_tget hx, hp, if_neg hgo, htar, true_or, if_true, hpages, List.filterMap_nil, List.append_nil]
    generalize hw : freePages _ _ _ = w
    obtain ⟨mv, tx, wt, rfl⟩ : ∃ mv tx wt, w =
        { s.u with str := tset s.u.str n x, tier := { s.u.tier with moves := mv, txns := tx, waitTx := wt } } := by
      rw [← hw]
      exact hall _ _
    refine ⟨mv, tx, wt, ?_⟩
    simp only [tgetD_tset_self, hpages, List.length_nil, Nat.zero_add, usedAt, if_true, hfresh, List.headD_cons, List.range_zero,
      List.map_nil, List.filter_nil, List.filter_cons, List.contains_eq_mem, hnew, decide_false, Bool.not_false, Nat.sub_zero]
    rw [modStr_eq (x := x)]
    · simp only [tset_tset, hr, hpages]
      rfl
    · exact tget_tset_self ..
  refine ⟨_, congrArg Host.Outcome.next hrun, ?_, ?_, ?_, fun j hj => tget_tset_other _ _ hj, rfl⟩
  · rw [hfresh]
    exact tget_tset_self ..
  · rw [hfresh]
  · exact List.mem_append_right _ (List.mem_singleton_self _)

/-- Bytes written to local tier 2 change its memory and its poison. -/
theorem localWrite_frame (addr : Nat) (b : Bytes) (s : State) :
    ∃ m p, localWrite addr b s = { s with m := m, u := { s.u with tier := { s.u.tier with pois2 := p } } } := by
  refine foldl_keeps (fun t => ∃ m p, t = { s with m := m, u := { s.u with tier := { s.u.tier with pois2 := p } } }) _ _ s
    ⟨s.m, s.u.tier.pois2, rfl⟩ ?_
  rintro t i ⟨m, p, rfl⟩
  exact ⟨_, _, rfl⟩

/-- The saved state of a pause without pages whose copy is complete. -/
def pausedOf (u : Units) (x : Str) (r : PauseReq) : Saved :=
  { id := r.id, st := if (tget u.tier.imports r.target).any (fun w => w.depart.isSome) then 2 else 1, target := r.target, npages := 0
    t2 := r.pages, expiry := boundTime u x.cohort + r.ttl * 1000000000, imageId := ansImage u x.policy x.ansSlot
    str := { x with pages := [], seat := none, pause := none, outToks := [], outEvts := [], snaps := [], passed := [], cancelAt := none } }

theorem pauseCopyDone_saves (s : State) (n : Fin 4096) (x : Str) (r : PauseReq) (hx : tget s.u.str n = some x) (hp : x.pause = some r)
    (hst : x.st = .pausing) (hat : atBoundary s.u x.cohort = true) (hent : r.entered < boundTick s.u x.cohort) (hc : x.cancelAt = none)
    (hfail : x.copyFail = false) (hcopy : copying s.u (.pause n) = false) (hdone : moveDone s.u (.pause n) = true)
    (hpages : x.pages = []) :
    ∃ t v, exec (.pauseCopyDone n true) s = .next t ∧ tget t.u.tier.saved (r.id % 65536) = some v ∧ v.id = r.id ∧
      v.st = (if (tget s.u.tier.imports r.target).any (fun w => w.depart.isSome) then 2 else 1) ∧ v.t2 = r.pages ∧
      v.target = r.target ∧ v.expiry = boundTime s.u x.cohort + r.ttl * 1000000000 ∧ v.str.pos = x.pos ∧ v.str.samp = x.samp ∧
      v.str.ms = x.ms ∧ tget t.u.str n = some { gen := x.gen, ctx := x.ctx, cohort := x.cohort } ∧
      (∀ j, j ≠ n.val → tget t.u.str j = tget s.u.str j) ∧ t.q = s.q ∧
      t.m = (if r.target = 0 then (localWrite (pageAddr2 s.u (r.pages.headD 0)) (pauseRecord r.id) s).m else s.m) := by
  have hgo : ¬ (x.st ≠ .pausing ∨ (!atBoundary s.u x.cohort) = true ∨ boundTick s.u x.cohort ≤ r.entered ∨
      cancelDue s.u x = true) := by
    simp [hst, hat, cancelDue, hc]
    omega
  have hok : True ∧ (!x.copyFail) = true := ⟨trivial, by rw [hfail]; rfl⟩
  have hserved : ¬ (copying s.u (.pause n) = true ∨ (!moveDone s.u (.pause n)) = true) := by simp [hcopy, hdone]
  obtain ⟨m, p, hw, hm⟩ : ∃ m p, (if r.target ≠ 0 then s else localWrite (pageAddr2 s.u (r.pages.headD 0)) (pauseRecord r.id) s) =
      { s with m := m, u := { s.u with tier := { s.u.tier with pois2 := p } } } ∧
      m = (if r.target = 0 then (localWrite (pageAddr2 s.u (r.pages.headD 0)) (pauseRecord r.id) s).m else s.m) := by
    by_cases h0 : r.target = 0
    · obtain ⟨m, p, hw⟩ := localWrite_frame (pageAddr2 s.u (r.pages.headD 0)) (pauseRecord r.id) s
      exact ⟨m, p, (if_neg (not_not_intro h0)).trans hw, by rw [if_pos h0, hw]⟩
    · exact ⟨s.m, s.u.tier.pois2, if_pos h0, by rw [if_neg h0]⟩
  let e := eventEntry 0x24 0 0 0 (handleOf n x) r.id x.pos 0 (boundTick s.u x.cohort) (boundTime s.u x.cohort + r.ttl * 1000000000)
  let u1 : Units := { s.u with
    str := tset s.u.str n { x with pages := [] }
    tier := { s.u.tier with pois2 := p, saved := tset s.u.tier.saved (r.id % 65536) (pausedOf s.u x r) } }
  have hrun : pauseCopyDone n true s = { s with m := m, u := leaveSlot n [(boundTick s.u x.cohort, e)] false u1 } := by
    simp only [pauseCopyDone, tgetD_of_tget hx, hp, if_neg hgo, if_neg hserved, hpages, tkeys, List.map_nil, List.length_nil,
      List.range_zero, List.foldl_nil, hw, if_pos hok, List.filter_nil, ite_self]
    rw [modStr_eq (x := x)]
    · rfl
    · exact hx
  obtain ⟨a, b, g, tx, wt, hleave, -⟩ := leaveSlot_frame n [(boundTick s.u x.cohort, e)] false u1 (tget_tset_self ..)
  rw [hleave] at hrun
  refine ⟨_, pausedOf s.u x r, congrArg Host.Outcome.next hrun, tget_tset_self .., rfl, rfl, rfl, rfl, rfl, rfl, rfl, rfl, tget_tset_self .., fun j hj => ?_, rfl, hm⟩
  exact (tget_tset_other _ _ hj).trans (tget_tset_other _ _ hj)

theorem pauseCopyDone_fails (s : State) (n : Fin 4096) (x : Str) (r : PauseReq) (hx : tget s.u.str n = some x) (hp : x.pause = some r)
    (hst : x.st = .pausing) (hat : atBoundary s.u x.cohort = true) (hent : r.entered < boundTick s.u x.cohort)
    (hc : x.cancelAt = none) :
    ∃ t, exec (.pauseCopyDone n false) s = .next t ∧ tget t.u.str n = some { x with
        st := .pauseDrain, copyFail := false, pause := some { r with pages := [] } } ∧
      (∀ g, g ∈ t.u.tier.moves → g.id ≠ .pause n.val) ∧ t.u.tier.saved = s.u.tier.saved ∧
      (∀ j, j ≠ n.val → tget t.u.str j = tget s.u.str j) ∧
      t = { s with u := { s.u with str := t.u.str, tier := t.u.tier } } := by
  have hgo : ¬ (x.st ≠ .pausing ∨ (!atBoundary s.u x.cohort) = true ∨ boundTick s.u x.cohort ≤ r.entered ∨
      cancelDue s.u x = true) := by
    simp [hst, hat, cancelDue, hc]
    omega
  have hbad : ¬ (false = true ∧ (!x.copyFail) = true) := fun h => Bool.false_ne_true h.1
  obtain ⟨a, hup⟩ : ∃ a, pauseGiveUp x s.u = { s.u with tier := { s.u.tier with t2 := a } } := by
    unfold pauseGiveUp
    simp only [hp]
    split
    · exact ⟨_, rfl⟩
    · exact ⟨s.u.tier.t2, rfl⟩
  obtain ⟨tx, wt, hdrop⟩ := dropMoves_frame (fun i => i == .pause n) { s.u with
    str := tset s.u.str n { x with st := .pauseDrain, copyFail := false, pause := some { r with pages := [] } }
    tier := { s.u.tier with t2 := a } }
  have hrun : pauseCopyDone n false s = { s with u := dropMoves (fun i => i == .pause n) { s.u with
      str := tset s.u.str n { x with st := .pauseDrain, copyFail := false, pause := some { r with pages := [] } }
      tier := { s.u.tier with t2 := a } } } := by
    simp only [pauseCopyDone, tgetD_of_tget hx, hp, if_neg hgo, if_neg hbad, hup]
    rw [modStr_eq (x := x)]
    exact hx
  rw [hdrop] at hrun
  refine ⟨_, congrArg Host.Outcome.next hrun, tget_tset_self .., fun g hg => ?_, rfl,
    fun j hj => tget_tset_other _ _ hj, rfl⟩
  have h := (List.mem_filter.mp hg).2
  simpa using h

/- Saved states that go (R282, R285). -/
theorem tdel_one {α : Type} (e : Nat) (a : α) : tdel [(e, a)] e = [] := by simp [tdel]
/-- The only saved state goes, with its local pages and its move; a notice follows where one is asked for. -/
theorem dropSaved_one {v : Saved} (h : u.tier.saved = [(e, v)]) :
    ∃ w, (∃ a mv tx wt, w = { u with tier := { u.tier with saved := [], t2 := a, moves := mv, txns := tx, waitTx := wt } }) ∧
      dropSaved e none u = w ∧ ∀ c, dropSaved e (some c) u = fwNotice 7 c v.str.ctx [v.id] w := by
  have hget : tget u.tier.saved e = some v := by simp [h, tget]
  refine ⟨dropMoves (fun i => i == .saved e) (freeLocal (savedLocal v) { u with tier := { u.tier with saved := [] } }),
    ⟨_, _, _, _, rfl⟩, ?_, fun c => ?_⟩ <;>
  · unfold dropSaved
    simp only [hget]
    rw [h, tdel_one]

theorem pauseExpiry_one (s : State) (e : Nat) (v : Saved) (hs : s.u.tier.saved = [(e, v)]) (hst : v.st ≠ 3)
    (hexp : v.expiry ≤ s.u.tick.edgeAt) :
    ∃ t, exec .pauseExpiry s = .next t ∧ t.u.tier.saved = [] ∧
      t.u.prodN = (fwNotice 7 0x0602 v.str.ctx [v.id] s.u).prodN ∧ t.u.str = s.u.str ∧ t.q = s.q ∧ t.m = s.m := by
  have hdue : (decide (v.expiry ≤ s.u.tick.edgeAt) && v.st != 3) = true := by simp [hexp, hst]
  have hrun : pauseExpiry s.u = dropSaved e (some 0x0602) s.u := by
    simp only [pauseExpiry, hs, List.filter_cons, hdue, if_true, List.filter_nil, byExpiry, sortBy, insertBy, forAll, List.foldl_cons,
      List.foldl_nil]
  obtain ⟨w, ⟨a, mv, tx, wt, rfl⟩, -, hdrop⟩ := dropSaved_one hs
  obtain ⟨-, -, -, -, -, -, -, hstr, htier, -⟩ := noticeFrame_keeps (fwNotice_frame 7 0x0602 v.str.ctx [v.id]
    { s.u with tier := { s.u.tier with saved := [], t2 := a, moves := mv, txns := tx, waitTx := wt } })
  refine ⟨_, next_of_units (f := pauseExpiry) (hrun.trans (hdrop 0x0602)), ?_, ?_, hstr, rfl, rfl⟩
  · rw [htier]
  · rw [fwNotice, fwNotice, notice_prodN, notice_prodN]

theorem pauseExpiry_none (s : State) (h : ∀ e, e ∈ s.u.tier.saved → s.u.tick.edgeAt < e.2.expiry) :
    exec .pauseExpiry s = .next s := by
  have hdue : s.u.tier.saved.filter (fun e => decide (e.2.expiry ≤ s.u.tick.edgeAt) && e.2.st != 3) = [] := by
    refine List.filter_eq_nil_iff.mpr fun e he => ?_
    have hlt := h e he
    simp
    omega
  refine next_of_units (f := pauseExpiry) (v := s.u) ?_
  simp only [pauseExpiry, hdue, byExpiry, sortBy, forAll, List.foldl_nil]

theorem seatOrWait_settles {x : Str} (hx : tget u.str n = some x) :
    ∃ y, tget (seatOrWait n u).str n = some y ∧ (y.st = .active ∨ y.st = .waiting) := by
  unfold seatOrWait
  simp only [tgetD_of_tget hx]
  split
  · rw [modStr_eq hx]
    exact ⟨_, tget_tset_self .., .inl rfl⟩
  · rw [modStr_eq hx]
    refine ⟨_, tget_tset_self .., .inr ?_⟩
    split
    · next h => exact h
    · rfl
theorem seatInOrder_settles {x : Str} (hx : tget u.str n = some x) :
    ∃ l y, SeatsOf l u (seatInOrder n u) ∧ tget (seatInOrder n u).str n = some y ∧ (y.st = .active ∨ y.st = .waiting) := by
  unfold seatInOrder
  simp only [tgetD_of_tget hx]
  obtain ⟨l, hseats, -⟩ := seatAssign_seats x.cohort u
  generalize hl' : List.map (fun e : Nat × Str => e.1) _ = l'
  have hstart := forAll_seats seatOrWait_seats l' (seatAssign x.cohort u)
  have hboth : SeatsOf (l ++ l') u (forAll l' seatOrWait (seatAssign x.cohort u)) :=
    (hseats.mono (by simp +contextual)).trans hstart (by simp +contextual)
  generalize forAll l' seatOrWait (seatAssign x.cohort u) = v at hboth
  obtain ⟨a, b, c, hy⟩ := hboth.seat n x hx
  have hall (w : Units) (hw : SeatsOf [n] v w) : SeatsOf ((l ++ l') ++ [n]) u w :=
    (hboth.mono (fun _ h => List.mem_append_left _ h)).trans hw (fun _ h => List.mem_append_right _ h)
  split
  · exact ⟨_, _, hall _ (seatsOf_modStr n _ v fun y => ⟨.waiting, none, boundTick v x.cohort, rfl⟩),
      (congrArg (fun w : Units => tget w.str n) (modStr_eq hy _)).trans (tget_tset_self ..), .inr rfl⟩
  · obtain ⟨y, hget, hst⟩ := seatOrWait_settles hy
    exact ⟨_, y, hall _ (seatOrWait_seats n v), hget, hst⟩

theorem tget_tupd_self {α : Type} {t : Tbl α} {a : α} (h : tget t k = some a) (f : α → α) : tget (tupd t k f) k = some (f a) := by
  rw [tupd, h]
  exact tget_tset_self ..
/-- A stream regrouped changes its match state alone, of the streams. -/
theorem regroup_frame {x : Str} (n : Nat) (old : List Nat) (hx : tget u.str n = some x) :
    ∃ t mt ms, regroup n old u = { u with str := t, mat := mt } ∧ tget t n = some { x with ms := ms } := by
  unfold regroup
  simp only
  refine foldl_keeps (fun w => ∃ t mt ms, w = { u with str := t, mat := mt } ∧ tget t n = some { x with ms := ms }) _ _ _ ?_ ?_
  · exact ⟨_, u.mat, _, rfl, tget_tupd_self hx _⟩
  · rintro w g ⟨t, mt, ms, rfl, ht⟩
    exact ⟨_, _, _, rfl, tget_tupd_self ht _⟩

/-- A stream without pages whose saved state is back in place. -/
def pagedIn (x : Str) : Str :=
  { x with pages := [], snaps := if x.pos = 0 then [] else tset [] ((x.pos - 1) % 128) (msBytes x.ms), restoring := 0 }

theorem resumePageIn_seats (s : State) (n : Fin 4096) (x : Str) (e : Nat) (v : Saved) (hx : tget s.u.str n = some x)
    (hst : x.st = .resuming) (hpages : x.pages = []) (hs : s.u.tier.saved = [(e, v)]) (hid : v.id = x.restoring) (hv : v.st = 3)
    (hlen : v.t2.length ≤ 1) (hfail : x.copyFail = false) (hstart : x.start ≤ boundTick s.u x.cohort)
    (hat : atBoundary s.u x.cohort = true) (hcopy : copying s.u (.resume n) = false) (hdone : moveDone s.u (.resume n) = true)
    (hc : x.cancelAt = none) :
    ∃ t, exec (.resumePageIn n true) s = .next t ∧ t.u.tier.saved = [] ∧ (tgetD t.u.str n {}).restoring = 0 ∧
      ((tgetD t.u.str n {}).st = .active ∨ (tgetD t.u.str n {}).st = .waiting) ∧ (tgetD t.u.str n {}).pos = x.pos ∧
      t.q = s.q ∧ t.m = s.m := by
  have hfind : s.u.tier.saved.find? (fun e => e.2.id == x.restoring && e.2.st == 3) = some (e, v) := by simp [hs, hid, hv]
  have hdown : ¬ (x.copyFail = true ∨ v.target = 0 ∧
      (v.t2.drop 1).any (fun p => tier2Down s.u (pageAddr2 s.u p) 65536) = true) := by
    simp [hfail, List.drop_eq_nil_of_le hlen]
  have hready : ¬ ((!pageInReady s.u n x) = true ∨ (!atBoundary s.u x.cohort) = true) := by
    simp [pageInReady, hst, hstart, hcopy, hdone, cancelDue, hc, hat]
  obtain ⟨w, ⟨a, mv, tx, wt, rfl⟩, hdrop, -⟩ := dropSaved_one hs
  let u1 : Units := { s.u with
    str := tset s.u.str n (pagedIn x)
    tier := { s.u.tier with saved := [], t2 := a, moves := mv, txns := tx, waitTx := wt } }
  have hrun : resumePageIn n true s = { s with u := seatInOrder n (regroup n (x.ms.autos.map (·.1)) u1) } := by
    simp only [resumePageIn, tgetD_of_tget hx, hfind, hst, ne_eq, not_true_eq_false, if_false, Bool.not_true, Bool.false_eq_true,
      false_or, if_neg hdown, if_neg hready, hpages, tkeys, List.map_nil, List.take_nil, List.length_nil, List.range_zero,
      List.foldl_nil, ite_self, hdrop]
    rw [modStr_eq (x := x)]
    · simp only [hpages]
      rfl
    · exact hx
  obtain ⟨t, mt, ms, hgroup, ht⟩ := regroup_frame (u := u1) n (x.ms.autos.map (·.1)) (tget_tset_self ..)
  rw [hgroup] at hrun
  obtain ⟨l, y, hseats, hy, hyst⟩ := seatInOrder_settles (u := { u1 with str := t, mat := mt }) ht
  obtain ⟨a', b', c', hy'⟩ := hseats.seat n _ ht
  obtain ⟨t', hframe⟩ := hseats.frame
  have hD : tgetD (seatInOrder n { u1 with str := t, mat := mt }).str n {} = y := tgetD_of_tget hy _
  have hyx := Option.some.inj (hy.symm.trans hy')
  refine ⟨_, congrArg Host.Outcome.next hrun, ?_, ?_, ?_, ?_, rfl, rfl⟩
  · rw [hframe]
  · rw [hD, hyx]
    rfl
  · rw [hD]
    exact hyst
  · rw [hD, hyx]
    rfl

theorem resumePageIn_fails (s : State) (n : Fin 4096) (x : Str) (e : Nat) (v : Saved) (hx : tget s.u.str n = some x)
    (hst : x.st = .resuming) (hs : s.u.tier.saved = [(e, v)]) (hid : v.id = x.restoring) (hv : v.st = 3) :
    ∃ t, exec (.resumePageIn n false) s = .next t ∧ t.u.tier.saved = [] ∧ (tgetD t.u.str n {}).st = .closing ∧
      (∀ j, j ≠ n.val → tget t.u.str j = tget s.u.str j) ∧ t.q = s.q ∧ t.m = s.m := by
  have hfind : s.u.tier.saved.find? (fun e => e.2.id == x.restoring && e.2.st == 3) = some (e, v) := by simp [hs, hid, hv]
  obtain ⟨y, hclose, hyst⟩ : ∃ y, closeStream n 4 0x15 s.u = { s.u with str := tset s.u.str n y } ∧ y.st = .closing := by
    refine ⟨{ x with
      st := .closing, seat := none, closeAt := cohortTick s.u x.cohort + 1, hold := [], checks := [], fails := [], redo := none
      pause := none
      outEvts := x.outEvts ++ [(cohortTick s.u x.cohort, endEntry n x 4 0x15 (cohortTick s.u x.cohort + 1))] }, ?_, rfl⟩
    simp only [closeStream, tgetD_of_tget hx, addEvent]
    rw [modStr_eq hx, modStr_eq (tget_tset_self ..)]
    simp only [tset_tset]
  obtain ⟨w, ⟨a, mv, tx, wt, hw⟩, hdrop, -⟩ := dropSaved_one (u := closeStream n 4 0x15 s.u) (by rw [hclose]; exact hs)
  obtain ⟨tx', wt', hmoves⟩ := dropMoves_frame (fun i => i == .resume n.val) w
  have hrun : resumePageIn n false s = { s with u := dropMoves (fun i => i == .resume n.val) w } := by
    simp only [resumePageIn, tgetD_of_tget hx, hfind, hst, ne_eq, not_true_eq_false, if_false, Bool.not_false, true_or, if_true, hdrop]
  rw [hmoves, hw, hclose] at hrun
  refine ⟨_, congrArg Host.Outcome.next hrun, rfl, ?_, fun j hj => tget_tset_other _ _ hj, rfl, rfl⟩
  exact (congrArg Str.st (tgetD_tset_self ..)).trans hyst

/-- Settles O43: seats are read off `SeatsOf`, what leaves a slot off `leaveSlot_frame`, and the saved states off `dropSaved_one`. -/
theorem streamBoundaries : Obligations.StreamBoundaries := by
  refine ⟨?idle, seatAssign_one, ?others, ?start, ?wait, streamCancelEffect_leaves, streamSlotFree_leaves, ?early, pausingEnter_copies,
    pauseCopyDone_saves, pauseCopyDone_fails, pauseExpiry_one, pauseExpiry_none, resumePageIn_seats, resumePageIn_fails⟩
  case idle =>
    intro s c h
    refine next_of_units (f := seatAssign c) (v := s.u) ?_
    rw [seatAssign, h]
    rfl
  case others =>
    intro s c
    obtain ⟨l, hseats, hother⟩ := seatAssign_seats c.val s.u
    obtain ⟨t, ht⟩ := hseats.frame
    refine ⟨_, next_of_units (f := seatAssign c) ht, rfl, fun n x hx hc hs => ?_⟩
    have hsame := hseats.same n (hother n x hs hx hc)
    rw [ht] at hsame
    exact hsame.trans hx
  case start =>
    intro s n r x hx hst hstart hcur hat hc hseats hlow hb hr
    exact next_of_units ((streamStart_first s n x hx hst hstart hcur hat hc hseats hlow).trans (seatOrWait_seated hx hb hr))
  case wait =>
    intro s n x hx hst hstart hcur hat hc hseats hlow hno
    exact next_of_units ((streamStart_first s n x hx hst hstart hcur hat hc hseats hlow).trans
      (seatOrWait_waits hx hno (by rw [hst]; exact SSt.noConfusion)))
  case early =>
    intro s n x hx hearly
    refine next_of_units (f := streamSlotFree n) (v := s.u) ?_
    simp only [streamSlotFree, tgetD_of_tget hx]
    exact if_pos (.inr hearly)

end Sys2Proof.Machine
end

section
/-! PROOFS. Sampling of a token (07, R210, R214 to R219). -/
namespace Sys2Proof.Machine

variable {s : State} {u : Units}

/-- A stream of the table, changed, reads back changed. -/
theorem tget_modStr_self {x : Str} (hx : tget u.str n = some x) (f : Str → Str) : tget (modStr n f u).str n = some (f x) :=
  tget_tupd_self hx f
theorem blkBump_frame (n k : Nat) (u : Units) : ∃ b, blkBump n k u = { u with cnt := { u.cnt with blk := b } } := by
  unfold blkBump
  split
  · exact ⟨u.cnt.blk, rfl⟩
  · exact ⟨_, rfl⟩

/-- What a summary says of its own slice, whatever its logits. -/
theorem sliceSummaryOf_says (core : Nat) (bad : Bool) (logits : List Nat) (skey rt : Nat) (entries : List Nat) :
    (sliceSummaryOf core bad logits skey rt entries).1.core = core ∧
      (sliceSummaryOf core bad logits skey rt entries).1.unmasked ≤ 4096 ∧
      (sliceSummaryOf core bad logits skey rt entries).1.cand.length ≤
        min 64 (sliceSummaryOf core bad logits skey rt entries).1.unmasked ∧
      (sliceSummaryOf core bad logits skey rt entries).1.poison = bad ∧
      ((sliceSummaryOf core bad logits skey rt entries).1.unmasked = 0 →
        (sliceSummaryOf core bad logits skey rt entries).1.lse = banned32) := by
  unfold sliceSummaryOf
  dsimp only
  generalize (List.range 4096) = indices
  refine ⟨rfl, Nat.sub_le _ _, ?_, rfl, fun h => ?_⟩
  · exact List.length_take_le ..
  · rw [if_pos h]

theorem sliceSummary_joins (s : State) (c : CoreId) (buf co : Fin 2) (entry slot n : Nat) (b : Bool) (x : Str)
    (hlive : coreLive s.asm s.u c = true) (hslot : (coreAt s.u (coreKey c)).slot = some slot)
    (hn : streamAt s.u slot (coreAt s.u (coreKey c)).rep co entry = some n) (hx : tget s.u.str n = some x)
    (himg : imgKind (slotImg s.u slot) = 1) (hnew : ∀ y, y ∈ x.sums → y.core ≠ (coreAt s.u (coreKey c)).lidx)
    (hsamp : x.noSample = false) (hch : x.chosen = none) :
    ∃ t y, exec (.sliceSummary c buf co entry b) s = .next t ∧ tget t.u.str n = some { x with sums := x.sums ++ [y] } ∧
      y.core = (coreAt s.u (coreKey c)).lidx ∧ y.unmasked ≤ 4096 ∧ y.cand.length ≤ min 64 y.unmasked ∧ (b = true → y.poison = true) ∧
      (y.unmasked = 0 → y.lse = banned32) ∧ (∀ j, j ≠ n → tget t.u.str j = tget s.u.str j) ∧
      t = { s with u := { s.u with str := t.u.str, cnt := { s.u.cnt with die := t.u.cnt.die } } } := by
  have hgo : ¬ (imgKind (slotImg s.u slot) ≠ 1 ∨ x.sums.any (fun y => y.core == (coreAt s.u (coreKey c)).lidx) = true ∨
      x.noSample = true ∨ x.chosen.isSome = true) := by
    simpa [himg, hsamp, hch] using hnew
  obtain ⟨y, d, hrun, hcore, hle, hcand, hpois, hlse⟩ : ∃ y d, sliceSummary (coreKey c) buf co entry b s =
      { s with u := modStr n (fun z => { z with sums := z.sums ++ [y] }) { s.u with cnt := { s.u.cnt with die := d } } } ∧
      y.core = (coreAt s.u (coreKey c)).lidx ∧ y.unmasked ≤ 4096 ∧ y.cand.length ≤ min 64 y.unmasked ∧ (b = true → y.poison = true) ∧
      (y.unmasked = 0 → y.lse = banned32) := by
    simp only [sliceSummary, hslot, hn, tgetD_of_tget hx, if_neg hgo]
    generalize hr : sliceSummaryOf (coreAt s.u (coreKey c)).lidx _ _ _ _ _ = r
    obtain ⟨d, hd⟩ := dieBump_frame (dieKey 0 (coreKey c / 16)) 0x34 r.2 s.u
    obtain ⟨d', hd'⟩ := dieBump_frame (dieKey 1 (slotDie n)) 0x13B 1 (dieBump (dieKey 0 (coreKey c / 16)) 0x34 r.2 s.u)
    refine ⟨r.1, d', ?_, ?_⟩
    · rw [onUnits, hd', hd]
    · rw [← hr]
      obtain ⟨hcore, hle, hcand, hpois, hlse⟩ := sliceSummaryOf_says (coreAt s.u (coreKey c)).lidx _ _ _ _ _
      exact ⟨hcore, hle, hcand, fun hb => by rw [hpois, hb]; rfl, hlse⟩
  have hexec : exec (.sliceSummary c buf co entry b) s = .next (sliceSummary (coreKey c) buf co entry b s) :=
    congrArg Host.Outcome.next (if_pos hlive)
  rw [hrun] at hexec
  exact ⟨_, y, hexec, tget_tupd_self hx _, hcore, hle, hcand, hpois, hlse, fun j hj => tget_tupd_other _ _ hj, rfl⟩

/- The choice of a token (R214 to R219). -/
/-- What keeps a stream from sampling in its step (R48, R217). -/
def sampleIdle (u : Units) (x : Str) : Prop :=
  (!x.listed) = true ∨ u.tick.st = .halted ∨ x.entry.isNone = true ∨ x.chosen.isSome = true ∨ x.noSample = true ∨ x.st ≠ .active ∨
    x.sums.length < imgNcore (slotImg u x.headSlot)
theorem sampleIdle_not {x : Str} (he : x.entry ≠ none) (hch : x.chosen = none) (hno : x.noSample = false) (hst : x.st = .active)
    (hl : x.listed = true) (hh : u.tick.st ≠ .halted) (hs : imgNcore (slotImg u x.headSlot) ≤ x.sums.length) : ¬ sampleIdle u x := by
  have hent : x.entry.isNone = false := Option.isNone_eq_false_iff.mpr (Option.isSome_iff_ne_none.mpr he)
  simp only [sampleIdle, hl, hent, hch, hno, hst]
  simp [hh, hs]

/-- A sampled token joins its stream's hold queue at the stream's position. -/
theorem tokenIn_joins {x : Str} (n tok : Nat) (trunc : Bool) (u : Units) (hx : tget u.str n = some x) :
    ∃ c cx, tokenIn n tok trunc u = { u with cnt := c, ctx := cx, str := tset u.str n { x with
      hold := x.hold ++ [{ pos := x.pos, tok := tok, trunc := trunc }], pos := x.pos + 1, chosen := some (x.pos, tok)
      pen := (tok :: x.pen).take penKeep, priorMisses := (x.misses, x.missNoted), misses := 0, missNoted := false
      ended := endsAnswer x tok x.pos, checks := x.checks ++ checkFor u x x.pos (endsAnswer x tok x.pos)
      truncs := x.truncs + b2n trunc } } := by
  unfold tokenIn
  simp only [tgetD_of_tget hx]
  rw [modStr_eq hx]
  generalize hw : ({ u with str := _, ctx := _ } : Units) = w
  obtain ⟨d1, h1⟩ := dieBump_frame (dieKey 1 (slotDie n)) 0x131 (b2n trunc) w
  obtain ⟨b1, h2⟩ := blkBump_frame 12 (b2n trunc) (dieBump (dieKey 1 (slotDie n)) 0x131 (b2n trunc) w)
  obtain ⟨d2, h3⟩ := dieBump_frame (dieKey 1 (slotDie n)) 0x130 1
    (blkBump 12 (b2n trunc) (dieBump (dieKey 1 (slotDie n)) 0x131 (b2n trunc) w))
  obtain ⟨b2, h4⟩ := blkBump_frame 1 1 (dieBump (dieKey 1 (slotDie n)) 0x130 1
    (blkBump 12 (b2n trunc) (dieBump (dieKey 1 (slotDie n)) 0x131 (b2n trunc) w)))
  rw [h4, h3, h2, h1, ← hw]
  exact ⟨_, _, rfl⟩

theorem tokenSample_samples (s : State) (n : Fin 4096) (x : Str) (hx : tget s.u.str n = some x) (he : x.entry ≠ none)
    (hch : x.chosen = none) (hno : x.noSample = false) (hst : x.st = .active) (hl : x.listed = true) (hh : s.u.tick.st ≠ .halted)
    (hs : imgNcore (slotImg s.u x.headSlot) ≤ x.sums.length) (hcont : x.cont ≠ none) (hp : ∀ y, y ∈ x.sums → y.poison = false)
    (hun : ∃ y, y ∈ x.sums ∧ y.unmasked ≠ 0) :
    ∃ t, exec (.tokenSample n) s = .next t ∧
      (tgetD t.u.str n {}).chosen = some (x.pos, (chooseToken x.samp (stepKey (le x.samp 0 8) x.pos x.rew) x.sums).1) ∧
      (tgetD t.u.str n {}).hold = x.hold ++ [{
        pos := x.pos, tok := (chooseToken x.samp (stepKey (le x.samp 0 8) x.pos x.rew) x.sums).1
        trunc := (chooseToken x.samp (stepKey (le x.samp 0 8) x.pos x.rew) x.sums).2 }] ∧
      (tgetD t.u.str n {}).pos = x.pos + 1 ∧ (tgetD t.u.str n {}).misses = 0 ∧
      (tgetD t.u.str n {}).ended = endsAnswer x (chooseToken x.samp (stepKey (le x.samp 0 8) x.pos x.rew) x.sums).1 x.pos ∧
      (tgetD t.u.str n {}).fails = x.fails ∧ (∀ j, j ≠ n.val → tget t.u.str j = tget s.u.str j) ∧ t.q = s.q ∧ t.m = s.m := by
  have hgood : ¬ (x.cont.isNone = true ∨ x.sums.any (·.poison) = true) := by
    have hc : x.cont.isNone = false := Option.isNone_eq_false_iff.mpr (Option.isSome_iff_ne_none.mpr hcont)
    simpa [hc] using hp
  have hopen : ¬ (x.sums.all (fun y => y.unmasked == 0)) = true := by simpa using hun
  have hidle := sampleIdle_not he hch hno hst hl hh hs
  have hrun : tokenSample n s.u = tokenIn n (chooseToken x.samp (stepKey (le x.samp 0 8) x.pos x.rew) x.sums).1
      (chooseToken x.samp (stepKey (le x.samp 0 8) x.pos x.rew) x.sums).2 s.u := by
    simp only [tokenSample, tgetD_of_tget hx]
    exact (if_neg hidle).trans ((if_neg hgood).trans (if_neg hopen))
  generalize chooseToken x.samp (stepKey (le x.samp 0 8) x.pos x.rew) x.sums = tok at hrun ⊢
  obtain ⟨c, cx, hin⟩ := tokenIn_joins n tok.1 tok.2 s.u hx
  have hself (t : Tbl Str) (y : Str) : tgetD (tset t n.val y) n.val {} = y := tgetD_tset_self ..
  refine ⟨_, next_of_units (f := tokenSample n) (hrun.trans hin), ?_, ?_, ?_, ?_, ?_, ?_, fun j hj => tget_tset_other _ _ hj, rfl, rfl⟩ <;>
  · rw [hself]

theorem tokenSample_poisoned (s : State) (n : Fin 4096) (x : Str) (hx : tget s.u.str n = some x) (he : x.entry ≠ none)
    (hch : x.chosen = none) (hno : x.noSample = false) (hst : x.st = .active) (hl : x.listed = true) (hh : s.u.tick.st ≠ .halted)
    (hs : imgNcore (slotImg s.u x.headSlot) ≤ x.sums.length) (hbad : x.cont = none ∨ ∃ y, y ∈ x.sums ∧ y.poison = true) :
    ∃ t, exec (.tokenSample n) s = .next t ∧ tget t.u.str n = some { x with recIn := false, entry := none } ∧
      t.u.blk.poison = true ∧ (∀ j, j ≠ n.val → tget t.u.str j = tget s.u.str j) ∧ t.q = s.q ∧ t.m = s.m := by
  have hpois : x.cont.isNone = true ∨ x.sums.any (·.poison) = true := by simpa using hbad
  have hidle := sampleIdle_not he hch hno hst hl hh hs
  have hrun : tokenSample n s.u = poisonStep n s.u := by
    simp only [tokenSample, tgetD_of_tget hx]
    exact (if_neg hidle).trans (if_pos hpois)
  exact ⟨_, next_of_units (f := tokenSample n) hrun, tget_tupd_self hx _, rfl, fun j hj => tget_tupd_other _ _ hj, rfl, rfl⟩

theorem tokenSample_masked (s : State) (n : Fin 4096) (x : Str) (hx : tget s.u.str n = some x) (he : x.entry ≠ none)
    (hch : x.chosen = none) (hno : x.noSample = false) (hst : x.st = .active) (hl : x.listed = true) (hh : s.u.tick.st ≠ .halted)
    (hs : imgNcore (slotImg s.u x.headSlot) ≤ x.sums.length) (hcont : x.cont ≠ none) (hp : ∀ y, y ∈ x.sums → y.poison = false)
    (hun : ∀ y, y ∈ x.sums → y.unmasked = 0) :
    exec (.tokenSample n) s = .next (onUnits (fun u => { u with str := tset u.str n.val { x with
      entry := none, fails := x.fails ++ [{ start := x.pos, act := 0, verdict := 2, reason := 0x42 }] } }) s) := by
  have hgood : ¬ (x.cont.isNone = true ∨ x.sums.any (·.poison) = true) := by
    have hc : x.cont.isNone = false := Option.isNone_eq_false_iff.mpr (Option.isSome_iff_ne_none.mpr hcont)
    simpa [hc] using hp
  have hmask : (x.sums.all (fun y => y.unmasked == 0)) = true := by simpa using hun
  refine next_of_units (f := tokenSample n) ?_
  simp only [tokenSample, tgetD_of_tget hx]
  exact (if_neg (sampleIdle_not he hch hno hst hl hh hs)).trans ((if_neg hgood).trans ((if_pos hmask).trans (modStr_eq hx _)))

/-- Greedy choice takes the head of the merged list (R216). -/
theorem chooseToken_greedy (samp : Bytes) (k : Nat) (l : List Summary) (h : le samp 8 4 = 0) :
    (chooseToken samp k l).2 = false ∧
      ((mergeAll l ≠ []) → exactLen l (mergeAll l) ≠ 0 → some (chooseToken samp k l).1 = (mergeAll l).head?.map Cand.v) := by
  have hc : chooseToken samp k l = ((((mergeAll l).take (exactLen l (mergeAll l))).map (·.v)).headD 0, false) := if_pos h
  rw [hc]
  refine ⟨rfl, fun hne hlen => ?_⟩
  obtain ⟨m, hm⟩ := Nat.exists_eq_succ_of_ne_zero hlen
  rw [hm]
  cases hl : mergeAll l with
  | nil => exact absurd hl hne
  | cons a r => rfl

/-- Settles O44: what keeps a stream from sampling is `sampleIdle`, and a token's joining is `tokenIn_joins`. -/
theorem samplingOfATokenIsAsStated : Obligations.SamplingOfATokenIsAsStated := by
  refine ⟨sliceSummary_joins, tokenSample_samples, tokenSample_poisoned, tokenSample_masked, ?idle, chooseToken_greedy⟩
  intro s n x hx hidle
  refine next_of_units (f := tokenSample n) (v := s.u) ?_
  simp only [tokenSample, tgetD_of_tget hx]
  refine if_pos ?_
  obtain h | h := hidle
  · exact .inl (by rw [h]; rfl)
  · exact .inr (.inl h)

end Sys2Proof.Machine
end

section
/-! PROOFS. The sweep of a held token and answer checks (06, R189; 08, R255 to R257; 09, R275). -/
namespace Sys2Proof.Machine

variable {s : State} {u v w : Units}

/- Searches of a sweep. -/
/-- What a sweep may change: the match tables, and what notices and counts change. -/
def SweepFrame (u v : Units) : Prop :=
  ∃ m p d o a b, v = { u with mat := m, prodN := p, cnt := { u.cnt with die := d }, out := o, port0 := a, port1 := b }
theorem SweepFrame.refl (u : Units) : SweepFrame u u := ⟨u.mat, u.prodN, u.cnt.die, u.out, u.port0, u.port1, rfl⟩
theorem SweepFrame.trans (h : SweepFrame u v) (h' : SweepFrame v w) : SweepFrame u w := by
  obtain ⟨m, p, d, o, a, b, rfl⟩ := h
  obtain ⟨m', p', d', o', a', b', rfl⟩ := h'
  exact ⟨m', p', d', o', a', b', rfl⟩
theorem SweepFrame.str (h : SweepFrame u v) : v.str = u.str := by
  obtain ⟨m, p, d, o, a, b, rfl⟩ := h
  rfl
theorem SweepFrame.pol (h : SweepFrame u v) : v.pol = u.pol := by
  obtain ⟨m, p, d, o, a, b, rfl⟩ := h
  rfl
theorem sweepFrame_mat (m : Match) (u : Units) : SweepFrame u { u with mat := m } :=
  ⟨m, u.prodN, u.cnt.die, u.out, u.port0, u.port1, rfl⟩
theorem sweepFrame_notice (h : noticeFrame u v) : SweepFrame u v := by
  rw [h]
  exact ⟨u.mat, _, _, _, _, _, rfl⟩
theorem sweepFrame_dieCounted (h : dieCounted u v) : SweepFrame u v := by
  obtain ⟨d, rfl⟩ := h
  exact ⟨u.mat, u.prodN, d, u.out, u.port0, u.port1, rfl⟩

theorem searchU_frame (die mode banks key : Nat) (u : Units) : SweepFrame u (searchU die mode banks key u).2 := by
  obtain ⟨c, v, hc, hv, h⟩ := searchU_shape die mode banks key u
  rw [h]
  refine ((sweepFrame_dieCounted hc).trans ?_).trans (sweepFrame_mat _ v)
  refine SweepFrame.trans ?_ (sweepFrame_dieCounted hv)
  split
  · exact (sweepFrame_mat _ c).trans (sweepFrame_notice (notice_frame _ _ _ _ _))
  · exact SweepFrame.refl c
theorem sweepKey_frame {x : Sweep × Units} (hx : x.2 = u) (f : SweepFor) (p : Bytes) (mode key : Nat) (act : SRes → Option Nat) :
    SweepFrame u (sweepKey f p mode key act x).2.2 := by
  subst hx
  exact searchU_frame ..
theorem sweepGroup_frame (f : SweepFor) (b g : Nat) (x : Sweep × Units) : SweepFrame x.2 (sweepGroup f b x g).2 := by
  unfold sweepGroup
  dsimp only
  generalize hr : sweepKey f f.trans 2 _ _ x = r
  have hkey : SweepFrame x.2 r.2.2 := by
    rw [← hr]
    exact sweepKey_frame rfl ..
  split
  · exact hkey
  · exact hkey.trans ((sweepFrame_mat _ _).trans (sweepFrame_notice (noticeFrame_dieBump ..)))
theorem sweepFold_frame {α : Type} {x : Sweep × Units} (hx : SweepFrame u x.2) (f : Sweep × Units → α → Sweep × Units)
    (hf : ∀ x a, SweepFrame x.2 (f x a).2) (l : List α) : SweepFrame u (l.foldl f x).2 :=
  foldl_keeps (fun y => SweepFrame u y.2) f l x hx fun y a h => h.trans (hf y a)
theorem sweepKeyIf_frame {x : Sweep × Units} (hx : x.2 = u) (c : Prop) [Decidable c] (f : SweepFor) (p : Bytes) (mode key : Nat)
    (act : SRes → Option Nat) : SweepFrame u (if c then x else (sweepKey f p mode key act x).2).2 := by
  subst hx
  split
  · exact SweepFrame.refl _
  · exact sweepKey_frame rfl f p mode key act
theorem sweepByte_frame (f : SweepFor) (x : Sweep × Units) (b : Nat) : SweepFrame x.2 (sweepByte f x b).2 := by
  rw [sweepByte]
  refine sweepFold_frame ?_ _ (fun y g => sweepGroup_frame f b g y) _
  exact sweepKeyIf_frame rfl _ f f.byte 1 _ _
theorem sweepToken_frame (f : SweepFor) (t : Nat) (x : Sweep × Units) : SweepFrame x.2 (sweepToken f t x).2 := by
  rw [sweepToken]
  refine sweepFold_frame ?_ _ (fun y b => sweepByte_frame f y b) _
  exact sweepKeyIf_frame rfl _ f f.tok 0 _ _
theorem replayGroup_frame (die : Nat) (trans : Bytes) (g : Nat) (m : MState) (u : Units) :
    SweepFrame u (replayGroup die trans g m u).2 := by
  unfold replayGroup
  exact sweepFold_frame (x := (({ ms := setAuto g (descAt u false g).start m } : Sweep), u)) (SweepFrame.refl u) _
    (fun x b => sweepGroup_frame _ b g x) _
theorem replayGroups_frame (die : Nat) (trans : Bytes) (l : List Nat) (m : MState) (u : Units) :
    SweepFrame u (l.foldl (fun x g => replayGroup die trans g x.1 x.2) (m, u)).2 :=
  foldl_keeps (fun y : MState × Units => SweepFrame u y.2) _ l (m, u) (SweepFrame.refl u)
    fun y g h => h.trans (replayGroup_frame die trans g y.1 y.2)

/-- An upset changes the match entries alone. -/
theorem upset_frame (l : List Upset) (u : Units) : ∃ e, upset l u = { u with mat := { u.mat with entries := e } } :=
  forAll_keeps (fun v => ∃ e, v = { u with mat := { u.mat with entries := e } }) l _ u ⟨u.mat.entries, rfl⟩
    fun f v ⟨e, hv⟩ => by rw [hv]; exact ⟨_, rfl⟩

/-- The replay of a stream's groups changes its match state, of the streams. -/
theorem automatonReplay_frame {x : Str} (n : Nat) (u : Units) (hx : tget u.str n = some x) :
    ∃ t ms, SweepFrame { u with str := t } (automatonReplay n u) ∧ tget t n = some { x with ms := ms } ∧
      ∀ j, j ≠ n → tget t j = tget u.str j := by
  unfold automatonReplay
  simp only [hx]
  split
  · exact ⟨u.str, x.ms, SweepFrame.refl u, hx, fun _ _ => rfl⟩
  · generalize hr : List.foldl _ (x.ms, u) _ = r
    have hframe : SweepFrame u r.2 := by
      rw [← hr]
      exact replayGroups_frame _ _ _ _ _
    obtain ⟨m, p, d, o, a, b, hv⟩ := hframe
    refine ⟨tset u.str n { x with ms := r.1 }, r.1, ?_, tget_tset_self .., fun j hj => tget_tset_other _ _ hj⟩
    rw [hv]
    exact ⟨_, _, _, _, _, _, rfl⟩

/- The sweep of a held token (R189). -/
/-- A stream behind the sweep of its oldest unswept token. -/
structure TokenSwept (x y : Str) (h : Held) (l : List Fail) (flag : Bool) : Prop where
  hold : y.hold = x.hold.map (fun z => if z.pos = h.pos then { z with swept := true, flag := flag, clear := l.isEmpty } else z)
  fails : y.fails = x.fails ++ l
  found : ∀ z, z ∈ l → z.found = some h.pos
  snaps : y.snaps = tset x.snaps (h.pos % 128) (msBytes y.ms)
  checks : y.checks = x.checks
  pos : y.pos = x.pos

theorem matchSummaryDone_sweeps {x : Str} (n : Nat) (u : Units) (hx : tget u.str n = some x)
    (hh : x.hold.find? (fun y => !y.swept) = some h) :
    ∃ y l flag, tget (matchSummaryDone n u).str n = some y ∧ TokenSwept x y h l flag ∧
      ∀ j, j ≠ n → tget (matchSummaryDone n u).str j = tget u.str j := by
  obtain ⟨t, ms, hreplay, ht, hother⟩ := automatonReplay_frame n u hx
  have hstr := hreplay.str
  unfold matchSummaryDone
  simp only [tgetD_of_tget hx, hh]
  generalize automatonReplay n u = v at hstr
  have hget : tget v.str n = some { x with ms := ms } := by rw [hstr]; exact ht
  simp only [tgetD_of_tget hget]
  generalize hr : sweepToken _ _ _ = r
  have hswept : r.2.str = v.str := by
    rw [← hr]
    exact (sweepToken_frame _ _ ({ ms := ms }, v)).str
  generalize hl : List.map (fun f : Fail => { f with found := some h.pos }) _ = l
  generalize hw : (if r.1.poison = true then poisonSink x.ctx _ else _) = w
  have hstrw : w.str = v.str := by
    rw [← hw]
    split <;> exact hswept
  have hgetw : tget w.str n = some { x with ms := ms } := by rw [hstrw]; exact hget
  refine ⟨_, l, _, tget_tupd_self hgetw _, ⟨rfl, rfl, fun z hz => ?_, rfl, rfl, rfl⟩, fun j hj => ?_⟩
  · rw [← hl] at hz
    obtain ⟨f, -, rfl⟩ := List.mem_map.mp hz
    rfl
  · refine (tget_tupd_other _ _ hj).trans ?_
    rw [hstrw, hstr]
    exact hother j hj

/-- With no scores come, nothing is decided. -/
theorem decideReady_none (n : Nat) (u : Units) (h : ∀ c, c ∈ (tgetD u.str n {}).checks → c.scores = none) : decideReady n u = u := by
  unfold decideReady forAll
  generalize (tgetD u.str n {}).checks = l at h
  induction l with
  | nil => rfl
  | cons c l ih =>
    simp only [List.foldl_cons, h c (List.mem_cons_self ..)]
    exact ih fun d hd => h d (List.mem_cons_of_mem c hd)

theorem upset_str (b : List Upset) (u : Units) : (upset b u).str = u.str := by
  obtain ⟨e, he⟩ := upset_frame b u
  rw [he]

theorem execMatchSummaryDone_sweeps (s : State) (n : Fin 4096) (x : Str) (h : Held) (b : List Upset) (hx : tget s.u.str n = some x)
    (hh : x.hold.find? (fun y => !y.swept) = some h) (hnone : ∀ c, c ∈ x.checks → c.scores = none) :
    ∃ t f c l, exec (.matchSummaryDone n b) s = .next t ∧
      (tgetD t.u.str n {}).hold = x.hold.map (fun y => if y.pos = h.pos then { y with swept := true, flag := f, clear := c } else y) ∧
      (tgetD t.u.str n {}).fails = x.fails ++ l ∧ (c = true ↔ l = []) ∧ (∀ z, z ∈ l → z.found = some h.pos) ∧
      (tgetD t.u.str n {}).snaps = tset x.snaps (h.pos % 128) (msBytes (tgetD t.u.str n {}).ms) ∧
      (tgetD t.u.str n {}).checks = x.checks ∧ (tgetD t.u.str n {}).pos = x.pos ∧
      (∀ j, j ≠ n.val → tget t.u.str j = tget s.u.str j) ∧ t.q = s.q ∧ t.m = s.m := by
  obtain ⟨y, l, flag, hy, hswept, hother⟩ := matchSummaryDone_sweeps n (upset b s.u) (by rw [upset_str]; exact hx) hh
  have hD : tgetD (matchSummaryDone n (upset b s.u)).str n {} = y := tgetD_of_tget hy _
  have hready : decideReady n (matchSummaryDone n (upset b s.u)) = matchSummaryDone n (upset b s.u) :=
    decideReady_none _ _ (by rw [hD, hswept.checks]; exact hnone)
  refine ⟨{ s with u := matchSummaryDone n (upset b s.u) }, flag, l.isEmpty, l,
    next_of_units (f := fun u => decideReady n (matchSummaryDone n (upset b u))) hready, ?_, ?_, List.isEmpty_iff, hswept.found,
    ?_, ?_, ?_, fun j hj => ?_, rfl, rfl⟩
  · exact (congrArg Str.hold hD).trans hswept.hold
  · exact (congrArg Str.fails hD).trans hswept.fails
  · show (tgetD (matchSummaryDone n (upset b s.u)).str n {}).snaps = _
    rw [hD]
    exact hswept.snaps
  · exact (congrArg Str.checks hD).trans hswept.checks
  · exact (congrArg Str.pos hD).trans hswept.pos
  · exact (hother j hj).trans (congrArg (fun t => tget t j) (upset_str b s.u))

theorem execMatchSummaryDone_idle (s : State) (n : Fin 4096) (b : List Upset)
    (hh : (tgetD s.u.str n {}).hold.find? (fun y => !y.swept) = none)
    (hnone : ∀ c, c ∈ (tgetD s.u.str n {}).checks → c.scores = none) :
    exec (.matchSummaryDone n b) s = .next (onUnits (upset b) s) := by
  have hdone : matchSummaryDone n (upset b s.u) = upset b s.u := by
    unfold matchSummaryDone
    rw [upset_str, hh]
  refine next_of_units (f := fun u => decideReady n (matchSummaryDone n (upset b u))) ?_
  rw [hdone]
  exact decideReady_none _ _ (by rw [upset_str]; exact hnone)

/- Answer checks (R222, R255, R257, R275). -/
theorem checkLaunch_launches (s : State) (n : Fin 4096) (x : Str) (c : Check) (hx : tget s.u.str n = some x) (hc : x.checks = [c])
    (hl : c.launched = false) (hcur : s.u.tick.st = .current) (hst : x.st ≠ .waiting) (hserve : slotServing s.u x.ansSlot = true)
    (hrep : checksOn s.u x.ansSlot < servingReps s.u x.ansSlot)
    (hread : checkPages x c = 0 ∨ s.u.tier.checkRead + checkPages x c ≤ checkBudget s.u ∧ checkAhead s.u n c = false) :
    exec (.checkLaunch n) s = .next (onUnits (fun u => { u with
      str := tset u.str n.val { x with checks := [{ c with launched := true }] }
      tier := { u.tier with checkRead := u.tier.checkRead + checkPages x c } }) s) := by
  have hnext : checkNext s.u x = some c := by
    have hgo : ¬ (x.st = .waiting ∨ (!slotServing s.u x.ansSlot) = true ∨ servingReps s.u x.ansSlot ≤ checksOn s.u x.ansSlot) := by
      simp [hst, hserve, hrep]
    rw [checkNext, if_neg hgo, hc]
    simp [hl]
  have hgo : ¬ (s.u.tick.st ≠ .current ∨ (checkPages x c ≠ 0 ∧
      (checkBudget s.u < s.u.tier.checkRead + checkPages x c ∨ checkAhead s.u n c = true))) := by
    rintro (h | ⟨h0, h⟩)
    · exact h hcur
    · obtain hz | ⟨hle, hahead⟩ := hread
      · exact h0 hz
      · obtain h | h := h
        · omega
        · rw [hahead] at h
          cases h
  refine next_of_units (f := checkLaunch n) ?_
  simp only [checkLaunch, tgetD_of_tget hx, hnext, if_neg hgo]
  rw [modStr_eq (x := x)]
  · simp only [modCheck, hc, List.map_cons, List.map_nil, if_true]
  · exact hx

/-- The verdict of a stream's only check finds it, where its epoch is the stream's. -/
theorem checkVerdict_found {x : Str} {c : Check} (n : Nat) (l : List W32) (b : Bool) (hx : tget u.str n = some x)
    (hc : x.checks = [c]) (hl : c.launched = true) (he : c.epoch = x.rew) (hr : x.rew < 256) :
    checkVerdict n c.lo (BitVec.ofNat 8 x.rew).toNat l b u = if unsweptIn x c then
      modStr n (modCheck c.lo (fun c => { c with scores := some (l, b) })) u else decideCheck n c l b u := by
  have hepoch : (BitVec.ofNat 8 x.rew).toNat = x.rew := by
    rw [BitVec.toNat_ofNat]
    exact Nat.mod_eq_of_lt hr
  have hfind : x.checks.find? (fun d => d.lo == c.lo && d.launched && d.epoch == x.rew) = some c := by simp [hc, hl, he]
  simp only [checkVerdict, hepoch, tgetD_of_tget hx, hfind, ne_eq, not_true_eq_false, if_false]

/-- A check that does not pass is done, and its failure joins the stream's. -/
theorem checkDone_eq {x : Str} {c : Check} (f : Fail) (hx : tget v.str n = some x) (hc : x.checks = [c]) :
    modStr n (fun s => { s with checks := s.checks.filter (fun y => y.lo != c.lo), fails := s.fails ++ [f] }) v =
      { v with str := tset v.str n { x with checks := [], fails := x.fails ++ [f] } } := by
  rw [modStr_eq hx, hc]
  simp

theorem checkVerdict_passes (s : State) (n : Fin 4096) (x : Str) (c : Check) (l : List W32) (hx : tget s.u.str n = some x)
    (hc : x.checks = [c]) (hl : c.launched = true) (he : c.epoch = x.rew) (hr : x.rew < 256) (hsw : unsweptIn x c = false)
    (hj : checkJudge s.u x c l false = some true) :
    ∃ t, exec (.checkVerdict n c.lo (BitVec.ofNat 8 x.rew) l false) s = .next t ∧ (tgetD t.u.str n {}).checks = [] ∧
      (tgetD t.u.str n {}).passed = x.passed ++ [(c.lo,
        if c.short then c.lo + checkSpan x - 1 + (if lagOf x.samp = 32 then 16 else 0) else c.hi)] ∧ (tgetD t.u.str n {}).fails = x.fails ∧ (tgetD t.u.str n {}).hold = x.hold ∧
      t = { s with u := { s.u with str := t.u.str } } ∧ ∀ j, j ≠ n.val → tget t.u.str j = tget s.u.str j := by
  have hrun : checkVerdict n c.lo (BitVec.ofNat 8 x.rew).toNat l false s.u = { s.u with str := tset s.u.str n (checkPassed c x) } := by
    rw [checkVerdict_found n l false hx hc hl he hr, if_neg (by rw [hsw]; exact Bool.false_ne_true), decideCheck, tgetD_of_tget hx]
    simp only [hj]
    exact modStr_eq hx _
  have hself : tgetD (tset s.u.str n (checkPassed c x)) n {} = checkPassed c x := tgetD_tset_self ..
  refine ⟨_, next_of_units (f := checkVerdict n c.lo (BitVec.ofNat 8 x.rew).toNat l false) hrun, ?_, ?_, ?_, ?_, rfl,
    fun j hj => tget_tset_other _ _ hj⟩ <;> simp only [hself]
  · simp [checkPassed, hc]
  · rfl
  · rfl
  · rfl

theorem checkVerdict_fails (s : State) (n : Fin 4096) (x : Str) (c : Check) (l : List W32) (hx : tget s.u.str n = some x)
    (hc : x.checks = [c]) (hl : c.launched = true) (he : c.epoch = x.rew) (hr : x.rew < 256) (hsw : unsweptIn x c = false)
    (hj : checkJudge s.u x c l false = some false) :
    ∃ t f, exec (.checkVerdict n c.lo (BitVec.ofNat 8 x.rew) l false) s = .next t ∧
      tget t.u.str n = some { x with checks := [], fails := x.fails ++ [f] } ∧ f.verdict = 2 ∧ f.reason = 0x41 ∧
      f.start = max (firstHeld x) (if lagOf x.samp = 32 then c.lo - 16 else c.lo) ∧
      t = { s with u := { s.u with str := t.u.str } } := by
  let f := checkFail s.u c.pol (max (firstHeld x) (if lagOf x.samp = 32 then c.lo - 16 else c.lo)) 2 0x41
  have hrun : checkVerdict n c.lo (BitVec.ofNat 8 x.rew).toNat l false s.u =
      { s.u with str := tset s.u.str n { x with checks := [], fails := x.fails ++ [f] } } := by
    rw [checkVerdict_found n l false hx hc hl he hr, if_neg (by rw [hsw]; exact Bool.false_ne_true), decideCheck, tgetD_of_tget hx]
    simp only [hj, Option.isNone_some, Bool.false_eq_true, if_false]
    exact checkDone_eq f hx hc
  exact ⟨_, f, next_of_units (f := checkVerdict n c.lo (BitVec.ofNat 8 x.rew).toNat l false) hrun, tget_tset_self .., rfl, rfl, rfl, rfl⟩

theorem checkVerdict_poisoned (s : State) (n : Fin 4096) (x : Str) (c : Check) (l : List W32) (hx : tget s.u.str n = some x)
    (hc : x.checks = [c]) (hl : c.launched = true) (he : c.epoch = x.rew) (hr : x.rew < 256) (hsw : unsweptIn x c = false) :
    ∃ t f, exec (.checkVerdict n c.lo (BitVec.ofNat 8 x.rew) l true) s = .next t ∧
      tget t.u.str n = some { x with checks := [], fails := x.fails ++ [f] } ∧ f.verdict = 4 ∧ f.reason = 0x15 ∧
      t.u.blk.poison = true ∧ (∀ j, j ≠ n.val → tget t.u.str j = tget s.u.str j) ∧ t.q = s.q ∧ t.m = s.m := by
  let f := checkFail s.u c.pol (max (firstHeld x) (if lagOf x.samp = 32 then c.lo - 16 else c.lo)) 4 0x15
  have hj : checkJudge s.u x c l true = none := by rw [checkJudge, Bool.true_or, if_pos rfl]
  have hrun : checkVerdict n c.lo (BitVec.ofNat 8 x.rew).toNat l true s.u =
      { poisonSink x.ctx s.u with str := tset s.u.str n { x with checks := [], fails := x.fails ++ [f] } } := by
    rw [checkVerdict_found n l true hx hc hl he hr, if_neg (by rw [hsw]; exact Bool.false_ne_true), decideCheck, tgetD_of_tget hx]
    simp only [hj, Option.isNone_none, if_true]
    exact checkDone_eq (v := poisonSink x.ctx s.u) f hx hc
  exact ⟨_, f, next_of_units (f := checkVerdict n c.lo (BitVec.ofNat 8 x.rew).toNat l true) hrun, tget_tset_self .., rfl, rfl, rfl,
    fun j hj => tget_tset_other _ _ hj, rfl, rfl⟩

/-- A breach is counted for its context, where it has one. -/
theorem breach_two (c : Nat) (u : Units) : ∃ b, breach 2 c u = { u with
    cnt := { u.cnt with blk := b }, ctx := tupd u.ctx c (fun c => { c with breach2 := c.breach2 + 1 }) } :=
  blkBump_frame 13 1 { u with ctx := tupd u.ctx c (fun c => { c with breach2 := c.breach2 + 1 }) }

theorem checkTimeout_late (s : State) (n : Fin 4096) (x : Str) (c : Check) (hx : tget s.u.str n = some x) (hc : x.checks = [c])
    (hlate : c.late = false) (hmark : egressMark s.u x.cohort = true) (hq : c.queued + le c.pol 22 2 ≤ cohortTick s.u x.cohort)
    (hact : le c.pol 21 1 / 16 = 0) :
    ∃ t, exec (.checkTimeout n) s = .next t ∧ tget t.u.str n = some { x with
        checks := [{ c with late := true }]
        fails := x.fails ++ [{ start := max (firstHeld x) c.lo, act := 0, verdict := 3, reason := 0x23 }] } ∧
      (tgetD t.u.ctx x.ctx {}).breach2 = (if (tget s.u.ctx x.ctx).isSome then (tgetD s.u.ctx x.ctx {}).breach2 + 1 else 0) ∧
      (∀ j, j ≠ n.val → tget t.u.str j = tget s.u.str j) ∧ t.q = s.q ∧ t.m = s.m := by
  obtain ⟨-, -, -, -, -, -, -, hstr, -, -, hctx, -⟩ := noticeFrame_keeps
    (notice_frame (dieKey 1 (slotDie n)) 0x0502 x.ctx [handleOf n x] s.u)
  obtain ⟨bk, hbr⟩ := breach_two x.ctx (notice (dieKey 1 (slotDie n)) 0x0502 x.ctx [handleOf n x] s.u)
  have hsel : (!c.late && decide (c.queued + le c.pol 22 2 ≤ cohortTick s.u x.cohort)) = true := by simp [hlate, hq]
  have hrun : checkTimeout n s.u = lateOne n c s.u := by
    rw [checkTimeout, tgetD_of_tget hx, if_pos hmark]
    simp only [lateChecks, tgetD_of_tget hx, hc, List.filter_cons, hsel, if_true, List.filter_nil, forAll, List.foldl_cons, List.foldl_nil]
  have hone : lateOne n c s.u = { breach 2 x.ctx (notice (dieKey 1 (slotDie n)) 0x0502 x.ctx [handleOf n x] s.u) with
      str := tset s.u.str n { x with
        checks := [{ c with late := true }]
        fails := x.fails ++ [{ start := max (firstHeld x) c.lo, act := 0, verdict := 3, reason := 0x23 }] } } := by
    simp only [lateOne, tgetD_of_tget hx, hact, if_true]
    rw [modStr_eq (x := x)]
    · simp only [modCheck, hc, List.map_cons, List.map_nil, if_true, hbr, hstr]
    · rw [hbr, hstr]
      exact hx
  refine ⟨_, next_of_units (f := checkTimeout n) (hrun.trans hone), tget_tset_self .., ?_, fun j hj => tget_tset_other _ _ hj, rfl, rfl⟩
  rw [hbr]
  simp only [hctx]
  cases hcx : tget s.u.ctx x.ctx with
  | none =>
    have hnone : tget (tupd s.u.ctx x.ctx (fun c => { c with breach2 := c.breach2 + 1 })) x.ctx = none := by
      rw [tupd, hcx]
      exact hcx
    rw [tgetD, hnone]
    rfl
  | some y =>
    rw [tgetD_of_tget (tget_tupd_self hcx _), tgetD_of_tget hcx]
    rfl

/-- Settles O45: what the sweep leaves as it is stands in `SweepFrame`, and a verdict goes through `checkVerdict_found`. -/
theorem sweepsAndChecks : Obligations.SweepsAndChecks := by
  refine ⟨execMatchSummaryDone_sweeps, execMatchSummaryDone_idle, checkLaunch_launches, checkVerdict_passes, checkVerdict_fails,
    checkVerdict_poisoned, ?waits, ?epoch, checkTimeout_late, ?early⟩
  case waits =>
    intro s n x c l b hx hc hl he hr hsw
    refine next_of_units (f := checkVerdict n c.lo (BitVec.ofNat 8 x.rew).toNat l b) ?_
    rw [checkVerdict_found n l b hx hc hl he hr, if_pos hsw, modStr_eq hx]
    simp only [modCheck, hc, List.map_cons, List.map_nil, if_true]
  case epoch =>
    intro s n x lo e l b hx he
    refine next_of_units (f := checkVerdict n lo e.toNat l b) (v := s.u) ?_
    simp only [checkVerdict, tgetD_of_tget hx, ne_eq, he, not_false_eq_true, if_true]
    split <;> rfl
  case early =>
    intro s n h
    exact next_of_units (f := checkTimeout n) (if_neg (by rw [h]; exact Bool.false_ne_true))

end Sys2Proof.Machine
end

section
/-! PROOFS. The effects of a rewind and a redaction, and runs of missed ticks (07, R228, R231; 02, R60). -/
namespace Sys2Proof.Machine

variable {s : State} {u : Units} {x : Str}

theorem replayTo_frame (die : Nat) (trans : Bytes) (m : MState) (u : Units) : SweepFrame u (replayTo die trans m u).2 :=
  replayGroups_frame _ _ _ _ _

/-- A stream that stands at a position anew (R228). -/
structure Restored (x y : Str) (r : Nat) : Prop where
  pos : y.pos = r
  rew : y.rew = (x.rew + 1) % 256
  redo : y.redo = none
  st : y.st = x.st
  ended : y.ended = false
  fails : ∀ f, f ∈ y.fails → f.start < r
  hold : y.hold = x.hold

theorem restoreAt_restores (n r : Nat) (hx : tget u.str n = some x) :
    ∃ y, tget (restoreAt n r u).str n = some y ∧ Restored x y r ∧ ∀ j, j ≠ n → tget (restoreAt n r u).str j = tget u.str j := by
  unfold restoreAt
  simp only [tgetD_of_tget hx]
  generalize hz : replayTo (slotDie n) _ _ u = z
  have hstr : z.2.str = u.str := by
    rw [← hz]
    exact (replayTo_frame ..).str
  have hzx : tget z.2.str n = some x := by rw [hstr]; exact hx
  simp only [modStr_eq hzx]
  generalize hw : ({ z.2 with str := _, mat := _ } : Units) = w
  have hwx := (congrArg (fun v : Units => tget v.str n) hw).symm.trans (tget_tset_self ..)
  obtain ⟨a, b, g, tx, wt, hfree, -, -⟩ := freePages_frame n (fun c => decide (r / 16 + 1 < c)) w hwx
  rw [hfree]
  refine ⟨_, tget_tset_self .., ⟨rfl, rfl, rfl, rfl, rfl, fun f hf => ?_, rfl⟩, fun j hj => ?_⟩
  · exact of_decide_eq_true (List.mem_filter.mp hf).2
  · refine (tget_tset_other _ _ hj).trans ?_
    rw [← hw]
    exact (tget_tset_other _ _ hj).trans (by rw [hstr])

/-- A replacement token advances its stream by one position. -/
theorem replToken_steps (n t : Nat) (hx : tget u.str n = some x) :
    ∃ y, tget (replToken n u t).str n = some y ∧ y.pos = x.pos + 1 ∧ y.rew = x.rew ∧ y.redo = x.redo ∧ y.hold = x.hold ∧
      y.st = x.st ∧ ∀ j, j ≠ n → tget (replToken n u t).str j = tget u.str j := by
  unfold replToken
  simp only [tgetD_of_tget hx]
  generalize hr : sweepToken _ t _ = r
  have hstr : r.2.str = u.str := by
    rw [← hr]
    exact (sweepToken_frame _ _ ({ ms := x.ms }, u)).str
  have hrx : tget r.2.str n = some x := by rw [hstr]; exact hx
  exact ⟨_, tget_tupd_self hrx _, rfl, rfl, rfl, rfl, rfl, fun j hj => (tget_tupd_other _ _ hj).trans (by rw [hstr])⟩
theorem replTokens_step (n : Nat) (l : List Nat) (u : Units) (x : Str) (hx : tget u.str n = some x) :
    ∃ y, tget (l.foldl (replToken n) u).str n = some y ∧ y.pos = x.pos + l.length ∧ y.rew = x.rew ∧ y.redo = x.redo ∧
      y.hold = x.hold ∧ y.st = x.st ∧ ∀ j, j ≠ n → tget (l.foldl (replToken n) u).str j = tget u.str j := by
  induction l generalizing u x with
  | nil => exact ⟨x, hx, rfl, rfl, rfl, rfl, rfl, fun _ _ => rfl⟩
  | cons t l ih =>
    obtain ⟨y, hy, hpos, hrew, hredo, hhold, hst, hother⟩ := replToken_steps n t hx
    obtain ⟨z, hz, hpos', hrew', hredo', hhold', hst', hother'⟩ := ih _ y hy
    refine ⟨z, hz, ?_, hrew'.trans hrew, hredo'.trans hredo, hhold'.trans hhold, hst'.trans hst,
      fun j hj => (hother' j hj).trans (hother j hj)⟩
    rw [hpos', hpos, List.length_cons]
    omega

/-- What a pending rewind or redaction of an active stream does at its boundary. -/
theorem redoApply_active (redact : Bool) (n : Nat) {r why : Nat} {l : List Nat} (hx : tget u.str n = some x)
    (hredo : x.redo = some (r, l, why)) (hwhy : (why == 3) = redact) (hst : x.st = .active) (hat : atBoundary u x.cohort = true)
    (hc : x.cancelAt = none) : redoApply redact n u = l.foldl (replToken n) (restoreAt n r u) := by
  have hgo : ¬ (((why == 3) != redact) = true ∨ (!atBoundary u x.cohort) = true ∨ cancelDue u x = true) := by
    simp [hwhy, hat, cancelDue, hc]
  obtain ⟨y, hy, hres, -⟩ := restoreAt_restores n r hx
  obtain ⟨z, hz, -, -, -, -, hzst, -⟩ := replTokens_step n l _ y hy
  have hact : z.st = .active := hzst.trans (hres.st.trans hst)
  unfold redoApply
  simp only [tgetD_of_tget hx, hredo, if_neg hgo, tgetD_of_tget hz, hact, reduceCtorEq, false_and, if_false]

theorem rewindApply_rewinds (s : State) (n : Fin 4096) (x : Str) (r why : Nat) (hx : tget s.u.str n = some x)
    (hredo : x.redo = some (r, [], why)) (hwhy : why ≠ 3) (hst : x.st = .active) (hat : atBoundary s.u x.cohort = true)
    (hc : x.cancelAt = none) :
    ∃ t, exec (.rewindApply n) s = .next t ∧ (tgetD t.u.str n {}).pos = r ∧ (tgetD t.u.str n {}).rew = (x.rew + 1) % 256 ∧
      (tgetD t.u.str n {}).redo = none ∧ (tgetD t.u.str n {}).st = .active ∧ (tgetD t.u.str n {}).ended = false ∧
      (∀ f, f ∈ (tgetD t.u.str n {}).fails → f.start < r) ∧ (tgetD t.u.str n {}).hold = x.hold ∧
      (∀ j, j ≠ n.val → tget t.u.str j = tget s.u.str j) ∧ t.q = s.q ∧ t.m = s.m := by
  obtain ⟨y, hy, hres, hother⟩ := restoreAt_restores (u := s.u) n r hx
  refine ⟨_, next_of_units (f := redoApply false n) (redoApply_active false n hx hredo (beq_false_of_ne hwhy) hst hat hc), ?_⟩
  simp only [List.foldl_nil, tgetD_of_tget hy]
  exact ⟨hres.pos, hres.rew, hres.redo, hres.st.trans hst, hres.ended, hres.fails, hres.hold, hother, trivial, trivial⟩

theorem redactApply_redacts (s : State) (n : Fin 4096) (x : Str) (r : Nat) (l : List Nat) (hx : tget s.u.str n = some x)
    (hredo : x.redo = some (r, l, 3)) (hst : x.st = .active) (hat : atBoundary s.u x.cohort = true) (hc : x.cancelAt = none) :
    ∃ t, exec (.redactApply n) s = .next t ∧ (tgetD t.u.str n {}).pos = r + l.length ∧
      (tgetD t.u.str n {}).rew = (x.rew + 1) % 256 ∧ (tgetD t.u.str n {}).redo = none ∧ (tgetD t.u.str n {}).hold = x.hold ∧
      (∀ j, j ≠ n.val → tget t.u.str j = tget s.u.str j) ∧ t.q = s.q ∧ t.m = s.m := by
  obtain ⟨y, hy, hres, hother⟩ := restoreAt_restores (u := s.u) n r hx
  obtain ⟨z, hz, hpos, hrew, hredo', hhold, -, hother'⟩ := replTokens_step n l _ y hy
  refine ⟨_, next_of_units (f := redoApply true n) (redoApply_active true n hx hredo rfl hst hat hc), ?_⟩
  simp only [tgetD_of_tget hz]
  exact ⟨by rw [hpos, hres.pos], hrew.trans hres.rew, hredo'.trans hres.redo, hhold.trans hres.hold,
    fun j hj => (hother' j hj).trans (hother j hj), trivial, trivial⟩

/-- Settles O46: a stream restored is `Restored`, and each replacement token steps it by one. -/
theorem rewindRedactionAndRuns : Obligations.RewindRedactionAndRuns := by
  refine ⟨rewindApply_rewinds, redactApply_redacts, ?none, ?run, ?idle⟩
  case none =>
    intro s n h
    have hnone (b : Bool) : redoApply b n s.u = s.u := by
      unfold redoApply
      simp only [h]
    exact ⟨next_of_units (hnone false), next_of_units (hnone true)⟩
  case run =>
    intro s n x hx hmiss hnoted
    have hgo : ¬ (x.misses < 3 ∨ x.missNoted = true) := by simp [hnoted, hmiss]
    refine next_of_units (f := skipRun n) ?_
    simp only [skipRun, tgetD_of_tget hx, if_neg hgo, modStr_eq hx]
  case idle =>
    intro s n h
    exact next_of_units (f := skipRun n) (if_pos h)

end Sys2Proof.Machine
end

section
/-! PROOFS. Pages and saved states that move (09, R272, R273, R290; 14, R403). -/
namespace Sys2Proof.Machine

variable {s : State} {u v w : Units}

/- Window transactions that leave. -/
/-- What sending a window transaction may change: the ports and their counts, and the transactions outstanding. -/
def SentFrame (u v : Units) : Prop :=
  ∃ o pt d tx wt nt, v = { u with
    out := o, fab := { u.fab with ports := pt }, cnt := { u.cnt with die := d }
    tier := { u.tier with txns := tx, waitTx := wt, nextTag := nt } }
theorem SentFrame.refl (u : Units) : SentFrame u u :=
  ⟨u.out, u.fab.ports, u.cnt.die, u.tier.txns, u.tier.waitTx, u.tier.nextTag, rfl⟩
theorem SentFrame.trans (h : SentFrame u v) (h' : SentFrame v w) : SentFrame u w := by
  obtain ⟨o, pt, d, tx, wt, nt, rfl⟩ := h
  obtain ⟨o', pt', d', tx', wt', nt', rfl⟩ := h'
  exact ⟨o', pt', d', tx', wt', nt', rfl⟩
theorem sentFrame_portFrame (h : PortFrame u v) : SentFrame u v := by
  rw [h]
  exact ⟨_, _, u.cnt.die, u.tier.txns, u.tier.waitTx, u.tier.nextTag, rfl⟩
theorem sentFrame_dieBump (d n k : Nat) (u : Units) : SentFrame u (dieBump d n k u) := by
  obtain ⟨x, hx⟩ := dieBump_frame d n k u
  rw [hx]
  exact ⟨u.out, u.fab.ports, x, u.tier.txns, u.tier.waitTx, u.tier.nextTag, rfl⟩
theorem txnOut_sent (t : Txn) (data : Bytes) (u : Units) : SentFrame u (txnOut t data u) := by
  unfold txnOut
  refine SentFrame.trans ?_ (sentFrame_dieBump ..)
  exact SentFrame.trans ⟨u.out, u.fab.ports, u.cnt.die, _, u.tier.waitTx, u.tier.nextTag, rfl⟩
    (sentFrame_portFrame (portFrame_fabPut _ _ _ _))
theorem txnIssue_sent (t : Txn) (data : Bytes) (u : Units) : SentFrame u (txnIssue t data u) := by
  have htag : SentFrame u { u with tier := { u.tier with nextTag := (u.tier.nextTag + 1) % 2 ^ 32 } } :=
    ⟨u.out, u.fab.ports, u.cnt.die, u.tier.txns, u.tier.waitTx, _, rfl⟩
  unfold txnIssue
  dsimp only
  split
  · exact htag.trans (txnOut_sent ..)
  · exact ⟨u.out, u.fab.ports, u.cnt.die, u.tier.txns, _, _, rfl⟩
theorem forAll_sent {α : Type} (l : List α) {f : α → Units → Units} (hf : ∀ a u, SentFrame u (f a u)) (u : Units) :
    SentFrame u (forAll l f u) :=
  forAll_keeps (SentFrame u) l f u (SentFrame.refl u) fun a v h => h.trans (hf a v)
theorem sendRd_sent (win off n : Nat) (core : Option Nat) (own : Option MoveId) (dst : Nat × Nat × Nat) (u : Units) :
    SentFrame u (sendRd win off n core own dst u) :=
  forAll_sent _ (fun _ _ => txnIssue_sent ..) u

/- Pages (R272, R403). -/
theorem pageMigrate_starts (s : State) (n c : Nat) (g : Page) (hb : borrowedPages s.u = [(n, c, g)]) (hbg : backgroundRuns s.u = true)
    (hlow : s.u.tier.mainUse * 1024 < s.u.tier.pageMain * s.u.tier.lowWm) (hmain : s.u.tier.mainUse < s.u.tier.pageMain)
    (hup : tier2Down s.u (pageAddr2 s.u g.page) 65536 = false) (hg : tget (tgetD s.u.str n {}).pages c = some g) :
    ∃ t p, exec .pageMigrate s = .next t ∧ lowestFree s.u.tier.t1 1 = [p] ∧
      tget (tgetD t.u.str n {}).pages c = some { g with to_ := some p } ∧ t.u.tier.mainUse = s.u.tier.mainUse + 1 ∧
      t.u.tier.t1 = s.u.tier.t1 ++ [p] ∧ { id := .back n c, left := 1, first := s.u.tick.number } ∈ t.u.tier.moves ∧
      (∀ j, j ≠ n → tget t.u.str j = tget s.u.str j) ∧ t.q = s.q ∧ t.m = s.m := by
  obtain ⟨p, hp⟩ := lowestFree_one s.u.tier.t1
  have hgo : ¬ ((!backgroundRuns s.u) = true ∨ s.u.tier.pageMain * s.u.tier.lowWm ≤ s.u.tier.mainUse * 1024 ∨
      tier2Down s.u (pageAddr2 s.u g.page) 65536 = true) := by
    simp [hbg, hup, hlow]
  have htake : takeMain 1 s.u = some ([p], { s.u with tier := { s.u.tier with
      t1 := s.u.tier.t1 ++ [p], mainUse := s.u.tier.mainUse + 1 } }) := by
    rw [takeMain, if_pos (Nat.succ_le_of_lt hmain), hp]
  obtain ⟨x, hx⟩ : ∃ x, tget s.u.str n = some x := by
    cases hx : tget s.u.str n with
    | none =>
      rw [tgetD, hx] at hg
      cases hg
    | some x => exact ⟨x, rfl⟩
  rw [tgetD_of_tget hx] at hg
  have hrun : pageMigrate s.u = addMove (.back n c) 1 s.u.tick.number (urgentDone 6 none { s.u with
      str := tset s.u.str n { x with pages := tset x.pages c { g with to_ := some p } }
      tier := { s.u.tier with t1 := s.u.tier.t1 ++ [p], mainUse := s.u.tier.mainUse + 1 } }) := by
    simp only [pageMigrate, hb, sortBy, insertBy, if_neg hgo, htake]
    rw [modStr_eq (x := x)]
    · rw [tupd, hg]
    · exact hx
  refine ⟨_, p, next_of_units (f := pageMigrate) hrun, hp, ?_, rfl, rfl, List.mem_append_right _ (List.mem_singleton_self _),
    fun j hj => tget_tset_other _ _ hj, rfl, rfl⟩
  exact (congrArg (fun y : Str => tget y.pages c) (tgetD_tset_self ..)).trans (tget_tset_self ..)

theorem backgroundRuns_false (h : u.tick.st = .coasting ∨ u.tick.st = .halted ∨
    ∃ w, u.fw.upd = some w ∧ (u.tick.number = w.q + 2 ∨ u.tick.number = w.q + 3)) : backgroundRuns u = false := by
  obtain h | h | ⟨w, hw, h⟩ := h
  · simp [backgroundRuns, onceRuns, h]
  · simp [backgroundRuns, onceRuns, h]
  · obtain h | h := h <;> simp [backgroundRuns, hw, h]

theorem pageEviction_credits (s : State) (p : Nat) (hbg : backgroundRuns s.u = true) (hf : s.u.tier.freed = [p]) :
    ∃ t, exec .pageEviction s = .next t ∧ t.u.tier.freed = [] ∧ t.u.tier.t1 = (creditPage p s.u.tier).t1 ∧
      t = { s with u := { s.u with tier := t.u.tier, svc := { s.u.svc with urgent := t.u.svc.urgent } } } := by
  have hrun : pageEviction s.u = urgentDone 7 none { s.u with tier := { creditPage p s.u.tier with freed := [] } } := by
    simp only [pageEviction, hbg, hf, Bool.not_true, Bool.false_eq_true, if_false]
    rfl
  exact ⟨_, next_of_units (f := pageEviction) hrun, rfl, rfl, rfl⟩

/- Saved states (R290). -/
theorem tupd_one {α : Type} (k : Nat) (a : α) (f : α → α) : tupd [(k, a)] k f = [(k, f a)] := by
  simp [tupd, tget, tset]
theorem tget_one {α : Type} (k : Nat) (a : α) : tget [(k, a)] k = some a := by
  simp [tget]

theorem pauseMigrate_begins (s : State) (e : BitVec 16) (v : Saved) (hs : s.u.tier.saved = [(e.toNat, v)]) (hst : v.st = 2)
    (hto : v.to_ = none) (hroom : v.npages + 1 ≤ roomAt s.u 0) (hbg : backgroundRuns s.u = true) :
    ∃ t, exec (.pauseMigrate e true) s = .next t ∧
      t.u.tier.saved = [(e.toNat, { v with to_ := some (0, lowestFree s.u.tier.t2 (v.npages + 1)), fail := false })] ∧
      t.u.tier.t2 = s.u.tier.t2 ++ lowestFree s.u.tier.t2 (v.npages + 1) ∧
      { id := .saved e.toNat, left := v.npages + 1, first := s.u.tick.number } ∈ t.u.tier.moves ∧ t.u.str = s.u.str ∧
      t.q = s.q ∧ t.m = s.m := by
  have hget : tget s.u.tier.saved e.toNat = some v := by rw [hs, tget_one]
  have htarget : migrateTarget s.u v = some 0 := if_pos hroom
  have hnext : migrateNext s.u v.target = some e.toNat := by
    simp [migrateNext, hs, hst, hto, htarget, byExpiry, sortBy, insertBy]
  have hgo : ¬ ((!true) = true ∨ (!backgroundRuns s.u) = true ∨ migrateNext s.u v.target ≠ some e.toNat) := by simp [hbg, hnext]
  have hst' : ¬ v.st ≠ 2 := not_not_intro hst
  have hrun : pauseMigrate e.toNat true s.u = migrateBegin e.toNat 0 v s.u := by
    simp only [pauseMigrate, hget, if_neg hst', hto, htarget, if_neg hgo]
  obtain ⟨o, pt, d, tx, wt, nt, hbegin⟩ : ∃ o pt d tx wt nt, migrateBegin e.toNat 0 v s.u =
      addMove (.saved e.toNat) (v.npages + 1) s.u.tick.number { s.u with
        out := o, fab := { s.u.fab with ports := pt }, cnt := { s.u.cnt with die := d }
        tier := { s.u.tier with
          txns := tx, waitTx := wt, nextTag := nt, t2 := s.u.tier.t2 ++ lowestFree s.u.tier.t2 (v.npages + 1)
          saved := [(e.toNat, { v with to_ := some (0, lowestFree s.u.tier.t2 (v.npages + 1)), fail := false })] } } := by
    unfold migrateBegin
    simp only [usedAt, if_true]
    generalize hw : forAll (List.range _) _ s.u = w
    obtain ⟨o, pt, d, tx, wt, nt, hsent⟩ : SentFrame s.u w := by
      rw [← hw]
      exact forAll_sent _ (fun _ _ => sendRd_sent ..) s.u
    rw [hsent, modSaved]
    simp only [hs, tupd_one]
    exact ⟨o, pt, d, tx, wt, nt, rfl⟩
  exact ⟨_, next_of_units (f := pauseMigrate e.toNat true) (hrun.trans hbegin), rfl, rfl,
    List.mem_append_right _ (List.mem_singleton_self _), rfl, rfl, rfl⟩

theorem pauseMigrate_ends (s : State) (e : BitVec 16) (v : Saved) (x : Nat × List Nat) (hs : s.u.tier.saved = [(e.toNat, v)])
    (hst : v.st = 2) (hto : v.to_ = some x) (hf : v.fail = false) (hcopy : copying s.u (.saved e.toNat) = false)
    (hdone : moveDone s.u (.saved e.toNat) = true) :
    exec (.pauseMigrate e true) s = .next (onUnits (fun u => { u with tier := { u.tier with saved := [(e.toNat, { v with
      st := if (tget u.tier.imports x.1).any (fun w => w.depart.isSome) then 2 else 1, target := x.1, t2 := x.2, to_ := none })] } }) s) := by
  have hget : tget s.u.tier.saved e.toNat = some v := by rw [hs, tget_one]
  have hst' : ¬ v.st ≠ 2 := not_not_intro hst
  have hok : ¬ ((!true) = true ∨ v.fail = true) := by simp [hf]
  have hserved : ¬ (copying s.u (.saved e.toNat) = true ∨ (!moveDone s.u (.saved e.toNat)) = true) := by simp [hcopy, hdone]
  refine next_of_units (f := pauseMigrate e.toNat true) ?_
  simp only [pauseMigrate, hget, if_neg hst', hto, migrateEnd, if_neg hok, if_neg hserved]
  simp only [modSaved, hs, tupd_one]

theorem pauseMigrate_fails (s : State) (e : BitVec 16) (v : Saved) (x : Nat × List Nat) (hs : s.u.tier.saved = [(e.toNat, v)])
    (hst : v.st = 2) (hto : v.to_ = some x) :
    ∃ t, exec (.pauseMigrate e false) s = .next t ∧ t.u.tier.saved = [(e.toNat, { v with to_ := none, fail := false })] ∧
      (∀ p, x.1 = 0 → p ∈ x.2 → p ∉ t.u.tier.t2) ∧ t = { s with u := { s.u with tier := t.u.tier } } := by
  have hget : tget s.u.tier.saved e.toNat = some v := by rw [hs, tget_one]
  have hst' : ¬ v.st ≠ 2 := not_not_intro hst
  obtain ⟨a, hfree, hgone⟩ : ∃ a, (if x.1 = 0 then freeLocal x.2 s.u else s.u) = { s.u with tier := { s.u.tier with t2 := a } } ∧
      ∀ p, x.1 = 0 → p ∈ x.2 → p ∉ a := by
    by_cases h0 : x.1 = 0
    · refine ⟨s.u.tier.t2.filter (fun p => !x.2.contains p), if_pos h0, fun p _ hp hmem => ?_⟩
      have hnot := (List.mem_filter.mp hmem).2
      simp [hp] at hnot
    · exact ⟨s.u.tier.t2, if_neg h0, fun _ h => absurd h h0⟩
  have hrun : pauseMigrate e.toNat false s.u = dropMoves (fun i => i == .saved e.toNat) { s.u with tier := { s.u.tier with
      t2 := a, saved := [(e.toNat, { v with to_ := none, fail := false })] } } := by
    simp only [pauseMigrate, hget, if_neg hst', hto, migrateEnd, Bool.not_false, true_or, if_true, hfree]
    simp only [modSaved, hs, tupd_one]
  exact ⟨_, next_of_units (f := pauseMigrate e.toNat false) hrun, rfl, hgone, rfl⟩

/-- Settles O47: what a move sends stands in `SentFrame`; every other clause is its command's branch. -/
theorem pagesMoveAndAreCredited : Obligations.PagesMoveAndAreCredited := by
  refine ⟨pageMigrate_starts, ?held, pageEviction_credits, pauseMigrate_begins, pauseMigrate_ends, pauseMigrate_fails, ?idle, ?map⟩
  case held =>
    intro s h
    have hbg := backgroundRuns_false h
    refine ⟨next_of_units (f := pageMigrate) ?_, next_of_units (f := pageEviction) (if_pos (by rw [hbg]; rfl))⟩
    unfold pageMigrate
    generalize sortBy _ (borrowedPages s.u) = l
    cases l with
    | nil => rfl
    | cons x r => exact if_pos (.inl (by rw [hbg]; rfl))
  case idle =>
    intro s e v hv hto
    refine next_of_units (f := pauseMigrate e.toNat false) (v := s.u) ?_
    simp only [pauseMigrate, hv, hto, Bool.not_false, true_or, if_true]
    split
    · rfl
    · split <;> rfl
  case map =>
    intro s mb p k h hk hb hs hup
    refine (next_of_heardS h).trans ?_
    have hlen : ((List.range (min ((tgetD s.u.str k {}).maxPos / 16) ((bufOf p 16).len / 4))).flatMap
        (fun c => leBytes 4 (pageEntry (tget (tgetD s.u.str k {}).pages c)))).length ≤ (bufOf p 16).len := by
      rw [length_flatMap_const (m := 4) _ (fun _ => leBytes_length ..), List.length_range]
      omega
    simp only [hk, hb, Bool.not_true, Bool.false_eq_true, if_false, bufWrite_port0 hs hup hlen]
    rfl

end Sys2Proof.Machine
end

section
/-! PROOFS. Messages on jobs and the fetching of descriptors (08, R254; 13, R365). -/
namespace Sys2Proof.Machine

variable {s : State} {u v w : Units}

/- Notices of a limited rate. -/
theorem noticeLimited_frame (p code key c : Nat) (args : List Nat) (u : Units) :
    ∃ l, noticeFrame { u with limits := l } (noticeLimited p code key c args u) := by
  unfold noticeLimited
  split
  · exact ⟨u.limits, noticeFrame_refl _⟩
  · exact ⟨_, notice_frame _ _ _ _ _⟩

/- A descriptor that is fetched. -/
/-- The context `cx` once its fetched descriptor `b`, with the sampling record `x`, has the code `rej` (R365). -/
def fetchedCtx (u : Units) (b : Bytes) (x : Option Bytes) (rej : Nat) (cx : Ctx) : Ctx :=
  { cx with
    fetchLeft := cx.fetchLeft - 1, subCons := (cx.subCons + 1) % 2 ^ 32
    cplWait := cx.cplWait ++ [completion (le b 0 1) rej cx.subCons (if rej = 0 then nextTick u else 0)
      (if le b 0 1 = 1 then le b 2 2 else le b 4 4)]
    tags := if rej = 0 ∧ le b 0 1 = 1 then cx.tags ++ [le b 2 2] else cx.tags
    waiting := if rej = 0 then cx.waiting ++ [{ desc := b, srec := x, tick := nextTick u }] else cx.waiting }

/-- The block once context `c` has fetched a descriptor, before what a rejected one reports. -/
def fetchedUnits (u : Units) (c : Nat) (b : Bytes) (x : Option Bytes) (rej : Nat) : Units :=
  let v := modCtx c (fetchedCtx u b x rej) u
  dieBump (dieKey 2 (ringDie u (tgetD u.ctx c {}).sub)) 0x206 1 { v with tick := { v.tick with fetched := v.tick.fetched + 1 } }

theorem present_of_fetchLeft {c : Nat} (h : 1 < (tgetD u.ctx c {}).fetchLeft) : ∃ cx, tget u.ctx c = some cx := by
  cases hg : tget u.ctx c with
  | some cx => exact ⟨cx, rfl⟩
  | none =>
    rw [tgetD, hg] at h
    exact absurd h (by decide)

theorem fetchedUnits_frame {c : Nat} (b : Bytes) (x : Option Bytes) (rej : Nat) (h : 1 < (tgetD u.ctx c {}).fetchLeft) :
    tgetD (fetchedUnits u c b x rej).ctx c {} = fetchedCtx u b x rej (tgetD u.ctx c {}) ∧
    (∀ k, k ≠ c → tget (fetchedUnits u c b x rej).ctx k = tget u.ctx k) ∧
    (fetchedUnits u c b x rej).job = u.job ∧ (fetchedUnits u c b x rej).str = u.str := by
  obtain ⟨cx, hcx⟩ := present_of_fetchLeft h
  obtain ⟨d, hd⟩ := dieBump_frame (dieKey 2 (ringDie u (tgetD u.ctx c {}).sub)) 0x206 1
    (let v := modCtx c (fetchedCtx u b x rej) u
     { v with tick := { v.tick with fetched := v.tick.fetched + 1 } })
  rw [fetchedUnits, hd]
  refine ⟨?_, fun k hk => tget_tupd_other u.ctx _ hk, rfl, rfl⟩
  rw [tgetD_of_tget hcx, ← Option.getD_some (a := fetchedCtx u b x rej cx) (b := ({} : Ctx))]
  exact congrArg (Option.getD · {}) (tget_tupd_self hcx _)

section
variable {c : Nat} {b : Bytes} {r : Dma} {x : Option Bytes}
variable (hleft : 1 < (tgetD s.u.ctx c {}).fetchLeft) (hrun : running s.u = true)
  (hup : ringUp s.u (tgetD s.u.ctx c {}).sub = true) (hx : descSampling s c (sliceZ b 0 64) r = some x)
include hleft hrun hup hx

theorem descriptorFetched_accepted (hrej : descReject (tgetD s.u.ctx c {}) (sliceZ b 0 64) = 0) (hheld : tickHolds s.u = false) :
    descriptorFetched c (.data b) r s = { s with u := fetchedUnits s.u c (sliceZ b 0 64) x 0 } := by
  have hgo : ¬ ((tgetD s.u.ctx c {}).fetchLeft = 0 ∨ (!running s.u) = true) := by
    rw [hrun]
    simp
    omega
  have hone : ¬ (tgetD s.u.ctx c {}).fetchLeft = 1 := by omega
  simp only [descriptorFetched, if_neg hgo, hup, if_true, Option.isSome_some, Option.isNone_some, Option.getD_some, hx, hrej, hheld,
    Bool.false_eq_true, if_false, if_neg hone, Bool.not_false, or_true, fetchedUnits]
  delta fetchedCtx
  simp only [if_true, true_and]

theorem descriptorFetched_rejected (hrej : descReject (tgetD s.u.ctx c {}) (sliceZ b 0 64) ≠ 0) :
    ∃ l v d, descriptorFetched c (.data b) r s = { s with u := v } ∧ noticeFrame { setIface (dieBump d 0x207 1
      (fetchedUnits s.u c (sliceZ b 0 64) x (descReject (tgetD s.u.ctx c {}) (sliceZ b 0 64)))) with limits := l } v := by
  have hgo : ¬ ((tgetD s.u.ctx c {}).fetchLeft = 0 ∨ (!running s.u) = true) := by
    rw [hrun]
    simp
    omega
  have hone : ¬ (tgetD s.u.ctx c {}).fetchLeft = 1 := by omega
  obtain ⟨l, hl⟩ := noticeLimited_frame (dieKey 2 (ringDie s.u (tgetD s.u.ctx c {}).sub)) 0x0D03 c c
    [(tgetD s.u.ctx c {}).subCons, descReject (tgetD s.u.ctx c {}) (sliceZ b 0 64)]
    (setIface (dieBump (dieKey 2 (ringDie s.u (tgetD s.u.ctx c {}).sub)) 0x207 1
      (fetchedUnits s.u c (sliceZ b 0 64) x (descReject (tgetD s.u.ctx c {}) (sliceZ b 0 64)))))
  refine ⟨l, _, _, ?_, hl⟩
  have hpos : (descReject (tgetD s.u.ctx c {}) (sliceZ b 0 64) ≠ 0 ∨ (!tickHolds s.u) = true) := .inl hrej
  simp only [descriptorFetched, if_neg hgo, hup, if_true, Option.isSome_some, Option.isNone_some, Option.getD_some, hx,
    Bool.false_eq_true, if_false, if_neg hone, if_pos hpos, if_neg hrej, fetchedUnits]
  delta fetchedCtx
  simp only [if_neg hrej]
end

theorem descReject_zero {cx : Ctx} {b : Bytes} (h : descReject cx b = 0) :
    1 ≤ le b 0 1 ∧ le b 0 1 ≤ 4 ∧ crc32c (b.take 60) = le b 60 4 := by
  unfold descReject at h
  split at h
  · exact absurd h (by decide)
  · split at h
    · exact absurd h (by decide)
    · next ht hc => exact ⟨by omega, by omega, Classical.not_not.mp hc⟩

/-- Settles O48: every message answers what its job's state gives, and a fetched descriptor changes its context as `fetchedCtx`
says. -/
theorem jobMessagesAndDescriptors : Obligations.JobMessagesAndDescriptors := by
  refine ⟨?cancel, ?late, ?unknown, ?status, ?accepted, ?rejected, ?idle, fun b c h => descReject_zero h⟩
  case cancel =>
    intro s mb p j h hj hc hlive hem hin
    refine next_of_answer h ?_
    have hgo : ¬ ((!jobLive j) = true ∨ j.emitted = true ∨ j.admitAt + j.delay - 1 ≤ s.u.tick.number + 1) := by
      rw [hlive, hem]
      simp
      omega
    simp only [hj, hc, if_neg hgo]
  case late =>
    intro s mb p j h hj hc hlate
    refine next_of_answer h ?_
    have hno : (!jobLive j) = true ∨ j.emitted = true ∨ j.admitAt + j.delay - 1 ≤ s.u.tick.number + 1 :=
      hlate.imp_left fun hl => by rw [hl]; rfl
    simp only [hj, hc, if_pos hno]
    rfl
  case unknown =>
    intro s mb p
    constructor
    · intro h hj
      exact next_of_answer h (by simp only [hj]; rfl)
    · intro h hj
      exact next_of_answer h (by simp only [hj]; rfl)
  case status =>
    intro s mb p j h hj
    exact next_of_answer h (by simp only [hj])
  case accepted =>
    intro s c b r x hleft hrun hup hx hrej hheld
    obtain ⟨hc, hother, hjob, hstr⟩ := fetchedUnits_frame (sliceZ b 0 64) x 0 hleft
    refine ⟨_, congrArg Host.Outcome.next (descriptorFetched_accepted hleft hrun hup hx hrej hheld), ?_, ?_, ?_, ?_, hother, hjob,
      hstr, rfl, rfl⟩
    · exact (congrArg Ctx.waiting hc :)
    · exact (congrArg Ctx.fetchLeft hc :)
    · exact (congrArg Ctx.subCons hc :)
    · exact (congrArg Ctx.cplWait hc :)
  case rejected =>
    intro s c b r x hleft hrun hup hx hrej
    obtain ⟨l, v, d, ht, hv⟩ := descriptorFetched_rejected hleft hrun hup hx hrej
    obtain ⟨hc, -, hjob, hstr⟩ := fetchedUnits_frame (sliceZ b 0 64) x (descReject (tgetD s.u.ctx c {}) (sliceZ b 0 64)) hleft
    obtain ⟨e, he⟩ := dieBump_frame d 0x207 1
      (fetchedUnits s.u c (sliceZ b 0 64) x (descReject (tgetD s.u.ctx c {}) (sliceZ b 0 64)))
    rw [he] at hv
    obtain ⟨-, -, -, -, -, -, -, hvstr, -, hvjob, hvctx, hvblk, -⟩ := noticeFrame_keeps hv
    have hvc : tgetD v.ctx c.val {} = fetchedCtx s.u (sliceZ b 0 64) x (descReject (tgetD s.u.ctx c {}) (sliceZ b 0 64))
        (tgetD s.u.ctx c {}) := by
      rw [hvctx]
      exact hc
    refine ⟨_, congrArg Host.Outcome.next ht, ?_, ?_, ?_, ?_, hvjob.trans hjob, hvstr.trans hstr, rfl, rfl⟩
    · exact (congrArg Ctx.waiting hvc).trans (if_neg hrej)
    · exact (congrArg Ctx.subCons hvc :)
    · exact (congrArg (·.cplWait.length) hvc).trans (List.length_append ..)
    · exact (congrArg Blk.iface hvblk :)
  case idle =>
    intro s c d r h
    refine congrArg Host.Outcome.next ?_
    unfold descriptorFetched
    exact if_pos (.inl h)

end Sys2Proof.Machine
end

section
/-! PROOFS. Decisions on jobs (08, R239 to R245). -/
namespace Sys2Proof.Machine

variable {s : State} {u : Units} {w : Waiting}

/- A waiting entry decided. -/
theorem decided_shape (c : Nat) (w : Waiting) (u : Units) :
    ∃ d cx, decided c w u = { u with round := (u.tick.number, c), ctx := cx, cnt := { u.cnt with die := d } } ∧
      tgetD cx c {} = { tgetD u.ctx c {} with waiting := (tgetD u.ctx c {}).waiting.erase w } := by
  obtain ⟨d, hd⟩ := dieBump_frame 56 0x302 (b2n w.mb.isNone) { u with
    round := (u.tick.number, c)
    ctx := tupd u.ctx c (fun c => { c with waiting := c.waiting.erase w }) }
  exact ⟨d, _, hd, tgetD_leaveWaiting u.ctx c w⟩

/- The record of a job (R248). -/
theorem leVal_lt (b : Bytes) : leVal b < 256 ^ b.length := by
  induction b with
  | nil => exact Nat.one_pos
  | cons x r ih =>
    rw [List.length_cons, Nat.pow_succ, leVal]
    have := x.isLt
    omega
theorem le_lt (b : Bytes) (off n : Nat) : le b off n < 256 ^ n :=
  Nat.lt_of_lt_of_le (leVal_lt _) (Nat.pow_le_pow_right (by decide) (List.length_take_le n _))
theorem jobRecord_tag (f : JRecF) : le (jobRecord f) 0 2 = f.tag % 256 ^ 2 := by
  simp only [jobRecord, List.append_assoc, le_leBytes_append_here]
theorem jobRecord_verdict (f : JRecF) : le (jobRecord f) 2 1 = f.verdict % 256 ^ 1 := by
  simp only [jobRecord, List.append_assoc]
  rw [le_leBytes_append_skip _ _ _ (by decide)]
  exact le_leBytes_append_here ..
theorem jobRecord_reason (f : JRecF) : le (jobRecord f) 3 1 = f.reason % 256 ^ 1 := by
  simp only [jobRecord, List.append_assoc]
  rw [le_leBytes_append_skip _ _ _ (by decide), le_leBytes_append_skip _ _ _ (by decide)]
  exact le_leBytes_append_here ..

/-- What the record of a job says that is refused at its decision (R242). -/
def refusedRec (u : Units) (w : Waiting) (v r n : Nat) : JRecF :=
  { tag := le w.desc 2 2, verdict := v, reason := r, policy := le w.desc 4 4, cls := le w.desc 1 1, ntok := n
    admitAt := u.tick.number }

/-- The record of a job refused at its decision joins its context's records; nothing else changes but a die's counters. -/
theorem jobRefused_records (c v r n : Nat) (u : Units) :
    ∃ b d cx, jobRefused c w v r n u = { u with ctx := cx, cnt := { u.cnt with die := d } } ∧
      tgetD cx c {} = { tgetD u.ctx c {} with
        recs := (tgetD u.ctx c {}).recs ++ [{ tag := le w.desc 2 2, due := dueOf u w (tgetD u.ctx c {}).cohort, body := b }] } ∧
      le b 0 2 = le w.desc 2 2 ∧ le b 2 1 = v % 256 ∧ le b 3 1 = r % 256 := by
  obtain ⟨d, hd⟩ := dieBump_frame 56 0x303 1 u
  have htag (f : JRecF) (hf : f.tag = le w.desc 2 2) : le (jobRecord f) 0 2 = le w.desc 2 2 := by
    rw [jobRecord_tag, hf]
    exact Nat.mod_eq_of_lt (le_lt ..)
  refine ⟨jobRecord (refusedRec u w v r n), d, _, by rw [jobRefused, hd]; rfl, ?_, ?_⟩
  · refine (tgetD_tset_self ..).trans ?_
    rw [htag _ rfl]
    rfl
  · exact ⟨htag _ rfl, jobRecord_verdict _, jobRecord_reason _⟩

/-- The amounts of screening work of a job of `n` tokens, by slot (R243). -/
def jobWork (v : Units) (w : Waiting) (n : Nat) : List (Nat × Nat × Option Nat) :=
  (reqSlots (polCur v (le w.desc 4 4 % 1024))).map (fun k => (k, n, none)) ++
    [(tokCell, if profBanks (polProf v (polCur v (le w.desc 4 4 % 1024)) 0) = 0 then 0 else n, none),
     (byteCell, le w.desc 40 4, none)]

/-- The job that is admitted with `cells` in the tick of `v` (R242). -/
def admittedJob (v : Units) (c : Nat) (w : Waiting) (tab : Bytes) (delay n : Nat) (cells : List Cell) : Job :=
  { ctx := c, tag := le w.desc 2 2, cls := le w.desc 1 1, policy := le w.desc 4 4 % 1024
    pol := polCur v (le w.desc 4 4 % 1024), copyAt := v.tick.number + 1
    polVer := match (tgetD v.pol (le w.desc 4 4 % 1024) {}).cur with | some p => p.2 | none => 0
    admitAt := v.tick.number, delay := delay, segs := segTable tab (le w.desc 44 1), nbytes := le w.desc 40 4
    tokbuf := bufOf w.desc 8, detbuf := bufOf w.desc 24, ntok := n
    pool := poolUnits v (reqSlots (polCur v (le w.desc 4 4 % 1024))) n (le w.desc 44 1), cells := cells }

/-- The block once it has admitted job `j` beside what the decision did (R241, R245). -/
def withJob (v : Units) (j : Job) : Units :=
  { v with job := v.job ++ [j], tier := { v.tier with poolUse := v.tier.poolUse + j.pool } }

section
variable {c : Nat} {d : Dma} {tab : Bytes} {lim delay n : Nat} {cells : List Cell} {v : Units}

theorem jobDecide_admits (hv : decided c w s.u = v) (hdead : loseDead s.u = s.u) (hheld : admissionHeld s.u c = false)
    (hnOk : 1 ≤ le w.desc 44 1 ∧ le w.desc 44 1 ≤ 64 ∧ 8 * le w.desc 44 1 ≤ (bufOf w.desc 8).len ∧
      descBufOk v c (bufOf w.desc 8) = true)
    (htab : bufRead s c { bufOf w.desc 8 with len := 8 * le w.desc 44 1 } d = some tab)
    (hsegs : segsBad tab (le w.desc 44 1) = false) (hn : n = ((segTable tab (le w.desc 44 1)).map (·.2)).sum)
    (hfit : 8 * le w.desc 44 1 + 4 * n ≤ (bufOf w.desc 8).len)
    (hcls : (tgetD s.u.ctx c {}).classes[le w.desc 1 1]? = some (lim, delay)) (hlim : n ≤ lim)
    (hscr : screens (polCur v (le w.desc 4 4 % 1024)) = true)
    (hserve : ∀ k, k ∈ reqSlots (polCur v (le w.desc 4 4 % 1024)) → slotServing v k = true)
    (hjobs : v.job.length < 8192) (hquota : ctxJobs v c < (tgetD s.u.ctx c {}).jobQuota)
    (hpool : v.tier.poolUse + poolUnits v (reqSlots (polCur v (le w.desc 4 4 % 1024))) n (le w.desc 44 1) ≤ v.tier.jobPool)
    (hplace : placeAll v (polCur v (le w.desc 4 4 % 1024)) c (v.tick.number + 2) (v.tick.number + delay - 2) true (jobWork v w n)
      = some cells) :
    jobDecide c w d s = { s with u := withJob v (admittedJob v c w tab delay n cells) } := by
  have hserve' : ¬ ((reqSlots (polCur v (le w.desc 4 4 % 1024))).any fun k => !slotServing v k) = true := by simpa using hserve
  have hfew : ¬ (8192 ≤ v.job.length ∨ (tgetD s.u.ctx c {}).jobQuota ≤ ctxJobs v c) := by omega
  have hcells := Nat.not_lt.mpr hfit
  have hin := Nat.not_lt.mpr hlim
  unfold jobWork at hplace
  simp only [jobDecide, hdead, hv, hheld, hnOk, and_self, htab, Option.isSome_some, Option.isNone_some, if_true, Bool.false_eq_true,
    Option.getD_some, ← hn, hcls, hsegs, hscr, decide_eq_false hcells, decide_eq_false hin, Bool.or_false, Bool.and_false, and_false,
    decide_true, Bool.not_true, List.append_nil, List.isEmpty_nil, if_false, if_neg hserve', if_neg hfew,
    if_neg (Nat.not_lt.mpr hpool), hplace]
  rfl
end

theorem jobDecision_decides {c : Nat} {d : Dma} (hw : decides s.u c 1 = some w) : jobDecision c d s = jobDecide c w d s := by
  rw [jobDecision, hw]

/-- Settles O49: with no cause against it a job takes its cells and its pool units; a held tick records its refusal. -/
theorem jobDecisions : Obligations.JobDecisions := by
  refine ⟨?admitted, ?held, ?none⟩
  case admitted =>
    intro s c w d tab lim delay n cells hw hdead hheld hn1 hn2 hlen hbuf htab hsegs hn hfit hcls hlim hscr hserve hjobs hquota hpool hplace
    obtain ⟨k, cx, hdec, hcx⟩ := decided_shape c w s.u
    rw [hdec] at hbuf hpool hplace
    have hrun := jobDecide_admits hdec hdead hheld ⟨hn1, hn2, hlen, hbuf⟩ htab hsegs hn hfit hcls hlim hscr hserve hjobs hquota hpool hplace
    refine ⟨_, _, congrArg Host.Outcome.next ((jobDecision_decides hw).trans hrun), rfl, rfl, rfl, rfl, rfl, rfl, rfl, rfl, rfl, rfl,
      rfl, ?_, (congrArg Ctx.waiting hcx :), rfl, rfl, rfl⟩
    rw [hdec]
    rfl
  case held =>
    intro s c w d hw hdead hheld
    obtain ⟨k, cx, hdec, hcx⟩ := decided_shape c w s.u
    have hrun : ∃ n, jobDecide c w d s = { s with u := jobRefused c w 6 4 n (decided c w s.u) } := by
      simp only [jobDecide, hdead, hheld, if_true]
      exact ⟨_, rfl⟩
    obtain ⟨n, hrun⟩ := hrun
    obtain ⟨b, e, cy, hrec, hcy, htag, hverdict, hreason⟩ := jobRefused_records (w := w) c 6 4 n (decided c w s.u)
    rw [hrec, hdec] at hrun
    rw [hdec] at hcy
    refine ⟨_, b, congrArg Host.Outcome.next ((jobDecision_decides hw).trans hrun), rfl, ?_, htag, hverdict, hreason, ?_, rfl, rfl, rfl⟩
    · refine (congrArg Ctx.recs hcy).trans ?_
      show (tgetD cx c.val {}).recs ++ [{ tag := _, due := dueOf s.u w (tgetD cx c.val {}).cohort, body := b }] = _
      rw [hcx]
    · refine (congrArg Ctx.waiting hcy).trans ?_
      exact (congrArg Ctx.waiting hcx :)
  case none =>
    intro s c d hw
    refine congrArg Host.Outcome.next ?_
    rw [jobDecision, hw]

end Sys2Proof.Machine
end

section
/-! PROOFS. The work of a job and its end (06, R192; 08, R236, R239, R246 to R254). -/
namespace Sys2Proof.Machine

variable {s : State} {u v : Units} {c g : Nat} {j : Job}

/- The one job of a block. -/
theorem jobAt_one (hj : u.job = [j]) (hc : j.ctx = c) (hg : j.tag = g) : jobAt u c g = some j := by
  simp [jobAt, hj, hc, hg]
theorem modJob_one (hj : u.job = [j]) (hc : j.ctx = c) (hg : j.tag = g) (f : Job → Job) : modJob c g f u = { u with job := [f j] } := by
  rw [modJob, hj, List.map_singleton, if_pos ⟨hc, hg⟩]

/- The token copy (R239). -/
theorem jobTokenCopy_due {d : Dma} (hj : jobAt s.u c g = some j) (hlive : jobLive j = true) (htok : j.tokens = none)
    (hok : 0x18 ∉ j.faults) (hat : s.u.tick.number = j.copyAt) (hlost : j.copyLost = false) (hst : s.u.tick.st = .current)
    {r : Option Bytes} (hr : bufRead s c { j.tokbuf with addr := j.tokbuf.addr + 8 * j.segs.length, len := 4 * j.ntok } d = r) :
    jobTokenCopy c g d s = match r with
      | none => { s with u := modJob c g (fun j => { j with faults := j.faults ++ [0x18], copyLost := false }) s.u }
      | some b => { s with u := modJob c g (fun k => { k with
          tokens := some ((List.range j.ntok).map (fun i => le b (4 * i) 4))
          faults := k.faults ++ tokenFaults s.u.mat ((List.range j.ntok).map (fun i => le b (4 * i) 4)) j.nbytes
          copyLost := false }) s.u } := by
  have hgo : ¬ ((!jobLive j) = true ∨ j.tokens.isSome = true ∨ j.faults.contains 0x18 = true ∨ s.u.tick.number ≠ j.copyAt ∨
      s.u.tick.st ≠ .current ∨ j.copyLost = true) := by
    simp [hlive, htok, hok, hat, hlost, hst]
  simp only [jobTokenCopy, hj, if_neg hgo, hr]
  cases r <;> rfl

/- Sweeps of a request (R192). -/
/-- What a request's sweep may do: it changes the match unit's state as a token's sweep does, and its job's hits. -/
theorem requestSweep_listed {seg : Nat} {l : List Nat} (hjob : u.job = [j]) (hc : j.ctx = c) (hg : j.tag = g) (htok : j.tokens = some l)
    (hlive : jobLive j = true) (hseg : seg < j.segs.length) (hnew : seg ∉ j.swept) (hst : u.tick.st = .current)
    (hlist : sweepListed u j.pol = true) (hlost : j.lost = none) (hundone : j.undone = []) (hfrom : j.admitAt + 2 ≤ u.tick.number)
    (hto : u.tick.number ≤ j.admitAt + j.delay - 2) :
    ∃ h p v, requestSweep c g seg u = { v with
        job := [{ j with hits := j.hits ++ h, poison := j.poison || p, swept := j.swept ++ [seg] }] } ∧ SweepFrame u v := by
  have hgo : ¬ ((!jobLive j) = true ∨ j.segs.length ≤ seg ∨ j.swept.contains seg = true ∨ u.tick.st ≠ .current ∨
      (!sweepListed u j.pol) = true ∨ j.lost.isSome = true ∨ (j.undone.any (fun x => decide (tokCell ≤ x.slot))) = true ∨
      u.tick.number < j.admitAt + 2 ∨ j.admitAt + j.delay - 2 < u.tick.number) := by
    simp [hlive, hnew, hst, hlist, hlost, hundone]
    omega
  simp only [requestSweep, jobAt_one hjob hc hg, htok, if_neg hgo]
  generalize hr : List.foldl _ _ _ = r
  have hframe : SweepFrame u r.2 := by
    rw [← hr]
    exact sweepFold_frame (SweepFrame.refl u) _ (fun x a => sweepToken_frame _ _ x) _
  have hjob' : r.2.job = [j] := by
    obtain ⟨_, _, _, _, _, _, hv⟩ := hframe
    rw [hv]
    exact hjob
  generalize uncategorised _ _ _ = n
  refine ⟨r.1.hits, r.1.poison, { r.2 with mat := { r.2.mat with uncat := r.2.mat.uncat + n } }, ?_,
    hframe.trans (sweepFrame_mat _ r.2)⟩
  exact (modJob_one (u := { r.2 with mat := { r.2.mat with uncat := r.2.mat.uncat + n } }) hjob' hc hg _).trans (by simp only [htok])

theorem requestSweep_idle {seg : Nat} (hj : jobAt u c g = some j) (h : seg ∈ j.swept ∨ sweepListed u j.pol = false) :
    requestSweep c g seg u = u := by
  simp only [requestSweep, hj]
  cases j.tokens with
  | none => rfl
  | some l =>
    refine if_pos ?_
    rcases h with h | h <;> simp [h]

/- Replanning (R246). -/
/-- The cells that a plan takes lie within its window. -/
def Within (lo hi : Nat) (l : List Cell) : Prop := ∀ x, x ∈ l → lo ≤ x.tick ∧ x.tick ≤ hi

theorem within_nil (lo hi : Nat) : Within lo hi [] := fun _ h => absurd h List.not_mem_nil
theorem within_append {lo hi : Nat} {a b : List Cell} (ha : Within lo hi a) (hb : Within lo hi b) : Within lo hi (a ++ b) :=
  fun x hx => (List.mem_append.mp hx).elim (ha x) (hb x)
theorem within_cons_if {lo hi : Nat} {p : Prop} [Decidable p] {x : Cell} {l : List Cell} (hx : lo ≤ x.tick ∧ x.tick ≤ hi)
    (hl : Within lo hi l) : Within lo hi (if p then l else x :: l) := by
  split
  · exact hl
  · exact fun y hy => (List.mem_cons.mp hy).elim (fun h => h ▸ hx) (hl y)
theorem fillCells_within {slot rep c lo hi : Nat} {prot : Bool} {ts : List Nat} {n : Nat} {l : List Cell}
    (hts : ∀ t, t ∈ ts → lo ≤ t ∧ t ≤ hi) (h : fillCells u slot rep c prot ts n = some l) : Within lo hi l := by
  induction ts generalizing n l with
  | nil =>
    cases n with
    | zero =>
      cases h
      exact within_nil lo hi
    | succ n => cases h
  | cons t r ih =>
    cases n with
    | zero =>
      cases h
      exact within_nil lo hi
    | succ n =>
      rw [fillCells] at h
      obtain ⟨l', hl', rfl⟩ := Option.map_eq_some_iff.mp h
      exact within_cons_if (hts t List.mem_cons_self) (ih (fun t ht => hts t (List.mem_cons_of_mem _ ht)) hl')
      exact Nat.succ_ne_zero n
theorem fillBytes_within {pol : Bytes} {lo hi : Nat} {ts : List Nat} {n : Nat} {l : List Cell}
    (hts : ∀ t, t ∈ ts → lo ≤ t ∧ t ≤ hi) (h : fillBytes u pol ts n = some l) : Within lo hi l := by
  induction ts generalizing n l with
  | nil =>
    cases n with
    | zero =>
      cases h
      exact within_nil lo hi
    | succ n => cases h
  | cons t r ih =>
    cases n with
    | zero =>
      cases h
      exact within_nil lo hi
    | succ n =>
      rw [fillBytes] at h
      obtain ⟨l', hl', rfl⟩ := Option.map_eq_some_iff.mp h
      exact within_cons_if (hts t List.mem_cons_self) (ih (fun t ht => hts t (List.mem_cons_of_mem _ ht)) hl')
      exact Nat.succ_ne_zero n

/-- An optional plan that stays within its window. -/
def WithinO (lo hi : Nat) (o : Option (List Cell)) : Prop := ∀ l, o = some l → Within lo hi l

theorem place_within (slot c n start last : Nat) (prot : Bool) (only : Option Nat) :
    WithinO start last (place u slot c n start last prot only) := by
  unfold place
  refine foldl_keeps (WithinO start last) _ _ none (fun l h => nomatch h) ?_
  intro best r hbest
  split
  · exact hbest
  · generalize hf : fillCells u slot r c prot _ n = f
    cases f with
    | none => cases best <;> exact hbest
    | some l =>
      have hl : Within start last l := fillCells_within (fun t ht => by
        have := mem_fromN.mp ht
        omega) hf
      cases best with
      | none => exact fun k hk => Option.some.inj hk ▸ hl
      | some b =>
        dsimp only
        split
        · exact fun k hk => Option.some.inj hk ▸ hl
        · exact hbest

/-- Two plans together, where both were found. -/
theorem withinO_both {lo hi : Nat} {a b : Option (List Cell)} {r : Option (List Cell)} (ha : WithinO lo hi a) (hb : WithinO lo hi b)
    (hr : ∀ l, r = some l → ∃ x y, a = some x ∧ b = some y ∧ l = x ++ y) : WithinO lo hi r := by
  intro l hl
  obtain ⟨x, y, hx, hy, rfl⟩ := hr l hl
  exact within_append (ha x hx) (hb y hy)

theorem placeMatch_within (pol : Bytes) (ntok nbytes start last : Nat) :
    WithinO start last (placeMatch u pol ntok nbytes start last) := by
  unfold placeMatch
  dsimp only
  generalize htoks : (if ntok = 0 then some [] else if start ≤ last ∧ ntok ≤ matchRoom u pol tokCell start then
    some [{ slot := tokCell, tick := start, units := ntok }] else none : Option (List Cell)) = a
  generalize hbytes : fillBytes u pol (fromN start (last + 1 - start)) nbytes = b
  refine withinO_both (a := a) (b := b) ?_ ?_ ?_
  · intro l hl
    rw [hl] at htoks
    split at htoks
    · cases htoks
      exact within_nil start last
    · split at htoks
      · next hin =>
        cases htoks
        intro x hx
        rw [List.mem_singleton.mp hx]
        exact ⟨Nat.le_refl start, hin.1⟩
      · cases htoks
  · intro l hl
    rw [hl] at hbytes
    exact fillBytes_within (fun t ht => by
      have := mem_fromN.mp ht
      omega) hbytes
  · intro l hl
    cases a <;> cases b <;> cases hl
    exact ⟨_, _, rfl, rfl, rfl⟩

theorem placeAll_within (pol : Bytes) (c start last : Nat) (prot : Bool) (work : List (Nat × Nat × Option Nat)) :
    WithinO start last (placeAll u pol c start last prot work) := by
  unfold placeAll
  dsimp only
  generalize hm : placeMatch u pol _ _ start last = b
  generalize hcls : List.foldl _ _ _ = a
  refine withinO_both (a := a) (b := b) ?_ (by rw [← hm]; exact placeMatch_within _ _ _ _ _) ?_
  · rw [← hcls]
    refine foldl_keeps (WithinO start last) _ _ (some []) (fun l h => Option.some.inj h ▸ within_nil start last) ?_
    intro acc w hacc
    generalize hp : (if slotServing u w.1 then place u w.1 c w.2.1 start last prot w.2.2 else none : Option (List Cell)) = p
    refine withinO_both (a := acc) (b := p) hacc ?_ ?_
    · rw [← hp]
      split
      · exact place_within _ _ _ _ _ _ _
      · exact fun l h => nomatch h
    · intro l hl
      cases acc <;> cases p <;> cases hl
      exact ⟨_, _, rfl, rfl, rfl⟩
  · intro l hl
    cases a <;> cases b <;> cases hl
    exact ⟨_, _, rfl, rfl, rfl⟩

/-- The slots whose work of the job is planned anew (R246). -/
def replanSlots (j : Job) : List Nat :=
  let hit := ((if j.copyLost then j.cells ++ j.undone else j.undone).map (·.slot)).eraseDups
  if hit.any (fun k => decide (tokCell ≤ k)) then (hit.filter (· < tokCell)) ++ [tokCell, byteCell] else hit

/-- The cells of a replanned job that stand (R246). -/
def replanKept (u : Units) (j : Job) : List Cell :=
  j.cells.filter (fun x => !(replanSlots j).contains x.slot
    || (decide (x.tick < u.tick.number) && !(decide (x.slot < tokCell) && (slotAt u x.slot).out.any (fun o => o.1 == x.rep))))

/-- Where nothing of the token's or the byte's sweep was lost, only the slots that lost cells are planned anew. -/
theorem mem_replanSlots (hcopy : j.copyLost = false) {k : Nat} (hk : ∀ y, y ∈ j.undone → y.slot < tokCell ∧ y.slot ≠ k) :
    k ∉ replanSlots j := by
  have hany : ¬ ((j.undone.map (·.slot)).eraseDups.any fun k => decide (tokCell ≤ k)) = true := by
    simp only [List.any_eq_true, List.mem_eraseDups, List.mem_map, decide_eq_true_eq]
    rintro ⟨k, ⟨y, hy, rfl⟩, hge⟩
    exact absurd (hk y hy).1 (Nat.not_lt.mpr hge)
  simp only [replanSlots, hcopy, Bool.false_eq_true, if_false, if_neg hany, List.mem_eraseDups, List.mem_map, not_exists, not_and]
  exact fun y hy => (hk y hy).2

/-- A breach counts in its context and the block's counters. -/
theorem breach_frame (rank c : Nat) (u : Units) : ∃ b x, breach rank c u = { u with cnt := { u.cnt with blk := b }, ctx := x } := by
  obtain ⟨b, hb⟩ := blkBump_frame (rank + 11) 1 { u with ctx := tupd u.ctx c (fun c =>
    match rank with
    | 2 => { c with breach2 := c.breach2 + 1 }
    | 3 => { c with breach3 := c.breach3 + 1 }
    | _ => { c with breach4 := c.breach4 + 1 }) }
  exact ⟨b, _, hb⟩

theorem notice_job (prod code c : Nat) (args : List Nat) (u : Units) : (notice prod code c args u).job = u.job := by
  obtain ⟨-, -, -, -, -, -, -, -, -, hjob, -⟩ := noticeFrame_keeps (notice_frame prod code c args u)
  exact hjob

/-- A replanned job either loses its work for good or takes cells of its window beside those it keeps. -/
theorem replanOne_plans (hj : u.job = [j]) (hcopy : j.copyLost = false) :
    (∃ k, (replanOne j u).job = [k] ∧ k = { j with lost := some j.why, undone := [], copyLost := false }) ∨
    (∃ new, (replanOne j u).job = [{ j with cells := replanKept u j ++ new, undone := [], copyLost := false }] ∧
      Within (max (j.admitAt + 2) u.tick.number) (j.admitAt + j.delay - 2) new) := by
  unfold replanOne
  dsimp only
  generalize hp : (if (!j.copyLost || decide (u.tick.number < j.admitAt + j.delay - 2)) = true then _ else none : Option (List Cell)) = p
  cases p with
  | none =>
    refine .inl ⟨_, ?_, rfl⟩
    exact congrArg Units.job (modJob_one hj rfl rfl _)
  | some new =>
    right
    have hnew : Within (max (j.admitAt + 2) u.tick.number) (j.admitAt + j.delay - 2) new := by
      rw [hcopy, Bool.not_false, Bool.true_or, if_pos rfl] at hp
      exact placeAll_within _ _ _ _ _ _ new hp
    have hplain : ∀ v : Units, v = modJob j.ctx j.tag (fun x => { x with
        cells := replanKept u j ++ new, undone := [], copyLost := false, copyAt := if j.copyLost then u.tick.number else x.copyAt }) u →
        v.job = [{ j with cells := replanKept u j ++ new, undone := [], copyLost := false }] := by
      intro v hv
      rw [hv, modJob_one hj rfl rfl, hcopy]
      rfl
    refine ⟨new, ?_, hnew⟩
    refine iteInduction (motive := fun v : Units => v.job = [{ j with cells := replanKept u j ++ new, undone := [], copyLost := false }])
      (fun _ => hplain _ rfl) fun _ => ?_
    refine (notice_job ..).trans (forAll_keeps (fun v => v.job = [{ j with cells := replanKept u j ++ new, undone := [], copyLost := false }]) _ _ _
      (hplain _ rfl) fun c v hv => ?_)
    obtain ⟨b, x, hbr⟩ := breach_frame 3 c v
    rw [hbr]
    exact hv

theorem replanKept_kept (hcopy : j.copyLost = false) {x : Cell} (hx : x ∈ j.cells)
    (hk : ∀ y, y ∈ j.undone → y.slot < tokCell ∧ y.slot ≠ x.slot) : x ∈ replanKept u j :=
  List.mem_filter.mpr ⟨hx, by simp [mem_replanSlots hcopy hk]⟩

theorem replan_one (hj : u.job = [j]) (hdead : loseDead u = u) (hwant : wantsReplan j = true) (hcancel : j.cancelAt = none)
    (hst : u.tick.st = .current) (hrun : roleRuns u 1 = true) : replan u = replanOne j u := by
  have hgo : ¬ (u.tick.st ≠ .current ∨ (!roleRuns u 1) = true) := by simp [hst, hrun]
  simp only [replan, if_neg hgo, hdead, hj, List.filter_cons, hwant, hcancel, Option.isNone_none, Bool.and_true, if_true,
    List.filter_nil, sortBy, insertBy, forAll, List.foldl_cons, List.foldl_nil]

end Sys2Proof.Machine
end

section
/-! PROOFS. The records of a job (08, R247 to R254). -/
namespace Sys2Proof.Machine

variable {s : State} {u v w : Units} {c g : Nat} {j : Job}

/- What a write to a host's buffer may change. -/
/-- The parts of the block that a write to a buffer may change beside memory. -/
def WrittenFrame (u v : Units) : Prop :=
  ∃ o f c t x, v = { u with out := o, fab := f, cnt := c, tier := t, freeIx := x }

theorem WrittenFrame.refl (u : Units) : WrittenFrame u u := ⟨u.out, u.fab, u.cnt, u.tier, u.freeIx, rfl⟩
theorem WrittenFrame.trans (h : WrittenFrame u v) (h' : WrittenFrame v w) : WrittenFrame u w := by
  obtain ⟨o, f, c, t, x, rfl⟩ := h
  obtain ⟨o', f', c', t', x', rfl⟩ := h'
  exact ⟨o', f', c', t', x', rfl⟩
theorem writtenFrame_sent (h : SentFrame u v) : WrittenFrame u v := by
  obtain ⟨o, pt, d, tx, wt, nt, rfl⟩ := h
  exact ⟨_, _, _, _, u.freeIx, rfl⟩
theorem sendWr_sent (win off : Nat) (data : Bytes) (core : Option Nat) (own : Option MoveId) (u : Units) :
    SentFrame u (sendWr win off data core own u) :=
  forAll_sent _ (fun _ _ => txnIssue_sent ..) u
theorem faultedAt_frame (n : Nat) (u : Units) : WrittenFrame u (faultedAt n u).2 := ⟨u.out, u.fab, u.cnt, u.tier, _, rfl⟩
theorem emit_frame (o : Out) (u : Units) : WrittenFrame u (emit o u) := ⟨_, u.fab, u.cnt, u.tier, u.freeIx, rfl⟩

/-- State `t` is `s` after writes to buffers. -/
def Written (s t : State) : Prop := ∃ m v, t = { s with u := v, m := m } ∧ WrittenFrame s.u v
theorem Written.refl (s : State) : Written s s := ⟨s.m, s.u, rfl, WrittenFrame.refl s.u⟩

theorem bufWrite_frame (s : State) (c : Nat) (b : Buf) (data : Bytes) (flt : Bool) : Written s (bufWrite s c b data flt).1 := by
  unfold bufWrite
  dsimp only
  split
  · exact ⟨_, _, rfl, s.u.out, s.u.fab, s.u.cnt, _, s.u.freeIx, rfl⟩
  · split
    · exact ⟨_, _, rfl, faultedAt_frame ..⟩
    · exact ⟨_, _, rfl, WrittenFrame.refl _⟩
  · split
    · exact ⟨_, _, rfl, (faultedAt_frame _ _).trans (writtenFrame_sent (sendWr_sent ..))⟩
    · exact ⟨_, _, rfl, writtenFrame_sent (sendWr_sent ..)⟩
  · split
    · exact ⟨_, _, rfl, WrittenFrame.refl _⟩
    · split
      · exact ⟨_, _, rfl, (faultedAt_frame _ _).trans (emit_frame _ _)⟩
      · exact ⟨_, _, rfl, emit_frame _ _⟩

/- The details of a record (R249). -/
/-- A record without details is complete as it stands. -/
theorem withDetail_empty (j : Job) {f : JRecF} (late flt : Bool) (s : State) {d : JRecF × State}
    (hd : withDetail j f [] [] [] late flt s = d) :
    d.2 = s ∧ d.1.tag = f.tag ∧ d.1.verdict = f.verdict ∧ d.1.reason = f.reason := by
  have hrun : withDetail j f [] [] [] late flt s = ({ f with nspan := 0, nhit := 0, flags := f.flags + 0 }, s) := by simp [withDetail]
  rw [← hd, hrun]
  exact ⟨rfl, rfl, rfl, rfl⟩

/-- The details change no verdict of ERROR, and lower its reason at most. -/
theorem withDetail_error (j : Job) {f : JRecF} (spans scores hits : List Bytes) (flt : Bool) (s : State) (hf : f.verdict = 4)
    {d : JRecF × State} (hd : withDetail j f spans scores hits false flt s = d) :
    Written s d.2 ∧ d.1.tag = f.tag ∧ d.1.verdict = 4 ∧ d.1.reason ≤ f.reason := by
  subst hd
  unfold withDetail
  dsimp only
  split
  · exact ⟨Written.refl s, rfl, rfl, Nat.min_le_left ..⟩
  · split
    · exact ⟨Written.refl s, rfl, hf, Nat.le_refl _⟩
    · split
      · exact ⟨Written.refl s, rfl, rfl, Nat.min_le_left ..⟩
      · split
        · exact ⟨bufWrite_frame .., rfl, hf, Nat.le_refl _⟩
        · exact ⟨bufWrite_frame .., rfl, rfl, Nat.min_le_left ..⟩

/- Composition (R247, R248). -/
/-- No segment of the job found anything to tell. -/
def QuietJob (u : Units) (j : Job) (l : List ScoreVec) : Prop :=
  ∀ k, k < j.segs.length → (judgeSeg u j l k).block = false ∧ (judgeSeg u j l k).fails = [] ∧
    (judgeSeg u j l k).spans = [] ∧ (judgeSeg u j l k).scores = [] ∧ (judgeSeg u j l k).hits = []

/-- A record composed of a job without poison, with faults: ERROR with no greater reason than theirs. -/
theorem composeJob_error (l : List ScoreVec) (flt : Bool) (hp : jobPoison j l = false) (hf : j.faults ≠ []) :
    ∃ f t, composeJob j l none flt s = (jobRecord f, t) ∧ Written s t ∧ f.tag = j.tag ∧ f.verdict = 4 ∧
      f.reason ≤ lowest j.faults := by
  obtain ⟨x, r, hx⟩ := List.exists_cons_of_ne_nil hf
  unfold composeJob
  simp only [hp, hx, Bool.false_eq_true, if_false, List.append_nil, Option.isSome_none]
  generalize hd : withDetail j _ _ _ _ false flt s = d
  obtain ⟨ht, htag, hverdict, hreason⟩ := withDetail_error j _ _ _ flt s rfl hd
  exact ⟨d.1, d.2, rfl, ht, htag, hverdict, hreason⟩

section
variable {outs : List SegOut} (hmem : ∀ o, o ∈ outs → o.block = false ∧ o.fails = [] ∧ o.spans = [] ∧ o.scores = [] ∧ o.hits = [])
include hmem

theorem failing_filter_nil (f : SegOut × Nat → Bool) (n : List Nat) :
    (outs.zip n).filter (fun p => (p.1.block || !p.1.fails.isEmpty) && f p) = [] := by
  refine List.filter_eq_nil_iff.mpr fun p hp => ?_
  obtain ⟨hblock, hfails, -⟩ := hmem p.1 (List.of_mem_zip hp).1
  simp [hblock, hfails]
theorem failing_find_none (f : SegOut × Nat → Bool) (n : List Nat) :
    (outs.zip n).find? (fun p => (p.1.block || !p.1.fails.isEmpty) && f p) = none := by
  refine List.find?_eq_none.mpr fun p hp => ?_
  obtain ⟨hblock, hfails, -⟩ := hmem p.1 (List.of_mem_zip hp).1
  simp [hblock, hfails]
theorem kept_spans_nil (f : SegOut × Nat → Bool) (n : List Nat) : ((outs.zip n).filter f).flatMap (fun p => p.1.spans) = [] := by
  refine List.flatMap_eq_nil_iff.mpr fun p hp => ?_
  obtain ⟨-, -, hspans, -⟩ := hmem p.1 (List.of_mem_zip (List.mem_filter.mp hp).1).1
  exact hspans
end

/-- A quiet job without poison leaves a record with no more than what its faults say. -/
theorem composeJob_quiet (l : List ScoreVec) (flt : Bool) (hp : jobPoison j l = false) (hq : QuietJob s.u j l) :
    ∃ f, composeJob j l none flt s = (jobRecord f, s) ∧ f.tag = j.tag ∧ f.verdict = (if j.faults = [] then 0 else 4) ∧
      f.reason = (if j.faults = [] then 0 else lowest j.faults) := by
  have hmem : ∀ o, o ∈ (List.range j.segs.length).map (judgeSeg s.u j l) →
      o.block = false ∧ o.fails = [] ∧ o.spans = [] ∧ o.scores = [] ∧ o.hits = [] := by
    intro o ho
    obtain ⟨k, hk, rfl⟩ := List.mem_map.mp ho
    exact hq k (List.mem_range.mp hk)
  unfold composeJob
  simp only [hp, Bool.false_eq_true, if_false, List.append_nil, Option.isSome_none]
  generalize (List.range j.segs.length).map (judgeSeg s.u j l) = outs at hmem
  have hfails : outs.flatMap (·.fails) = [] := List.flatMap_eq_nil_iff.mpr fun o ho => (hmem o ho).2.1
  have hscores : outs.flatMap (·.scores) = [] := List.flatMap_eq_nil_iff.mpr fun o ho => (hmem o ho).2.2.2.1
  have hhits : outs.flatMap (·.hits) = [] := List.flatMap_eq_nil_iff.mpr fun o ho => (hmem o ho).2.2.2.2
  have hsort : sortBy (fun (a b : Span) => decide (a.first < b.first)) [] = [] := rfl
  simp only [failing_filter_nil hmem, failing_find_none hmem,
    kept_spans_nil hmem, hfails, hscores, hhits, hsort, cutSpans, List.map_nil, List.append_nil, List.isEmpty_nil, if_true]
  generalize hd : withDetail j _ [] [] [] false flt s = d
  obtain ⟨hs, htag, hverdict, hreason⟩ := withDetail_empty j false flt s hd
  refine ⟨d.1, by rw [hs], htag, hverdict.trans ?_, hreason.trans ?_⟩
  · cases j.faults <;> rfl
  · cases j.faults <;> rfl

/- The end of a job. -/
theorem lowest_mem {l : List Nat} (h : l ≠ []) : lowest l ∈ l := by
  cases l with
  | nil => exact absurd rfl h
  | cons x r =>
    exact List.min?_mem (List.min?_cons' ..)

theorem jobCompose_due (l : List ScoreVec) (flt : Bool) (hj : jobAt s.u c g = some j) (hlive : jobLive j = true) (hrun : running s.u = true)
    (hat : s.u.tick.number = j.admitAt + j.delay - 1) (hcancel : j.cancelAt = none)
    (hready : j.faults ≠ [] ∨ j.tokens.isSome && matchDone j && clsDone j l && !wantsReplan j && j.lost.isNone)
    {b : Bytes} {t : State} (hb : composeJob j l none flt s = (b, t)) :
    jobCompose c g l flt s =
      { t with u := dieBump (dieKey 1 0) 0x138 1 (modJob c g (fun j => { j with scores := l, done := some b }) t.u) } := by
  have hgo : ¬ ((!jobLive j) = true ∨ (!running s.u) = true ∨ s.u.tick.number ≠ j.admitAt + j.delay - 1 ∨
      (j.cancelAt.any (fun t => decide (t ≤ s.u.tick.number))) = true) := by
    simp [hlive, hrun, hcancel]
    exact hat
  have hgo2 : ¬ (!(j.tokens.isSome && matchDone j && clsDone j l && !wantsReplan j && j.lost.isNone) && j.faults.isEmpty &&
      !jobPoison j l) = true := by
    rcases hready with h | h
    · simp [h]
    · simp only [h]
      simp
  simp only [jobCompose, hj, if_neg hgo, if_neg hgo2, hb]

/-- A composed record of the only job of the block stands in it. -/
theorem jobCompose_leaves (l : List ScoreVec) (flt : Bool) (hjob : s.u.job = [j]) (hc : j.ctx = c) (hg : j.tag = g)
    (hlive : jobLive j = true) (hrun : running s.u = true)
    (hat : s.u.tick.number = j.admitAt + j.delay - 1) (hcancel : j.cancelAt = none)
    (hready : j.faults ≠ [] ∨ j.tokens.isSome && matchDone j && clsDone j l && !wantsReplan j && j.lost.isNone)
    {b : Bytes} {t : State} (hb : composeJob j l none flt s = (b, t)) (ht : Written s t) :
    ∃ v, jobCompose c g l flt s = { t with u := v } ∧ v.job = [{ j with scores := l, done := some b }] ∧ v.str = s.u.str ∧
      v.ctx = s.u.ctx ∧ t.q = s.q := by
  refine ⟨_, jobCompose_due l flt (jobAt_one hjob hc hg) hlive hrun hat hcancel hready hb, ?_⟩
  obtain ⟨m, v, rfl, o, f, k, ti, x, hv⟩ := ht
  subst hv
  obtain ⟨d, hd⟩ := dieBump_frame (dieKey 1 0) 0x138 1
    (modJob c g (fun j => { j with scores := l, done := some b }) { s.u with out := o, fab := f, cnt := k, tier := ti, freeIx := x })
  refine ⟨?_, ?_, ?_, rfl⟩
  · refine (congrArg Units.job hd).trans ?_
    exact congrArg Units.job (modJob_one (by exact hjob) hc hg _)
  · exact (congrArg Units.str hd :)
  · exact (congrArg Units.ctx hd :)

/-- The record of a job that is late, of a policy that says nothing of late ones. -/
def lateRec (j : Job) : JRecF := { tag := j.tag, verdict := 3, reason := lateReason j, admitAt := j.admitAt }

/-- The block once job `j` is late (R251). -/
def lateUnits (u : Units) (j : Job) : Units :=
  dieBump (dieKey 1 0) 0x139 1 (breach 2 j.ctx (notice (dieKey 1 0) 0x0109 j.ctx [j.tag, lateReason j]
    (modJob j.ctx j.tag (fun j' => { j' with done := some (jobRecord (lateRec j)) }) u)))

theorem lateUnits_frame (hj : u.job = [j]) : (lateUnits u j).job = [{ j with done := some (jobRecord (lateRec j)) }] ∧
    (lateUnits u j).str = u.str ∧ (lateUnits u j).prodN = (notice (dieKey 1 0) 0x0109 j.ctx [j.tag, lateReason j] u).prodN := by
  have hmod := modJob_one hj rfl rfl (fun j' => { j' with done := some (jobRecord (lateRec j)) })
  have hp := notice_prodN (dieKey 1 0) 0x0109 j.ctx [j.tag, lateReason j]
    (modJob j.ctx j.tag (fun j' => { j' with done := some (jobRecord (lateRec j)) }) u)
  obtain ⟨-, -, -, -, -, -, -, hstr, -, hjob, -⟩ := noticeFrame_keeps (notice_frame (dieKey 1 0) 0x0109 j.ctx [j.tag, lateReason j]
    (modJob j.ctx j.tag (fun j' => { j' with done := some (jobRecord (lateRec j)) }) u))
  rw [lateUnits]
  generalize notice (dieKey 1 0) 0x0109 j.ctx [j.tag, lateReason j] (modJob _ _ _ u) = v at hp hstr hjob
  obtain ⟨b, x, hb⟩ := breach_frame 2 j.ctx v
  obtain ⟨d, hd⟩ := dieBump_frame (dieKey 1 0) 0x139 1 (breach 2 j.ctx v)
  rw [hd, hb]
  refine ⟨hjob.trans (congrArg Units.job hmod), hstr, hp.trans ?_⟩
  rw [notice_prodN]
  rfl

/-- Settles O50: the copy, the sweep and the replan change the one job as their lemmas say, and each end leaves the record that its
verdict gives. -/
theorem jobWorkAndRecords : Obligations.JobWorkAndRecords := by
  refine ⟨?copy, ?lostCopy, ?sweep, ?swept, ?replan, ?ok, ?error, ?quietError, ?late, ?cancel, ?none⟩
  case copy =>
    intro s c g d j b hj hlive htok hok hat hlost hst hr
    exact congrArg Host.Outcome.next (jobTokenCopy_due hj hlive htok hok hat hlost hst hr)
  case lostCopy =>
    intro s c g d j hj hlive htok hok hat hlost hst hr
    exact congrArg Host.Outcome.next (jobTokenCopy_due hj hlive htok hok hat hlost hst hr)
  case sweep =>
    intro s c g seg b j l hjob hc hg htok hlive hseg hnew hst hlist hlost hundone hfrom hto
    obtain ⟨e, he⟩ := upset_frame b s.u
    obtain ⟨h, p, v, hrun, hv⟩ := requestSweep_listed (u := { s.u with mat := { s.u.mat with entries := e } }) hjob hc hg htok hlive
      hseg hnew hst hlist hlost hundone hfrom hto
    rw [← he] at hrun
    obtain ⟨m, q, d, o, x, y, rfl⟩ := hv
    exact ⟨_, h, p, next_of_units (f := fun u => requestSweep c g.toNat seg (upset b u)) hrun, rfl, rfl, rfl, rfl, rfl, rfl⟩
  case swept =>
    intro s c g seg b j hj h
    obtain ⟨e, he⟩ := upset_frame b s.u
    refine next_of_units (f := fun u => requestSweep c g.toNat seg (upset b u)) ?_
    rw [he]
    exact requestSweep_idle (u := { s.u with mat := { s.u.mat with entries := e } }) hj h
  case replan =>
    intro s j hjob hdead hwant hcancel hcopy hst hrun
    have hlost : j.lost = none := by
      cases hl : j.lost with
      | none => rfl
      | some k => simp [wantsReplan, hl] at hwant
    refine ⟨_, next_of_units (f := replan) (replan_one hjob hdead hwant hcancel hst hrun), ?_⟩
    rcases replanOne_plans hjob hcopy with ⟨k, hk, rfl⟩ | ⟨new, hk, hnew⟩
    · simp only [hk]
      exact ⟨by simp [wantsReplan], rfl, rfl, .inl ⟨rfl, rfl⟩, trivial, trivial⟩
    · simp only [hk]
      refine ⟨by simp [wantsReplan], rfl, rfl, .inr ⟨hlost, ?_, ?_⟩, trivial, trivial⟩
      · exact fun x hx hy => List.mem_append_left _ (replanKept_kept hcopy hx hy)
      · intro x hx
        exact (List.mem_append.mp hx).imp (fun h => (List.mem_filter.mp h).1) (hnew x)
  case ok =>
    intro s c g l f j hjob hc hg hlive hrun hat hcancel htok hmatch hcls hwant hlost hfaults hp hq
    obtain ⟨r, hr, htag, hverdict, hreason⟩ := composeJob_quiet (s := s) l f hp hq
    obtain ⟨v, hv, hvjob, hstr, hctx, hq⟩ := jobCompose_leaves l f hjob hc hg hlive hrun hat hcancel
      (.inr (by simp [Option.isSome_iff_ne_none.mpr htok, hmatch, hcls, hwant, hlost])) hr (Written.refl s)
    rw [if_pos hfaults] at hverdict hreason
    exact ⟨_, _, congrArg Host.Outcome.next hv, hvjob, by rw [jobRecord_tag, htag] <;> rfl, by simp [jobRecord_verdict, hverdict],
      by simp [jobRecord_reason, hreason], hstr, hctx, rfl, rfl⟩
  case error =>
    intro s c g l f j hjob hc hg hlive hrun hat hcancel hfaults hp hsmall
    obtain ⟨r, t, hr, ht, htag, hverdict, hreason⟩ := composeJob_error (s := s) l f hp hfaults
    obtain ⟨v, hv, hvjob, hstr, -, hq⟩ := jobCompose_leaves l f hjob hc hg hlive hrun hat hcancel (.inl hfaults) hr ht
    refine ⟨_, _, congrArg Host.Outcome.next hv, hvjob, by rw [jobRecord_tag, htag] <;> rfl, by simp [jobRecord_verdict, hverdict], ?_,
      hstr, hq⟩
    rw [jobRecord_reason]
    exact Nat.le_trans (Nat.mod_le _ _) hreason
  case quietError =>
    intro s c g l f j hjob hc hg hlive hrun hat hcancel hfaults hp hsmall hq
    obtain ⟨r, hr, htag, hverdict, hreason⟩ := composeJob_quiet (s := s) l f hp hq
    obtain ⟨v, hv, hvjob, hstr, hctx, -⟩ := jobCompose_leaves l f hjob hc hg hlive hrun hat hcancel (.inl hfaults) hr (Written.refl s)
    rw [if_neg hfaults] at hverdict hreason
    refine ⟨_, _, congrArg Host.Outcome.next hv, hvjob, by rw [jobRecord_tag, htag] <;> rfl, by simp [jobRecord_verdict, hverdict], ?_,
      hstr, hctx, rfl, rfl⟩
    rw [jobRecord_reason, hreason]
    exact Nat.mod_eq_of_lt (hsmall _ (lowest_mem hfaults))
  case late =>
    intro s c g f j hjob hc hg hlive hmark hlate hcancel hpol
    have hgo : ¬ ((!jobLive j) = true ∨ (!egressMark s.u (tgetD s.u.ctx c {}).cohort) = true ∨
        cohortTick s.u (tgetD s.u.ctx c {}).cohort < j.admitAt + j.delay ∨
        (j.cancelAt.any (fun t => decide (t ≤ s.u.tick.number))) = true) := by
      simp [hlive, hmark, hcancel, hlate]
    have hrun : jobDeadline c g.toNat f s = { s with u := lateUnits s.u j } := by
      simp only [jobDeadline, jobAt_one hjob hc hg, if_neg hgo, jobLate, hpol, if_true]
      rfl
    obtain ⟨hvjob, hstr, hprod⟩ := lateUnits_frame hjob
    exact ⟨_, _, congrArg Host.Outcome.next hrun, hvjob, jobRecord_tag _, jobRecord_verdict _, jobRecord_reason _, hprod, hstr, rfl, rfl⟩
  case cancel =>
    intro s c g j k hjob hc hg hlive hrun hcancel hk
    have hdue : jobLive j = true ∧ running s.u = true ∧ (j.cancelAt.any (fun t => decide (t ≤ s.u.tick.number))) = true := by
      simp [hlive, hrun, hcancel, hk]
    have hstop : jobCancelEffect c g.toNat s.u = stopJob j s.u := by
      simp only [jobCancelEffect, jobAt_one hjob hc hg]
      exact if_pos hdue
    have hrun := hstop.trans (modJob_one hjob rfl rfl _)
    exact ⟨_, _, next_of_units (f := jobCancelEffect c g.toNat) hrun, rfl, jobRecord_tag _, jobRecord_verdict _, jobRecord_reason _, rfl⟩
  case none =>
    intro s c g hj
    refine ⟨?_, fun f => ?_, fun l f => ?_⟩
    · exact next_of_units (f := jobCancelEffect c g.toNat) (v := s.u) (by rw [jobCancelEffect, hj])
    · exact congrArg Host.Outcome.next (by rw [jobDeadline, hj])
    · exact congrArg Host.Outcome.next (by rw [jobCompose, hj])

end Sys2Proof.Machine
end

section
/-! PROOFS. Messages on windows and tiers (12, R357): a memory that lists an address twice. -/
namespace Sys2Proof.Machine

/- A copy into tier 1 whose memory is not in canonical form. -/
/-- The payload of a TIER_COPY of 64 bytes from host port 0 to the last unit of the area. -/
def copyPayload : Bytes := leBytes 8 0 ++ leBytes 8 65472 ++ leBytes 4 0 ++ leBytes 4 64 ++ leBytes 8 0

/-- A state with that copy begun for context 63; its tier-1 memory lists address 131,008, the first of the copy, twice. -/
def twiceListed : State :=
  { State.reset with
    u := { State.reset.u with
      mbx := [(63, { phase := .begun, busy := true
                     cmd := mwrite [] 0 (leBytes 2 0 ++ leBytes 2 0x0606 ++ leBytes 2 4 ++ leBytes 10 0 ++ copyPayload) })]
      ctx := [(63, { areaBase := 65536, areaUnits := 1 })]
      port0 := { State.reset.u.port0 with busMaster := true } }
    m := { State.reset.m with t1 := [(131008, 1), (131008, 2)] } }

theorem twiceListed_heard : heard twiceListed.u (63 : Fin 64) 0x0606 copyPayload := by
  have hbegun : begunWith twiceListed.u (63 : Fin 64) 0x0606 = some copyPayload := by decide
  have hlayout : (layoutOf 0x0606 copyPayload).map (fun l => reservedAt copyPayload l.2.1 l.2.2) = some none := by decide
  refine ⟨hbegun, ?_⟩
  cases hl : layoutOf 0x0606 copyPayload with
  | none =>
    rw [hl] at hlayout
    cases hlayout
  | some l =>
    rw [hl] at hlayout
    exact Option.some.inj hlayout

/-- The zero that the copy brings takes the first of the two entries away, and the second reads 2. -/
theorem twiceListed_copied :
    mread (tierCopy (63 : Fin 64) (.data (List.replicate 64 0)) twiceListed).m.t1 131008 64 ≠ List.replicate 64 0 := by
  decide

/-- Refutes O51: the clause on TIER_COPY asks of every memory that it reads as written, and one that lists an address twice does not.
(Every step keeps memories in the canonical form, O58, so no such state is reached from reset.) -/
theorem not_windowAndTierMessages : ¬ Obligations.WindowAndTierMessages := by
  intro h
  obtain ⟨-, -, -, -, -, -, -, -, -, hcopy, -⟩ := h
  obtain ⟨t, ht, -, hread, -⟩ := hcopy twiceListed 63 copyPayload (List.replicate 64 0) (.data (List.replicate 64 0)) 131008
    twiceListed_heard (by decide) (by decide) (by decide) (by decide) (by decide) (by decide) (by decide) (by decide)
  cases ht
  exact twiceListed_copied hread

end Sys2Proof.Machine
end

section
/-! PROOFS. Window transactions (13, R374, R382): a memory that lists an address twice. -/
namespace Sys2Proof.Machine

/- A write request to tier 1 whose memory is not in canonical form. -/
/-- A write request of one unit of zeros at window address 8,128. -/
def zeroRequest : Bytes := fabPkt 0x21 2 9 0 0 0 (leBytes 8 8128 ++ leBytes 4 64 ++ leBytes 12 0) (List.replicate 64 0)

/-- A state that exports a writable window; its tier-1 memory lists address 69,568, where the request's unit begins, twice. -/
def twiceExported : State :=
  { State.reset with
    u := { State.reset.u with tier := { State.reset.u.tier with
      exports := [(3, { base := 4096, len := 4096, tier := 1, loc := 65536, writable := true })] } }
    m := { State.reset.m with t1 := [(69568, 1), (69568, 2)] } }

theorem twiceExported_arrives : arrives twiceExported.u 0x21 { port := 11 } zeroRequest := by
  refine ⟨?_, ?_, ?_, ?_⟩ <;> decide +kernel

theorem twiceExported_free : portFree (rxFlits { port := 11 } twiceExported.u) (11 : Fin 12) 3 1 := by
  constructor <;> decide

/-- The zero that the request brings takes the first of the two entries away, and the second reads 2. -/
theorem twiceExported_written :
    mread (wrRequest { port := 11 } zeroRequest twiceExported).m.t1 69568 (le zeroRequest 40 4) ≠ zeroRequest.drop 64 := by
  decide +kernel

/-- Refutes O52: the clause on a valid write request asks of every memory that it reads as written, and one that lists an address twice
does not. (Every step keeps memories in the canonical form, O58, so no such state is reached from reset.) -/
theorem not_windowTransactions : ¬ Obligations.WindowTransactions := by
  intro h
  obtain ⟨-, -, -, -, -, hwrite, -⟩ := h
  obtain ⟨t, ht, hread, -⟩ := hwrite twiceExported { port := 11 } zeroRequest 69568 twiceExported_arrives twiceExported_free
    (by decide) (by decide) (by decide)
  cases ht
  exact twiceExported_written hread

end Sys2Proof.Machine
end

section
/-! PROOFS. Step traffic into the block (02, R58, R59; 03, R94; 04, R118; 13, R377 to R379). -/
namespace Sys2Proof.Machine

variable {s : State} {u v w : Units} {rx : Rx} {p : Bytes} {cls : Nat}

/- A packet that arrives. -/
theorem portFrame_refl (u : Units) : PortFrame u u := rfl
theorem portFrame_creditsBack (port : Nat) (l : List (Fin 4 × Nat)) (u : Units) : PortFrame u (creditsBack port l u) := by
  unfold creditsBack
  split
  · exact portFrame_refl u
  · exact PortFrame.trans (by exact rfl) (portFrame_portSend _ _ _)
theorem portFrame_rxFlits (r : Rx) (u : Units) : PortFrame u (rxFlits r u) := by
  unfold rxFlits
  dsimp only
  split
  · exact portFrame_creditsBack ..
  · exact (portFrame_creditsBack ..).trans (by exact rfl)
theorem portFrame_rxHold (r : Rx) (p : Bytes) (u : Units) : PortFrame u (rxHold r p u) := by
  unfold rxHold
  dsimp only
  split <;> exact rfl
theorem rxHold_out (r : Rx) (p : Bytes) (u : Units) : (rxHold r p u).out = u.out := by
  unfold rxHold
  dsimp only
  split <;> rfl
theorem advTo_past {t : Nat} (h : t ≤ u.tick.time) : advTo t u = u := if_pos h
theorem fabFault_portFrame (h : PortFrame u v) (port : Nat) (p : Bytes) : fabFault v port p = fabFault u port p := by
  rw [h]
  rfl

/-- A packet of its class that arrives is held at its port. -/
theorem fabJudge_arrives (h : arrives u cls rx p) : fabJudge cls rx p u = (rxHold rx p (rxFlits rx u), true) := by
  obtain ⟨hup, hbeyond, hfault, hcls⟩ := h
  rw [← fabFault_portFrame (portFrame_rxFlits rx u)] at hfault
  simp only [fabJudge, hup, hbeyond, hfault, hcls, Bool.not_true, Bool.false_eq_true, if_false, if_true]

/-- The units once a packet has arrived: what its flits and its place at the port changed. -/
def arrivedUnits (u : Units) (o : List Out) (pt : Tbl FabPort) : Units := { u with out := o, fab := { u.fab with ports := pt } }

theorem rxHold_arrived (rx : Rx) (p : Bytes) (u : Units) :
    ∃ pt, rxHold rx p (rxFlits rx u) = arrivedUnits u (rxFlits rx u).out pt := by
  have h : rxHold rx p (rxFlits rx u) =
      { u with out := (rxHold rx p (rxFlits rx u)).out, fab := { u.fab with ports := (rxHold rx p (rxFlits rx u)).fab.ports } } :=
    (portFrame_rxFlits rx u).trans (portFrame_rxHold rx p _)
  rw [rxHold_out] at h
  exact ⟨_, h⟩

theorem fabReceiveS_arrives (h : arrives s.u cls rx p) (f : State → State) :
    ∃ pt, fabReceiveS cls rx p f s = f { s with u := arrivedUnits s.u (rxFlits rx s.u).out pt } := by
  obtain ⟨pt, hpt⟩ := rxHold_arrived rx p s.u
  refine ⟨pt, ?_⟩
  simp only [fabReceiveS, fabJudge_arrives h, hpt, if_true]

theorem fabReceive_arrives (h : arrives u cls rx p) (f : Units → Units) :
    ∃ pt, fabReceive cls rx p f u = f (arrivedUnits u (rxFlits rx u).out pt) ∧
      rxHold rx p (rxFlits rx u) = arrivedUnits u (rxFlits rx u).out pt := by
  obtain ⟨pt, hpt⟩ := rxHold_arrived rx p u
  refine ⟨pt, ?_, hpt⟩
  simp only [fabReceive, fabJudge_arrives h, hpt, if_true]

/- A fragment of a record (R377). -/
/-- A fragment as it is kept. -/
def fragOf (rx : Rx) (p : Bytes) : Reasm :=
  { handle := le p 32 4, tick := le p 24 8, die := rx.port.val / 2, rlen := le p 40 4, frags := [(le p 36 4, p.drop 64)] }

section
variable {at_ : Nat} (hat : at_ ≤ s.u.tick.time) (harr : arrives s.u 0x10 rx p) (hnone : s.u.fab.reasm = [])
  (hgood : fragBad s.u (rx.port.val / 2) (le p 32 4) (le p 24 8) (le p 36 4) (le p 40 4) (p.drop 64) = false)
include hat harr hnone hgood

theorem hstate_partial (hshort : (p.drop 64).length < le p 40 4) :
    ∃ pt, hstate rx p at_ s = { s with u := { s.u with
      out := (rxFlits rx s.u).out, fab := { s.u.fab with reasm := [fragOf rx p], ports := pt } } } := by
  unfold hstate
  rw [onUnits, advTo_past hat]
  obtain ⟨pt, hpt⟩ := fabReceiveS_arrives harr (s := s) _
  refine ⟨pt, hpt.trans ?_⟩
  have hgood' : fragBad (arrivedUnits s.u (rxFlits rx s.u).out pt) (rx.port.val / 2) (le p 32 4) (le p 24 8) (le p 36 4) (le p 40 4)
    (p.drop 64) = false := hgood
  have hnone' : (arrivedUnits s.u (rxFlits rx s.u).out pt).fab.reasm = [] := hnone
  simp only [hgood', hnone', List.any_nil, List.find?_nil, List.filter_nil, Option.getD_none, List.nil_append, Bool.false_eq_true,
    if_false, fragBytes, List.map_cons, List.map_nil, List.sum_cons, List.sum_nil, Nat.add_zero, if_pos hshort]
  rfl

theorem hstate_whole (hlen : (p.drop 64).length = le p 40 4) :
    ∃ pt, hstate rx p at_ s = recordIn (rx.port.val / 2) (le p 32 4) (le p 24 8) (p.drop 64)
      { s with u := arrivedUnits s.u (rxFlits rx s.u).out pt } := by
  unfold hstate
  rw [onUnits, advTo_past hat]
  obtain ⟨pt, hpt⟩ := fabReceiveS_arrives harr (s := s) _
  refine ⟨pt, hpt.trans ?_⟩
  have hgood' : fragBad (arrivedUnits s.u (rxFlits rx s.u).out pt) (rx.port.val / 2) (le p 32 4) (le p 24 8) (le p 36 4) (le p 40 4)
    (p.drop 64) = false := hgood
  have hnone' : (arrivedUnits s.u (rxFlits rx s.u).out pt).fab.reasm = [] := hnone
  have hfull : ¬ (p.drop 64).length < le p 40 4 := by omega
  simp only [hgood', hnone', List.any_nil, List.find?_nil, List.filter_nil, Option.getD_none, List.nil_append, Bool.false_eq_true,
    if_false, fragBytes, List.map_cons, List.map_nil, List.sum_cons, List.sum_nil, Nat.add_zero, if_neg hfull]
  refine congr (congrArg (recordIn _ _ _) (List.append_nil _)) ?_
  rw [onUnits, arrivedUnits, ← hnone]
end

/- A record in the rings of its cores (R118). -/
section
variable {k j handle tick : Nat} {data : Bytes} {sat l : List Nat}

theorem ringIn_frame (k handle tick : Nat) (data : Bytes) (sat : List Nat) (s : State) :
    ∃ c x, ringIn k handle tick data sat s = { s with u := { s.u with core := c }, m := { s.m with sram := x } } := ⟨_, _, rfl⟩
theorem ringIn_other (hj : j ≠ k) : coreAt (ringIn k handle tick data sat s).u j = coreAt s.u j ∧
    sramOf (ringIn k handle tick data sat s) j = sramOf s j :=
  ⟨(coreAt_modCore_other _ _ hj).trans (coreAt_setCore_other _ _ hj), tgetD_tset_other _ _ _ hj⟩
theorem ringIn_ring : ∃ e : RingEnt, (coreAt (ringIn k handle tick data sat s).u k).ring = (coreAt s.u k).ring ++ [e] ∧
    e.handle = handle ∧ e.tick = tick := by
  refine ⟨_, (congrArg CoreSt.ring (coreAt_modCore ..)).trans (congrArg CoreSt.ring (coreAt_setCore ..)), rfl, rfl⟩

/-- A record entered in the rings of the cores `l`. -/
def ringsIn (l : List Nat) (handle tick : Nat) (data : Bytes) (sat : List Nat) (s : State) : State :=
  l.foldl (fun s k => ringIn k handle tick data sat s) s

theorem ringsIn_frame (l : List Nat) (handle tick : Nat) (data : Bytes) (sat : List Nat) (s : State) :
    ∃ c x, ringsIn l handle tick data sat s = { s with u := { s.u with core := c }, m := { s.m with sram := x } } :=
  foldl_keeps (fun t => ∃ c x, t = { s with u := { s.u with core := c }, m := { s.m with sram := x } }) _ l s
    ⟨s.u.core, s.m.sram, rfl⟩ fun t k ⟨c, x, h⟩ => by
      rw [h]
      exact ringIn_frame ..
theorem ringsIn_other (hj : j ∉ l) : coreAt (ringsIn l handle tick data sat s).u j = coreAt s.u j ∧
    sramOf (ringsIn l handle tick data sat s) j = sramOf s j := by
  induction l generalizing s with
  | nil => exact ⟨rfl, rfl⟩
  | cons k r ih =>
    obtain ⟨hk, hr⟩ := not_or.mp (fun h => hj (List.mem_cons.mpr h))
    obtain ⟨hc, hm⟩ := ih (s := ringIn k handle tick data sat s) hr
    obtain ⟨hc', hm'⟩ := ringIn_other (s := s) (handle := handle) (tick := tick) (data := data) (sat := sat) hk
    exact ⟨hc.trans hc', hm.trans hm'⟩
/-- A ring keeps the records it has while others enter. -/
theorem ringsIn_keeps {e : RingEnt} (he : e ∈ (coreAt s.u j).ring) : e ∈ (coreAt (ringsIn l handle tick data sat s).u j).ring := by
  refine foldl_keeps (fun t => e ∈ (coreAt t.u j).ring) _ l s he fun t k ht => ?_
  by_cases hj : j = k
  · subst hj
    obtain ⟨d, hd, -⟩ := ringIn_ring (s := t) (k := j) (handle := handle) (tick := tick) (data := data) (sat := sat)
    rw [hd]
    exact List.mem_append_left _ ht
  · rw [(ringIn_other hj).1]
    exact ht
theorem ringsIn_enters (hj : j ∈ l) : ∃ e, e ∈ (coreAt (ringsIn l handle tick data sat s).u j).ring ∧ e.handle = handle ∧ e.tick = tick := by
  induction l generalizing s with
  | nil => cases hj
  | cons k r ih =>
    rcases List.mem_cons.mp hj with rfl | hr
    · obtain ⟨e, he, hh, ht⟩ := ringIn_ring (s := s) (k := j) (handle := handle) (tick := tick) (data := data) (sat := sat)
      exact ⟨e, ringsIn_keeps (s := ringIn j handle tick data sat s) (he ▸ List.mem_append_right _ (List.mem_singleton_self e)), hh, ht⟩
    · exact ih hr
end

/- A whole record (R94, R378). -/
section
variable {die handle tick n r : Nat} {b : Bytes} {x : Str}

theorem recordIn_stranger (h : streamOf s.u handle = none) : recordIn die handle tick b s = onUnits stale s := by
  simp only [recordIn, h]

/-- The counters of an invalid record. -/
def invalidRecord (die why : Nat) (u : Units) : Units :=
  dieBump (dieKey 2 die) 0x201 1 { u with fab := { u.fab with
    invalid := u.fab.invalid + 1, invalidBy := tset u.fab.invalidBy why (tgetD u.fab.invalidBy why 0 + 1) } }

theorem invalidRecord_frame (die why : Nat) (u : Units) : ∃ d, invalidRecord die why u = { u with
    fab := { u.fab with
      invalid := u.fab.invalid + 1, invalidBy := tset u.fab.invalidBy why (tgetD u.fab.invalidBy why 0 + 1) }
    cnt := { u.cnt with die := d } } :=
  dieBump_frame (dieKey 2 die) 0x201 1 _

theorem recordIn_invalid {why : Nat} {l : List Nat} (h : streamOf s.u handle = some n) (hx : tget s.u.str n = some x)
    (hnow : tick = cohortTick s.u x.cohort) (hbad : recordFaults s.u b handle tick x = why :: l) :
    recordIn die handle tick b s = onUnits (invalidRecord die why) s := by
  have hok : (!recordOk s.u b handle tick x) = true := by rw [recordOk, hbad]; rfl
  simp only [recordIn, h, tgetD_of_tget hx, if_neg (not_not_intro hnow), hok, if_true, hbad, List.headD_cons]
  rfl

/-- A record that entered its rings is marked on its stream and counted. -/
theorem recordCounted (die n : Nat) (u : Units) : ∃ v, dieBump (dieKey 2 die) 0x200 1 (modStr n (fun y => { y with recIn := true }) u) = v ∧
    v.str = (modStr n (fun y => { y with recIn := true }) u).str ∧ v.core = u.core := by
  obtain ⟨d, hd⟩ := dieBump_frame (dieKey 2 die) 0x200 1 (modStr n (fun y => { y with recIn := true }) u)
  exact ⟨_, hd, rfl, rfl⟩

/-- The cores of a replica of the stream's head slot. -/
def replicaKeys (u : Units) (x : Str) (r : Nat) : List Nat :=
  ((slotAt u x.headSlot).bind.filter (fun y => y.rep == r)).map bindKey

theorem mem_replicaKeys {k : Nat} : k ∈ replicaKeys u x r ↔ ∃ b, b ∈ (slotAt u x.headSlot).bind ∧ b.rep = r ∧ bindKey b = k := by
  simp [replicaKeys, and_assoc]

theorem recordIn_valid (h : streamOf s.u handle = some n) (hx : tget s.u.str n = some x) (hnow : tick = cohortTick s.u x.cohort)
    (hok : recordOk s.u b handle tick x = true) (hopen : ingressOpen s.u x.cohort = true) (hseat : x.seat = some r)
    (hst : x.st = .active) (hrec : x.recIn = false) (hskip : x.skipIn = false) :
    ∃ data sat, recordIn die handle tick b s = onUnits (fun u => dieBump (dieKey 2 die) 0x200 1
      (modStr n (fun y => { y with recIn := true }) u)) (ringsIn (replicaKeys s.u x r) handle tick data sat s) := by
  have hgo : ¬ (x.st ≠ .active ∨ x.recIn = true ∨ x.skipIn = true) := by simp [hst, hrec, hskip]
  refine ⟨rowRecord (recordRow b).1 handle tick x.pos, (recordRow b).2, ?_⟩
  simp only [recordIn, h, tgetD_of_tget hx, if_neg (not_not_intro hnow), hok, hopen, hseat, Bool.not_true, Bool.false_eq_true, if_false,
    if_neg hgo]
  rfl
end

/- Skip markers (R58, R59). -/
theorem skipOne_now {die tick h n : Nat} {x : Str} (hs : streamOf u h = some n) (hx : tget u.str n = some x)
    (hnow : tick = cohortTick u x.cohort) (hopen : ingressOpen u x.cohort = true) (hrec : x.recIn = false) :
    skipOne die tick h u = dieBump (dieKey 2 die) 0x203 1 { u with str := tset u.str n { x with skipIn := true } } := by
  have hgo : tick = cohortTick u x.cohort ∧ ingressOpen u x.cohort = true ∧ (!x.recIn) = true := ⟨hnow, hopen, by rw [hrec]; rfl⟩
  simp only [skipOne, hs, tgetD_of_tget hx, if_pos hgo, modStr_eq hx]

/-- What a packet of skip markers does once it has arrived (R379). -/
def skipMarkers (rx : Rx) (p : Bytes) (v : Units) : Units :=
  if le p 32 2 = 0 ∨ 1024 < le p 32 2 ∨ (p.drop 64).length ≠ 64 * ceilDiv (4 * le p 32 2) 64 ∨
      !allZero ((p.drop 64).drop (4 * le p 32 2)) then fabError rx.port 0x0D21 [rx.port.val, 0x11, 1] v
  else forAll (List.range (le p 32 2)) (fun k u => skipOne (rx.port / 2) (le p 24 8) (le (p.drop 64) (4 * k) 4) u) v

theorem skipPacket_arrives {at_ : Nat} (hat : at_ ≤ u.tick.time) (harr : arrives u 0x11 rx p) :
    ∃ pt, skipPacket rx p at_ u = skipMarkers rx p (arrivedUnits u (rxFlits rx u).out pt) ∧
      rxHold rx p (rxFlits rx u) = arrivedUnits u (rxFlits rx u).out pt := by
  unfold skipPacket
  rw [advTo_past hat]
  exact fabReceive_arrives harr _

theorem skipMarkers_one (hone : le p 32 2 = 1) (hlen : (p.drop 64).length = 64) (hzero : allZero ((p.drop 64).drop 4) = true) :
    skipMarkers rx p v = skipOne (rx.port / 2) (le p 24 8) (le (p.drop 64) 0 4) v := by
  have hgo : ¬ (le p 32 2 = 0 ∨ 1024 < le p 32 2 ∨ (p.drop 64).length ≠ 64 * ceilDiv (4 * le p 32 2) 64 ∨
      (!allZero ((p.drop 64).drop (4 * le p 32 2))) = true) := by
    rw [hone, hlen, Nat.mul_one, hzero]
    decide
  rw [skipMarkers, if_neg hgo, hone]
  rfl

/-- Settles O53: each packet does to the state it arrives in what its record, its marker or its fault says. -/
theorem stepTrafficReachesItsStream : Obligations.StepTrafficReachesItsStream := by
  refine ⟨?fragment, ?record, ?invalid, ?stranger, ?skip, ?empty⟩
  case fragment =>
    intro s rx p at_ hat harr hnone hgood hshort
    obtain ⟨pt, hrun⟩ := hstate_partial hat harr hnone hgood hshort
    exact ⟨_, congrArg Host.Outcome.next hrun, rfl, rfl⟩
  case record =>
    intro s rx p at_ n r x hat harr hnone hgood hlen hs hx hnow hok hopen hseat hst hrec hskip
    obtain ⟨pt, hrun⟩ := hstate_whole hat harr hnone hgood hlen
    obtain ⟨data, sat, hin⟩ := recordIn_valid (s := { s with u := arrivedUnits s.u (rxFlits rx s.u).out pt }) (die := rx.port.val / 2)
      hs hx hnow hok hopen hseat hst hrec hskip
    obtain ⟨v, hv, hstr, hcore⟩ := recordCounted (rx.port.val / 2) n
      (ringsIn (replicaKeys s.u x r) (le p 32 4) (le p 24 8) data sat { s with u := arrivedUnits s.u (rxFlits rx s.u).out pt }).u
    rw [hin.trans (congrArg (fun v => ({ ringsIn (replicaKeys s.u x r) (le p 32 4) (le p 24 8) data sat
      { s with u := arrivedUnits s.u (rxFlits rx s.u).out pt } with u := v } : State)) hv)] at hrun
    obtain ⟨c, m, hframe⟩ := ringsIn_frame (replicaKeys s.u x r) (le p 32 4) (le p 24 8) data sat
      { s with u := arrivedUnits s.u (rxFlits rx s.u).out pt }
    refine ⟨_, congrArg Host.Outcome.next hrun, ?_, ?_, ?_, ?_, ?_, ?_⟩
    · refine (congrArg (tget · n) hstr).trans (tget_modStr_self ?_ _)
      exact (congrArg (fun t : State => tget t.u.str n) hframe).trans hx
    · intro b hb hr
      obtain ⟨e, he, hh, htick⟩ := ringsIn_enters (s := { s with u := arrivedUnits s.u (rxFlits rx s.u).out pt })
        (handle := le p 32 4) (tick := le p 24 8) (data := data) (sat := sat) (mem_replicaKeys.mpr ⟨b, hb, hr, rfl⟩)
      exact ⟨e, (congrArg (fun y : CoreSt => e ∈ y.ring) (coreAt_of_core_eq hcore (bindKey b))).mpr he, hh, htick⟩
    · intro k hk
      obtain ⟨hc, hm⟩ := ringsIn_other (s := { s with u := arrivedUnits s.u (rxFlits rx s.u).out pt }) (handle := le p 32 4)
        (tick := le p 24 8) (data := data) (sat := sat) (j := k) (l := replicaKeys s.u x r) (fun hin => by
          obtain ⟨b, hb, hr, hbk⟩ := mem_replicaKeys.mp hin
          exact hk b hb hr hbk)
      exact ⟨(coreAt_of_core_eq hcore k).trans hc, hm⟩
    · exact (congrArg (fun t : State => t.m.t1) hframe :)
    · exact (congrArg (fun t : State => t.m.t2) hframe :)
    · exact (congrArg State.q hframe :)
  case invalid =>
    intro s rx p at_ n why x l hat harr hnone hgood hlen hs hx hnow hbad
    obtain ⟨pt, hrun⟩ := hstate_whole hat harr hnone hgood hlen
    rw [recordIn_invalid (s := { s with u := arrivedUnits s.u (rxFlits rx s.u).out pt }) hs hx hnow hbad] at hrun
    obtain ⟨d, hd⟩ := invalidRecord_frame (rx.port.val / 2) why (arrivedUnits s.u (rxFlits rx s.u).out pt)
    rw [onUnits, hd] at hrun
    exact ⟨_, congrArg Host.Outcome.next hrun, rfl, tget_tset_self .., rfl, rfl, rfl, rfl⟩
  case stranger =>
    intro s rx p at_ hat harr hnone hgood hlen hs
    obtain ⟨pt, hrun⟩ := hstate_whole hat harr hnone hgood hlen
    rw [recordIn_stranger (s := { s with u := arrivedUnits s.u (rxFlits rx s.u).out pt }) hs] at hrun
    exact ⟨_, congrArg Host.Outcome.next hrun, rfl, rfl, rfl, rfl, rfl, rfl⟩
  case skip =>
    intro s rx p at_ n x hat harr hone hlen hzero hs hx hnow hopen hrec
    obtain ⟨pt, hrun, -⟩ := skipPacket_arrives hat harr
    have hone' := skipOne_now (u := arrivedUnits s.u (rxFlits rx s.u).out pt) (die := rx.port / 2) hs hx hnow hopen hrec
    obtain ⟨d, hd⟩ := dieBump_frame (dieKey 2 (rx.port / 2)) 0x203 1
      { arrivedUnits s.u (rxFlits rx s.u).out pt with str := tset s.u.str n { x with skipIn := true } }
    have hrun' := (hrun.trans (skipMarkers_one hone hlen hzero)).trans (hone'.trans hd)
    exact ⟨_, next_of_units (f := skipPacket rx p at_) hrun', tget_tset_self .., fun j hj => tget_tset_other _ _ hj, rfl⟩
  case empty =>
    intro s rx p at_ hat harr hzero
    obtain ⟨pt, hrun, hpt⟩ := skipPacket_arrives hat harr
    refine next_of_units (f := skipPacket rx p at_) (hrun.trans ?_)
    show _ = fabError rx.port 0x0D21 [rx.port.val, 0x11, 1] (rxHold rx p (rxFlits rx s.u))
    rw [hpt]
    exact if_pos (.inl hzero)

end Sys2Proof.Machine
end

section
/-! PROOFS. Firmware messages and the queues they read (11; 12, R358). -/
namespace Sys2Proof.Machine

variable {s : State} {u v w : Units}

/- The store of a controller that gives up blocks (R433). -/
/-- What the service of a store leaves as it is. -/
def ServedFrame (u v : Units) : Prop := v.fw = u.fw ∧ v.mbx = u.mbx

theorem ServedFrame.refl (u : Units) : ServedFrame u u := ⟨rfl, rfl⟩
theorem ServedFrame.trans (h : ServedFrame u v) (h' : ServedFrame v w) : ServedFrame u w := ⟨h'.1.trans h.1, h'.2.trans h.2⟩
theorem servedFrame_notice (h : noticeFrame u v) : ServedFrame u v := by
  obtain ⟨-, hfw, -, hmbx, -⟩ := noticeFrame_keeps h
  exact ⟨hfw, hmbx⟩
theorem servedFrame_dieBump (d n k : Nat) (u : Units) : ServedFrame u (dieBump d n k u) := servedFrame_notice (noticeFrame_dieBump ..)
theorem servedFrame_svc (v : Svc) (u : Units) : ServedFrame u { u with svc := v } := ⟨rfl, rfl⟩

theorem storeRetire_frame (a : Asm) (die block reason : Nat) (journal : Bool) (u : Units) :
    ServedFrame u (storeRetire a die block reason journal u).1 := by
  unfold storeRetire
  dsimp only
  split
  · split
    · split
      · exact (servedFrame_svc _ u).trans (servedFrame_notice (trayService_frame ..))
      · exact servedFrame_svc _ u
    · exact servedFrame_svc _ u
  · split
    · exact (servedFrame_svc _ u).trans (servedFrame_notice (fwNotice_frame ..))
    · exact servedFrame_svc _ u
theorem eraseRetire_frame (a : Asm) (die : Nat) (u : Units) : ServedFrame u (eraseRetire a die u) :=
  forAll_keeps (ServedFrame u) _ _ _ (servedFrame_svc _ u) fun _ _ h => h.trans (storeRetire_frame ..)

/- A load that begins, and its end (R330). -/
/-- The firmware's state while image `x` is being loaded for mailbox `n`, before its bank is marked. -/
def loadingFw (f : Fw) (n : Nat) (x : Bytes) (len : Nat) (want : Bytes) : Fw :=
  { f with
    updState := 1, staged := none, bankTorn := true
    loading := some (n, imgParse x, (loadResult f x len want).1, (loadResult f x len want).2)
    updResult := if f.bankTorn then 0 else f.updResult }

theorem otherBank_setOther (f : Fw) (b : FwImg) : otherBank (setOther f b) = b := by
  unfold setOther
  split
  · next h => exact if_pos h
  · next h => exact if_neg h
theorem setOther_frame (f : Fw) (b : FwImg) : ∃ x y, setOther f b = { f with bankA := x, bankB := y } := by
  unfold setOther
  split
  · exact ⟨f.bankA, b, rfl⟩
  · exact ⟨b, f.bankB, rfl⟩

theorem updStateStaged_stored (a : Asm) {n r st : Nat} {i : FwImg} (hl : u.fw.loading = some (n, i, r, st)) :
    ∃ v, v.fw = { u.fw with loading := none } ∧ v.mbx = u.mbx ∧ (r ≠ 0 → updStateStaged a .ok u = loadFail n r st v) ∧
      (r = 0 → v.fw.stage ≠ 5 → updStateStaged a .ok u = (fun w : Units => { w with
          fw := { w.fw with updState := 2, staged := some i } }) (answerWaiting (some n) (ok (leBytes 4 i.ver ++ leBytes 2 i.svn))
        { v with fw := setOther { v.fw with bankTorn := false } i, svc := journalAdd 7 (leBytes 1 (1 - u.fw.bank)) true true v.svc })) := by
  let v := dieBump (dieKey 3 (1 - u.fw.bank)) 0x308 1 (dieBump (dieKey 3 (1 - u.fw.bank)) 0x309 128
    (eraseRetire a (1 - u.fw.bank) { u with fw := { u.fw with loading := none } }))
  have hv : ServedFrame { u with fw := { u.fw with loading := none } } v :=
    ((eraseRetire_frame ..).trans (servedFrame_dieBump ..)).trans (servedFrame_dieBump ..)
  refine ⟨v, hv.1, hv.2, fun hr => ?_, fun hr hst => ?_⟩
  · simp only [updStateStaged, hl, Bool.not_true, Bool.false_eq_true, if_false, if_pos hr]
    rfl
  · obtain ⟨x, y, hset⟩ := setOther_frame { v.fw with bankTorn := false } i
    have hgo : ¬ (setOther { v.fw with bankTorn := false } i).stage = 5 := by
      rw [hset]
      exact hst
    simp only [updStateStaged, hl, Bool.not_true, Bool.false_eq_true, if_false, hr, ne_eq, not_true]
    exact if_neg hgo

/- Packets read from a queue (R336, R358). -/
/-- The bytes of a packet as they are read. -/
def packetBytes (c : CPkt) (d : Nat) : Bytes :=
  (withSeq (c.words.headD 0) c.seq (Nat.lor c.poison d != 0) :: c.words.drop 1).flatMap (fun w => leBytes 8 w.toNat)

theorem packetBytes_length {c : CPkt} (h : c.words ≠ []) (d : Nat) : (packetBytes c d).length = 8 * c.words.length := by
  obtain ⟨x, l, hx⟩ := List.exists_cons_of_ne_nil h
  rw [packetBytes, length_flatMap_const (m := 8) _ (fun _ => leBytes_length ..), hx]
  simp

theorem popMany_one {q g : QInst} {c : CPkt} {room a d : Nat} {ecc : List (BitVec 8 × BitVec 8)} (hq : qPop q = some (c, g))
    (hw : c.words ≠ []) (hroom : 8 * c.words.length ≤ room) (ha : a = (ecc.headD (0, 0)).1.toNat % 2 ^ c.words.length)
    (hd : d = (ecc.headD (0, 0)).2.toNat % 2 ^ c.words.length) :
    popMany 1 room ecc q = (packetBytes c d, 1, qEcc g (ones8 a) (ones8 d)) := by
  have hfit : ¬ room < (packetBytes c d).length := by
    rw [packetBytes_length hw]
    omega
  unfold packetBytes at hfit ⊢
  rw [hd] at hfit
  simp only [popMany, hq, if_neg hfit, List.append_nil, Nat.zero_add, ha, hd]

theorem popInto_one {inst : Fin 3} {mb : Nat} {b : Buf} {i : PopIn} {g : QInst} {c : CPkt} {a d : Nat}
    (hq : qPop (qGet s.q inst) = some (c, g)) (hw : c.words ≠ []) (hroom : 8 * c.words.length ≤ b.len)
    (ha : a = (i.ecc.headD (0, 0)).1.toNat % 2 ^ c.words.length) (hd : d = (i.ecc.headD (0, 0)).2.toNat % 2 ^ c.words.length)
    (hs : b.space = 0) (hup : dmaUp s.u 0 = true) (hflt : i.flt = false) :
    ∃ v, popInto inst 1 mb b i s = ({ s with q := qPut s.q inst (qEcc g (ones8 a) (ones8 d)), u := v }, true, 1) ∧
      v.out = s.u.out ++ [.host 0 b.addr (packetBytes c d)] ∧ v.mbx = s.u.mbx := by
  have hlen := packetBytes_length hw d
  have hne : ¬ (packetBytes c d).isEmpty = true := by
    intro he
    rw [List.isEmpty_iff.mp he, List.length_nil] at hlen
    have := List.length_pos_iff.mpr hw
    omega
  simp only [popInto, popMany_one hq hw hroom ha hd, if_neg hne, hflt, bufWrite_port0 hs hup (hlen ▸ hroom), if_true]
  refine ⟨_, rfl, ?_, ?_⟩ <;> split <;> rfl
theorem popInto_none {inst : Fin 3} {max mb : Nat} {b : Buf} {i : PopIn} (hq : qPop (qGet s.q inst) = none) :
    popInto inst max mb b i s = (s, true, 0) := by
  have hpop : popMany max b.len i.ecc (qGet s.q inst) = ([], 0, qGet s.q inst) := by
    cases max with
    | zero => rfl
    | succ n => simp only [popMany, hq]
  simp only [popInto, hpop, List.isEmpty_nil, if_true]

/-- Settles O54: each message leaves what its answer says, a staged load ends as its result gives, and a read pops one packet. -/
theorem firmwareMessages : Obligations.FirmwareMessages := by
  refine ⟨?load, ?busy, ?staged, ?failed, ?activate, ?notStaged, ?bootCfg, ?watchdog, ?trace, ?hidden, ?fuse, ?stranger, ?logHidden,
    ?logOne, ?logNone, ?queueOne⟩
  case load =>
    intro s mb p x d h hst1 hst3 hnone hbuf hspace hread
    have hgo1 : ¬ (s.u.fw.updState = 1 ∨ s.u.fw.updState = 3 ∨ s.u.fw.loading.isSome = true) := by simp [hst1, hst3, hnone]
    have hgo2 : ¬ (s.u.fw.stage = 5 ∧ (bufOf p 16).space ≠ 0) := fun hh => hspace.elim (fun k => k hh.1) (fun k => hh.2 k)
    have hbuf' : ¬ (!bufOk s.u 0 (bufOf p 16)) = true := by simp [hbuf]
    obtain ⟨y, z, hset⟩ := setOther_frame (loadingFw s.u.fw mb x (bufOf p 16).len (sliceZ p 32 48)) { otherBank s.u.fw with
      valid := false, data := some x }
    refine ⟨{ s with u := await mb { s.u with
        fw := setOther (loadingFw s.u.fw mb x (bufOf p 16).len (sliceZ p 32 48)) { otherBank s.u.fw with valid := false, data := some x }
        svc := journalAdd 6 (leBytes 1 (1 - (setOther (loadingFw s.u.fw mb x (bufOf p 16).len (sliceZ p 32 48)) { otherBank s.u.fw with
          valid := false, data := some x }).bank)) true true s.u.svc } }, ?_, awaits_of_heard rfl h rfl, ?_, ?_, ?_, ?_, ?_, ?_, rfl⟩
    · refine (next_of_heardS h).trans ?_
      simp only [if_neg hgo1, if_neg hgo2, if_neg hbuf', hread]
      rfl
    · exact (congrArg Fw.updState hset :)
    · exact (congrArg FwImg.valid (otherBank_setOther _ _) :)
    · exact (congrArg FwImg.data (otherBank_setOther _ _) :)
    · exact (congrArg Fw.loading hset :)
    · exact (congrArg Fw.run hset :)
    · exact (congrArg Fw.bank hset :)
  case busy =>
    intro s mb p d h hst
    refine (next_of_heardS h).trans ?_
    simp only [if_pos (show s.u.fw.updState = 1 ∨ s.u.fw.updState = 3 ∨ s.u.fw.loading.isSome = true from
      hst.imp_right .inl)]
    rfl
  case staged =>
    intro s n i st hl haw hstage
    obtain ⟨v, hfw, hmbx, -, hrun⟩ := updStateStaged_stored s.asm hl
    have hrun := hrun rfl (by rw [hfw, hstage]; decide)
    generalize hv' : ({ v with
      fw := setOther { v.fw with bankTorn := false } i
      svc := journalAdd 7 (leBytes 1 (1 - s.u.fw.bank)) true true v.svc } : Units) = v' at hrun
    have hfw' : v'.fw = setOther { v.fw with bankTorn := false } i := by rw [← hv']
    have hmbx' : v'.mbx = s.u.mbx := by rw [← hv']; exact hmbx
    obtain ⟨m, hm⟩ := answerWaiting_frame (some n) (ok (leBytes 4 i.ver ++ leBytes 2 i.svn)) v'
    obtain ⟨x, y, hset⟩ := setOther_frame { v.fw with bankTorn := false } i
    have hans := answered_of_waiting (t := { s with u := answerWaiting (some n) (ok (leBytes 4 i.ver ++ leBytes 2 i.svn)) v' }) rfl haw hmbx'
    have hother := otherBank_setOther { v.fw with bankTorn := false } i
    rw [← hfw'] at hother hset
    refine ⟨_, next_of_units (f := updStateStaged s.asm .ok) hrun, hans, rfl, rfl, ?_, ?_, ?_, ?_, rfl, rfl⟩ <;> rw [hm]
    · exact hother
    · exact (congrArg Fw.loading hset).trans (congrArg Fw.loading hfw)
    · exact (congrArg Fw.bankTorn hset :)
    · exact (congrArg Fw.run hfw) ▸ (congrArg Fw.run hset :)
  case failed =>
    intro s n r st i hl hr haw
    obtain ⟨v, hfw, hmbx, hrun, -⟩ := updStateStaged_stored s.asm hl
    have hans := answered_of_waiting (t := { s with u := loadFail n r st v }) rfl haw hmbx
    obtain ⟨m, hm⟩ := answerWaiting_frame (some n) (bad st 4 0xFFFF r) { v with fw := { v.fw with updState := 0, updResult := r } }
    refine ⟨_, next_of_units (f := updStateStaged s.asm .ok) (hrun hr), hans, ?_, ?_, ?_, ?_, rfl, rfl⟩ <;> rw [loadFail, hm]
    · exact (congrArg Fw.loading hfw :)
    · exact (congrArg Fw.run hfw :)
  case activate =>
    intro s mb p h hst
    refine next_of_answer h ?_
    simp only [if_neg (not_not_intro hst)]
  case notStaged =>
    intro s mb p h hst
    refine next_of_answer h ?_
    simp only [if_pos hst]
    rfl
  case bootCfg =>
    intro s mb p h hlt
    refine ⟨_, next_of_answer h (if_neg (Nat.not_le.mpr hlt)), answered_of_heard rfl h rfl, rfl, ?_, rfl⟩
    exact List.length_append ..
  case watchdog =>
    intro s mb p r h hrole hpos hle hr
    refine next_of_answer h ?_
    simp only [if_neg (Nat.not_lt.mpr hrole), tupd, hr]
    exact if_neg (by omega)
  case trace =>
    intro s mb p h hvis hlo hle hhi hone
    refine next_of_answer h ?_
    have hlo' : (decide (0x2000 ≤ le p 0 2) && decide (le p 0 2 ≤ 0x2FFF)) = true := by simp; omega
    have hhi' : (decide (0x2000 ≤ le p 2 2) && decide (le p 2 2 ≤ 0x2FFF)) = true := by simp; omega
    simp only [if_neg (Nat.not_lt.mpr hvis), hlo', hhi', Bool.not_true, Bool.false_eq_true, if_false, false_or,
      if_neg (Nat.not_lt.mpr hle), hone, Nat.lt_irrefl, if_true]
  case hidden =>
    intro s mb p h hvis
    refine next_of_answer h ?_
    simp only [if_pos hvis]
    rfl
  case fuse =>
    intro s mb p h hop hslot hserial hkey hsig hsvn
    refine next_of_answer h ?_
    have hgo1 : ¬ (le p 0 1 ≠ 1 ∧ le p 0 1 ≠ 2) := by simp [hop]
    have hgo2 : ¬ (le p 0 1 = 2 ∧ 3 < le p 2 2) := by simp [hop]
    have hgo3 : ¬ (le p 8 8 ≠ s.asm.serial ∨ (!keyOk s.u.fw (le p 1 1) (sliceZ p 16 96)) = true ∨
        (!ecdsaVerify (sliceZ p 16 96) (sliceZ p 112 96) (sha384 (sliceZ p 0 16))) = true) := by
      rw [hkey, hsig]
      simp [hserial]
    have hgo4 : ¬ (le p 0 1 = 2 ∧ le p 2 2 = s.u.fw.run.keyIdx ∨ le p 0 1 = 1 ∧ s.u.fw.run.svn < le p 2 2) := by omega
    simp only [if_neg hgo1, if_neg (Nat.not_lt.mpr hslot), if_neg hgo2, if_neg hgo3, if_neg hgo4, if_pos hop]
  case stranger =>
    intro s mb p h hop hslot hserial
    refine next_of_answer h ?_
    have hgo1 : ¬ (le p 0 1 ≠ 1 ∧ le p 0 1 ≠ 2) := by omega
    have hgo2 : ¬ (le p 0 1 = 2 ∧ 3 < le p 2 2) := by omega
    simp only [if_neg hgo1, if_neg (Nat.not_lt.mpr hslot), if_neg hgo2]
    exact if_pos (.inl hserial)
  case logHidden =>
    intro s mb p i h hvis
    refine (next_of_heardS h).trans ?_
    simp only [if_pos hvis]
    rfl
  case logOne =>
    intro s mb p c g i a d h hvis hone hbuf hs hup hq hw hroom hflt ha hd
    obtain ⟨v, hpop, hout, hmbx⟩ := popInto_one (inst := 1) (mb := mb) (b := bufOf p 16) hq hw hroom ha hd hs hup hflt
    refine ⟨{ s with q := qPut s.q 1 (qEcc g (ones8 a) (ones8 d)), u := answer mb (ok (leBytes 2 1)) v }, ?_,
      answered_of_heard rfl h hmbx, rfl, hout, rfl⟩
    refine (next_of_heardS h).trans ?_
    simp only [if_neg hvis, hbuf, Bool.not_true, Bool.false_eq_true, if_false, hone, hpop, if_true]
    rfl
  case logNone =>
    intro s mb p i h hvis hpos hle hbuf hq
    refine (next_of_heardS h).trans ?_
    have hk : ¬ (le p 0 2 = 0 ∨ 512 < le p 0 2) := by omega
    simp only [if_neg hvis, if_neg hk, hbuf, Bool.not_true, Bool.false_eq_true, if_false, popInto_none (inst := 1) hq, if_true]
    rfl
  case queueOne =>
    intro s mb p c g i a d h htwo hone hbuf hs hup hq hw hroom hflt ha hd
    obtain ⟨v, hpop, hout, hmbx⟩ := popInto_one (inst := 2) (mb := mb) (b := bufOf p 16) hq hw hroom ha hd hs hup hflt
    have hk : ¬ (le p 0 1 ≠ 1 ∧ le p 0 1 ≠ 2) := by omega
    have hk' : ¬ (le p 0 1 = 1 ∧ s.u.fw.vis = 0) := by omega
    have hk'' : ¬ le p 0 1 = 1 := by omega
    refine ⟨{ s with
      q := qPut s.q 2 (qEcc g (ones8 a) (ones8 d))
      u := answer mb (ok ([s.u.prodF.lost, s.q.fab.flushed, s.q.fab.rewound, s.q.fab.parErr, s.q.fab.eccCorr, s.q.fab.eccUnc].flatMap le8
        ++ leBytes 2 1)) v }, ?_, answered_of_heard rfl h hmbx, rfl, hout, rfl⟩
    refine (next_of_heardS h).trans ?_
    simp only [if_neg hk, if_neg hk', if_neg hk'', hbuf, Bool.not_true, Bool.false_eq_true, if_false, hone, hpop, if_true]
    rfl

end Sys2Proof.Machine
end

section
/-! PROOFS. Boot, watchdogs and live update (11). -/
namespace Sys2Proof.Machine

variable {s : State} {u v w : Units}

/- The journal at a boot (R446, R448). -/
theorem journalRead_nil (j : List JRec) : journalRead [] j = j := by
  refine (List.map_congr_left fun r _ => ?_).trans (List.map_id j)
  simp [id]

/-- A journal that speaks neither of the boot word nor of a bank. -/
def Silent (j : List JRec) : Prop := ∀ r, r ∈ j → r.type < 5 ∨ 8 < r.type

theorem tornBanks_silent {l : List JRec} (h : Silent l) : tornBanks l = [] := by
  suffices ∀ t, l.foldl (fun t r =>
      let k := le r.payload 0 1 % 2
      if r.type = 6 then t.filter (· != k) ++ [k] else if r.type = 7 then t.filter (· != k) else t) t = t from this []
  induction l with
  | nil => exact fun t => rfl
  | cons r l ih =>
    intro t
    have hr := h r List.mem_cons_self
    rw [List.foldl_cons]
    dsimp only
    rw [if_neg (by omega), if_neg (by omega)]
    exact ih (fun x hx => h x (List.mem_cons_of_mem _ hx)) t

/-- What a boot keeps of the reset state until it has chosen its firmware. -/
def BootFrame (u v : Units) : Prop :=
  v.fw = u.fw ∧ v.pins.strap = u.pins.strap ∧ v.mbx = u.mbx ∧ v.ctx = u.ctx
theorem BootFrame.refl (u : Units) : BootFrame u u := ⟨rfl, rfl, rfl, rfl⟩
theorem BootFrame.trans (h : BootFrame u v) (h' : BootFrame v w) : BootFrame u w := by
  obtain ⟨hfw, hpins, hmbx, hctx⟩ := h
  obtain ⟨hfw', hpins', hmbx', hctx'⟩ := h'
  exact ⟨hfw'.trans hfw, hpins'.trans hpins, hmbx'.trans hmbx, hctx'.trans hctx⟩
theorem bootFrame_notice (h : noticeFrame u v) : BootFrame u v := by
  obtain ⟨-, hfw, -, hmbx, -, -, -, -, -, -, hctx, -, -, -, hpins, -⟩ := noticeFrame_keeps h
  exact ⟨hfw, by rw [hpins], hmbx, hctx⟩
theorem bootFrame_svc (x : Svc) (u : Units) : BootFrame u { u with svc := x } := ⟨rfl, rfl, rfl, rfl⟩

theorem journalApply_silent {r : JRec} (h : r.type < 5 ∨ 8 < r.type) (u : Units) : BootFrame u (journalApply r u) := by
  unfold journalApply
  dsimp only
  split
  · exact bootFrame_svc _ u
  · omega
  · omega
  · omega
  · omega
  · exact BootFrame.refl u
theorem forAll_boot {α : Type} (l : List α) {f : α → Units → Units} (hf : ∀ a, a ∈ l → ∀ u, BootFrame u (f a u)) (u : Units) :
    BootFrame u (forAll l f u) := by
  induction l generalizing u with
  | nil => exact BootFrame.refl u
  | cons a l ih =>
    exact (hf a List.mem_cons_self u).trans (ih (fun x hx => hf x (List.mem_cons_of_mem _ hx)) _)

theorem journalResolve_silent (h : Silent u.svc.journal) : BootFrame u (journalResolve [] u) := by
  have hgood : ∀ r, r ∈ journalRead [] (u.svc.journal.filter (fun r => r.type != 0x0A)) → r.type < 5 ∨ 8 < r.type := by
    intro r hr
    rw [journalRead_nil] at hr
    exact h r (List.mem_filter.mp hr).1
  unfold journalResolve
  dsimp only
  generalize journalRead [] (u.svc.journal.filter (fun r => r.type != 0x0A)) = j at hgood ⊢
  generalize (j.filter (fun r => r.c0 && r.c1)).foldl (fun m r => max m (r.seq + 1)) 0 = top
  generalize hg : j.filter (fun r => (r.c0 || r.c1) && decide (r.seq < top)) = good
  have hsilent : Silent good := fun r hr => hgood r (by rw [← hg] at hr; exact (List.mem_filter.mp hr).1)
  rw [tornBanks_silent hsilent]
  generalize hv : forAll good journalApply _ = v
  have hframe : BootFrame u v := by
    rw [← hv]
    exact (bootFrame_svc _ u).trans (forAll_boot good (fun r hr => journalApply_silent (hsilent r hr)) _)
  have hbanks : BootFrame u { v with fw := { v.fw with
      bankA := { v.fw.bankA with valid := v.fw.bankA.valid && !([] : List Nat).contains 0 }
      bankB := { v.fw.bankB with valid := v.fw.bankB.valid && !([] : List Nat).contains 1 } } } := by
    refine hframe.trans ⟨?_, rfl, rfl, rfl⟩
    simp
  generalize hx : forAll _ _ (forAll _ _ _) = x
  have hnoted : BootFrame u x := by
    rw [← hx]
    exact hbanks.trans ((forAll_boot _ (fun r _ w => bootFrame_notice (fwNotice_frame ..)) _).trans
      (forAll_boot _ (fun r _ w => bootFrame_notice (fwNotice_frame ..)) _))
  split
  · exact hnoted
  · refine BootFrame.trans ?_ (bootFrame_notice (fwNotice_frame ..))
    exact hnoted.trans ⟨rfl, rfl, rfl, rfl⟩

/- The control cores at a boot (R319). -/
theorem bootCores_none (a : Asm) (h : u.fw.badCores = []) : bootCores a [] u = u := by
  refine forAll_keeps (fun v => v = u) _ _ u rfl fun r v hv => ?_
  rw [hv, h]
  rfl

/- The repairs and the calibration at a boot (R435, R444). -/
theorem applyRepair_frame (u : Units) : BootFrame u (applyRepair u) := by
  refine forAll_keeps (BootFrame u) _ _ u (BootFrame.refl u) fun r v hv => hv.trans ?_
  dsimp only
  split
  · split
    · exact BootFrame.refl v
    · exact ⟨rfl, rfl, rfl, rfl⟩
  · exact ⟨rfl, rfl, rfl, rfl⟩
  · exact ⟨rfl, rfl, rfl, rfl⟩
  · exact BootFrame.refl v
theorem trayService_boot (c : Nat) (u : Units) : BootFrame u (trayService c u) :=
  BootFrame.trans (v := { u with svc := { u.svc with causes := (trayService c u).svc.causes } }) ⟨rfl, rfl, rfl, rfl⟩
    (bootFrame_notice (trayService_frame c u))
theorem calBoot_frame (cal0 cal1 : Bool) (u : Units) :
    BootFrame { u with fw := { u.fw with calOk := cal0 || cal1 } } (calBoot cal0 cal1 u) := by
  unfold calBoot
  dsimp only
  have hnote : ∀ v : Units, BootFrame v (if (!cal0 && cal1) = true then fwNotice 8 0x0A09 0 [1] v else v) := by
    intro v
    split
    · exact bootFrame_notice (fwNotice_frame ..)
    · exact BootFrame.refl v
  split
  · exact (hnote _).trans (trayService_boot ..)
  · exact hnote _

/- The bank that a boot takes (R326, R327). -/
theorem chooseBoot_bank (serial : Nat) (net : List NetIn) {d : BankDamage} (hcfg : bitAt u.fw.bootCfg 3 = false) (hbank : u.fw.bank = 0)
    (hok : bankFail u.fw d 0 u.fw.bankA = 0) : chooseBoot serial net d u = bootImage 0 u.fw.bankA u := by
  have hb : bankBoot d u = (bootImage 0 u.fw.bankA u, true) := by
    simp only [bankBoot, hbank, if_true, hok]
  simp only [chooseBoot, hcfg, Bool.and_false, Bool.false_eq_true, if_false, hb, if_true]
theorem bankFail_invalid {f : Fw} {b : FwImg} (d : BankDamage) (k : Nat) (h : b.valid = false) : bankFail f d k b = 1 := by
  simp only [bankFail, h, Bool.not_false, if_true]
theorem chooseBoot_none (serial : Nat) (net : List NetIn) (d : BankDamage) (hcfg : bitAt u.fw.bootCfg 2 = false)
    (ha : u.fw.bankA.valid = false) (hb : u.fw.bankB.valid = false) :
    chooseBoot serial net d u = { u with fw := { u.fw with stage := 5 } } := by
  have hother : (otherBank u.fw).valid = false := by
    unfold otherBank
    split
    · exact hb
    · exact ha
  have hact : (if u.fw.bank = 0 then u.fw.bankA else u.fw.bankB).valid = false := by
    split
    · exact ha
    · exact hb
  have hboot : bankBoot d u = (u, false) := by
    simp only [bankBoot, bankFail_invalid d _ hact, bankFail_invalid d _ hother]
    rfl
  simp only [chooseBoot, hcfg, Bool.false_and, Bool.false_eq_true, if_false, hboot]

/- A release of reset (R325). -/
/-- The units that a release begins with: those of reset, power good and the pins as sampled. -/
def releasedUnits (u : Units) (b : BootIn) : Units :=
  { resetUnits u with
    pins := { (resetUnits u).pins with
      pwrGood := true, strap := b.strap, gpio := (List.range 16).map (fun n => (n, ({ next := some 0 } : Gpio))) } }

/-- The block with the boot word of its journal in force. -/
def bootWord (v : Units) : Units :=
  { v with fw := { v.fw with bootCfg := bootNorm v.fw.bootCfgNext, updResult := if v.fw.bankTorn then 0x0A else 0 } }

/-- The end of a boot that has chosen what to run. -/
def bootEnd (b : BootIn) (x : Units) : Units := if x.fw.stage = 5 then x else calBoot b.cal0 b.cal1 (applyRepair x)

/-- The block once the journal is read, before a bank is chosen. -/
theorem execResetRelease_powerOn (b : BootIn) (hpow : b.powerOn = true) (hbad : b.badCores = []) (hcores : s.u.fw.badCores = [])
    (hjb : b.journalBad = []) (hj : Silent s.u.svc.journal) (hgone : journalGone [] s.u = false) :
    ∃ v, BootFrame (releasedUnits s.u b) v ∧ execResetRelease b s =
      .next { resetState s with u := bootEnd b (chooseBoot s.asm.serial b.net b.bankRead (bootWord v)) } := by
  have hstore : storeLost [] (releasedUnits s.u b) = releasedUnits s.u b := by
    unfold storeLost
    exact if_neg (by rw [show journalGone [] (releasedUnits s.u b) = journalGone [] s.u from rfl, hgone]; decide)
  have hv := journalResolve_silent (u := releasedUnits s.u b) hj
  have hfw := hv.1
  have hcore : bootCores s.asm [] (journalResolve [] (releasedUnits s.u b)) = journalResolve [] (releasedUnits s.u b) :=
    bootCores_none s.asm (by rw [hfw]; exact hcores)
  refine ⟨journalResolve [] (releasedUnits s.u b), hv, ?_⟩
  have hgo : ¬ ((s.u.blk.powerLow && !b.powerOn) = true ∨
      (!(b.powerOn || s.u.blk.resetLow || s.u.blk.shutdown || s.u.fw.stage == 0)) = true) := by simp [hpow]
  rw [execResetRelease]
  dsimp only
  rw [if_neg hgo, hbad, hjb, List.map_nil]
  exact congrArg (fun x => Host.Outcome.next ({ resetState s with
      u := bootEnd b (chooseBoot s.asm.serial b.net b.bankRead (bootWord x)) } : State))
    ((congrArg (fun y => bootCores s.asm [] (journalResolve [] y)) hstore).trans hcore)

theorem bootEnd_frame (b : BootIn) {x : Units} (h : x.fw.stage ≠ 5) :
    ∃ c, BootFrame { x with fw := { x.fw with calOk := c } } (bootEnd b x) := by
  obtain ⟨hfw, hpins, hmbx, hctx⟩ := applyRepair_frame x
  obtain ⟨hfw', hpins', hmbx', hctx'⟩ := calBoot_frame b.cal0 b.cal1 (applyRepair x)
  rw [bootEnd, if_neg h]
  refine ⟨b.cal0 || b.cal1, hfw'.trans ?_, hpins'.trans hpins, hmbx'.trans hmbx, hctx'.trans hctx⟩
  exact congrArg (fun f : Fw => { f with calOk := b.cal0 || b.cal1 }) hfw

/- Watchdogs (R315 to R317). -/
/-- A role that missed its kicks, once it is restarted. -/
def expiredRole (u : Units) (x : Role) : Role :=
  { voidHalf x with state := 1, restarts := satN 16 (x.restarts + 1), lastExpiry := some u.tick.time }

/-- The block once role `r` has expired, before what follows of its core or of the mailboxes. -/
def expiredUnits (u : Units) (r : Nat) (x : Role) : Units :=
  notice (dieKey 3 (x.core / 6)) 0x0B01 0 [r, physCtl x.core, satN 16 (x.restarts + 1)]
    (dieBump (dieKey 3 (x.core / 6)) 0x304 1 { u with fw := { u.fw with
      roles := tset u.fw.roles r (expiredRole u x)
      upd := u.fw.upd.map (fun w => if w.stage = 0 then w else { w with expired := true }) } })

theorem expiredUnits_frame (u : Units) (r : Nat) (x : Role) :
    (expiredUnits u r x).fw = { u.fw with
      roles := tset u.fw.roles r (expiredRole u x)
      upd := u.fw.upd.map (fun w => if w.stage = 0 then w else { w with expired := true }) } ∧
    (expiredUnits u r x).tick = u.tick ∧ (expiredUnits u r x).mbx = u.mbx ∧
    (expiredUnits u r x).prodN = (notice (dieKey 3 (x.core / 6)) 0x0B01 0 [r, physCtl x.core, satN 16 (x.restarts + 1)] u).prodN := by
  obtain ⟨d, hd⟩ := dieBump_frame (dieKey 3 (x.core / 6)) 0x304 1 { u with fw := { u.fw with
      roles := tset u.fw.roles r (expiredRole u x)
      upd := u.fw.upd.map (fun w => if w.stage = 0 then w else { w with expired := true }) } }
  obtain ⟨htick, hfw, -, hmbx, -⟩ := noticeFrame_keeps (notice_frame (dieKey 3 (x.core / 6)) 0x0B01 0
    [r, physCtl x.core, satN 16 (x.restarts + 1)] (dieBump (dieKey 3 (x.core / 6)) 0x304 1 { u with fw := { u.fw with
      roles := tset u.fw.roles r (expiredRole u x)
      upd := u.fw.upd.map (fun w => if w.stage = 0 then w else { w with expired := true }) } }))
  refine ⟨hfw.trans (by rw [hd]), htick.trans (by rw [hd]), hmbx.trans (by rw [hd]), ?_⟩
  rw [expiredUnits, notice_prodN, notice_prodN, hd]

theorem expire_idle {a : Asm} {r : Nat} {x : Role} (ok : Bool) (hx : tget u.fw.roles r = some x) (h : kicksMissed u x = false) :
    expire a r ok u = u := by
  simp only [expire, tgetD_of_tget hx]
  exact if_pos (.inr (.inr (.inr (by rw [h]; rfl))))

theorem expire_due {a : Asm} {r : Nat} {x : Role} (ok : Bool) (hup : isUp u = true) (hst : u.fw.stage = 4)
    (hx : tget u.fw.roles r = some x) (hin : x.state ≠ 2) (hmiss : kicksMissed u x = true)
    (hone : ok = false ∨ x.lastExpiry = none) :
    expire a r ok u = (fun v => if ok then v else roleMove a r 6 true v)
      (if r = 9 then mbxStops (expiredUnits u r x) else expiredUnits u r x) := by
  have hgo : ¬ ((!isUp u) = true ∨ (u.fw.stage ≠ 3 ∧ u.fw.stage ≠ 4) ∨ x.state = 2 ∨ (!kicksMissed u x) = true) := by
    simp [hup, hst, hin, hmiss]
  simp only [expire, tgetD_of_tget hx, if_neg hgo]
  rcases hone with rfl | hlast
  · simp only [Bool.not_false, if_true, Bool.false_eq_true, if_false]
    rfl
  · simp only [hlast, Bool.false_eq_true, if_false]
    cases ok <;> rfl

/-- Of the ten roles only the one that the expiry names acts. -/
theorem watchdogExpiry_one (a : Asm) (r : Fin 10) (ok : Bool) (u : Units) :
    watchdogExpiry a r { selfTestOk := ok } u = expire a r ok u := by
  match r with
  | 0 => rfl
  | 1 => rfl
  | 2 => rfl
  | 3 => rfl
  | 4 => rfl
  | 5 => rfl
  | 6 => rfl
  | 7 => rfl
  | 8 => rfl
  | 9 => rfl

theorem mbxStops_up (h : u.fw.mbxUp = true) : mbxStops u = { u with
    fw := { u.fw with mbxUp := false }
    tick := { u.tick with admitHold := true }
    mbx := tmap u.mbx (fun _ m => if m.phase = .begun then { m with phase := .rung } else m) } :=
  if_neg (by rw [h]; decide)

theorem voidHalf_frame (x : Role) : (voidHalf x).core = x.core ∧ (voidHalf x).moves = x.moves := by
  unfold voidHalf
  split <;> exact ⟨rfl, rfl⟩

/-- A command begun on a mailbox that stops waits again. -/
theorem phase_rung {t : Tbl Mbx} {n : Nat} (h : (tgetD t n {}).phase = .begun) :
    (tgetD (tmap t (fun _ m => if m.phase = .begun then { m with phase := .rung } else m)) n {}).phase = .rung := by
  cases hget : tget t n with
  | none =>
    rw [tgetD, hget] at h
    cases h
  | some m =>
    rw [tgetD_of_tget hget] at h
    rw [tgetD, tget_tmap, hget, Option.map_some, if_pos h]
    rfl

theorem notice_fw (prod code c : Nat) (args : List Nat) (u : Units) : (notice prod code c args u).fw = u.fw := by
  obtain ⟨-, hfw, -⟩ := noticeFrame_keeps (notice_frame prod code c args u)
  exact hfw

theorem roleMove_spare {a : Asm} {r reason c : Nat} {x : Role} (failed : Bool) (hx : tgetD u.fw.roles r {} = x)
    (hc : freeSpare u.fw (x.core / 6) = some c) :
    (roleMove a r reason failed u).fw = { u.fw with
      badCores := u.fw.badCores ++ [x.core]
      roles := tset u.fw.roles r { x with core := c, moves := satN 8 (x.moves + 1), lastExpiry := none } } := by
  simp only [roleMove, hx, hc]
  exact notice_fw ..

/- Live update (R330 to R334). -/
/-- A hand-off record that is adopted passes every check of R334. -/
theorem handAdopted_checks {i : FwImg} {h : Hand} {c : List (Nat × Nat)} (hok : handAdopted i h c = true) :
    le h.head 0 4 = 0x4F464448 ∧ i.hoMin ≤ le h.head 4 2 ∧ le h.head 4 2 ≤ i.hoOut ∧
      crc32c (patch (sliceZ h.head 0 (128 + 32 * le h.head 6 2)) 24 (leBytes 4 0)) = le h.head 24 4 ∧
      ∀ e, e ∈ handEntries h.head → crc32c (tgetD h.secs e.1 []) = e.2.2.2 ∧
        (e.2.2.1 = true → sectionAdopted c e.1 e.2.1 = true) := by
  unfold handAdopted at hok
  simp only [Bool.and_eq_true, beq_iff_eq, decide_eq_true_eq, List.all_eq_true, Bool.or_eq_true, Bool.not_eq_true'] at hok
  obtain ⟨⟨⟨⟨⟨hmagic, hcrc⟩, hsecs⟩, hmin⟩, hmax⟩, hadopt⟩ := hok
  refine ⟨hmagic, hmin, hmax, hcrc, fun e he => ⟨hsecs e he, fun hreq => ?_⟩⟩
  rcases hadopt e he with h | h
  · rw [hreq] at h
    cases h
  · exact h

/-- What the aborts of tempering runs leave as it is. -/
def AbortFrame (u v : Units) : Prop := v.fw = u.fw ∧ v.tick = u.tick ∧ v.svc = u.svc
theorem abortFrame_notice (h : noticeFrame u v) : AbortFrame u v := by
  obtain ⟨htick, hfw, hsvc, -⟩ := noticeFrame_keeps h
  exact ⟨hfw, htick, hsvc⟩
theorem AbortFrame.trans (h : AbortFrame u v) (h' : AbortFrame v w) : AbortFrame u w := by
  obtain ⟨ha, hb, hc⟩ := h
  obtain ⟨ha', hb', hc'⟩ := h'
  exact ⟨ha'.trans ha, hb'.trans hb, hc'.trans hc⟩
theorem temperAborted_frame (run cause : Nat) (u : Units) : AbortFrame u (temperAborted run cause u) ∧
    (temperAborted run cause u).temper = tset u.temper run {} := by
  obtain ⟨-, -, -, -, -, -, -, -, -, -, -, -, htemper, -⟩ := noticeFrame_keeps (fwNotice_frame 8 0x0982 0
    [run, cause, (tgetD u.temper run {}).done] { u with temper := tset u.temper run {} })
  refine ⟨AbortFrame.trans (v := { u with temper := tset u.temper run {} }) ⟨rfl, rfl, rfl⟩ ?_, htemper⟩
  exact abortFrame_notice (fwNotice_frame ..)

/-- Every tempering run aborted that is not idle. -/
def abortRun (run : Nat) (u : Units) : Units := if (tgetD u.temper run {}).state = 0 then u else temperAborted run 6 u

theorem abortRun_frame (run : Nat) (u : Units) : AbortFrame u (abortRun run u) := by
  unfold abortRun
  split
  · exact ⟨rfl, rfl, rfl⟩
  · exact (temperAborted_frame ..).1
theorem abortRun_idle (run k : Nat) (u : Units) (h : k = run ∨ (tgetD u.temper k {}).state = 0) :
    (tgetD (abortRun run u).temper k {}).state = 0 := by
  unfold abortRun
  split
  · next h0 => exact h.elim (fun he => he ▸ h0) id
  · rw [(temperAborted_frame ..).2]
    by_cases hk : k = run
    · subst hk
      rw [tgetD_tset_self]
    · rw [tgetD_tset_other _ _ _ hk]
      exact h.resolve_left hk
theorem abortRuns_idle (l : List Nat) (k : Nat) (u : Units) (h : k ∈ l ∨ (tgetD u.temper k {}).state = 0) :
    (tgetD (forAll l abortRun u).temper k {}).state = 0 := by
  induction l generalizing u with
  | nil => exact h.resolve_left List.not_mem_nil
  | cons r l ih =>
    refine ih _ ?_
    rcases h with h | h
    · rcases List.mem_cons.mp h with rfl | hl
      · exact .inr (abortRun_idle k k u (.inl rfl))
      · exact .inl hl
    · exact .inr (abortRun_idle r k u (.inr h))

theorem sectionsLost_frame (w : Update) (u : Units) :
    (sectionsLost w u).fw = { u.fw with traces := if w.ignored.contains 0xC then [] else u.fw.traces } ∧
    (sectionsLost w u).tick = u.tick ∧ (sectionsLost w u).svc = u.svc ∧
    (0xB ∉ w.ignored → (sectionsLost w u).temper = u.temper) ∧
    (0xB ∈ w.ignored → ∀ run, (tgetD (sectionsLost w u).temper run {}).state = 0) := by
  let v : Units := if w.ignored.contains 0xC then { u with fw := { u.fw with traces := [] } } else u
  have hv : v.fw = { u.fw with traces := if w.ignored.contains 0xC then [] else u.fw.traces } ∧ v.tick = u.tick ∧ v.svc = u.svc ∧
      v.temper = u.temper := by
    by_cases hC : w.ignored.contains 0xC = true
    · have hpos : v = { u with fw := { u.fw with traces := [] } } := if_pos hC
      rw [hpos, if_pos hC]
      exact ⟨rfl, rfl, rfl, rfl⟩
    · have hneg : v = u := if_neg hC
      rw [hneg, if_neg hC]
      exact ⟨rfl, rfl, rfl, rfl⟩
  obtain ⟨hfw, htick, hsvc, htemper⟩ := hv
  have hrun : sectionsLost w u = if w.ignored.contains 0xB then forAll (tkeys v.temper) abortRun v else v := rfl
  by_cases hB : 0xB ∈ w.ignored
  · rw [if_pos (List.contains_iff_mem.mpr hB)] at hrun
    obtain ⟨hf, ht, hs⟩ := forAll_keeps (AbortFrame v) (tkeys v.temper) abortRun v ⟨rfl, rfl, rfl⟩
      fun r x hx => hx.trans (abortRun_frame r x)
    rw [hrun]
    refine ⟨hf.trans hfw, ht.trans htick, hs.trans hsvc, fun h => absurd hB h, fun _ k => abortRuns_idle _ k v ?_⟩
    by_cases hk : k ∈ tkeys v.temper
    · exact .inl hk
    · right
      cases hget : tget v.temper k with
      | none => rw [tgetD, hget]; rfl
      | some a => exact absurd (List.mem_map.mpr ⟨_, tget_mem hget, rfl⟩) hk
  · rw [if_neg (fun h => hB (List.contains_iff_mem.mp h))] at hrun
    rw [hrun]
    exact ⟨hfw, htick, hsvc, fun _ => htemper, fun h => absurd h hB⟩

/-- The block once an update is done, but for the sections lost (R333). -/
def updatedUnits (u : Units) : Units :=
  { u with
    fw := { u.fw with
      bank := 1 - u.fw.bank, upd := none, updState := 0, updResult := 1, staged := none, rolled := false
      mbxUp := (tgetD u.fw.roles 9 {}).state == 0 }
    tick := { u.tick with admitHold := (tgetD u.fw.roles 9 {}).state != 0 }
    svc := journalAdd 8 (leBytes 1 (1 - u.fw.bank)) true true u.svc }

/-- Settles O55: a boot takes what its banks give, an expiry restarts its one role, and an update goes the steps of its stage. -/
theorem bootWatchdogsAndUpdate : Obligations.BootWatchdogsAndUpdate := by
  refine ⟨?boot, ?recovery, ?low, ?ready, ?notReady, ?expiry, ?kicked, ?mbxExpiry, ?moved, ?restored, ?mbxUp, ?notEdge, ?quiet, ?unquiet,
    ?switch, fun i h c hok => handAdopted_checks hok, ?done, ?refused, ?rolled⟩
  case boot =>
    intro s b hpow hbad hcores hbank hjb hj hok hcfg hgone
    obtain ⟨v, ⟨hfw, hstrap, hmbx, hctx⟩, hrun⟩ := execResetRelease_powerOn b hpow hbad hcores hjb hj hgone
    rw [chooseBoot_bank (u := bootWord v) _ _ (by rw [bootWord, hfw]; exact hcfg) (by rw [bootWord, hfw]; exact hbank)
      (by rw [bootWord, hfw]; exact hok)] at hrun
    obtain ⟨c, hfw', hstrap', hmbx', hctx'⟩ := bootEnd_frame b (x := bootImage 0 (bootWord v).fw.bankA (bootWord v))
      (show (3 : Nat) ≠ 5 by decide)
    refine ⟨_, hrun, (congrArg Fw.stage hfw' :), ?_, (congrArg Fw.bank hfw' :), hstrap'.trans hstrap, ?_, hmbx'.trans hmbx,
      hctx'.trans hctx, rfl, rfl⟩
    · refine (congrArg Fw.run hfw').trans ?_
      exact (congrArg Fw.bankA hfw :)
    · refine (congrArg Fw.bootCfg hfw').trans ?_
      exact (congrArg (fun f : Fw => bootNorm f.bootCfgNext) hfw :)
  case recovery =>
    intro s b hpow hbad hcores hjb hj ha hb hcfg hgone
    obtain ⟨v, ⟨hfw, -⟩, hrun⟩ := execResetRelease_powerOn b hpow hbad hcores hjb hj hgone
    rw [chooseBoot_none (u := bootWord v) _ _ _ (by rw [bootWord, hfw]; exact hcfg) (by rw [bootWord, hfw]; exact ha)
      (by rw [bootWord, hfw]; exact hb), bootEnd, if_pos rfl] at hrun
    exact ⟨_, hrun, rfl, (congrArg Fw.mbxUp hfw :), rfl, rfl⟩
  case low =>
    intro s b hpow hlow
    exact if_pos (.inl (by rw [hlow, hpow]; rfl))
  case ready =>
    intro s hst hcal
    exact next_of_units (f := bootReady) (if_pos ⟨hst, hcal⟩)
  case notReady =>
    intro s hcal
    exact next_of_units (f := bootReady) (v := s.u) (if_neg (by rw [hcal]; simp))
  case expiry =>
    intro s r x hup hst hx hin hlast hr hmiss
    have hr' : ¬ r.val = 9 := fun h => hr (Fin.ext h)
    have hrun := (watchdogExpiry_one s.asm r true s.u).trans (expire_due true hup hst hx hin hmiss (.inr hlast))
    rw [if_neg hr'] at hrun
    obtain ⟨hfw, htick, -, hprod⟩ := expiredUnits_frame s.u r x
    refine ⟨_, next_of_units (f := watchdogExpiry s.asm r {}) hrun, ?_, (congrArg Fw.mbxUp hfw :), hprod, htick, rfl, rfl⟩
    refine (congrArg (fun f : Fw => tget f.roles r) hfw).trans ?_
    exact tget_tset_self ..
  case kicked =>
    intro s r x hx hmiss
    exact next_of_units (f := watchdogExpiry s.asm r {}) ((watchdogExpiry_one s.asm r true s.u).trans (expire_idle true hx hmiss))
  case mbxExpiry =>
    intro s x hup hst hx hin hlast hmiss hmbx
    have hrun := (watchdogExpiry_one s.asm 9 true s.u).trans (expire_due (r := 9) true hup hst hx hin hmiss (.inr hlast))
    obtain ⟨hfw, htick, hmb, -⟩ := expiredUnits_frame s.u 9 x
    rw [if_pos rfl, mbxStops_up (by rw [hfw]; exact hmbx)] at hrun
    refine ⟨_, next_of_units (f := watchdogExpiry s.asm 9 {}) hrun, ?_, rfl, ?_, ?_, rfl, rfl⟩
    · refine (congrArg (fun f : Fw => (tgetD f.roles 9 {}).state) hfw).trans ?_
      exact congrArg Role.state (tgetD_tset_self ..)
    · exact congrArg (fun t : Tick => { t with admitHold := true }) htick
    · intro n hn
      refine (congrArg (fun t : Tbl Mbx => (tgetD (tmap t fun _ m => if m.phase = .begun then { m with phase := .rung } else m)
        n {}).phase) hmb).trans ?_
      exact phase_rung hn
  case moved =>
    intro s r x c hup hst hx hin hr hmiss hspare
    have hr' : ¬ r.val = 9 := fun h => hr (Fin.ext h)
    have hrun := (watchdogExpiry_one s.asm r false s.u).trans (expire_due false hup hst hx hin hmiss (.inl rfl))
    rw [if_neg hr'] at hrun
    obtain ⟨hfw, -⟩ := expiredUnits_frame s.u r x
    have hmove := roleMove_spare (a := s.asm) (r := r) (reason := 6) (c := c) (x := expiredRole s.u x) (u := expiredUnits s.u r x) true
      (by rw [hfw]; exact tgetD_tset_self ..) (by
        rw [hfw, show (expiredRole s.u x).core = x.core from (voidHalf_frame x).1]
        exact hspare)
    refine ⟨_, next_of_units (f := watchdogExpiry s.asm r { selfTestOk := false }) hrun, ?_, ?_, ?_, rfl, rfl⟩
    · exact (congrArg (fun f : Fw => (tgetD f.roles r {}).core) hmove).trans (congrArg Role.core (tgetD_tset_self ..))
    · refine (congrArg (fun f : Fw => (tgetD f.roles r {}).moves) hmove).trans ((congrArg Role.moves (tgetD_tset_self ..)).trans ?_)
      exact congrArg (fun m => satN 8 (m + 1)) (voidHalf_frame x).2
    · refine (congrArg (fun f : Fw => x.core ∈ f.badCores) hmove).mpr (List.mem_append_right _ ?_)
      exact List.mem_singleton.mpr (voidHalf_frame x).1.symm
  case restored =>
    intro s r us x hx hst
    refine next_of_units (f := roleRestored r us) ?_
    simp only [roleRestored, tgetD_of_tget hx, if_pos hst]
  case mbxUp =>
    intro s hst hdown hrole hupd hrolled hedge
    refine next_of_units (f := mbxUpRestore) ?_
    unfold mbxUpRestore
    simp only [hupd]
    refine if_neg ?_
    rw [hst, hdown, hrole, hedge]
    rcases hrolled with h | h | h <;> simp [h]
  case notEdge =>
    intro s hedge
    refine next_of_units (f := mbxUpRestore) (v := s.u) ?_
    unfold mbxUpRestore
    exact if_pos (.inr (.inr (.inr (.inr (.inr (by rw [hedge]; rfl))))))
  case quiet =>
    intro s w hupd hst hq hrun hroles
    refine next_of_units (f := updateQuietTick) ?_
    have hgo : ¬ (w.stage ≠ 0 ∨ s.u.tick.number ≠ w.q ∨ (!running s.u) = true) := by simp [hst, hq, hrun]
    have hall : ¬ (s.u.fw.roles.any fun r => r.2.state != 0) = true := by simpa using fun a b h => hroles (a, b) h
    simp only [updateQuietTick, hupd, if_neg hgo, if_neg hall]
  case unquiet =>
    intro s w hupd hst hq hrun hrole
    refine next_of_units (f := updateQuietTick) ?_
    obtain ⟨r, hr, hst'⟩ := hrole
    have hgo : ¬ (w.stage ≠ 0 ∨ s.u.tick.number ≠ w.q ∨ (!running s.u) = true) := by simp [hst, hq, hrun]
    have hany : (s.u.fw.roles.any fun r => r.2.state != 0) = true := List.any_eq_true.mpr ⟨r, hr, by simpa using hst'⟩
    simp only [updateQuietTick, hupd, if_neg hgo, if_pos hany]
  case switch =>
    intro s w a b c hupd hst hq
    refine next_of_units (f := updateSwitch a b c) ?_
    have hgo : ¬ (w.stage ≠ 1 ∨ s.u.tick.number ≠ w.q + 1) := by simp [hst, hq]
    simp only [updateSwitch, hupd, if_neg hgo]
  case done =>
    intro s w hupd hst href hexp hcur hfrom hto
    have hgo : ¬ (w.stage ≠ 2 ∨ w.refused = true ∨ w.expired = true ∨ s.u.tick.st ≠ .current ∨ s.u.tick.number < w.q + 2 ∨
        w.q + 4 < s.u.tick.number) := by
      simp [hst, href, hexp, hcur]
      omega
    have hrun : updateDone s.u = fwNotice 0 0x0B05 0 [w.old.ver, s.u.fw.run.ver, w.q, s.u.tick.coastTotal - w.coasted]
        (sectionsLost w (updatedUnits s.u)) := by
      simp only [updateDone, hupd, if_neg hgo]
      rfl
    obtain ⟨hfw, htick, hsvc, hkeep, hlose⟩ := sectionsLost_frame w (updatedUnits s.u)
    obtain ⟨htick', hfw', hsvc', -, -, -, -, -, -, -, -, -, htemper', -⟩ := noticeFrame_keeps (fwNotice_frame 0 0x0B05 0
      [w.old.ver, s.u.fw.run.ver, w.q, s.u.tick.coastTotal - w.coasted] (sectionsLost w (updatedUnits s.u)))
    rw [hfw] at hfw'
    refine ⟨_, next_of_units (f := updateDone) hrun, (congrArg Fw.bank hfw' :), (congrArg Fw.upd hfw' :), (congrArg Fw.updState hfw' :),
      (congrArg Fw.updResult hfw' :), (congrArg Fw.run hfw' :), (congrArg Fw.mbxUp hfw' :), htick'.trans htick, ?_, rfl, rfl,
      fun h => ?_, fun h => ?_, fun h => htemper'.trans (hkeep h), fun h run => ?_⟩
    · refine (congrArg (fun x : Svc => x.journal.length) (hsvc'.trans hsvc)).trans ?_
      exact List.length_append ..
    · exact (congrArg Fw.traces hfw').trans (if_neg fun hc => h (List.contains_iff_mem.mp hc))
    · exact (congrArg Fw.traces hfw').trans (if_pos (List.contains_iff_mem.mpr h))
    · exact (congrArg (fun t : Tbl Temper => (tgetD t run {}).state) htemper').trans (hlose h run)
  case refused =>
    intro s w hupd hst href
    refine next_of_units (f := updateRollback .refused) ?_
    simp [updateRollback, hupd, hst, href]
  case rolled =>
    intro s w hupd hst hexp
    refine next_of_units (f := updateRollback .expiry) ?_
    simp [updateRollback, hupd, hst, hexp]

end Sys2Proof.Machine
end

section
/-! PROOFS. Tempering runs (18, R360). -/
namespace Sys2Proof.Machine

variable {s : State} {u v w : Units}

/- TEMPER_START (R487, R488). -/
/-- The run that a TEMPER_START with payload p gives, its moments at base. -/
def startedRun (s : State) (p : Bytes) (base : Nat) : Temper :=
  let x := slotAt s.u (le p 0 1)
  let d := tdecl (imgTemper x.img x.imgLen)
  let idx := List.range (tparams d)
  let blocks := List.range (ceilDiv (tparams d) 256)
  { state := 1, slot := le p 0 1, share := le p 2 2, steps := le p 4 4, rate := le p 8 4, buf := bufOf p 16
    decl := imgTemper x.img x.imgLen, seed := gmix (Nat.xor x.imageId (le p 1 1 * 2 ^ 56)), first := nextTick s.u + 1
    cores := ((freeOrder s.asm s.u x.dieMask).take (workCores (tparams d))).map (fun k => (k / 16, k % 16))
    master := idx.map (fun i => (i, masterInit x.img x.imgLen d.core0 i))
    qm := idx.map (fun i => (i, 0)), qv := idx.map (fun i => (i, 0)), sm := blocks.map (fun k => (k, 0))
    sv := blocks.map (fun k => (k, 0)), base := base, moments := momentBytes (tparams d) }

theorem temperStart_starts (s : State) (mb : Fin 64) (p : Bytes) (h : Bytes × Bool) (base : Nat) (hh : heard s.u mb 0x0901 p)
    (hslot : le p 0 1 ≤ 31) (hrun : le p 1 1 ≤ 3) (hshare : 1 ≤ le p 2 2) (hshare' : le p 2 2 ≤ 1024) (hsteps : 1 ≤ le p 4 4)
    (hsteps' : le p 4 4 ≤ 1048576) (hrate : 1 ≤ le p 8 4) (hrate' : le p 8 4 ≤ 0x3F800000)
    (hspace : (bufOf p 16).space = 2 ∨ (bufOf p 16).space = 3)
    (hbuf : bufOk s.u (feedbackCtx (bufOf p 16)) (bufOf p 16) = true) (hlen : 64 ≤ (bufOf p 16).len) (hthr : s.u.pins.throt = false)
    (hst : (slotAt s.u (le p 0 1)).st = .resident ∨ (slotAt s.u (le p 0 1)).st = .inService)
    (hdecl : tdeclOk (imgTemper (slotAt s.u (le p 0 1)).img (slotAt s.u (le p 0 1)).imgLen)
      (imgNcore (slotAt s.u (le p 0 1)).img) = true)
    (hnone : s.u.temper = []) (hread : feedbackRead s (bufOf p 16) 0 64 = some h)
    (hok : feedbackOk h.1 (tdecl (imgTemper (slotAt s.u (le p 0 1)).img (slotAt s.u (le p 0 1)).imgLen)) (bufOf p 16).len = true)
    (hcores : workCores (tparams (tdecl (imgTemper (slotAt s.u (le p 0 1)).img (slotAt s.u (le p 0 1)).imgLen)))
      ≤ (freeOrder s.asm s.u (slotAt s.u (le p 0 1)).dieMask).length)
    (hfit : t1Fit s.asm s.u (momentBytes (tparams (tdecl (imgTemper (slotAt s.u (le p 0 1)).img (slotAt s.u (le p 0 1)).imgLen))))
      = some base) :
    exec (.temperStart mb) s = .next (onUnits (fun u => answer mb (ok (le8 (nextTick s.u + 1)))
      { u with temper := tset u.temper (le p 1 1) (startedRun s p base) }) s) := by
  have h1 : ¬ (le p 2 2 = 0 ∨ 1024 < le p 2 2) := by omega
  have h2 : ¬ (le p 4 4 = 0 ∨ 1048576 < le p 4 4) := by omega
  have h3 : ¬ (le p 8 4 = 0 ∨ 0x3F800000 < le p 8 4) := by omega
  have h4 : ¬ (((bufOf p 16).space ≠ 2 ∧ (bufOf p 16).space ≠ 3) ∨
      (!bufOk s.u (feedbackCtx (bufOf p 16)) (bufOf p 16)) = true ∨ (bufOf p 16).len < 64) := by
    rw [hbuf]
    simp only [Bool.not_true, Bool.false_eq_true, false_or]
    omega
  have h5 : ¬ (!((slotAt s.u (le p 0 1)).st == .resident || (slotAt s.u (le p 0 1)).st == .inService)) = true := by
    rcases hst with hst | hst <;> simp [hst]
  have h6 : ¬ ((tgetD s.u.temper (le p 1 1) {}).state ≠ 0 ∨
      (s.u.temper.any (fun r => r.2.state != 0 && r.2.slot == le p 0 1)) = true) := by
    simp [hnone, tgetD, tget]
  refine (next_of_heardS hh).trans ?_
  have h7 : ¬ s.u.pins.throt = true := by simp [hthr]
  simp only [if_neg (Nat.not_lt.mpr hslot), if_neg (Nat.not_lt.mpr hrun), if_neg h1, if_neg h2, if_neg h3, if_neg h4, if_neg h7,
    if_neg h5, hdecl, if_neg h6, hread, hok, List.length_take, Nat.min_eq_left hcores, hfit, Nat.lt_irrefl, if_false, Bool.not_true,
    Bool.false_eq_true]
  rfl

/- TEMPER_STATUS, TEMPER_COMMIT, TEMPER_ABORT (R360, R494, R495). -/
theorem temperStatus_answers (s : State) (mb : Fin 64) (p : Bytes) (h : heard s.u mb 0x0902 p) (hrun : le p 0 1 ≤ 3) :
    exec (.temperStatus mb) s = .next (onUnits (fun u => answer mb (ok (leBytes 1 (tgetD u.temper (le p 0 1) {}).state ++ leBytes 3 0
      ++ leBytes 4 (tgetD u.temper (le p 0 1) {}).done ++ leBytes 4 (tgetD u.temper (le p 0 1) {}).loss ++ leBytes 4 0)) u) s) := by
  refine next_of_answer (v := s.u) h ?_
  simp only [if_neg (Nat.not_lt.mpr hrun)]

theorem temperCommit_accepts (s : State) (mb : Fin 64) (p : Bytes) (h : heard s.u mb 0x0903 p) (hrun : le p 0 1 ≤ 3)
    (hst : (tgetD s.u.temper (le p 0 1) {}).state = 2) (hupd : s.u.fw.upd = none) :
    exec (.temperCommit mb) s = .next (onUnits (fun u =>
      answer mb (ok (le8 (max (le p 8 8) (u.tick.number + 3 + ceilDiv 524288 (periodNs u))))) { u with
        temper := tset u.temper (le p 0 1) { tgetD u.temper (le p 0 1) {} with
          state := 3, accepted := u.tick.number
          edge := max (le p 8 8) (u.tick.number + 3 + ceilDiv 524288 (periodNs u)) } }) s) := by
  refine next_of_answer (v := { s.u with
    temper := tset s.u.temper (le p 0 1) { tgetD s.u.temper (le p 0 1) {} with
      state := 3, accepted := s.u.tick.number
      edge := max (le p 8 8) (s.u.tick.number + 3 + ceilDiv 524288 (periodNs s.u)) } }) h ?_
  simp only [if_neg (Nat.not_lt.mpr hrun), if_neg (not_not_intro hst), hupd, Bool.false_eq_true, if_false]

theorem temperCommit_refuses (s : State) (mb : Fin 64) (p : Bytes) (h : heard s.u mb 0x0903 p) (hrun : le p 0 1 ≤ 3)
    (hst : (tgetD s.u.temper (le p 0 1) {}).state ≠ 2) :
    exec (.temperCommit mb) s = .next (onUnits (answer mb (bad 8 0 0xFFFF 0)) s) := by
  refine next_of_answer (v := s.u) h ?_
  simp only [if_neg (Nat.not_lt.mpr hrun), if_pos hst]
  rfl

theorem temperAbort_aborts (s : State) (mb : Fin 64) (p : Bytes) (h : heard s.u mb 0x0904 p) (hrun : le p 0 1 ≤ 3)
    (hst : (tgetD s.u.temper (le p 0 1) {}).state = 1 ∨ (tgetD s.u.temper (le p 0 1) {}).state = 2) :
    exec (.temperAbort mb) s = .next (onUnits (fun u => answer mb (ok []) (temperAborted (le p 0 1) 0 u)) s) := by
  have h1 : ¬ ((tgetD s.u.temper (le p 0 1) {}).state = 0 ∨ (tgetD s.u.temper (le p 0 1) {}).state = 3) := by omega
  refine next_of_answer (v := temperAborted (le p 0 1) 0 s.u) h ?_
  simp only [if_neg (Nat.not_lt.mpr hrun), if_neg h1]

/- TEMPER_STEP (R489 to R494). -/
/-- The bytes of a record of the feedback buffer. -/
def recordSize (r : Temper) : Nat := 64 + 2 * (tdecl r.decl).k
/-- Record e of the present step of a run, by the feedback header h. -/
def stepRecord (s : State) (r : Temper) (h : Bytes) (e : Nat) : Option (Bytes × Bool) :=
  feedbackRead s r.buf (64 + recordSize r * ((r.done * le h 6 2 + e) % max (le h 8 4) 1)) (recordSize r)
/-- The records of the present step of a run. -/
def stepRecords (s : State) (r : Temper) (h : Bytes) : List (Option (Bytes × Bool)) := (List.range (le h 6 2)).map (stepRecord s r h)
/-- Whether a record is poisoned. -/
def recordPoisoned (x : Option (Bytes × Bool)) : Bool := match x with | some y => y.2 | none => false
/-- The examples of a step, their free values drawn from ix on. -/
def feedbackBatch (r : Temper) (recs : List (Option (Bytes × Bool))) (ix : Nat) : List TEx :=
  (recs.zip (List.range recs.length)).map (fun x =>
    texample (tdecl r.decl) (match x.1 with | some y => y.1 | none => []) (ix + 64 * x.2))
/-- A run after a step with these examples: without a counted target it only counts the step (R489). -/
def steppedRun (r : Temper) (batch : List TEx) (ix : Nat) : Temper :=
  if batch.all (fun e => e.t.all (·.isNone)) then { r with done := r.done + 1 } else trainStep (tdecl r.decl) batch r ix

theorem steppedRun_counts (r : Temper) (batch : List TEx) (ix : Nat) : (steppedRun r batch ix).done = r.done + 1 ∧
    (steppedRun r batch ix).state = r.state ∧ (steppedRun r batch ix).decl = r.decl := by
  unfold steppedRun
  split
  · exact ⟨rfl, rfl, rfl⟩
  · unfold trainStep
    exact ⟨rfl, rfl, rfl⟩

/-- Whether the next step of run n may be made (R493). -/
def MayStep (s : State) (n : Nat) : Prop :=
  (tgetD s.u.temper n {}).state = 1 ∧ (tgetD s.u.temper n {}).done < (tgetD s.u.temper n {}).steps ∧
    temperMay s.u (tgetD s.u.temper n {}) = true
theorem MayStep.goes {n : Nat} (h : MayStep s n) : ¬ ((tgetD s.u.temper n {}).state ≠ 1 ∨
    (tgetD s.u.temper n {}).steps ≤ (tgetD s.u.temper n {}).done ∨ (!temperMay s.u (tgetD s.u.temper n {})) = true) := by
  obtain ⟨hst, hdone, hmay⟩ := h
  simp [hst, hdone, hmay]

theorem temperStep_waits {n : Nat} (cut : Bool) (h : temperMay s.u (tgetD s.u.temper n {}) = false) : temperStep n cut s = s := by
  unfold temperStep
  simp only [h, Bool.not_false, or_true, if_true]
theorem temperStep_cut {n : Nat} (h : MayStep s n) : temperStep n true s = onUnits (temperAborted n 2) s := by
  unfold temperStep
  simp only [if_neg h.goes, if_true]
theorem temperStep_fault {n : Nat} (h : MayStep s n) (hread : feedbackRead s (tgetD s.u.temper n {}).buf 0 64 = none) :
    temperStep n false s = onUnits (temperAborted n 5) s := by
  unfold temperStep
  simp only [if_neg h.goes, hread, Bool.false_eq_true, if_false]
theorem temperStep_read {n : Nat} {h : Bytes × Bool} (hm : MayStep s n)
    (hread : feedbackRead s (tgetD s.u.temper n {}).buf 0 64 = some h)
    (hrecs : (stepRecords s (tgetD s.u.temper n {}) h.1).any (·.isNone) = false) :
    temperStep n false s =
      if h.2 || (stepRecords s (tgetD s.u.temper n {}) h.1).any recordPoisoned then onUnits (temperAborted n 1) s
      else
        let r := tgetD s.u.temper n {}
        let recs := stepRecords s r h.1
        { s with u := { s.u with
          temper := tset s.u.temper n (steppedRun r (feedbackBatch r recs s.u.freeIx) (s.u.freeIx + 64 * recs.length))
          freeIx := s.u.freeIx + 64 * recs.length + 3 * tparams (tdecl r.decl) } } := by
  have hrecs' : ¬ ((stepRecords s (tgetD s.u.temper n {}) h.1).any (·.isNone)) = true := by simp [hrecs]
  unfold temperStep
  simp only [if_neg hm.goes, hread, Bool.false_eq_true, if_false]
  exact if_neg hrecs'

theorem stepRecords_readable {r : Temper} {h : Bytes} (hall : ∀ e, e < le h 6 2 → ∃ x, stepRecord s r h e = some x) :
    (stepRecords s r h).any (·.isNone) = false := by
  rw [List.any_eq_false]
  intro x hx
  obtain ⟨e, he, rfl⟩ := List.mem_map.mp hx
  obtain ⟨y, hy⟩ := hall e (List.mem_range.mp he)
  simp [hy]
theorem stepRecords_clean {r : Temper} {h : Bytes} (hall : ∀ e, e < le h 6 2 → ∃ x, stepRecord s r h e = some (x, false)) :
    (stepRecords s r h).any recordPoisoned = false := by
  rw [List.any_eq_false]
  intro x hx
  obtain ⟨e, he, rfl⟩ := List.mem_map.mp hx
  obtain ⟨y, hy⟩ := hall e (List.mem_range.mp he)
  simp [hy, recordPoisoned]

theorem temperStep_steps (s : State) (n : Fin 4) (h : Bytes) (hm : MayStep s n)
    (hread : feedbackRead s (tgetD s.u.temper n {}).buf 0 64 = some (h, false))
    (hall : ∀ e, e < le h 6 2 → ∃ x, stepRecord s (tgetD s.u.temper n {}) h e = some (x, false)) :
    ∃ t, exec (.temperStep { run := n }) s = .next t ∧ (tgetD t.u.temper n {}).done = (tgetD s.u.temper n {}).done + 1 ∧
      (tgetD t.u.temper n {}).state = 1 ∧ (tgetD t.u.temper n {}).decl = (tgetD s.u.temper n {}).decl ∧
      (∀ k, k ≠ n.val → tget t.u.temper k = tget s.u.temper k) ∧
      t = { s with u := { s.u with temper := t.u.temper, freeIx := t.u.freeIx } } := by
  have hstep := temperStep_read hm hread (stepRecords_readable fun e he => (hall e he).imp' (fun x => (x, false)) fun _ hx => hx)
  rw [stepRecords_clean hall] at hstep
  obtain ⟨hst, -, -⟩ := hm
  refine ⟨_, congrArg Host.Outcome.next hstep, ?_, ?_, ?_, fun k hk => tget_tset_other _ _ hk, rfl⟩
  · exact (congrArg Temper.done (tgetD_tset_self ..)).trans (steppedRun_counts ..).1
  · exact ((congrArg Temper.state (tgetD_tset_self ..)).trans (steppedRun_counts ..).2.1).trans hst
  · exact (congrArg Temper.decl (tgetD_tset_self ..)).trans (steppedRun_counts ..).2.2

theorem temperStep_poisoned (s : State) (n : Fin 4) (h : Bytes) (hm : MayStep s n)
    (hread : feedbackRead s (tgetD s.u.temper n {}).buf 0 64 = some (h, true))
    (hall : ∀ e, e < le h 6 2 → ∃ x, stepRecord s (tgetD s.u.temper n {}) h e = some x) :
    exec (.temperStep { run := n }) s = .next (onUnits (temperAborted n 1) s) :=
  congrArg Host.Outcome.next (temperStep_read hm hread (stepRecords_readable hall))

/- TEMPER_DONE (R494). -/
theorem temperDone_reports (s : State) (n : Fin 4) (hst : (tgetD s.u.temper n {}).state = 1)
    (hdone : (tgetD s.u.temper n {}).steps ≤ (tgetD s.u.temper n {}).done) :
    exec (.temperDone n) s = .next (onUnits (fun u => fwNotice 8 0x0981 0
      [n.val, (tgetD u.temper n.val {}).done, (tgetD u.temper n.val {}).loss] { u with
        temper := tset u.temper n.val { tgetD u.temper n.val {} with state := 2 } }) s) := by
  have h1 : ¬ ((tgetD s.u.temper n {}).state ≠ 1 ∨ (tgetD s.u.temper n {}).done < (tgetD s.u.temper n {}).steps) := by
    simp [hst, hdone]
  refine next_of_units (f := temperDone n) ?_
  simp only [temperDone, if_neg h1]

/- TEMPER_REQUANTISE (R495). -/
/-- Cores a commit of run r may load, in order, and those it loads. -/
def commitCores (s : State) (r : Temper) : List Nat :=
  (r.cores.map (fun (c : Nat × Nat) => c.1 * 16 + c.2) ++ freeOrder s.asm s.u (slotAt s.u r.slot).dieMask).take
    ((tdecl r.decl).nhc * (slotAt s.u r.slot).nrep)
/-- The loads of a commit of run r. -/
def commitLoads (s : State) (r : Temper) : List (Nat × Nat × Nat × Nat) :=
  ((commitCores s r).zip (List.range (commitCores s r).length)).map (fun (c : Nat × Nat) =>
    ((tdecl r.decl).core0 + c.2 % (tdecl r.decl).nhc, c.2 / (tdecl r.decl).nhc, c.1 / 16, c.1 % 16))
theorem commitLoads_length (s : State) (r : Temper) : (commitLoads s r).length = (commitCores s r).length := by
  rw [commitLoads, List.length_map, List.length_zip, List.length_range, Nat.min_self]

theorem temperRequantise_goes {n : Nat} {r : Temper} (hr : tgetD s.u.temper n {} = r) (hst : r.state = 3) (hready : r.ready = none)
    (hacc : r.accepted < s.u.tick.number) (honce : onceRuns s.u = true) :
    temperRequantise s.asm n s.u =
      match requantise (slotAt s.u r.slot).img (slotAt s.u r.slot).imgLen r, t1Fit s.asm s.u (slotAt s.u r.slot).imgLen with
      | some m, some base =>
        if (commitCores s r).length < (tdecl r.decl).nhc * (slotAt s.u r.slot).nrep then commitFailed n s.u
        else { s.u with temper := tset s.u.temper n { r with ready := some m, shadow := base, loads := commitLoads s r } }
      | _, _ => commitFailed n s.u := by
  have h1 : ¬ (r.state ≠ 3 ∨ r.ready.isSome = true ∨ s.u.tick.number ≤ r.accepted ∨ (!onceRuns s.u) = true) := by
    simp [hst, hready, honce, hacc]
  unfold temperRequantise
  simp only [hr]
  rw [if_neg h1]
  cases requantise (slotAt s.u r.slot).img (slotAt s.u r.slot).imgLen r with
  | none => rfl
  | some m =>
    cases t1Fit s.asm s.u (slotAt s.u r.slot).imgLen with
    | none => rfl
    | some base => rfl

theorem temperRequantise_loads (s : State) (n : Fin 4) (r : Temper) (m : Memory) (base : Nat) (hr : tgetD s.u.temper n {} = r)
    (hst : r.state = 3) (hready : r.ready = none) (hacc : r.accepted < s.u.tick.number) (honce : onceRuns s.u = true)
    (hq : requantise (slotAt s.u r.slot).img (slotAt s.u r.slot).imgLen r = some m)
    (hfit : t1Fit s.asm s.u (slotAt s.u r.slot).imgLen = some base)
    (hcores : (tdecl r.decl).nhc * (slotAt s.u r.slot).nrep
      ≤ r.cores.length + (freeOrder s.asm s.u (slotAt s.u r.slot).dieMask).length) :
    ∃ t l, exec (.temperRequantise n) s = .next t ∧ tget t.u.temper n = some { r with ready := some m, shadow := base, loads := l } ∧
      l.length = (tdecl r.decl).nhc * (slotAt s.u r.slot).nrep ∧ t = { s with u := { s.u with temper := t.u.temper } } := by
  have hlen : (commitCores s r).length = (tdecl r.decl).nhc * (slotAt s.u r.slot).nrep := by
    rw [commitCores, List.length_take, List.length_append, List.length_map]
    exact Nat.min_eq_left hcores
  have hact := temperRequantise_goes hr hst hready hacc honce
  simp only [hq, hfit, if_neg (Nat.not_lt.mpr (Nat.le_of_eq hlen.symm))] at hact
  exact ⟨_, commitLoads s r, next_of_units (f := temperRequantise s.asm n) hact, tget_tset_self .., (commitLoads_length s r).trans hlen,
    rfl⟩

theorem temperRequantise_fails (s : State) (n : Fin 4) (r : Temper) (hr : tgetD s.u.temper n {} = r) (hst : r.state = 3)
    (hready : r.ready = none) (hacc : r.accepted < s.u.tick.number) (honce : onceRuns s.u = true)
    (hq : requantise (slotAt s.u r.slot).img (slotAt s.u r.slot).imgLen r = none) :
    exec (.temperRequantise n) s = .next (onUnits (fun u => fwNotice 8 0x0982 0 [n.val, 7, r.done] { u with
      temper := tset u.temper n.val { r with state := 2, ready := none, loads := [] } }) s) := by
  have hact := temperRequantise_goes hr hst hready hacc honce
  simp only [hq, commitFailed, hr] at hact
  exact next_of_units (f := temperRequantise s.asm n) hact

/- TEMPER_REBIND (R496). -/
/-- What the rebinding of head cores of a slot keeps: the runs, the queues, tiers 1 and 2, the other slots, and of the slot
itself its image and where that stands. -/
def RebindFrame (slot : Nat) (s t : State) : Prop :=
  t.u.temper = s.u.temper ∧ t.q = s.q ∧ t.m.t1 = s.m.t1 ∧ t.m.t2 = s.m.t2 ∧ (∀ k, k ≠ slot → slotAt t.u k = slotAt s.u k) ∧
    (slotAt t.u slot).img = (slotAt s.u slot).img ∧ (slotAt t.u slot).base = (slotAt s.u slot).base ∧
    (slotAt t.u slot).imageId = (slotAt s.u slot).imageId
theorem RebindFrame.refl (slot : Nat) (s : State) : RebindFrame slot s s := ⟨rfl, rfl, rfl, rfl, fun _ _ => rfl, rfl, rfl, rfl⟩
theorem RebindFrame.trans {slot : Nat} {r t : State} (h : RebindFrame slot r s) (h' : RebindFrame slot s t) : RebindFrame slot r t := by
  obtain ⟨htemper, hq, ht1, ht2, hother, himg, hbase, hid⟩ := h
  obtain ⟨htemper', hq', ht1', ht2', hother', himg', hbase', hid'⟩ := h'
  exact ⟨htemper'.trans htemper, hq'.trans hq, ht1'.trans ht1, ht2'.trans ht2, fun k hk => (hother' k hk).trans (hother k hk),
    himg'.trans himg, hbase'.trans hbase, hid'.trans hid⟩
theorem CoresFrame.rebindFrame {t : State} (slot : Nat) (h : CoresFrame s t) : RebindFrame slot s t := by
  obtain ⟨c, m, rfl⟩ := h
  exact .refl slot _
/-- A change of the bindings of a slot alone. -/
theorem rebindFrame_modSlot (slot : Nat) (f : List Binding → List Binding) (s : State) :
    RebindFrame slot s { s with u := modSlot slot (fun x => { x with bind := f x.bind }) s.u } := by
  have hself := slotAt_modSlot_self slot (fun x => { x with bind := f x.bind }) s.u
  exact ⟨rfl, rfl, rfl, rfl, fun k hk => slotAt_modSlot_other _ _ hk, (congrArg Slot.img hself :), (congrArg Slot.base hself :),
    (congrArg Slot.imageId hself :)⟩
/-- The bindings of a slot with one replica's logical core moved to another core. -/
def rebound (l : Nat × Nat × Nat × Nat) (b : List Binding) : List Binding :=
  b.map (fun y => if y.rep = l.2.1 ∧ y.lidx = l.1 then { y with die := l.2.2.1, core := l.2.2.2 } else y)
theorem rebindOne_frame (slot : Nat) (l : Nat × Nat × Nat × Nat) (s : State) : RebindFrame slot s (rebindOne slot l s) := by
  unfold rebindOne
  dsimp only
  split
  · exact .refl slot s
  · next b _ =>
    have hcores : CoresFrame s { s with u := bindCore slot l.2.1 l.1 (l.2.2.1 * 16 + l.2.2.2) (unbindCore (bindKey b) s.u) } :=
      ⟨_, s.m.sram, rfl⟩
    exact ((hcores.rebindFrame slot).trans (rebindFrame_modSlot slot (rebound l) _)).trans
      ((coresFrame_coreLoaded (l.2.2.1 * 16 + l.2.2.2) _).rebindFrame slot)
theorem rebindAll_frame (slot : Nat) (l : List (Nat × Nat × Nat × Nat)) (s : State) :
    RebindFrame slot s (l.foldl (fun s l => rebindOne slot l s) s) := by
  induction l generalizing s with
  | nil => exact .refl slot s
  | cons x l ih => exact (rebindOne_frame slot x s).trans (ih _)

theorem recheckedNotice_frame (code ctx : Nat) (args : List Nat) (u : Units) :
    (recheckSoon (fwNotice 8 code ctx args u)).temper = u.temper ∧ (recheckSoon (fwNotice 8 code ctx args u)).slot = u.slot := by
  obtain ⟨-, -, -, -, -, hslot, -, -, -, -, -, -, htemper, -⟩ := noticeFrame_keeps (fwNotice_frame 8 code ctx args u)
  exact ⟨htemper, hslot⟩

/-- A slot that has taken the committed image of a run (R496). -/
def committedSlot (r : Temper) (m : Memory) (x : Slot) : Slot :=
  let c := if 0xFFFF ≤ x.commits then 1 else x.commits + 1
  { x with img := m, base := r.shadow, imageId := x.imageId / 65536 * 65536 + c, commits := c }
/-- The state once a run's slot has its new image, its head cores not yet rebound. -/
def committedState (s : State) (n : Nat) (r : Temper) (m : Memory) : State :=
  { s with u := modSlot r.slot (fun x => { x with
      img := m, base := r.shadow, imageId := (committedSlot r m (slotAt s.u r.slot)).imageId
      commits := (committedSlot r m (slotAt s.u r.slot)).commits }) { s.u with temper := tset s.u.temper n {} } }
theorem temperRebind_eq {n : Nat} {r : Temper} {m : Memory} (hr : tgetD s.u.temper n {} = r) (hst : r.state = 3)
    (hready : r.ready = some m) (hrun : running s.u = true) (hedge : r.edge ≤ s.u.tick.number) (hmark : s.u.tick.lastMark = 6) :
    temperRebind n s = onUnits (fun u => recheckSoon (fwNotice 8 0x0983 0
        [r.slot, (committedSlot r m (slotAt s.u r.slot)).imageId % 2 ^ 32, u.tick.number] u))
      (r.loads.foldl (fun s l => rebindOne r.slot l s) (committedState s n r m)) := by
  have h1 : ¬ (r.state ≠ 3 ∨ (!running s.u) = true ∨ s.u.tick.number < r.edge ∨ s.u.tick.lastMark ≠ 6) := by
    simp [hst, hrun, hmark, hedge]
  unfold temperRebind
  simp only [hr, hready, if_neg h1]
  rfl

theorem temperRebind_rebinds (s : State) (n : Fin 4) (r : Temper) (m : Memory) (hr : tgetD s.u.temper n {} = r) (hst : r.state = 3)
    (hready : r.ready = some m) (hrun : running s.u = true) (hedge : r.edge ≤ s.u.tick.number) (hmark : s.u.tick.lastMark = 6) :
    ∃ t, exec (.temperRebind n) s = .next t ∧ tgetD t.u.temper n {} = {} ∧ (slotAt t.u r.slot).img = m ∧
      (slotAt t.u r.slot).base = r.shadow ∧ (slotAt t.u r.slot).imageId = (slotAt s.u r.slot).imageId / 65536 * 65536 +
        (if 0xFFFF ≤ (slotAt s.u r.slot).commits then 1 else (slotAt s.u r.slot).commits + 1) ∧
      (∀ k, k ≠ r.slot → slotAt t.u k = slotAt s.u k) ∧ t.q = s.q ∧ t.m.t1 = s.m.t1 ∧ t.m.t2 = s.m.t2 := by
  refine ⟨_, congrArg Host.Outcome.next (temperRebind_eq hr hst hready hrun hedge hmark), ?_⟩
  obtain ⟨htemper, hq, ht1, ht2, hother, himg, hbase, hid⟩ := rebindAll_frame r.slot r.loads (committedState s n r m)
  generalize (r.loads.foldl (fun s l => rebindOne r.slot l s) (committedState s n r m)) = t at *
  obtain ⟨htemper', hslot'⟩ := recheckedNotice_frame 0x0983 0
    [r.slot, (committedSlot r m (slotAt s.u r.slot)).imageId % 2 ^ 32, t.u.tick.number] t.u
  have hat (k : Nat) : slotAt (recheckSoon (fwNotice 8 0x0983 0
      [r.slot, (committedSlot r m (slotAt s.u r.slot)).imageId % 2 ^ 32, t.u.tick.number] t.u)) k = slotAt t.u k :=
    congrArg (fun x => tgetD x k ({} : Slot)) hslot'
  have hself : slotAt (committedState s n r m).u r.slot = committedSlot r m (slotAt s.u r.slot) := slotAt_modSlot_self ..
  refine ⟨?_, ?_, ?_, ?_, fun k hk => ?_, hq, ht1, ht2⟩
  · exact (congrArg (fun x => tgetD x n.val ({} : Temper)) (htemper'.trans htemper)).trans (tgetD_tset_self ..)
  · exact (congrArg Slot.img (hat _)).trans (himg.trans (congrArg Slot.img hself))
  · exact (congrArg Slot.base (hat _)).trans (hbase.trans (congrArg Slot.base hself))
  · exact (congrArg Slot.imageId (hat _)).trans (hid.trans (congrArg Slot.imageId hself))
  · exact (hat k).trans ((hother k hk).trans (slotAt_modSlot_other _ _ hk))

theorem temperRebind_waits {n : Nat} (h : s.u.tick.lastMark ≠ 6) : temperRebind n s = s := by
  unfold temperRebind
  cases hready : (tgetD s.u.temper n {}).ready with
  | none => simp only [hready]
  | some m => simp only [hready, if_pos (Or.inr (Or.inr (Or.inr h)) : (tgetD s.u.temper n {}).state ≠ 3 ∨ (!running s.u) = true ∨
      s.u.tick.number < (tgetD s.u.temper n {}).edge ∨ s.u.tick.lastMark ≠ 6)]

/-- Settles O56: each message by what it answers when heard, a step by the records it reads, a rebinding by what each rebound
core keeps. -/
theorem temperingRuns : Obligations.TemperingRuns := by
  unfold Obligations.TemperingRuns
  refine ⟨?_, temperStatus_answers, temperCommit_accepts, temperCommit_refuses, temperAbort_aborts,
    fun s n h hst hdone hmay => temperStep_steps s n h ⟨hst, hdone, hmay⟩,
    fun s n hst hdone hmay hread => congrArg Host.Outcome.next (temperStep_fault ⟨hst, hdone, hmay⟩ hread),
    fun s n h hst hdone hmay => temperStep_poisoned s n h ⟨hst, hdone, hmay⟩,
    fun s n hst hdone hmay => congrArg Host.Outcome.next (temperStep_cut ⟨hst, hdone, hmay⟩),
    fun s x h => congrArg Host.Outcome.next (temperStep_waits x.cut h), temperDone_reports, temperRequantise_loads,
    temperRequantise_fails, temperRebind_rebinds, fun s n h => congrArg Host.Outcome.next (temperRebind_waits h)⟩
  intro s mb p h base hh hslot hrun hshare hshare' hsteps hsteps' hrate hrate' hspace hbuf hlen hthr hst hdecl hnone hread hok hcores hfit
  have hact := temperStart_starts s mb p h base hh hslot hrun hshare hshare' hsteps hsteps' hrate hrate' hspace hbuf hlen hthr hst hdecl
    hnone hread hok hcores hfit
  refine ⟨_, startedRun s p base, hact, answered_of_heard rfl hh rfl, ?_, rfl, rfl, rfl, rfl, rfl, rfl, rfl, rfl, rfl⟩
  exact congrArg (fun t => tset t (le p 1 1) (startedRun s p base)) hnone

end Sys2Proof.Machine
end

section
/-! PROOFS. The tick edge (02, R39, R40, R46, R50, R51, R64, R65). -/
namespace Sys2Proof.Machine

variable {s : State} {u v w : Units}

/- What an edge keeps. -/
/-- The parts of the block that the work of an edge leaves as they are, the counters, ports, notices and tier 1 aside. -/
def EdgeFrame (u v : Units) : Prop :=
  v.tick = u.tick ∧ v.fw = u.fw ∧ v.core = u.core ∧ v.str = u.str ∧ v.job = u.job ∧ v.ctx = u.ctx ∧ v.slot = u.slot ∧
    v.blk.en = u.blk.en
theorem EdgeFrame.refl (u : Units) : EdgeFrame u u := ⟨rfl, rfl, rfl, rfl, rfl, rfl, rfl, rfl⟩
theorem EdgeFrame.trans (h : EdgeFrame u v) (h' : EdgeFrame v w) : EdgeFrame u w := by
  obtain ⟨htick, hfw, hcore, hstr, hjob, hctx, hslot, hen⟩ := h
  obtain ⟨htick', hfw', hcore', hstr', hjob', hctx', hslot', hen'⟩ := h'
  exact ⟨htick'.trans htick, hfw'.trans hfw, hcore'.trans hcore, hstr'.trans hstr, hjob'.trans hjob, hctx'.trans hctx,
    hslot'.trans hslot, hen'.trans hen⟩
theorem edgeFrame_notice (h : noticeFrame u v) : EdgeFrame u v := by
  obtain ⟨htick, hfw, -, -, hcore, hslot, -, hstr, -, hjob, hctx, hblk, -⟩ := noticeFrame_keeps h
  exact ⟨htick, hfw, hcore, hstr, hjob, hctx, hslot, congrArg Blk.en hblk⟩
theorem edgeFrame_written (h : WrittenFrame u v) : EdgeFrame u v := by
  obtain ⟨o, f, c, t, x, rfl⟩ := h
  exact .refl u
theorem edgeFrame_port (h : PortFrame u v) : EdgeFrame u v := edgeFrame_written (writtenFrame_sent (sentFrame_portFrame h))
theorem edgeFrame_dieBump (d n k : Nat) (u : Units) : EdgeFrame u (dieBump d n k u) := edgeFrame_notice (noticeFrame_dieBump ..)
theorem edgeFrame_blkBump (n k : Nat) (u : Units) : EdgeFrame u (blkBump n k u) := by
  obtain ⟨b, hb⟩ := blkBump_frame n k u
  rw [hb]
  exact .refl u
theorem forAll_edge {α : Type} (l : List α) {f : α → Units → Units} (hf : ∀ a u, EdgeFrame u (f a u)) (u : Units) :
    EdgeFrame u (forAll l f u) :=
  forAll_keeps (EdgeFrame u) l f u (.refl u) fun a _ h => h.trans (hf a _)

/- The parts of an edge's work. -/
theorem spareTaken_edge (a : Asm) (x : RUnit) (reason aux : Nat) (u : Units) : EdgeFrame u (spareTaken a x reason aux u) := by
  have hadd : EdgeFrame u (repairAdd (repairEnt a u x 0 reason aux) (spareUse x u)) := .refl u
  exact hadd.trans (edgeFrame_notice (fwNotice_frame ..))
theorem rowRemap_edge (a : Asm) (x : RUnit × Nat × Bool) (u : Units) : EdgeFrame u (rowRemap a x u) := by
  unfold rowRemap
  dsimp only
  split
  · exact .refl u
  · refine (spareTaken_edge a x.1 (if x.2.2 then 1 else 4) x.2.1 u).trans ?_
    exact EdgeFrame.trans (v := { spareTaken a x.1 (if x.2.2 then 1 else 4) x.2.1 u with svc := _ })
      ⟨rfl, rfl, rfl, rfl, rfl, rfl, rfl, rfl⟩ (edgeFrame_dieBump ..)
theorem chanEdge_edge (a : Asm) (u : Units) : EdgeFrame u (chanEdge a u) := by
  have hend (k : Nat) (u : Units) : EdgeFrame u (copyEnd a k u) := .refl u
  have hlost (k : Nat) (u : Units) : EdgeFrame u (setUnit (copyEnd a k (chanLoss a k u))) := .refl u
  have hrows : EdgeFrame u (forAll u.svc.rowWait (rowRemap a) { u with svc := { u.svc with rowWait := [] } }) :=
    EdgeFrame.trans (v := { u with svc := { u.svc with rowWait := [] } }) (.refl u) (forAll_edge _ (rowRemap_edge a) _)
  rw [chanEdge_eq, chanDone]
  exact (hrows.trans (forAll_edge _ (fun k u => (spareTaken_edge ..).trans (hlost k _)) _)).trans
    (forAll_edge _ (fun k u => (spareTaken_edge ..).trans (hend k _)) _)
theorem pageInReads_edge (k : Nat) (u : Units) : EdgeFrame u (pageInReads k u) := by
  refine forAll_edge _ (fun m u => ?_) u
  dsimp only
  split
  · split
    · exact .refl u
    · split
      · exact .refl u
      · exact forAll_edge _ (fun i u => edgeFrame_written (writtenFrame_sent (sendRd_sent ..))) u
  · exact .refl u
theorem noticeLimited_edge (p code key c : Nat) (args : List Nat) (u : Units) : EdgeFrame u (noticeLimited p code key c args u) := by
  obtain ⟨l, hl⟩ := noticeLimited_frame p code key c args u
  exact EdgeFrame.trans (v := { u with limits := l }) (.refl u) (edgeFrame_notice hl)
theorem condBreach_edge (u : Units) : EdgeFrame u (condBreach u) := by
  refine EdgeFrame.trans (v := { u with conds := [] }) (.refl u) (forAll_edge _ (fun c u => ?_) _)
  dsimp only
  split
  · exact .refl u
  · exact noticeLimited_edge ..
theorem sendAll_port (f : Nbr → Bool) (cls vc tick : Nat) (cf payload : Bytes) (u : Units) :
    PortFrame u (sendAll f cls vc tick cf payload u) :=
  forAll_keeps (PortFrame u) _ _ u (portFrame_refl u) fun _ _ h => h.trans (portFrame_fabPut ..)
theorem answerWaiting_edge (n : Option Nat) (a : Ans) (u : Units) : EdgeFrame u (answerWaiting n a u) := by
  obtain ⟨m, hm⟩ := answerWaiting_frame n a u
  rw [hm]
  exact .refl u

/-- From s to t only memory changes and what an edge's work may. -/
def EdgeWork (s t : State) : Prop := EdgeFrame s.u t.u ∧ t.q = s.q ∧ t.pending = s.pending ∧ t.asm = s.asm
theorem EdgeWork.trans {r t : State} (h : EdgeWork r s) (h' : EdgeWork s t) : EdgeWork r t := by
  obtain ⟨hu, hq, hp, ha⟩ := h
  obtain ⟨hu', hq', hp', ha'⟩ := h'
  exact ⟨hu.trans hu', hq'.trans hq, hp'.trans hp, ha'.trans ha⟩
theorem edgeWork_units (h : EdgeFrame s.u v) : EdgeWork s { s with u := v } := ⟨h, rfl, rfl, rfl⟩
theorem edgeWork_bufWrite (s : State) (c : Nat) (b : Buf) (data : Bytes) (flt : Bool) : EdgeWork s (bufWrite s c b data flt).1 := by
  obtain ⟨m, v, hv, hw⟩ := bufWrite_frame s c b data flt
  rw [hv]
  exact ⟨edgeFrame_written hw, rfl, rfl, rfl⟩
theorem edgeWork_cntLatch (k : Nat) (s : State) : EdgeWork s (cntLatch k s) := by
  refine foldl_keeps (EdgeWork s) _ _ _ (edgeWork_units (.refl _)) fun t x h => ?_
  exact (h.trans (edgeWork_bufWrite ..)).trans (edgeWork_units (answerWaiting_edge ..))

/- The tables at an edge (R51, R61, R64, R65). -/
/-- A coasting or halted tick counted. -/
def coasted (t : Tick) : Tick :=
  { t with coastRun := min 255 (t.coastRun + 1), coastTotal := (t.coastTotal + 1) % 2 ^ 64 }
/-- What the edge that begins tick k makes of the tables and of the state of the tick. -/
def tableTick (k : Nat) (t : Tick) : Tick :=
  let x := { t with armSample := none, haltNext := false, armed := [] }
  if t.armSample = some true then { x with st := .current, cur := t.next, next := [], coastRun := 0 }
  else match t.st with
    | .current => coasted { x with st := .coasting, coastRun := 0, coastFirst := k }
    | .coasting => coasted (if t.haltNext then { x with st := .halted, haltedBit := true } else x)
    | .halted => coasted x
    | _ => x
/-- The tables and the state of the tick alone change with the tables, and every unit is disarmed (R50). -/
theorem tableTick_keeps (k : Nat) (t : Tick) : ∃ st cur next c total first h, tableTick k t = { t with
    armSample := none, haltNext := false, armed := [], st := st, cur := cur, next := next, coastRun := c, coastTotal := total
    coastFirst := first, haltedBit := h } := by
  unfold tableTick
  dsimp only
  split
  · exact ⟨_, _, _, _, t.coastTotal, t.coastFirst, t.haltedBit, rfl⟩
  · split
    · exact ⟨_, t.cur, t.next, _, _, _, t.haltedBit, rfl⟩
    · split
      · exact ⟨_, t.cur, t.next, _, _, t.coastFirst, _, rfl⟩
      · exact ⟨t.st, t.cur, t.next, _, _, t.coastFirst, t.haltedBit, rfl⟩
    · exact ⟨t.st, t.cur, t.next, _, _, t.coastFirst, t.haltedBit, rfl⟩
    · exact ⟨t.st, t.cur, t.next, t.coastRun, t.coastTotal, t.coastFirst, t.haltedBit, rfl⟩
theorem tableTick_armed {t : Tick} (k : Nat) (h : t.armSample = some true) :
    (tableTick k t).st = .current ∧ (tableTick k t).cur = t.next ∧ (tableTick k t).coastRun = 0 := by
  rw [tableTick, if_pos h]
  exact ⟨rfl, rfl, rfl⟩
/-- Without every unit armed no table is exchanged, and the tick coasts or halts (R51, R64, R65). -/
theorem tableTick_unarmed {t : Tick} (k : Nat) (h : t.armSample ≠ some true) (hne : t.st ≠ .stopped) :
    (tableTick k t).cur = t.cur ∧ (tableTick k t).next = t.next ∧
    (t.st = .current → (tableTick k t).st = .coasting ∧ (tableTick k t).coastRun = 1 ∧ (tableTick k t).coastFirst = k) ∧
    (t.st = .coasting → t.haltNext = false → (tableTick k t).st = .coasting ∧
      (tableTick k t).coastRun = min 255 (t.coastRun + 1)) ∧
    (t.st = .coasting → t.haltNext = true → (tableTick k t).st = .halted ∧ (tableTick k t).haltedBit = true) ∧
    (t.st = .halted → (tableTick k t).st = .halted) ∧ (t.st = .starting → (tableTick k t).st = .starting) ∧
    (t.st ≠ .starting → (tableTick k t).coastTotal = (t.coastTotal + 1) % 2 ^ 64) := by
  rw [tableTick, if_neg h]
  cases hst : t.st with
  | stopped => exact absurd hst hne
  | starting => simp
  | current => simp [coasted]
  | coasting => cases hhalt : t.haltNext <;> simp [coasted]
  | halted => simp [coasted]
theorem coastCount_edge (u : Units) : EdgeFrame { u with tick := coasted u.tick } (coastCount u) :=
  (edgeFrame_dieBump ..).trans (edgeFrame_dieBump ..)
theorem coastNotice_edge (code : Nat) (args : List Nat) (u : Units) :
    EdgeFrame { u with tick := coasted u.tick } (notice (dieKey 3 0) code 0 args (coastCount u)) :=
  (coastCount_edge u).trans (edgeFrame_notice (notice_frame ..))
theorem tableEdge_edge (k : Nat) (u : Units) : EdgeFrame { u with tick := tableTick k u.tick } (tableEdge k u) := by
  unfold tableEdge tableTick
  dsimp only
  by_cases harmed : u.tick.armSample = some true
  · simp only [if_pos harmed]
    split
    · exact edgeFrame_notice (notice_frame ..)
    · exact .refl _
  · simp only [if_neg harmed]
    cases hst : u.tick.st with
    | current => exact EdgeFrame.trans ⟨rfl, rfl, rfl, rfl, rfl, rfl, rfl, rfl⟩ (coastNotice_edge ..)
    | coasting =>
      cases hhalt : u.tick.haltNext with
      | true => exact coastNotice_edge ..
      | false => exact coastCount_edge _
    | halted => exact coastCount_edge _
    | starting => exact .refl _
    | stopped => exact .refl _

/- The edge (R39, R40, R46). -/
/-- The tick as the edge at block time t that begins tick k leaves it, before its tables. -/
def tickBegun (t k : Nat) (u : Units) : Tick :=
  { u.tick with
    time := (advTo t u).tick.time, number := k % 2 ^ 64, edgeAt := t, anchor := some t, groupEdge := none, lastMark := 6, sweeps := []
    slew := u.tick.slewNext.getD u.tick.slew, slewNext := none }
/-- The firmware at an edge: the first edge starts its watchdogs. -/
def fwBegun (t : Nat) (u : Units) : Fw := if u.tick.anchor.isNone then (kicksStart (advTo t u)).fw else u.fw
theorem fwBegun_roles (t : Nat) (u : Units) : fwBegun t u = { u.fw with roles := (fwBegun t u).roles } := by
  unfold fwBegun
  split
  · rw [kicksStart, advTo_eq]
  · rfl
/-- The state once the edge has begun its tick. -/
def edgeBegun (t k : Nat) (s : State) : State :=
  let first := s.u.tick.anchor.isNone
  let s := { s with u := serveMoves (cntEdge k (advTo t s.u)) }
  let s := if first then { s with u := kicksStart { s.u with changes := s.u.changes.map (fun c => (min c.1 k, c.2)) } } else s
  { s with u := { s.u with tick := { s.u.tick with
    number := k % 2 ^ 64, edgeAt := t, anchor := some t, groupEdge := none, lastMark := 6, sweeps := []
    slew := s.u.tick.slewNext.getD s.u.tick.slew, slewNext := none } } }
theorem edgeBegun_work (t k : Nat) (s : State) :
    EdgeWork { s with u := { s.u with tick := tickBegun t k s.u, fw := fwBegun t s.u } } (edgeBegun t k s) := by
  unfold edgeBegun tickBegun fwBegun
  dsimp only
  rw [advTo_eq]
  split
  · exact ⟨⟨rfl, rfl, rfl, rfl, rfl, rfl, rfl, rfl⟩, rfl, rfl, rfl⟩
  · exact ⟨⟨rfl, rfl, rfl, rfl, rfl, rfl, rfl, rfl⟩, rfl, rfl, rfl⟩

/-- What follows the tables at an edge: the conditions, the outputs. -/
def edgeSent (t k : Nat) (u : Units) : Units :=
  let u := condBreach (ringCond k u)
  let u := if u.tick.en && u.tick.outEn then emit (.tickOut (t - u.tick.offset)) u else u
  if u.tick.en && u.tick.src == 0 && u.blk.topoOk && u.fab.masterId == u.fab.selfId then
    sendAll (fun _ => true) 0x01 0 k (le8 u.fab.groupId) [] u
  else u
theorem edgeSent_edge (t k : Nat) (u : Units) : EdgeFrame u (edgeSent t k u) := by
  have hcond : EdgeFrame u (condBreach (ringCond k u)) := EdgeFrame.trans (v := ringCond k u) (.refl u) (condBreach_edge _)
  have hout (u : Units) : EdgeFrame u (if u.tick.en && u.tick.outEn then emit (.tickOut (t - u.tick.offset)) u else u) := by
    split
    · exact edgeFrame_written (emit_frame ..)
    · exact .refl u
  have hsend (u : Units) : EdgeFrame u (if u.tick.en && u.tick.src == 0 && u.blk.topoOk && u.fab.masterId == u.fab.selfId then
      sendAll (fun _ => true) 0x01 0 k (le8 u.fab.groupId) [] u else u) := by
    split
    · exact edgeFrame_port (sendAll_port ..)
    · exact .refl u
  exact (hcond.trans (hout _)).trans (hsend _)
/-- What precedes the tables once the snapshots are taken. -/
def edgeCounted (s : State) : Units :=
  let u := pageInReads s.u.tick.number <| matchEdge <| chanEdge s.asm { s.u with svc := { s.u.svc with userEdge := s.u.svc.user } }
  let u := if u.tick.en then blkBump 0 1 u else u
  semEdge (forAll (List.range 58) (fun d => dieBump d 2 1) u)
theorem edgeCounted_edge (s : State) : EdgeFrame s.u (edgeCounted s) := by
  have hchan : EdgeFrame s.u (chanEdge s.asm { s.u with svc := { s.u.svc with userEdge := s.u.svc.user } }) :=
    EdgeFrame.trans (v := { s.u with svc := { s.u.svc with userEdge := s.u.svc.user } }) (.refl _) (chanEdge_edge ..)
  have hmatch (u : Units) : EdgeFrame u (matchEdge u) := .refl u
  have hen (u : Units) : EdgeFrame u (if u.tick.en then blkBump 0 1 u else u) := by
    split
    · exact edgeFrame_blkBump ..
    · exact .refl u
  have hsem (u : Units) : EdgeFrame u (semEdge u) := .refl u
  exact ((((hchan.trans (hmatch _)).trans (pageInReads_edge ..)).trans (hen _)).trans
    (forAll_edge _ (fun d u => edgeFrame_dieBump ..) _)).trans (hsem _)
theorem edge_eq (t k : Nat) (s : State) : edge t k s = { cntLatch k (edgeBegun t k s) with
    u := edgeSent t k (tableEdge k (edgeCounted (cntLatch k (edgeBegun t k s)))) } := by
  delta edge edgeSent edgeCounted edgeBegun
  with_reducible rfl

/-- The tick after the edge at block time t that begins tick k. -/
def edgeTick (t k : Nat) (u : Units) : Tick := tableTick k (tickBegun t k u)
theorem edge_work (t k : Nat) (s : State) :
    EdgeWork { s with u := { s.u with tick := edgeTick t k s.u, fw := fwBegun t s.u } } (edge t k s) := by
  have hbegun := (edgeBegun_work t k s).trans (edgeWork_cntLatch k _)
  rw [edge_eq]
  generalize cntLatch k (edgeBegun t k s) = r at hbegun ⊢
  obtain ⟨hu, hq, hp, ha⟩ := hbegun
  have hcount := hu.trans (edgeCounted_edge r)
  generalize edgeCounted r = v at hcount ⊢
  obtain ⟨htick, hfw, hcore, hstr, hjob, hctx, hslot, hen⟩ := hcount
  refine ⟨EdgeFrame.trans ?_ ((tableEdge_edge k v).trans (edgeSent_edge t k _)), hq, hp, ha⟩
  exact ⟨congrArg (tableTick k) htick, hfw, hcore, hstr, hjob, hctx, hslot, hen⟩

theorem tickEdge_of_due {t k : Nat} (hdue : edgeDue s.u = some (t, k)) (hstop : s.u.tick.stopReq = false)
    (hforced : s.u.tick.forced = false) :
    tickEdge s = edge t k { s with u := { s.u with tick := { s.u.tick with holdover := 0 } } } := by
  unfold tickEdge
  simp only [hdue, hstop, hforced, Bool.false_eq_true, or_self, if_false]
/-- TICK_EDGE is the edge that is due, with no holdover counted. -/
theorem tickEdge_works {t k : Nat} (hdue : edgeDue s.u = some (t, k)) (hstop : s.u.tick.stopReq = false)
    (hforced : s.u.tick.forced = false) : ∃ r, exec .tickEdge s = .next r ∧ EdgeWork { s with u := { s.u with
      tick := edgeTick t k { s.u with tick := { s.u.tick with holdover := 0 } }
      fw := fwBegun t { s.u with tick := { s.u.tick with holdover := 0 } } } } r :=
  ⟨_, congrArg Host.Outcome.next (tickEdge_of_due hdue hstop hforced), edge_work t k _⟩
theorem running_of_due {x : Nat × Nat} (h : edgeDue u = some x) : running u = true := by
  refine Classical.byContradiction fun hr => ?_
  rw [edgeDue] at h
  simp [hr] at h

/-- Settles O11: the tables by the state of the tick at the edge, all else by what the work of an edge keeps. -/
theorem tickEdgeExchangesTablesOrCoasts : Obligations.TickEdgeExchangesTablesOrCoasts := by
  intro s t k hdue hstop hforced
  have hne : s.u.tick.st ≠ .stopped := by
    have := running_of_due hdue
    intro hs
    simp [running, hs] at this
  obtain ⟨r, hr, ⟨htick, hfw, hcore, hstr, hjob, hctx, hslot, -⟩, hq, hp, ha⟩ := tickEdge_works hdue hstop hforced
  obtain ⟨st, cur, next, c, total, first, h, hkeep⟩ := tableTick_keeps k
    (tickBegun t k { s.u with tick := { s.u.tick with holdover := 0 } })
  have htick' := htick.trans hkeep
  refine ⟨r, hr, (congrArg Tick.number htick' :),
    (congrArg Tick.edgeAt htick' :), (congrArg Tick.anchor htick' :), (congrArg Tick.lastMark htick' :),
    (congrArg Tick.holdover htick' :), (congrArg Tick.slew htick' :), (congrArg Tick.slewNext htick' :),
    (congrArg Tick.armSample htick' :), (congrArg Tick.armed htick' :), (congrArg Tick.period htick' :), fun harm => ?_,
    fun harm => ?_, hq, hp, ha, hcore, hstr, hjob, hctx, hslot, ?_, fun hanchor => ?_⟩
  · rw [htick]
    exact tableTick_armed k harm
  · rw [htick]
    exact tableTick_unarmed k harm hne
  · exact hfw.trans ((fwBegun_roles ..).trans (congrArg (fun r => { s.u.fw with roles := Fw.roles r }) hfw.symm))
  · exact hfw.trans (if_neg (by simpa using hanchor))

end Sys2Proof.Machine
end

section
/-! PROOFS. Arming, the arm deadline and group edges (02, R42 to R44, R48 to R51, R64). -/
namespace Sys2Proof.Machine

variable {s : State} {u v w : Units} {rx : Rx} {p : Bytes} {cls : Nat}

/- Arming (R48, R50). -/
theorem unitArm_arms (s : State) (x : UnitId) (table : List LaunchEntry) (hfree : x ∉ s.u.tick.armed)
    (hin : unitInService s.asm s.u x = true) (hrole : (tgetD s.u.fw.roles (unitRole s.asm x) {}).state = 0)
    (hplace : placeOk s.u x table = true) (hlen : table.length ≤ 64) :
    ∃ r, exec (.unitArm x table) s = .next r ∧ x ∈ r.u.tick.armed ∧ (x, table) ∈ r.u.tick.next ∧
      (∀ y, y ∈ s.u.tick.armed → y ∈ r.u.tick.armed) ∧ (∀ y tb, y ≠ x → ((y, tb) ∈ r.u.tick.next ↔ (y, tb) ∈ s.u.tick.next)) ∧
      r = { s with u := { s.u with tick := { s.u.tick with armed := r.u.tick.armed, next := r.u.tick.next } } } := by
  have hgo : ¬ (s.u.tick.armed.contains x = true ∨ (!unitInService s.asm s.u x) = true ∨
      (tgetD s.u.fw.roles (unitRole s.asm x) {}).state ≠ 0 ∨ (!placeOk s.u x table) = true) := by
    simp [hfree, hin, hrole, hplace]
  refine ⟨_, next_of_units (f := unitArm s.asm x table) (if_neg hgo), ?_, ?_, fun y hy => ?_, fun y tb hy => ?_, rfl⟩
  · exact List.mem_append_right _ (List.mem_singleton.mpr rfl)
  · refine List.mem_append_right _ (List.mem_singleton.mpr ?_)
    rw [List.take_of_length_le hlen]
  · exact List.mem_append_left _ hy
  · simp [hy]

theorem unitArm_ignored (s : State) (x : UnitId) (table : List LaunchEntry)
    (h : x ∈ s.u.tick.armed ∨ placeOk s.u x table = false) : exec (.unitArm x table) s = .next s := by
  refine next_of_units (f := unitArm s.asm x table) (v := s.u) (if_pos ?_)
  rcases h with h | h
  · exact .inl (by simpa using h)
  · exact .inr (.inr (.inr (by rw [h]; rfl)))

/- Time advanced. -/
theorem advTo_time {t : Nat} (h : u.tick.time < t) : (advTo t u).tick.time = t % 2 ^ 64 := by
  rw [advTo, if_neg (Nat.not_le.mpr h)]
/-- What advancing time changes. -/
theorem advTo_frame (t : Nat) (u : Units) : ∃ n pw d, advTo t u = { u with
    tick := { u.tick with time := n }, svc := { u.svc with poweredNs := pw }, cnt := { u.cnt with die := d } } :=
  ⟨_, _, _, advTo_eq t u⟩
theorem running_same (ht : v.tick.st = u.tick.st) (hb : v.blk = u.blk) : running v = running u := by
  rw [running, running, isUp, isUp, ht, hb]

/- The arm deadline (R36, R50, R51, R64). -/
theorem markNs_armDeadline (u : Units) : markNs u 6 = u.tick.period * 900 := by
  show u.tick.period * 1000 * 9 / 10 = _
  omega

theorem armDeadline_samples (s : State) (hrun : running s.u = true) (hanchor : s.u.tick.anchor.isSome = true)
    (hnone : s.u.tick.armSample = none) :
    ∃ r, exec .armDeadline s = .next r ∧ r.u.tick.armSample = some (allArmed s.asm s.u) ∧
      r.u.tick.lastArmLate = !allArmed s.asm s.u ∧
      (s.u.tick.time < s.u.tick.edgeAt + s.u.tick.period * 900 →
        r.u.tick.time = (s.u.tick.edgeAt + s.u.tick.period * 900) % 2 ^ 64) ∧
      (allArmed s.asm s.u = false → s.u.tick.st = .coasting → 8 ≤ s.u.tick.coastRun → r.u.tick.haltNext = true) ∧
      r = { s with u := { s.u with tick := r.u.tick, svc := { s.u.svc with poweredNs := r.u.svc.poweredNs },
                                   cnt := { s.u.cnt with die := r.u.cnt.die } } } := by
  have hgo : ¬ ((!running s.u) = true ∨ s.u.tick.anchor.isNone = true ∨ s.u.tick.armSample.isSome = true) := by
    rw [Option.isNone_eq_false_iff.mpr hanchor]
    simp [hrun, hnone]
  have htime := advTo_time (u := s.u) (t := s.u.tick.edgeAt + s.u.tick.period * 900)
  have hact : armDeadline s.asm s.u =
      let u := advTo (s.u.tick.edgeAt + s.u.tick.period * 900) s.u
      { u with tick := { u.tick with
        armSample := some (allArmed s.asm u), lastArmLate := !allArmed s.asm u
        haltNext := !allArmed s.asm u && u.tick.st == .coasting && 8 ≤ u.tick.coastRun } } := by
    rw [armDeadline, if_neg hgo, markNs_armDeadline]
  obtain ⟨n, pw, d, hadv⟩ := advTo_frame (s.u.tick.edgeAt + s.u.tick.period * 900) s.u
  rw [hadv] at hact htime
  refine ⟨_, next_of_units (f := armDeadline s.asm) hact, rfl, rfl, htime, fun harm hst hcoast => ?_, rfl⟩
  show (!allArmed s.asm s.u && s.u.tick.st == .coasting && decide (8 ≤ s.u.tick.coastRun)) = true
  simp [harm, hst, hcoast]

theorem armDeadline_once (s : State) (h : s.u.tick.armSample ≠ none) : exec .armDeadline s = .next s :=
  next_of_units (f := armDeadline s.asm) (v := s.u) (if_pos (.inr (.inr (Option.isSome_iff_ne_none.mpr h))))

/- TICK_HALT (R64). -/
theorem tickHalt_eq (s : State) (h : s.u.tick.haltNext = true) : exec .tickHalt s = exec .tickEdge s :=
  congrArg Host.Outcome.next (if_pos h)

theorem tickHalt_halts (s : State) (t k : Nat) (hdue : edgeDue s.u = some (t, k)) (hstop : s.u.tick.stopReq = false)
    (hforced : s.u.tick.forced = false) (hhalt : s.u.tick.haltNext = true) (hst : s.u.tick.st = .coasting)
    (harm : s.u.tick.armSample ≠ some true) :
    ∃ r, exec .tickHalt s = .next r ∧ r.u.tick.st = .halted ∧ r.u.tick.haltedBit = true ∧ r.u.tick.number = k % 2 ^ 64 := by
  obtain ⟨r, hr, hnum, -, -, -, -, -, -, -, -, -, -, hun, -⟩ := tickEdgeExchangesTablesOrCoasts s t k hdue hstop hforced
  obtain ⟨-, -, -, -, hh, -⟩ := hun harm
  obtain ⟨hst', hbit⟩ := hh hst hhalt
  exact ⟨r, (tickHalt_eq s hhalt).trans hr, hst', hbit, hnum⟩

/- A measured group edge (R42, R43, R46). -/
/-- The first group edge fixes the phase. -/
theorem judge_first (g : Nat) (num : Option Nat) (hanchor : u.tick.anchor = none) (hnone : u.tick.groupEdge = none) :
    noticeFrame { u with tick := { u.tick with groupEdge := some g, groupNum := some (num.getD (firstNum u g)) } } (judge g num u) := by
  have hexp : expected u = none := by rw [expected, hanchor]; rfl
  unfold judge
  simp only [hexp, hnone, Option.isSome_none, Bool.false_eq_true, if_false]
  split
  · exact notice_frame ..
  · exact noticeFrame_refl _
/-- A later one is judged by its distance from the edge expected. -/
theorem judge_later {a e : Nat} (g : Nat) (num : Option Nat) (hanchor : u.tick.anchor = some a) (hnone : u.tick.groupEdge = none)
    (he : a - u.tick.offset + u.tick.period * 1000 = e) :
    (g ≤ e + 500 → e ≤ g + 500 → judge g num u = { u with tick := { u.tick with groupEdge := some g } }) ∧
      (g > e + 500 ∨ e > g + 500 → judge g num u = { u with tick := { u.tick with stray := u.tick.stray + 1 } }) := by
  have hexp : expected u = some e := by rw [expected, hanchor, ← he]; rfl
  unfold judge
  simp only [hexp, hnone, Option.isNone_none, and_true]
  exact ⟨fun h h' => if_pos (by omega), fun h => if_neg (by omega)⟩

theorem tickInEdge_judges {at_ : Nat} (hsrc : s.u.tick.src = 1) (hrun : running s.u = true) :
    tickInEdge at_ s.u = judge (at_ - s.u.tick.inlat) none (advTo at_ s.u) := by
  have hgo : ¬ ((advTo at_ s.u).tick.src ≠ 1 ∨ (!running (advTo at_ s.u)) = true) := by
    obtain ⟨n, pw, d, hadv⟩ := advTo_frame at_ s.u
    rw [running_same (u := s.u) (by rw [hadv]) (by rw [hadv]), hrun, hadv]
    simp [hsrc]
  refine (if_neg hgo).trans ?_
  obtain ⟨n, pw, d, hadv⟩ := advTo_frame at_ s.u
  rw [hadv]

theorem tickInEdge_first (s : State) (at_ : Nat) (hsrc : s.u.tick.src = 1) (hrun : running s.u = true)
    (hanchor : s.u.tick.anchor = none) (hnone : s.u.tick.groupEdge = none) :
    ∃ r, exec (.tickInEdge at_) s = .next r ∧ r.u.tick.groupEdge = some (at_ - s.u.tick.inlat) ∧
      r.u.tick.stray = s.u.tick.stray ∧ r.u.tick.number = s.u.tick.number ∧ r.q = s.q ∧ r.m = s.m := by
  have hact := tickInEdge_judges (at_ := at_) hsrc hrun
  obtain ⟨n, pw, d, hadv⟩ := advTo_frame at_ s.u
  rw [hadv] at hact
  obtain ⟨htick, -⟩ := noticeFrame_keeps (judge_first (u := { s.u with
    tick := { s.u.tick with time := n }, svc := { s.u.svc with poweredNs := pw }, cnt := { s.u.cnt with die := d } })
    (at_ - s.u.tick.inlat) none hanchor hnone)
  exact ⟨_, next_of_units (f := tickInEdge at_) hact, (congrArg Tick.groupEdge htick :), (congrArg Tick.stray htick :),
    (congrArg Tick.number htick :), rfl, rfl⟩

theorem tickInEdge_later (s : State) (at_ a : Nat) (hsrc : s.u.tick.src = 1) (hrun : running s.u = true)
    (hanchor : s.u.tick.anchor = some a) (hnone : s.u.tick.groupEdge = none) :
    ∃ r, exec (.tickInEdge at_) s = .next r ∧
      (let e := a - s.u.tick.offset + s.u.tick.period * 1000
       let g := at_ - s.u.tick.inlat
       (g ≤ e + 500 → e ≤ g + 500 → r.u.tick.groupEdge = some g ∧ r.u.tick.stray = s.u.tick.stray) ∧
       (g > e + 500 ∨ e > g + 500 → r.u.tick.groupEdge = none ∧ r.u.tick.stray = s.u.tick.stray + 1)) ∧
      r.u.tick.number = s.u.tick.number ∧ r.q = s.q ∧ r.m = s.m := by
  have hact := tickInEdge_judges (at_ := at_) hsrc hrun
  obtain ⟨n, pw, d, hadv⟩ := advTo_frame at_ s.u
  rw [hadv] at hact
  obtain ⟨hnear, hfar⟩ := judge_later (e := a - s.u.tick.offset + s.u.tick.period * 1000) (u := { s.u with
    tick := { s.u.tick with time := n }, svc := { s.u.svc with poweredNs := pw }, cnt := { s.u.cnt with die := d } })
    (at_ - s.u.tick.inlat) none hanchor hnone rfl
  by_cases hd : at_ - s.u.tick.inlat ≤ a - s.u.tick.offset + s.u.tick.period * 1000 + 500 ∧
      a - s.u.tick.offset + s.u.tick.period * 1000 ≤ at_ - s.u.tick.inlat + 500
  · obtain ⟨hlow, hhigh⟩ := hd
    exact ⟨_, next_of_units (f := tickInEdge at_) (hact.trans (hnear hlow hhigh)),
      ⟨fun _ _ => ⟨rfl, rfl⟩, fun h => absurd h (by omega)⟩, rfl, rfl, rfl⟩
  · exact ⟨_, next_of_units (f := tickInEdge at_) (hact.trans (hfar (by omega))),
      ⟨fun h h' => absurd ⟨h, h'⟩ hd, fun _ => ⟨hnone, rfl⟩⟩, rfl, rfl, rfl⟩

/- A packet that arrives as time advances. -/
/-- What a port sends depends on the ports and the outputs alone. -/
theorem portSend_same (n port : Nat) (ho : v.out = u.out) (hf : v.fab = u.fab) :
    (portSend n port v).out = (portSend n port u).out ∧ (portSend n port v).fab = (portSend n port u).fab := by
  induction n generalizing u v with
  | zero => exact ⟨ho, hf⟩
  | succ n ih =>
    unfold portSend
    simp only [hf]
    split
    · exact ⟨ho, hf⟩
    · exact ih (congrArg (· ++ _) ho) (by simp only [emit])
theorem creditsBack_same (port : Nat) (l : List (Fin 4 × Nat)) (ho : v.out = u.out) (hf : v.fab = u.fab) :
    (creditsBack port l v).out = (creditsBack port l u).out ∧ (creditsBack port l v).fab = (creditsBack port l u).fab := by
  unfold creditsBack
  simp only [hf]
  split
  · exact ⟨ho, hf⟩
  · exact portSend_same _ port ho rfl
theorem rxFlits_same (r : Rx) (ho : v.out = u.out) (hf : v.fab = u.fab) :
    (rxFlits r v).out = (rxFlits r u).out ∧ (rxFlits r v).fab = (rxFlits r u).fab := by
  obtain ⟨ho', hf'⟩ := creditsBack_same r.port r.back ho hf
  unfold rxFlits
  dsimp only
  split
  · exact ⟨ho', hf'⟩
  · exact ⟨ho', by simp only [hf']⟩
theorem arrives_same (ho : v.out = u.out) (hf : v.fab = u.fab) (hb : v.blk = u.blk) (h : arrives u cls rx p) :
    arrives v cls rx p := by
  obtain ⟨hup, hbeyond, hfault, hcls⟩ := h
  obtain ⟨-, hflits⟩ := rxFlits_same rx ho hf
  refine ⟨?_, ?_, ?_, hcls⟩
  · rw [isUp, hb]
    exact hup
  · rw [rxBeyond, hflits]
    exact hbeyond
  · rw [fabFault, hf]
    exact hfault

/-- A packet that arrives as time advances to its arrival. -/
theorem fabReceive_at (at_ : Nat) (h : arrives u cls rx p) (f : Units → Units) : ∃ n pw d pt,
    advTo at_ u = { u with
      tick := { u.tick with time := n }, svc := { u.svc with poweredNs := pw }, cnt := { u.cnt with die := d } } ∧
    rxHold rx p (rxFlits rx (advTo at_ u)) = arrivedUnits (advTo at_ u) (rxFlits rx u).out pt ∧
    fabReceive cls rx p f (advTo at_ u) = f (arrivedUnits { u with
      tick := { u.tick with time := n }, svc := { u.svc with poweredNs := pw }, cnt := { u.cnt with die := d } }
      (rxFlits rx u).out pt) := by
  obtain ⟨n, pw, d, hadv⟩ := advTo_frame at_ u
  have ho : (advTo at_ u).out = u.out := by rw [hadv]
  have hf : (advTo at_ u).fab = u.fab := by rw [hadv]
  obtain ⟨pt, hpt, hhold⟩ := fabReceive_arrives (arrives_same ho hf (by rw [hadv]) h) f
  rw [(rxFlits_same rx ho hf).1] at hpt hhold
  rw [hadv] at hpt
  exact ⟨n, pw, d, pt, hadv, hhold, (congrArg (fabReceive cls rx p f) hadv).trans hpt⟩

theorem tickPacket_first (s : State) (rx : Rx) (pkt : Bytes) (at_ : Nat) (hsrc : s.u.tick.src = 2) (hrun : running s.u = true)
    (hanchor : s.u.tick.anchor = none) (hnone : s.u.tick.groupEdge = none) (harr : arrives s.u 0x01 rx pkt)
    (hgroup : le pkt 32 8 = s.u.fab.groupId) :
    ∃ r, exec (.tickPacket rx pkt at_) s = .next r ∧ r.u.tick.groupEdge = some (at_ - s.u.tick.inlat) ∧
      r.u.tick.groupNum = some (le pkt 24 8) ∧ r.u.tick.stray = s.u.tick.stray ∧ r.q = s.q ∧ r.m = s.m := by
  obtain ⟨n, pw, d, pt, -, -, hact⟩ := fabReceive_at at_ harr (fun u =>
    if u.tick.src ≠ 2 ∨ !running u then u
    else if le pkt 32 8 ≠ u.fab.groupId then { u with fab := { u.fab with foreign := u.fab.foreign + 1 } }
    else
      let k := le pkt 24 8
      let want := if u.tick.anchor.isNone then k else u.tick.number + 1
      if k ≠ want then
        noticeLimited (dieKey 3 0) 0x0104 0 0 [k, want] { u with tick := { u.tick with stray := u.tick.stray + 1 } }
      else judge (at_ - u.tick.inlat) (some k) u)
  generalize hv : arrivedUnits _ _ _ = v at hact
  have htick : v.tick = { s.u.tick with time := n } := by rw [← hv]; rfl
  have hgo : ¬ (v.tick.src ≠ 2 ∨ (!running v) = true) := by
    rw [running_same (u := s.u) (by rw [htick]) (by rw [← hv]; rfl), hrun, htick]
    simp [hsrc]
  have hgroup' : ¬ le pkt 32 8 ≠ v.fab.groupId := by
    rw [← hv]
    exact not_not_intro hgroup
  have hanchor' : v.tick.anchor = none := by rw [htick]; exact hanchor
  simp only [if_neg hgo, if_neg hgroup', hanchor', Option.isNone_none, if_true, ne_eq, not_true_eq_false, if_false] at hact
  obtain ⟨hkeep, -⟩ := noticeFrame_keeps (judge_first (u := v) (at_ - v.tick.inlat) (some (le pkt 24 8)) hanchor'
    (by rw [htick]; exact hnone))
  refine ⟨_, next_of_units (f := tickPacket rx pkt at_) hact, ?_, (congrArg Tick.groupNum hkeep :), ?_, rfl, rfl⟩
  · exact (congrArg Tick.groupEdge hkeep).trans (by rw [htick])
  · exact (congrArg Tick.stray hkeep).trans (by rw [htick])

/- The holdover edge (R44). -/
/-- A state once its holdover edges count n, at block time t. -/
def heldOver (t n : Nat) (r : State) : State := { r with u := advTo t { r.u with tick := { r.u.tick with holdover := n } } }
theorem holdoverEdge_works {a : Nat} (hsrc : s.u.tick.src ≠ 0) (hrun : running s.u = true) (hnone : s.u.tick.groupEdge = none)
    (hstop : s.u.tick.stopReq = false) (hforced : s.u.tick.forced = false) (hanchor : s.u.tick.anchor = some a) :
    ∃ r n pw d, holdoverEdge s = { r with u := { r.u with
        tick := { r.u.tick with holdover := s.u.tick.holdover + 1, time := n }, svc := { r.u.svc with poweredNs := pw }
        cnt := { r.u.cnt with die := d } } } ∧
      EdgeWork { s with u := { s.u with
        tick := edgeTick (a - s.u.tick.offset + s.u.tick.period * 1000 + s.u.tick.offset) (s.u.tick.number + 1) s.u
        fw := fwBegun (a - s.u.tick.offset + s.u.tick.period * 1000 + s.u.tick.offset) s.u } } r := by
  have hgo : ¬ (s.u.tick.src = 0 ∨ (!running s.u) = true ∨ s.u.tick.groupEdge.isSome = true) := by simp [hsrc, hrun, hnone]
  have hdue : holdoverDue s.u =
      some (a - s.u.tick.offset + s.u.tick.period * 1000 + s.u.tick.offset, s.u.tick.number + 1) := by
    rw [holdoverDue, if_neg hgo, expected, hanchor]
    rfl
  have hwork := edge_work (a - s.u.tick.offset + s.u.tick.period * 1000 + s.u.tick.offset) (s.u.tick.number + 1) s
  have hact : holdoverEdge s =
      heldOver (a - s.u.tick.offset + s.u.tick.period * 1000 + s.u.tick.offset - s.u.tick.offset + 500) (s.u.tick.holdover + 1)
        (edge (a - s.u.tick.offset + s.u.tick.period * 1000 + s.u.tick.offset) (s.u.tick.number + 1) s) := by
    unfold holdoverEdge
    simp only [hdue, hstop, hforced, Bool.false_eq_true, or_self, if_false]
    rfl
  generalize edge _ _ s = r at hwork hact
  obtain ⟨n, pw, d, hadv⟩ := advTo_frame (a - s.u.tick.offset + s.u.tick.period * 1000 + s.u.tick.offset - s.u.tick.offset + 500)
    { r.u with tick := { r.u.tick with holdover := s.u.tick.holdover + 1 } }
  rw [heldOver, hadv] at hact
  exact ⟨r, n, pw, d, hact, hwork⟩

theorem holdoverEdge_makes (s : State) (a : Nat) (hsrc : s.u.tick.src ≠ 0) (hrun : running s.u = true)
    (hnone : s.u.tick.groupEdge = none) (hstop : s.u.tick.stopReq = false) (hforced : s.u.tick.forced = false)
    (hanchor : s.u.tick.anchor = some a) :
    ∃ r, exec .holdoverEdge s = .next r ∧ r.u.tick.number = (s.u.tick.number + 1) % 2 ^ 64 ∧
      r.u.tick.edgeAt = a - s.u.tick.offset + s.u.tick.period * 1000 + s.u.tick.offset ∧
      r.u.tick.anchor = some r.u.tick.edgeAt ∧ r.u.tick.holdover = s.u.tick.holdover + 1 ∧ r.u.tick.lastMark = 6 ∧
      r.q = s.q ∧ r.pending = s.pending ∧ r.u.core = s.u.core ∧ r.u.str = s.u.str := by
  obtain ⟨r, n, pw, d, hact, ⟨htick, -, hcore, hstr, -⟩, hq, hp, -⟩ := holdoverEdge_works hsrc hrun hnone hstop hforced hanchor
  obtain ⟨st, cur, next, c, total, first, h, hkeep⟩ := tableTick_keeps (s.u.tick.number + 1)
    (tickBegun (a - s.u.tick.offset + s.u.tick.period * 1000 + s.u.tick.offset) (s.u.tick.number + 1) s.u)
  have htick' := htick.trans hkeep
  have hat : r.u.tick.edgeAt = a - s.u.tick.offset + s.u.tick.period * 1000 + s.u.tick.offset := (congrArg Tick.edgeAt htick' :)
  exact ⟨_, congrArg Host.Outcome.next hact, (congrArg Tick.number htick' :), hat,
    (congrArg Tick.anchor htick').trans (congrArg some hat.symm), rfl, (congrArg Tick.lastMark htick' :), hq, hp, hcore, hstr⟩

/-- Settles O12: arming and the deadline by their conditions, a group edge by the edge expected, a holdover edge by what an
edge's work keeps. -/
theorem armingAndGroupEdges : Obligations.ArmingAndGroupEdges := by
  refine ⟨⟨unitArm_arms, unitArm_ignored, armDeadline_samples, armDeadline_once, tickHalt_eq, tickHalt_halts⟩,
    tickInEdge_first, tickInEdge_later, tickPacket_first, holdoverEdge_makes, fun s h => ?_, fun s h => ?_⟩
  · exact next_of_units (f := srcFault) (if_pos h)
  · exact next_of_units (f := srcFault) (v := s.u) (if_neg h)

end Sys2Proof.Machine
end

section
/-! PROOFS. Time discipline (13, R384). -/
namespace Sys2Proof.Machine

variable {s : State} {u v w : Units} {rx : Rx} {p : Bytes} {cls : Nat}

/- A packet that leaves at once (R375). -/
theorem pktUnits_fabPkt (cls vc tag dst src tick : Nat) (cf : Bytes) : pktUnits (fabPkt cls vc tag dst src tick cf []) = 1 := by
  have hlen : (fabPkt cls vc tag dst src tick cf []).length = 64 := by
    simp [fabPkt, sliceZ]
    omega
  rw [pktUnits, hlen]
  rfl
/-- The channels of a port at which a packet of virtual channel 0 alone waits. -/
theorem nextVc_one {x : FabPort} (hw : x.wait = [(0, p)]) (hfit : tgetD x.spent 0 0 + pktUnits p ≤ vcCredits 0) :
    vcReady x 0 = some p ∧ nextVc x = some 0 := by
  have h0 : vcReady x 0 = some p := by simp [vcReady, hw, hfit]
  have h2 : vcReady x 2 = none := by simp [vcReady, hw]
  exact ⟨h0, by simp [nextVc, h0, h2]⟩
/-- Where its port holds the credits and nothing waits in it, a packet of virtual channel 0 leaves at once. -/
theorem fabPut_leaves {port n : Nat} (hfree : portFree u port 0 n) (hn : pktUnits p = n) :
    ∃ pt, fabPut port 0 p u = { u with out := u.out ++ [.fabric port p], fab := { u.fab with ports := pt } } := by
  obtain ⟨hwait, hfit⟩ := hfree
  rw [← hn] at hfit
  let x := { tgetD u.fab.ports port {} with wait := [(0, p)] }
  obtain ⟨hready, hnext⟩ := nextVc_one (x := x) rfl hfit
  have hone : fabPut port 0 p u = portSend 1 port { u with fab := { u.fab with ports := tset u.fab.ports port x } } := by
    rw [fabPut]
    simp only [hwait, List.nil_append, List.length_singleton]
    rfl
  rw [hone, portSend]
  simp only [tgetD_tset_self, hnext, hready, Option.getD_some, portSend]
  exact ⟨_, rfl⟩

/- The master's SYNC. -/
/-- The master as it sends SYNC at block time t: the next SYNCNO. -/
def syncNext (t : Nat) (u : Units) : Units :=
  { advTo t u with fab := { (advTo t u).fab with lastNo := ((advTo t u).fab.lastNo + 1) % 2 ^ 32 } }
theorem syncNext_frame {t : Nat} (h : u.tick.time < t) : (syncNext t u).out = u.out ∧
    (syncNext t u).fab = { u.fab with lastNo := (u.fab.lastNo + 1) % 2 ^ 32 } ∧ (syncNext t u).tick.time = t % 2 ^ 64 := by
  have htime := advTo_time h
  rw [syncNext, advTo_eq]
  exact ⟨rfl, rfl, htime⟩
/-- SYNC sent to every neighbour at block time t. -/
def syncSentAt (t : Nat) (u : Units) : Units :=
  let u := advTo t u
  let no := (u.fab.lastNo + 1) % 2 ^ 32
  sendAll (fun _ => true) 0x02 0 0 (le8 u.tick.time ++ leBytes 4 no) [] { u with fab := { u.fab with lastNo := no } }
theorem syncSentAt_eq (t : Nat) (u : Units) : syncSentAt t u =
    sendAll (fun _ => true) 0x02 0 0 (le8 (syncNext t u).tick.time ++ leBytes 4 (syncNext t u).fab.lastNo) [] (syncNext t u) := by
  simp only [syncSentAt, syncNext]
theorem syncSend_at (hup : isUp u = true) (htopo : u.blk.topoOk = true) (hmaster : u.fab.masterId = u.fab.selfId) :
    syncSend u = syncSentAt ((u.tick.time / 1000000 + 1) * 1000000) u := by
  have hgo : ¬ ((!isUp u) = true ∨ (!u.blk.topoOk) = true ∨ u.fab.masterId ≠ u.fab.selfId) := by simp [hup, htopo, hmaster]
  delta syncSend syncSentAt
  exact if_neg hgo
theorem syncSend_sends (hup : isUp u = true) (htopo : u.blk.topoOk = true) (hmaster : u.fab.masterId = u.fab.selfId) :
    ∃ t, t = (u.tick.time / 1000000 + 1) * 1000000 ∧ u.tick.time < t ∧
      syncSend u = sendAll (fun _ => true) 0x02 0 0 (le8 (syncNext t u).tick.time ++ leBytes 4 (syncNext t u).fab.lastNo) []
        (syncNext t u) :=
  ⟨_, rfl, by omega, (syncSend_at hup htopo hmaster).trans (syncSentAt_eq _ u)⟩

theorem syncSend_alone (s : State) (hup : isUp s.u = true) (htopo : s.u.blk.topoOk = true)
    (hmaster : s.u.fab.masterId = s.u.fab.selfId) (hnone : s.u.fab.nbrs = []) :
    ∃ r, exec .syncSend s = .next r ∧ r.u.fab.lastNo = (s.u.fab.lastNo + 1) % 2 ^ 32 ∧
      r.u.tick.time = ((s.u.tick.time / 1000000 + 1) * 1000000) % 2 ^ 64 ∧ r.u.out = s.u.out ∧ r.q = s.q ∧ r.m = s.m := by
  obtain ⟨t, ht, hlt, hact⟩ := syncSend_sends hup htopo hmaster
  obtain ⟨hout, hfab, htime⟩ := syncNext_frame hlt
  have hnbrs : (syncNext t s.u).fab.nbrs = [] := by rw [hfab]; exact hnone
  rw [sendAll, hnbrs] at hact
  rw [← ht]
  exact ⟨_, next_of_units hact, (congrArg Fabric.lastNo hfab :), htime, hout, rfl, rfl⟩

theorem syncSend_neighbour (s : State) (n : Nbr) (hup : isUp s.u = true) (htopo : s.u.blk.topoOk = true)
    (hmaster : s.u.fab.masterId = s.u.fab.selfId) (hone : s.u.fab.nbrs = [n]) (hfree : portFree s.u (2 * n.xdie) 0 1) :
    ∃ r, exec .syncSend s = .next r ∧ r.u.out = s.u.out ++ [.fabric (2 * n.xdie)
      (fabPkt 0x02 0 0 n.id s.u.fab.selfId 0 (le8 r.u.tick.time ++ leBytes 4 r.u.fab.lastNo) [])] := by
  obtain ⟨t, -, hlt, hact⟩ := syncSend_sends hup htopo hmaster
  obtain ⟨hout, hfab, -⟩ := syncNext_frame hlt
  generalize syncNext t s.u = v at hact hout hfab
  have hfree' : portFree v (2 * n.xdie) 0 1 := by rwa [portFree, hfab]
  have hself : v.fab.selfId = s.u.fab.selfId := by rw [hfab]
  have hnbrs : v.fab.nbrs = [n] := by rw [hfab]; exact hone
  obtain ⟨pt, hput⟩ := fabPut_leaves hfree' (pktUnits_fabPkt 0x02 0 0 n.id v.fab.selfId 0
    (le8 v.tick.time ++ leBytes 4 v.fab.lastNo))
  have hsend : sendAll (fun _ => true) 0x02 0 0 (le8 v.tick.time ++ leBytes 4 v.fab.lastNo) [] v =
      fabPut (2 * n.xdie) 0 (fabPkt 0x02 0 0 n.id v.fab.selfId 0 (le8 v.tick.time ++ leBytes 4 v.fab.lastNo) []) v := by
    rw [sendAll, hnbrs]
    rfl
  refine ⟨_, next_of_units (hact.trans (hsend.trans hput)), ?_⟩
  exact congr (congrArg (fun o i => o ++ [Out.fabric (2 * n.xdie) (fabPkt 0x02 0 0 n.id i 0
    (le8 v.tick.time ++ leBytes 4 v.fab.lastNo) [])]) hout) hself

/- A follower's SYNC. -/
/-- The fabric's state once SYNC p has come at block time t, as the n-th since the last DREQ. -/
def synced (p : Bytes) (t n : Nat) (f : Fabric) : Fabric := { f with lastNo := le p 40 4, lastAt := t, lostNoted := false, syncs := n }
theorem syncReceive_disciplines {at_ : Nat} {d : Int} (harr : arrives s.u 0x02 rx p) (hdisc : disciplined s.u = true)
    (hmaster : le p 16 8 = s.u.fab.masterId) (hdelay : s.u.fab.delay = some d) (hn : s.u.fab.syncs + 1 ≠ 16) :
    ∃ (v : Units) (n : Nat) (pt : Tbl FabPort), n = (advTo at_ s.u).tick.time ∧ v.tick = { s.u.tick with time := n } ∧
      v.fab = { s.u.fab with ports := pt } ∧ v.out = (rxFlits rx s.u).out ∧ syncReceive rx p at_ s.u =
        discipline (s64 ((at_ : Int) - (le p 32 8 : Nat) - d)) { v with fab := synced p at_ (v.fab.syncs + 1) v.fab } := by
  obtain ⟨n, pw, x, pt, hadv, -, hact⟩ := fabReceive_at at_ harr (fun u =>
    let port := rx.port.val
    if !disciplined u ∨ le p 16 8 ≠ u.fab.masterId then u
    else
      let t1 := le p 32 8
      let no := le p 40 4
      let n := u.fab.syncs + 1
      let u := { u with fab := { u.fab with
        lastNo := no, lastAt := at_, lostNoted := false, syncs := if n = 16 then 0 else n } }
      let u := match u.fab.delay with
        | some d => discipline (s64 ((at_ : Int) - t1 - d)) u
        | none => u
      if n = 16 then
        let u := { u with fab := { u.fab with sync := some (t1, at_, no), t3 := u.tick.time } }
        sendTo port u.fab.masterId 0x03 0 0 0 (le8 u.tick.time ++ leBytes 4 no) [] u
      else u)
  generalize hv : arrivedUnits _ _ _ = v at hact
  have hfab : v.fab = { s.u.fab with ports := pt } := by rw [← hv]; rfl
  have hgo : ¬ ((!disciplined v) = true ∨ le p 16 8 ≠ v.fab.masterId) := by
    have hdisc' : disciplined v = true := by rw [← hv]; exact hdisc
    rw [hdisc', hfab, hmaster]
    simp
  have hn' : ¬ v.fab.syncs + 1 = 16 := by rw [hfab]; exact hn
  have hdelay' : v.fab.delay = some d := by rw [hfab]; exact hdelay
  refine ⟨v, n, pt, by rw [hadv], by rw [← hv]; rfl, hfab, by rw [← hv]; rfl, Eq.trans hact ?_⟩
  simp only [if_neg hgo, if_neg hn', hdelay', synced]

theorem syncReceive_steps (s : State) (rx : Rx) (pkt : Bytes) (at_ : Nat) (d : Int) (harr : arrives s.u 0x02 rx pkt)
    (hdisc : disciplined s.u = true) (hmaster : le pkt 16 8 = s.u.fab.masterId) (hdelay : s.u.fab.delay = some d)
    (hen : s.u.tick.en = false) (hst : s.u.tick.st = .stopped) (hn : s.u.fab.syncs + 1 ≠ 16) (hlt : s.u.tick.time < at_)
    (hat : at_ < 2 ^ 64) :
    ∃ r, exec (.syncReceive rx pkt at_) s = .next r ∧
      r.u.tick.time = unsigned 64 ((at_ : Int) - s64 ((at_ : Int) - (le pkt 32 8 : Nat) - d)) ∧ r.u.fab.integ = 0 ∧
      r.u.fab.syncs = s.u.fab.syncs + 1 ∧ r.u.fab.lastNo = le pkt 40 4 ∧ r.u.out = (rxFlits rx s.u).out ∧ r.q = s.q ∧
      r.m = s.m := by
  obtain ⟨v, n, pt, htime, htick, hfab, hout, hact⟩ := syncReceive_disciplines (at_ := at_) harr hdisc hmaster hdelay hn
  rw [advTo_time hlt, Nat.mod_eq_of_lt hat] at htime
  subst htime
  have hno : ¬ (v.tick.en || v.tick.st != .stopped) = true := by simp [htick, hen, hst]
  refine ⟨_, next_of_units (f := syncReceive rx pkt n) (hact.trans (if_neg hno)), ?_, rfl, ?_, rfl, hout, rfl, rfl⟩
  · exact congrArg (fun t : Tick => unsigned 64 ((t.time : Int) - s64 ((n : Int) - (le pkt 32 8 : Nat) - d))) htick
  · exact (congrArg (fun f : Fabric => f.syncs + 1) hfab :)

theorem clampI_idem (lo hi x : Int) (h : lo ≤ hi) : clampI lo hi (clampI lo hi x) = clampI lo hi x := by
  unfold clampI
  omega

theorem syncReceive_slews (s : State) (rx : Rx) (pkt : Bytes) (at_ : Nat) (d : Int) (harr : arrives s.u 0x02 rx pkt)
    (hdisc : disciplined s.u = true) (hmaster : le pkt 16 8 = s.u.fab.masterId) (hdelay : s.u.fab.delay = some d)
    (hen : s.u.tick.en = true) (hst : s.u.tick.st ≠ .stopped) (hn : s.u.fab.syncs + 1 ≠ 16) :
    ∃ r, exec (.syncReceive rx pkt at_) s = .next r ∧
      (let theta := s64 ((at_ : Int) - (le pkt 32 8 : Nat) - d)
       r.u.fab.integ = clampI (-200000) 200000 (s64 (s.u.fab.integ - 32 * theta)) ∧
       r.u.tick.slewNext = some (clampI (-200000) 200000 (s64 (r.u.fab.integ - 500 * theta)))) := by
  obtain ⟨v, n, pt, -, htick, hfab, -, hact⟩ := syncReceive_disciplines (at_ := at_) harr hdisc hmaster hdelay hn
  have hruns : (v.tick.st != .stopped) = true := by simp [htick, hst]
  have hgo : (v.tick.en || v.tick.st != .stopped) = true := by simp [htick, hen]
  refine ⟨_, next_of_units (f := syncReceive rx pkt at_) ((hact.trans (if_pos hgo)).trans (if_pos hruns)), ?_, ?_⟩
  · have hinteg : v.fab.integ = s.u.fab.integ := (congrArg Fabric.integ hfab :)
    exact congrArg (fun i => clampI (-200000) 200000 (s64 (i - 32 * s64 ((at_ : Int) - (le pkt 32 8 : Nat) - d)))) hinteg
  · exact congrArg some (clampI_idem _ _ _ (by decide))

/- DREQ and DRESP. -/
theorem portFree_rxHold {vc n : Nat} (h : portFree u rx.port vc n) : portFree (rxHold rx p u) rx.port vc n := by
  unfold rxHold
  dsimp only
  split
  · exact h
  · simpa only [portFree, tgetD_tset_self] using h

theorem dreqReceive_answers (s : State) (rx : Rx) (pkt : Bytes) (at_ : Nat) (harr : arrives s.u 0x03 rx pkt)
    (htopo : s.u.blk.topoOk = true) (hmaster : s.u.fab.masterId = s.u.fab.selfId) (hfree : portFree (rxFlits rx s.u) rx.port 0 1) :
    ∃ r, exec (.dreqReceive rx pkt at_) s = .next r ∧ r.u.out = (rxFlits rx s.u).out ++ [.fabric rx.port
      (fabPkt 0x04 0 0 (le pkt 16 8) s.u.fab.selfId 0
        (le8 (le pkt 32 8) ++ leBytes 4 (le pkt 40 4) ++ leBytes 4 0 ++ le8 at_) [])] ∧ r.q = s.q ∧ r.m = s.m := by
  obtain ⟨n, pw, d, pt, hadv, hhold, hact⟩ := fabReceive_at at_ harr (fun u =>
    let port := rx.port.val
    if !u.blk.topoOk ∨ u.fab.masterId ≠ u.fab.selfId then u
    else
      let cf := le8 (le pkt 32 8) ++ leBytes 4 (le pkt 40 4) ++ leBytes 4 0 ++ le8 at_
      sendTo port (le pkt 16 8) 0x04 0 0 0 cf [] u)
  have hfree' : portFree (rxFlits rx (advTo at_ s.u)) rx.port 0 1 := by
    rw [portFree, (rxFlits_same rx (u := s.u) (by rw [hadv]) (by rw [hadv])).2]
    exact hfree
  have hfree'' := portFree_rxHold (p := pkt) hfree'
  rw [hhold, hadv] at hfree''
  have hgo : ¬ ((!s.u.blk.topoOk) = true ∨ s.u.fab.masterId ≠ s.u.fab.selfId) := by simp [htopo, hmaster]
  obtain ⟨pt', hput⟩ := fabPut_leaves hfree'' (pktUnits_fabPkt 0x04 0 0 (le pkt 16 8) s.u.fab.selfId 0
    (le8 (le pkt 32 8) ++ leBytes 4 (le pkt 40 4) ++ leBytes 4 0 ++ le8 at_))
  exact ⟨_, next_of_units (f := dreqReceive rx pkt at_) ((Eq.trans hact (if_neg hgo)).trans hput), rfl, rfl, rfl⟩

theorem drespReceive_fixes (s : State) (rx : Rx) (pkt : Bytes) (at_ t1 t2 no : Nat) (harr : arrives s.u 0x04 rx pkt)
    (hdisc : disciplined s.u = true) (hmaster : le pkt 16 8 = s.u.fab.masterId) (hsync : s.u.fab.sync = some (t1, t2, no))
    (hno : le pkt 40 4 = no) :
    ∃ r, exec (.drespReceive rx pkt at_) s = .next r ∧ r.u.fab.sync = none ∧
      r.u.fab.delay = some (Int.tdiv (s64 ((t2 : Int) - t1 + ((le pkt 48 8 : Nat) - s.u.fab.t3))) 2) ∧
      r.u.out = (rxFlits rx s.u).out ∧ r.q = s.q ∧ r.m = s.m := by
  obtain ⟨n, pw, d, pt, -, -, hact⟩ := fabReceive_at at_ harr (fun u =>
    match u.fab.sync with
    | some (t1, t2, no) =>
      if disciplined u ∧ le pkt 16 8 = u.fab.masterId ∧ le pkt 40 4 = no then
        let d := Int.tdiv (s64 (((t2 : Int) - t1) + ((le pkt 48 8 : Int) - u.fab.t3))) 2
        { u with fab := { u.fab with delay := some d, sync := none } }
      else u
    | none => u)
  generalize hv : arrivedUnits _ _ _ = v at hact
  have hfab : v.fab = { s.u.fab with ports := pt } := by rw [← hv]; rfl
  have hsync' : v.fab.sync = some (t1, t2, no) := by rw [hfab]; exact hsync
  have hgo : disciplined v = true ∧ le pkt 16 8 = v.fab.masterId ∧ le pkt 40 4 = no :=
    ⟨by rw [← hv]; exact hdisc, by rw [hfab]; exact hmaster, hno⟩
  simp only [hsync', if_pos hgo] at hact
  refine ⟨_, next_of_units (f := drespReceive rx pkt at_) hact, rfl, ?_, ?_, rfl, rfl⟩
  · dsimp only
    rw [hfab]
  · show v.out = _
    rw [← hv]
    rfl

/- TIME_LOST. -/
theorem timeLost_notes (s : State) (hdisc : disciplined s.u = true) (hnew : s.u.fab.lostNoted = false) :
    ∃ r, exec .timeLost s = .next r ∧ r.u.fab = { s.u.fab with lostNoted := true } ∧
      r.u.tick.slew = s.u.tick.slew ∧ r.u.prodN = (notice (dieKey 2 0) 0x0D04 0 [s.u.fab.lastNo] s.u).prodN := by
  have hgo : ¬ ((!disciplined s.u) = true ∨ s.u.fab.lostNoted = true) := by simp [hdisc, hnew]
  have hact : timeLost s.u = notice (dieKey 2 0) 0x0D04 0 [(advTo (s.u.fab.lastAt + 16000000) s.u).fab.lastNo] {
      advTo (s.u.fab.lastAt + 16000000) s.u with
        fab := { (advTo (s.u.fab.lastAt + 16000000) s.u).fab with lostNoted := true } } := if_neg hgo
  obtain ⟨n, pw, d, hadv⟩ := advTo_frame (s.u.fab.lastAt + 16000000) s.u
  rw [hadv] at hact
  have hkeep := noticeFrame_keeps (notice_frame (dieKey 2 0) 0x0D04 0 [s.u.fab.lastNo] { s.u with
    tick := { s.u.tick with time := n }, svc := { s.u.svc with poweredNs := pw }, cnt := { s.u.cnt with die := d }
    fab := { s.u.fab with lostNoted := true } })
  obtain ⟨htick, -, -, -, -, -, -, -, -, -, -, -, -, -, -, hfab⟩ := hkeep
  refine ⟨_, next_of_units hact, hfab, (congrArg Tick.slew htick :), ?_⟩
  exact (notice_prodN ..).trans (notice_prodN (dieKey 2 0) 0x0D04 0 [s.u.fab.lastNo] s.u).symm

/-- Settles O13: each packet by what it changes once it has arrived, its answer by the credits of its port. -/
theorem timeDiscipline : Obligations.TimeDiscipline :=
  ⟨syncSend_alone, syncSend_neighbour, syncReceive_steps, syncReceive_slews, dreqReceive_answers, drespReceive_fixes, timeLost_notes⟩

end Sys2Proof.Machine
end

section
/-! PROOFS. Phase marks and the stopping edge (02, R36, R54; 11, R312, R315; 15, R413). -/
namespace Sys2Proof.Machine

variable {s : State} {u v w : Units}

/- A mark at which nothing is due. -/
/-- The units as mark m is passed. -/
def marked (m : Nat) (u : Units) : Units :=
  let v := advTo (u.tick.edgeAt + markNs u m) u
  { v with tick := { v.tick with lastMark := m } }
theorem marked_frame (m : Nat) (u : Units) : ∃ n pw d, n = (advTo (u.tick.edgeAt + markNs u m) u).tick.time ∧ marked m u = { u with
    tick := { u.tick with time := n, lastMark := m }, svc := { u.svc with poweredNs := pw }, cnt := { u.cnt with die := d } } := by
  obtain ⟨n, pw, d, hadv⟩ := advTo_frame (u.tick.edgeAt + markNs u m) u
  exact ⟨n, pw, d, by rw [hadv], by rw [marked, hadv]⟩

theorem launchMark_none {m : Nat} (h : dueEntries u m = []) : launchMark m u = u := by
  unfold launchMark
  simp only [h]
  rfl
theorem launchDma_none {m : Nat} (h : dueEntries s.u m = []) : launchDma m s = s := by
  rw [launchDma, h]
  rfl
theorem retry_none {k : Nat} (h : (coreAt s.u k).stalled = none) : retry k s = s := by
  rw [retry, h]
theorem retryAll_none (h : ∀ k, (coreAt s.u k).stalled = none) : retryAll s = s :=
  foldl_keeps (fun t => t = s) _ _ s rfl fun t k ht => by
    subst ht
    exact retry_none (h k)

theorem marked_launches {m : Nat} (hdue : dueEntries s.u m = []) :
    launchDma m { s with u := launchMark m (marked m s.u) } = { s with u := marked m s.u } := by
  have hdue' : dueEntries (marked m s.u) m = [] := by
    obtain ⟨n, pw, d, -, hm⟩ := marked_frame m s.u
    rw [hm]
    exact hdue
  rw [launchMark_none hdue']
  exact launchDma_none hdue'
theorem phaseMark_two {io : MarkIo} (hnext : markNext s.u 2 = true) (hdue : dueEntries s.u 2 = []) (hcred : io.credits = []) :
    phaseMark 2 io s = retryAll { s with u := marked 2 s.u } := by
  have hgo : ¬ (!markNext s.u 2) = true := by simp [hnext]
  have hlaunch := marked_launches hdue
  unfold phaseMark
  simp only [if_neg hgo, hcred]
  exact congrArg retryAll hlaunch
theorem phaseMark_five {io : MarkIo} (hnext : markNext s.u 5 = true) (hdue : dueEntries s.u 5 = []) (hcred : io.credits = []) :
    phaseMark 5 io s = retryAll (guardMark io { s with u := marked 5 s.u }) := by
  have hgo : ¬ (!markNext s.u 5) = true := by simp [hnext]
  have hlaunch := marked_launches hdue
  unfold phaseMark
  simp only [if_neg hgo, hcred]
  exact congrArg (fun s => retryAll (guardMark io s)) hlaunch

theorem phaseMark_passes (s : State) (io : MarkIo) (hcred : io.credits = []) (hnext : markNext s.u 2 = true)
    (hdue : dueEntries s.u 2 = []) (hstall : ∀ k, (coreAt s.u k).stalled = none) :
    ∃ r, exec (.phaseMark 2 io) s = .next r ∧ r.u.tick.lastMark = 2 ∧
      (s.u.tick.time < s.u.tick.edgeAt + (s.u.tick.ingress * 1000 + s.u.tick.egress * 1000) →
        r.u.tick.time = (s.u.tick.edgeAt + (s.u.tick.ingress * 1000 + s.u.tick.egress * 1000)) % 2 ^ 64) ∧
      r = { s with u := { s.u with tick := { s.u.tick with time := r.u.tick.time, lastMark := 2 },
                                   svc := { s.u.svc with poweredNs := r.u.svc.poweredNs },
                                   cnt := { s.u.cnt with die := r.u.cnt.die } } } := by
  have hact := phaseMark_two hnext hdue hcred
  obtain ⟨n, pw, d, hn, hm⟩ := marked_frame 2 s.u
  rw [hm, retryAll_none (by exact hstall)] at hact
  exact ⟨_, congrArg Host.Outcome.next hact, rfl, fun hlt => hn.trans (advTo_time hlt), rfl⟩

/- The checkpoints of a guard phase (R312, R315). -/
/-- A role once it has committed the state x, its watchdog kicked at `time`; `bad`: with a CRC that fails when read back. -/
def checkpointed (bad : Bool) (tick time n : Nat) (x : Bytes) (r : Role) : Role :=
  let r := roleCommit bad tick n x r
  { r with kickAt := time, period := r.periodNext.getD r.period, periodNext := none }
theorem checkpointed_commits (tick time n : Nat) (x : Bytes) (a : Role) :
    let b := checkpointed false tick time n x a
    b.word = 1 - a.word ∧ (committed b).tick = tick ∧ (committed b).crc = crc32c (committed b).bytes ∧
      (if a.word = 0 then b.half0 = a.half0 else b.half1 = a.half1) ∧ b.commitAt = n ∧ b.kickAt = time ∧
      b.period = a.periodNext.getD a.period := by
  by_cases hw : a.word = 0
  · simp [checkpointed, roleCommit, committed, hw]
  · have hw' : 1 - a.word = 0 := by omega
    simp [checkpointed, roleCommit, committed, hw, hw']
theorem checkpointed_bad (tick time n : Nat) (x : Bytes) (a : Role) :
    let b := checkpointed true tick time n x a
    b.word = a.word ∧ committed b = committed a ∧ b.commitAt = a.commitAt := by
  by_cases hw : a.word = 0 <;> simp [checkpointed, roleCommit, committed, hw]

/-- What the checkpoints of a guard phase change: the roles, the draws and the die counters. -/
def CheckFrame (u v : Units) : Prop :=
  ∃ r x d, v = { u with fw := { u.fw with roles := r }, freeIx := x, cnt := { u.cnt with die := d } }
theorem CheckFrame.refl (u : Units) : CheckFrame u u := ⟨u.fw.roles, u.freeIx, u.cnt.die, rfl⟩
theorem CheckFrame.trans (h : CheckFrame u v) (h' : CheckFrame v w) : CheckFrame u w := by
  obtain ⟨r, x, d, rfl⟩ := h
  obtain ⟨r', x', d', rfl⟩ := h'
  exact ⟨r', x', d', rfl⟩
theorem checkpoint_eq (bad : Bool) (k : Nat) (u : Units) (h : (tgetD u.fw.roles k {}).state = 0) : ∃ d, checkpoint bad k u = { u with
    freeIx := u.freeIx + 1, cnt := { u.cnt with die := d }
    fw := { u.fw with roles := tset u.fw.roles k (checkpointed bad u.tick.number u.tick.time u.fw.commits
      (Config.roleState k u.freeIx) (tgetD u.fw.roles k {})) } } := by
  unfold checkpoint
  simp only [if_neg (not_not_intro h)]
  cases bad with
  | false => exact ⟨u.cnt.die, rfl⟩
  | true =>
    obtain ⟨d, hd⟩ := dieBump_frame (dieKey 3 ((tgetD u.fw.roles k {}).core / 6)) 0x305 1 u
    simp only [if_true, hd]
    exact ⟨d, rfl⟩
theorem checkpoint_frame (bad : Bool) (k : Nat) (u : Units) : CheckFrame u (checkpoint bad k u) := by
  by_cases h : (tgetD u.fw.roles k {}).state = 0
  · obtain ⟨d, hd⟩ := checkpoint_eq bad k u h
    rw [hd]
    exact ⟨_, _, _, rfl⟩
  · rw [checkpoint]
    simp only [if_pos h]
    exact .refl u
theorem checkpoint_other {j k : Nat} (bad : Bool) (u : Units) (hj : j ≠ k) :
    tgetD (checkpoint bad k u).fw.roles j {} = tgetD u.fw.roles j {} := by
  by_cases h : (tgetD u.fw.roles k {}).state = 0
  · obtain ⟨d, hd⟩ := checkpoint_eq bad k u h
    rw [hd]
    exact tgetD_tset_other _ _ _ hj
  · rw [checkpoint]
    simp only [if_pos h]

/-- The roles of a list, each checkpointed. -/
def checkpointAll (bad : Nat → Bool) (l : List Nat) (u : Units) : Units := forAll l (fun k u => checkpoint (bad k) k u) u
theorem checkpointAll_frame (bad : Nat → Bool) (l : List Nat) (u : Units) : CheckFrame u (checkpointAll bad l u) :=
  forAll_keeps (CheckFrame u) l _ u (.refl u) fun _ _ h => h.trans (checkpoint_frame ..)
theorem checkpointAll_other {bad : Nat → Bool} {l : List Nat} {j : Nat} (hj : j ∉ l) (u : Units) :
    tgetD (checkpointAll bad l u).fw.roles j {} = tgetD u.fw.roles j {} := by
  induction l generalizing u with
  | nil => rfl
  | cons k l ih =>
    obtain ⟨hk, hl⟩ := not_or.mp (fun h => hj (List.mem_cons.mpr h))
    exact (ih hl _).trans (checkpoint_other _ _ hk)
/-- A role of the list that runs commits once, with what the phase found of it. -/
theorem checkpointAll_role {bad : Nat → Bool} {l : List Nat} {k : Nat} (hk : k ∈ l) (hl : l.Nodup) (u : Units)
    (h : (tgetD u.fw.roles k {}).state = 0) : ∃ x, tgetD (checkpointAll bad l u).fw.roles k {} =
      checkpointed (bad k) u.tick.number u.tick.time u.fw.commits x (tgetD u.fw.roles k {}) := by
  induction l generalizing u with
  | nil => cases hk
  | cons j l ih =>
    obtain ⟨hj, hl⟩ := List.nodup_cons.mp hl
    obtain ⟨r, x, d, hframe⟩ := checkpoint_frame (bad j) j u
    rcases List.mem_cons.mp hk with rfl | hk
    · obtain ⟨d', hd'⟩ := checkpoint_eq (bad k) k u h
      refine ⟨Config.roleState k u.freeIx, (checkpointAll_other hj _).trans ?_⟩
      exact (congrArg (fun v : Units => tgetD v.fw.roles k {}) hd').trans (tgetD_tset_self ..)
    · have hne : k ≠ j := fun he => hj (he ▸ hk)
      have hsame := checkpoint_other (bad j) u hne
      obtain ⟨y, hy⟩ := ih hk hl (checkpoint (bad j) j u) (by rw [hsame]; exact h)
      refine ⟨y, hy.trans ?_⟩
      rw [hsame, hframe]

theorem tkeys_nodup {α : Type} {t : Tbl α} (h : Tsorted t = true) : (tkeys t).Nodup :=
  List.pairwise_map.mpr ((tsorted_pairwise h).imp fun hlt => Nat.ne_of_lt hlt)
theorem handOff_roles (u : Units) : ∃ h, handOff u = { u with fw := { u.fw with hand := h } } := by
  unfold handOff
  split
  · exact ⟨u.fw.hand, rfl⟩
  · split
    · exact ⟨_, rfl⟩
    · exact ⟨u.fw.hand, rfl⟩

/-- The guard phase without a role that hangs and without spill words to scrub. -/
theorem guardMark_eq {io : MarkIo} (hspill : io.spill = []) (hhung : io.hung = []) (s : State) : ∃ h,
    guardMark io s =
      let v := checkpointAll (fun k => io.ckptBad.any (fun r => r.val == k)) (tkeys s.u.fw.roles)
        { s.u with fw := { s.u.fw with commits := s.u.fw.commits + 1 } }
      { s with u := { v with fw := { v.fw with hand := h } } } := by
  have hlive : (tkeys s.u.fw.roles).filter (fun k => !io.hung.any (fun r => r.val == k)) = tkeys s.u.fw.roles := by simp [hhung]
  obtain ⟨h, hh⟩ := handOff_roles (checkpoints io s.u)
  refine ⟨h, ?_⟩
  rw [guardMark, hspill]
  simp only [List.foldl_nil, hh]
  rw [checkpoints, hlive]
  rfl

/-- The guard phase of a tick and the checkpoint that a running role makes in it. -/
theorem phaseMark_guards (s : State) (role : Nat) (io : MarkIo) (hspill : io.spill = []) (hhung : io.hung = [])
    (hcred : io.credits = []) (hnext : markNext s.u 5 = true) (hdue : dueEntries s.u 5 = [])
    (hstall : ∀ k, (coreAt s.u k).stalled = none) (hrole : tget s.u.fw.roles role ≠ none)
    (hst : (tgetD s.u.fw.roles role {}).state = 0) (hsort : Tsorted s.u.fw.roles = true) :
    ∃ r n x, phaseMark 5 io s = r ∧ r.u.tick.lastMark = 5 ∧ r.u.tick.time = n ∧
      tgetD r.u.fw.roles role {} = checkpointed (io.ckptBad.any (fun r => r.val == role)) s.u.tick.number n (s.u.fw.commits + 1) x
        (tgetD s.u.fw.roles role {}) ∧
      r.q = s.q ∧ r.m = s.m ∧ r.u.str = s.u.str ∧ r.u.job = s.u.job ∧ r.u.core = s.u.core := by
  have hact := phaseMark_five hnext hdue hcred
  obtain ⟨n, pw, d, -, hm⟩ := marked_frame 5 s.u
  obtain ⟨h, hguard⟩ := guardMark_eq hspill hhung { s with u := marked 5 s.u }
  rw [hguard] at hact
  generalize hv : marked 5 s.u = v at hact hm
  have hroles : v.fw = s.u.fw := by rw [hm]
  obtain ⟨a, ha⟩ := Option.ne_none_iff_exists'.mp hrole
  have hmem : role ∈ tkeys v.fw.roles := by
    rw [hroles]
    exact List.mem_map.mpr ⟨_, tget_mem ha, rfl⟩
  obtain ⟨x, hx⟩ := checkpointAll_role (bad := fun k => io.ckptBad.any (fun r => r.val == k)) hmem
    (by rw [hroles]; exact tkeys_nodup hsort) { v with fw := { v.fw with commits := v.fw.commits + 1 } } (by rw [hroles]; exact hst)
  obtain ⟨rl, fx, dc, hframe⟩ := checkpointAll_frame (fun k => io.ckptBad.any (fun r => r.val == k)) (tkeys v.fw.roles)
    { v with fw := { v.fw with commits := v.fw.commits + 1 } }
  dsimp only at hact
  generalize hw : checkpointAll (fun k => io.ckptBad.any (fun r => r.val == k)) (tkeys v.fw.roles)
    { v with fw := { v.fw with commits := v.fw.commits + 1 } } = w at hact hx hframe
  have hcore : w.core = s.u.core := by rw [hframe, hm]
  rw [retryAll_none (fun k => by
    show (tgetD w.core k {}).stalled = none
    rw [hcore]
    exact hstall k)] at hact
  have htick : w.tick = { s.u.tick with time := n, lastMark := 5 } := by rw [hframe, hm]
  refine ⟨_, n, x, hact, (congrArg Tick.lastMark htick :), (congrArg Tick.time htick :), hx.trans ?_, rfl, rfl, ?_, ?_, hcore⟩
  · rw [hm]
  · show w.str = _
    rw [hframe, hm]
  · show w.job = _
    rw [hframe, hm]

theorem phaseMark_waits {m : Nat} {io : MarkIo} (h : markNext s.u m = false) : phaseMark m io s = s :=
  if_pos (by rw [h]; rfl)

/- The stopping edge (R54, R413). -/
/-- The units once their tick is stopped; `forced`: by a forced stop, which also takes every context out of service. -/
def stoppedUnits (forced : Bool) (u : Units) : Units :=
  let v := { u with tick := tickStopped u.tick }
  if forced then forcedOut { v with tick := { v.tick with en := false } } else v
/-- The edge at which the tick stops, with no context in service. -/
theorem tickStopEdge_eq {t k : Nat} (hdue : (edgeDue s.u <|> holdoverDue s.u) = some (t, k))
    (hgo : s.u.tick.stopReq = true ∨ s.u.tick.forced = true) (hnone : inService s.u = []) :
    ∃ r : State, EdgeFrame { s.u with
        tick := edgeTick t k { s.u with tick := { s.u.tick with st := .starting, armSample := none } }, fw := r.u.fw } r.u ∧
      r.q = s.q ∧ r.pending = s.pending ∧ tickStopEdge s = { r with u := stoppedUnits s.u.tick.forced r.u } := by
  have hgo' : ¬ ((!s.u.tick.stopReq) = true ∧ (!s.u.tick.forced) = true) := by
    rcases hgo with h | h <;> simp [h]
  have hwork := edge_work t k { s with u := { s.u with tick := { s.u.tick with st := .starting, armSample := none } } }
  unfold tickStopEdge
  simp only [hdue, if_neg hgo', hnone, List.foldl_nil]
  generalize edge t k _ = r at hwork ⊢
  obtain ⟨⟨htick, -, hcore, hstr, hjob, hctx, hslot, hen⟩, hq, hp, -⟩ := hwork
  exact ⟨r, ⟨htick, rfl, hcore, hstr, hjob, hctx, hslot, hen⟩, hq, hp, rfl⟩
theorem edgeTick_number (t k : Nat) (u : Units) : (edgeTick t k u).number = k % 2 ^ 64 := by
  obtain ⟨st, cur, next, c, total, first, h, hkeep⟩ := tableTick_keeps k (tickBegun t k u)
  exact (congrArg Tick.number hkeep :)

theorem tickStopEdge_stops (s : State) (t k : Nat) (hdue : (edgeDue s.u <|> holdoverDue s.u) = some (t, k))
    (hstop : s.u.tick.stopReq = true) (hforced : s.u.tick.forced = false) (hnone : inService s.u = []) :
    ∃ r, exec .tickStopEdge s = .next r ∧ r.u.tick.st = .stopped ∧ r.u.tick.stopReq = false ∧ r.u.tick.anchor = none ∧
      r.u.tick.armed = [] ∧ r.u.tick.next = [] ∧ r.u.tick.cur = [] ∧ r.u.tick.number = k % 2 ^ 64 ∧
      r.u.blk.en = s.u.blk.en ∧ r.q = s.q ∧ r.pending = s.pending ∧ r.u.str = s.u.str ∧ r.u.job = s.u.job := by
  obtain ⟨r, ⟨htick, -, -, hstr, hjob, -, -, hen⟩, hq, hp, hact⟩ := tickStopEdge_eq hdue (.inl hstop) hnone
  rw [hforced] at hact
  exact ⟨_, congrArg Host.Outcome.next hact, rfl, rfl, rfl, rfl, rfl, rfl,
    (congrArg Tick.number htick).trans (edgeTick_number ..), hen, hq, hp, hstr, hjob⟩

theorem forcedOut_keeps (u : Units) :
    (forcedOut u).tick = u.tick ∧ (forcedOut u).blk = { u.blk with en := false, stopping := false } := by
  unfold forcedOut
  obtain ⟨ht, -, -, -, -, -, -, -, -, -, -, hb, -⟩ := noticeFrame_keeps (notice_frame (dieKey 3 0) 0x0F08 0 _ _)
  exact ⟨ht, hb⟩

theorem tickStopEdge_forced (s : State) (t k : Nat) (hdue : (edgeDue s.u <|> holdoverDue s.u) = some (t, k))
    (hforced : s.u.tick.forced = true) (hnone : inService s.u = []) :
    ∃ r, exec .tickStopEdge s = .next r ∧ r.u.tick.st = .stopped ∧ r.u.tick.en = false ∧ r.u.tick.forced = false ∧
      r.u.blk.en = false ∧ r.u.blk.stopping = false ∧ r.u.tick.number = k % 2 ^ 64 ∧ r.q = s.q := by
  obtain ⟨r, ⟨htick, -⟩, hq, -, hact⟩ := tickStopEdge_eq hdue (.inr hforced) hnone
  rw [hforced] at hact
  obtain ⟨ht, hb⟩ := forcedOut_keeps { r.u with tick := { tickStopped r.u.tick with en := false } }
  exact ⟨_, congrArg Host.Outcome.next hact, (congrArg Tick.st ht :), (congrArg Tick.en ht :), (congrArg Tick.forced ht :),
    (congrArg Blk.en hb :), (congrArg Blk.stopping hb :),
    (congrArg Tick.number ht).trans ((congrArg Tick.number htick).trans (edgeTick_number ..)), hq⟩

theorem tickStopEdge_waits (hstop : s.u.tick.stopReq = false) (hforced : s.u.tick.forced = false) : tickStopEdge s = s := by
  unfold tickStopEdge
  split
  · rfl
  · exact if_pos ⟨by rw [hstop]; rfl, by rw [hforced]; rfl⟩

/-- Settles O14: marks M2 and M5 where nothing is due, the checkpoint of a role in its turn among all, the stopping edge by what
an edge's work keeps. -/
theorem phaseMarksAndTheStoppingEdge : Obligations.PhaseMarksAndTheStoppingEdge := by
  refine ⟨⟨phaseMark_passes, ?commits, ?bad, fun s m io h => congrArg Host.Outcome.next (phaseMark_waits h)⟩,
    tickStopEdge_stops, tickStopEdge_forced, fun s h h' => congrArg Host.Outcome.next (tickStopEdge_waits h h')⟩
  case commits =>
    intro s role hnext hdue hstall hrole hst hsort
    obtain ⟨r, n, x, hr, hmark, htime, hx, hq, hm, hstr, hjob, hcore⟩ :=
      phaseMark_guards s role {} rfl rfl rfl hnext hdue hstall hrole hst hsort
    obtain ⟨hword, htick, hcrc, hhalf, hat, hkick, hperiod⟩ := checkpointed_commits s.u.tick.number n (s.u.fw.commits + 1) x
      (tgetD s.u.fw.roles role {})
    replace hx : tgetD r.u.fw.roles role {} = checkpointed false s.u.tick.number n (s.u.fw.commits + 1) x
      (tgetD s.u.fw.roles role {}) := hx
    rw [← hx] at hword htick hcrc hhalf hat hkick hperiod
    exact ⟨r, congrArg Host.Outcome.next hr, hmark, ⟨hword, htick, hcrc, hhalf, hat, hkick.trans htime.symm⟩, hperiod, hq, hm, hstr,
      hjob, hcore⟩
  case bad =>
    intro s role hnext hdue hstall hrole hst hsort
    obtain ⟨r, n, x, hr, -, -, hx, -⟩ := phaseMark_guards s role { ckptBad := [role] } rfl rfl rfl hnext hdue hstall hrole hst hsort
    have hbad : [role].any (fun r => r.val == role.val) = true := by simp
    rw [hbad] at hx
    refine ⟨r, congrArg Host.Outcome.next hr, ?_⟩
    rw [hx]
    exact checkpointed_bad ..

end Sys2Proof.Machine
end
